-- ==== Sys2Proof/Word.lean ====
section
/-! DEFINITION. The word types of the module and their plainest arithmetic. -/

namespace Sys2Proof

/-- A register or FP32 word (R7: registers are 32 bits wide). -/
abbrev Word := BitVec 32
/-- A byte of memory. -/
abbrev Byte := BitVec 8
/-- An address word (R42), a doorbell (R35) or a G64 word (R93). -/
abbrev DWord := BitVec 64
/-- A 64-byte descriptor (R38). -/
abbrev Desc := BitVec 512

end Sys2Proof
end

