-- ==== Sys2Proof/Syntax.lean ====
section
/-! DEFINITION. The commands of the module: one constructor for each row of spec/opcode_table.json, with the
operands that name what a step acts on and what comes from outside the module. -/

namespace Sys2Proof

/-- Who asks for a set-up access (R435). -/
inductive Requester where
  | smFirmware
  | hostMachine (hart : Nat)
  | hostUser (hart : Nat)
  | dieCore (die : Nat)
  | extHost (io : Nat)
  deriving DecidableEq, Repr

/-- What the error-correcting code of a memory finds on the line it reads (R235, R244). -/
inductive Ecc where
  | clean
  | corrected
  | uncorrectable
  deriving DecidableEq, Repr

/-- What the code of one 32-bit lane value finds as the strip numbered `strip` reads it (R128), for the array the pass of that
number or, counted on from the passes, the drain of a block: row 0 to 1023 is a row of TB0-TB3,
1024 to 1055 is V0-V31 and 1056 is H. -/
structure LaneEcc where
  strip : Nat
  row   : Nat
  lane  : Nat
  ecc   : Ecc
  deriving DecidableEq, Repr

/-- What a host core does with an address (R347, R357, R467). -/
inductive CoreAccess where
  | load
  | store (data : List Byte)
  | fetch
  | cboZero
  deriving DecidableEq, Repr

/-- The atomic operations of R256: RVA23 AMOs, LR/SC and compare-and-swap. -/
inductive AtomicOp where
  | amoswap | amoadd | amoxor | amoand | amoor | amomin | amomax | amominu | amomaxu
  | lr | sc
  | cas (expected : Nat)
  deriving DecidableEq, Repr

/-- One access to a mailbox word (R257, R259). -/
inductive MbKind where
  | read | write | set | clear
  deriving DecidableEq, Repr

structure MbAccess where
  word  : Nat
  kind  : MbKind
  value : Word
  deriving DecidableEq, Repr

/-- A fabric frame as received on a port: the 32-byte header of R319, the payload blocks and the trailer of R318,
and whether it touched an uncorrectable FEC codeword (R321). -/
structure Frame where
  hdr     : BitVec 256
  payload : List Byte
  crc     : Word
  mask    : Word
  fecBad  : Bool
  deriving DecidableEq, Repr

/-- What a PCIe device or the external host asks for (R364, R365). -/
inductive BusAccess where
  | read (len : Nat)
  | write (data : List Byte)
  deriving DecidableEq, Repr

/-- The outcome of a pair's lane tests (R379): the lanes that fail at the named end and whether its CK is good, and the same of the
other end, which reports its map whole where it has no course registers. -/
structure LaneResult where
  newBad  : BitVec 18
  ckOk    : Bool
  peerMap : BitVec 18
  peerOk  : Bool
  deriving DecidableEq, Repr

/-- What the training of a pair finds when firmware enables it at a start or the enable of a domain (R379): none for no training
pattern within 10 ms. -/
structure PairTest where
  die    : Nat
  pair   : Nat
  result : Option LaneResult
  deriving DecidableEq, Repr

/-- The readings of a 10 microsecond sample (R400): watts at the busbar, volts in units of 10 mV, whether a
power stage reports a fault. -/
structure PowerReading where
  watts : Nat
  volt  : Nat
  stageFault : Bool
  deriving DecidableEq, Repr

/-- The readings of a 100 microsecond temperature report (R415): degrees Celsius by die index for the dies, by
stack number for the stacks, and the coolant. -/
structure ThermalReading where
  dies   : List (Nat × Int)
  hbm    : List (Nat × Int)
  inlet  : Int
  outlet : Int
  deriving DecidableEq, Repr

/-- What the start of R424 finds outside the model's own state: the result of the ROM self-test, the 16 KiB read from the PUF,
the counter's authentication, the dies that fail to start and what the pairs' training finds (R379, R425-R427). -/
structure StartEnv where
  romOk     : Bool
  puf       : List Byte
  counterOk : Bool
  failed    : List Nat
  pairs     : List PairTest
  deriving DecidableEq, Repr

/-- The two paths to the SPDM responder (R433). -/
inductive SpdmPath where
  | mctp
  | doe (io : Nat)
  deriving DecidableEq, Repr

/-- What a module of a gang's span receives when the originating module fans a descriptor out (R60): the
descriptor with the values its home die attached (R134, R291, R295). -/
structure GangCopy where
  origin : Nat
  gang   : Nat
  desc   : Desc
  step   : BitVec 48
  lenSrc : Bool
  seed   : Word
  stream : Word
  mover  : BitVec 2
  ref    : Nat
  /-- The ring of the origin, whose order holds at the receiving units too (R43). -/
  ring   : Nat
  deriving DecidableEq, Repr

/-- What another module of the span reports for one of its members (R63). -/
structure RemoteReport where
  status   : BitVec 8
  detail   : Word
  sat      : Nat
  runMax   : Option Word
  deriving DecidableEq, Repr

/-- A command of the module: one constructor for each row of spec/opcode_table.json. `fid` names a fetched
descriptor, `ring` a module ring number (R28), `die` a die index (R11), `port` a fabric port (R316), `io` an I/O die 0-9,
`stack` a stack 0-39, `home` the die index of a memory controller (0-39 for HBM, 80-87 for host memory). -/
inductive Instr where
  -- register and ring commands
  | registerWrite (req : Requester) (addr : Nat) (value : Word)
  | doorbell (die : Nat) (wide : Bool) (value : DWord)
  | ringEnable (ring : Nat)
  | ringEnablingDone (ring : Nat)
  | ringDisable (ring : Nat)
  | ringDisablingDone (ring : Nat)
  | ringResume (ring : Nat)
  | cplRdWrite (ring : Nat) (value : Word)
  | descriptorFetch (ring : Nat)
  | descriptorStart (fid : Nat)
  | nop (fid : Nat)
  | descriptorComplete (fid : Nat)
  | completionWriteFault (fid : Nat)
  | fenceSignal (die ctr : Nat)
  | fenceWrite (die ctr : Nat) (value : Word)
  -- gangs
  | gangFanout (fid : Nat)
  | gangMemberReport (gang member : Nat) (remote : Option RemoteReport)
  | gangEntryValidate (die slot : Nat) (value : Word)
  -- running-maximum slots
  | rmClose (die slot : Nat)
  | rmRevert (die slot : Nat)
  -- matrix arrays
  | matmul (fid : Nat) (errs : List LaneEcc := [])
  | matmulMxfp4 (fid : Nat) (errs : List LaneEcc := [])
  | elementwiseFma (fid : Nat)
  | partitionFault (fid : Nat) (beat : Nat := 1)
  | enginePairEnable (die ep : Nat)
  | enginePairEnablingDone (die ep : Nat)
  | enginePairDisable (die ep : Nat)
  | enginePairDisablingDone (die ep : Nat)
  -- vector engines
  | fusedChain (fid : Nat) (errs : List LaneEcc := [])
  | fallbackProgram (fid : Nat) (errs : List LaneEcc := [])
  | veAccessFault (fid : Nat)
  -- soft maxima, normalisations and long sequences
  | smrow (fid : Nat)
  | smmerge (fid : Nat)
  | norm (fid : Nat)
  | xent (fid : Nat)
  | attstep (fid : Nat) (errs : List LaneEcc := [])
  -- convolution and video
  | conv (fid : Nat) (errs : List LaneEcc := [])
  | resample (fid : Nat)
  | regroup (fid : Nat)
  | decode (fid : Nat) (scratch : Option Nat := none)
  -- HBM and working memory
  | hbmRequest (addr : Nat) (access : BusAccess) (poisoned : Bool) (ecc : Ecc)
  | msopRequest (addr : Nat) (op : BitVec 8) (mask : BitVec 32) (data : List Byte) (poisoned : Bool) (ecc : Ecc)
  | hbmRefresh (home : Nat)
  | hbmScrubStep (home : Nat) (ecc : Ecc)
  | hbmMaintEnter (stack : Nat)
  | hbmMaintDrained (stack : Nat)
  | hbmMaintExit (stack : Nat)
  | w1500Go (stack : Nat)
  | w1500ShiftDone (stack : Nat) (captured : BitVec 1024)
  | pprGo (stack : Nat) (hard : Bool)
  | pprDone (stack : Nat) (result : BitVec 2)
  | wmAccess (die offset : Nat) (access : BusAccess) (poisoned : Bool) (ecc : Ecc) (next : Ecc := .clean)
  | wmInit (die : Nat)
  | wmInitDone (die : Nat)
  -- movers
  | move (fid : Nat)
  | msop (fid : Nat)
  | moverFault (fid : Nat)
  | moverEnable (die mover : Nat)
  | moverEnablingDone (die mover : Nat)
  | moverDisable (die mover : Nat)
  | moverDisablingDone (die mover : Nat)
  -- host cores and the mailbox
  | hostCoreAccess (hart : Nat) (machine uncached : Bool) (addr size : Nat) (access : CoreAccess) (ecc : Ecc)
  | hostAtomic (hart : Nat) (addr size : Nat) (op : AtomicOp) (value : DWord) (ecc : Ecc)
  | lrGrantExpiry (hart : Nat)
  | mailboxInternalWrite (req : Requester) (word : Nat) (value : Word) (ext : Option MbAccess := none)
  | mailboxSetAliasWrite (req : Requester) (word : Nat) (value : Word) (ext : Option MbAccess := none)
  | mailboxClearAliasWrite (req : Requester) (word : Nat) (value : Word) (ext : Option MbAccess := none)
  | mailboxRead (index count : Nat) (intl : List (Nat × Requester × MbAccess)) (bad : List Nat)
  | mailboxWrite (index : Nat) (data : List Byte) (intl : List (Nat × Requester × MbAccess))
  | mailboxSet (index : Nat) (data : List Byte) (intl : List (Nat × Requester × MbAccess))
  | mailboxClear (index : Nat) (data : List Byte) (intl : List (Nat × Requester × MbAccess))
  | mbClaim (claim : Bool)
  | i3cTransferEnd
  | claimTimeout
  -- the parameter update
  | gnorm (fid : Nat)
  | update (fid : Nat)
  | wcopy (fid : Nat)
  | slotload (fid : Nat)
  | paramGroupValidate (die slot : Nat) (value : Word)
  -- the training step
  | dcAbortWrite (die : Nat) (value : Word)
  | spill (fid : Nat)
  | slotRecall (fid : Nat)
  | commit (fid : Nat)
  | commitTimeout (fid : Nat)
  | slotimg (fid : Nat)
  -- the fabric
  | portEnable (port : Nat)
  | portDisable (port : Nat)
  | portRetrain (port : Nat)
  | portTrained (port : Nat) (lanes : BitVec 4) (reversed : Bool)
  | linkRepeat (port : Nat)
  | link (port : Nat) (f : Frame)
  | credit (port : Nat) (f : Frame)
  | frameForward (port : Nat) (f : Frame)
  | write (port : Nat) (f : Frame)
  | msopFrame (port : Nat) (f : Frame)
  | read (port : Nat) (f : Frame)
  | signal (port : Nat) (f : Frame)
  | sync (port : Nat) (f : Frame)
  | arrive (port : Nat) (f : Frame)
  | red (port : Nat) (f : Frame)
  | res (port : Nat) (f : Frame)
  | ack (port : Nat) (f : Frame)
  | nak (port : Nat) (f : Frame)
  | readRsp (port : Nat) (f : Frame)
  | fault (port : Nat) (f : Frame)
  | grant (port : Nat) (f : Frame)
  | syncAck (port : Nat) (f : Frame)
  | capo (port : Nat) (f : Frame)
  | shift (port : Nat) (f : Frame)
  | ackTimer (flow : Nat)
  | retransmitTimeout (flow : Nat)
  | flowEnable (flow : Nat)
  | flowSyncRetry (flow : Nat)
  | flowDisable (flow : Nat)
  | flowDisablingDone (flow : Nat)
  | put (fid : Nat)
  | gred (fid : Nat)
  | grantRepeat (fid : Nat)
  | capoSend (group : Nat)
  | capoEntryExpiry (group sender : Nat)
  | shiftOffer (group : Nat)
  | shiftLeaseExpiry (group : Nat) (sender : Nat) (seq : BitVec 24)
  -- interrupts and coherence
  | interruptMessage (srcDie : Nat) (target : BitVec 24)
  | imsicStore (req : Requester) (hostDie offset : Nat) (value : Word)
  | snpShr (agent line : Nat)
  | snpInv (agent line : Nat)
  | snpOwn (agent line : Nat)
  | snpGfl (agent granule : Nat)
  | biasflip (fid : Nat)
  | hfill (fid : Nat)
  | biasInit (home : Nat)
  | biasInitDone (home : Nat)
  -- PCIe and CXL
  | pcieModeWrite (io : Nat) (mode : BitVec 2)
  | pcieOutboundAccess (req : Requester) (io offset : Nat) (access : BusAccess)
  | pcieCompletionTimeout (io tag : Nat)
  | pcieInboundRequest (io addr : Nat) (access : BusAccess) (tph : Option (BitVec 16))
  | pcieMsiWrite (io addr : Nat) (data : Word)
  | cxlDecoderCommit (io : Nat)
  | bisnp (io line : Nat)
  | bisnpTimeout (io line : Nat)
  | cxlLoss (io : Nat)
  | cxlWalkDone (io : Nat)
  | cxlRearm (io : Nat)
  | perst (io : Nat)
  -- courses, clocks and dies
  | coursePairEnable (die pair : Nat)
  | courseTrainingTimeout (die pair : Nat)
  | courseEnablingDone (die pair : Nat) (r : LaneResult)
  | courseFlitReplay (die pair : Nat) (flit : Nat)
  | courseRetrain (die pair : Nat)
  | courseRetrainDone (die pair : Nat) (r : LaneResult)
  | coursePairDisable (die pair : Nat)
  | courseDisablingDone (die pair : Nat)
  | refSourceLost (die : Nat) (secondary : Bool) (both : Bool := false)
  | refPrimaryReturn (die : Nat)
  | cpRefWrite (die : Nat) (value : Word) (primQ secQ : Bool)
  | refclkCheck (bad : Bool)
  | refclkRelock
  | tdStart
  | dieClockLost (die : Nat)
  | dieLossAnswer (die : Nat)
  | dieReset (die : Nat)
  | dieReadmit (die : Nat)
  | dieReadmitDone (die : Nat) (ok : Bool)
  -- power
  | lehrBinStart
  | powerSample (r : PowerReading)
  | opDividerStep (die : Nat)
  | voltageSlewDone (die : Nat)
  | droopDetect (die : Nat)
  | droopEnd (die : Nat)
  | longDroop (die : Nat)
  | thermalSample (r : ThermalReading)
  | groupEntryValidate (group : Nat) (value : Word)
  | domainEnable (die : Nat)
  | domainEnablingDone (die : Nat) (tests : List PairTest := [])
  | domainDisable (die : Nat)
  | domainDisablingDone (die : Nat)
  -- pins and start
  | pwrEnHigh (volt : Nat)
  | pwrEnLow (volts : List Nat := [])
  | moduleStart (env : StartEnv)
  | modResetAssert
  | modResetRelease
  | modResetHeld
  | throttleNChange (active : Bool)
  | throttleIntervalEnd (reset : Bool := false)
  | throttleStuck
  | pwAlertClear (value : Word)
  -- the management bus
  | readStatusBlock
  | clearAlerts (value : Word) (bytes : Nat := 4)
  | i3cTransferTimeout
  | setdasa (mctp : Bool) (addr : BitVec 7) (dest : Option (BitVec 7) := none)
  | entdaa (mctp : Bool) (addr : BitVec 7)
  | rstdaa
  | getpid (mctp : Bool)
  | getbcr (mctp : Bool)
  | getdcr (mctp : Bool)
  | getmxds (mctp : Bool)
  | enec (events : Byte) (target : Option Bool := none)
  | disec (events : Byte) (target : Option Bool := none)
  -- attestation
  | getVersion (path : SpdmPath) (busy : Bool := false)
  | negotiateAlgorithms (path : SpdmPath) (extAsym : Bool) (busy : Bool := false)
  | getCertificate (path : SpdmPath) (slot offset length : Nat) (busy : Bool := false)
  | challenge (path : SpdmPath) (slot : Nat) (nonce : BitVec 256) (busy : Bool := false)
  | getMeasurements (path : SpdmPath) (index : Nat) (nonce : BitVec 256) (busy : Bool := false)
  -- boot, journal and image update
  | smRbCommit
  | fwupGo
  | fwupDone (eraseOk writeOk : Bool)
  | setupAclWrite (req : Requester) (value : Word)
  | jrWrite
  | jrRead
  | jrDelete
  | compactionDone
  | culletEraseDone
  -- JTAG
  | trstN
  | extest (cells : BitVec 13)
  | idcode
  | samplePreload (cells : BitVec 13)
  | highz
  | bypass (code : Byte)
  -- the remaining events
  | portLinkDown (port : Nat)
  | tdAliveLost
  | cxlMemRequest (io addr : Nat) (access : BusAccess) (exclusive : Bool)
  | cxlBar0Access (io offset : Nat) (access : BusAccess)
  | bisnpResponse (io line : Nat) (data : Option (List Byte))
  | pcieLinkUp (io : Nat) (width speed : BitVec 3)
  | pcieLinkDown (io : Nat)
  | pcieCompletion (io tag : Nat) (data : List Byte)
  | mctpControlMessage (data : List Byte)
  | getCapabilities (path : SpdmPath) (busy : Bool := false)
  | counterWriteDone
  | jrOpDone (flashOk : Bool)
  | mbxBusyPulseEnd
  | stimecmpExpiry (hart : Nat) (cmp : Option DWord := none)
  | remoteGangDescriptor (c : GangCopy)
  | i3cUnknownCommand (first : Option Byte) (reads : Nat)
  deriving DecidableEq, Repr

end Sys2Proof
end

