-- ==== Sys2Proof/Config.lean ====
section
/-! DEFINITION. What the spec leaves open or places outside itself: uninterpreted constants, so that no proof can use a
value of one (assumption log, entry 1 and the entries named beside each). -/

namespace Sys2Proof

/-- A picture a video decoder outputs, as HEVC and AV1 define its samples (R219, R227): the decoded size, the window of it that is
sampled (the conformance window of HEVC; all of it in AV1), the bit depth, the samples row by row, and the code points of the
bitstream that R222 and R223 use. -/
structure VideoFrame where
  picH     : Nat
  picW     : Nat
  top      : Nat
  left     : Nat
  h        : Nat
  w        : Nat
  bits     : Nat
  mono     : Bool
  /-- PicOutputFlag of HEVC; show_frame or show_existing_frame of AV1. -/
  shown    : Bool
  luma     : List Nat
  cb       : List Nat
  cr       : List Nat
  /-- HEVC chroma_sample_loc_type_top_field; AV1 gives 2 for CSP_COLOCATED. -/
  loc      : Option Nat
  matrix   : Option Nat
  full     : Option Bool
  deriving DecidableEq, Repr, Inhabited

/-- A coded picture of a bitstream in decoding order, with what the standard's syntax and decoding process say of it (R218, R219,
R229). -/
structure VideoUnit where
  /-- The byte offset of its NAL unit or OBU. -/
  pos       : Nat
  /-- The bytes of the segment read once it is decoded. -/
  fin       : Nat
  /-- nuh_layer_id of HEVC; the operating point an OBU belongs to in AV1. -/
  layer     : Nat
  /-- An IRAP picture, or a temporal unit with a sequence header and a shown key frame. -/
  entry     : Bool
  rasl      : Bool
  profile   : Nat
  /-- Ten times the level. -/
  level     : Nat
  /-- chroma_format_idc: 0 monochrome, 1 4:2:0. -/
  chroma    : Nat
  bits      : Nat
  /-- It uses a tool outside the supported profiles, such as large-scale tiles. -/
  oddTool   : Bool
  w         : Nat
  h         : Nat
  syntaxOk  : Bool
  refsOk    : Bool
  /-- The pictures its decoding lets the output process put out, in order. -/
  outs      : List VideoFrame
  deriving DecidableEq, Repr, Inhabited

namespace Config

/-- A value the spec leaves open, the n-th one met (entry 1). -/
opaque freeWord : Nat → Word
opaque freeByte : Nat → Byte
/-- An open count, such as how far an engine has run past a faulting access (R169, R249; entry 1). -/
opaque freeCount : Nat → Nat
/-- The fault-log sequence number of the n-th entry of a die's log: the log's format is not given (R53; entry 16). -/
opaque faultSeq : Nat → Nat → Word
/-- Report space of a home die beyond what the largest gang needs (R64; entry 121). -/
opaque reportExtra : Nat → Nat

/-- The code a home takes for an address from a poisoned line of its bias table (R356 states none; entry 1). -/
opaque poisonedBias : Nat → Nat
/-- The fuzzy extractor of R427, whose code the spec does not give (entry 21): the PUF's bytes that the helper data were made for, the
seed they stand for, and what more wrong bits than it corrects yield. -/
opaque pufOf : List Byte → List Byte
opaque pufSeed : List Byte → BitVec 256
opaque pufBeyond : List Byte → List Byte → Option (BitVec 256)
/-- What a signature of R434 covers beside what the spec names: the part of the alias certificate that is signed, for a public key, the
certificate from it and its signature, and the message that SPDM has a responder sign for a response (entry 21). -/
opaque aliasTbs : List Byte → List Byte
opaque aliasCert : List Byte → List Byte → List Byte
opaque spdmMessage : List Byte → List Byte
/-- What SM's boot ROM holds: its own digest and the digests of two signing keys (R429, R434; entry 21). -/
opaque romDigest : List Byte
opaque romKeys : Bool → List Byte
/-- What the two I3C targets report of themselves (R454 gives no values; entry 1): the provisional ID, the DCR, the open bits of
the BCR, and the maximum data speed, by whether it is the MCTP target. -/
opaque i3cPid : Bool → List Byte
opaque i3cDcr : Bool → Byte
opaque i3cBcr : Bool → Byte
opaque i3cMxds : Bool → List Byte

/-- The coordinate a NaN is limited to (R216 states none; entry 1). -/
opaque clampNaN : Nat → Nat
/-- The syntax and the decoding processes of ITU-T H.265 and AV1, which the spec names and does not restate (R227; entry 18): the
coded pictures of a sequence of NAL units or OBUs, each with its byte offset, by the codec, format and grain bits of the parameter
record. -/
opaque video : Nat → List (Nat × List Byte) → List VideoUnit

end Config

end Sys2Proof
end

