-- ==== Sys2Proof/Machine/Regs.lean ====
section
/-! DEFINITION. The set-up registers of the module as the register tables of the spec give them: the address of each
register (R27, R31 and the table named beside it) and, for each register, its fields with their bits, access types (R8)
and reset values. Bits that no row of a table names are reserved (R9). -/

namespace Sys2Proof.Machine

/-! ### The dies (R11, R16, R28) -/

def isCd (die : Nat) : Bool := decide (die < 40)
def isStack (die : Nat) : Bool := decide (40 ≤ die ∧ die < 80)
def isHd (die : Nat) : Bool := decide (80 ≤ die ∧ die < 88)
def isIo (die : Nat) : Bool := decide (88 ≤ die ∧ die < 98)
/-- A die that holds rings, fence counters and a step register (R28, R45, R292). -/
def ringBearing (die : Nat) : Bool := isCd die || isHd die || isIo die

/-- Ring contexts held by a die (R28). -/
def ringsOn (die : Nat) : Nat := if isCd die then 96 else if isIo die then 16 else if isHd die then 12 else 0
/-- Running-maximum slots held by a die (R89). -/
def rmSlotsOn (die : Nat) : Nat := if isCd die then 1024 else if isIo die then 64 else 0
/-- Gang entry and parameter-group slots held by a die (R56, R266). -/
def gangSlotsOn (die : Nat) : Nat := if die < 16 then 103 else if isCd die then 102 else 0
def fencesOn (die : Nat) : Nat := if ringBearing die then 256 else 0
def epsOn (die : Nat) : Nat := if isCd die then 6 else 0
def vdsOn (die : Nat) : Nat := if isIo die then 2 else 0
def cdRings (die : Nat) : Nat := if isCd die then 96 else 0
def oneStack (die : Nat) : Nat := if isStack die then 1 else 0
def drOn (die : Nat) : Nat := if isStack die then 32 else 0
def oneCd (die : Nat) : Nat := if isCd die then 1 else 0
def oneHd (die : Nat) : Nat := if isHd die then 1 else 0
def oneIo (die : Nat) : Nat := if isIo die then 1 else 0
def oneRb (die : Nat) : Nat := if ringBearing die then 1 else 0
def oneTd (die : Nat) : Nat := if die = 98 then 1 else 0
def oneSm (die : Nat) : Nat := if die = 99 then 1 else 0
def moversOn (die : Nat) : Nat := if isCd die then 4 else 0
def portsOn (die : Nat) : Nat := if isIo die then 4 else 0
/-- Flow contexts held by an I/O die (R328). -/
def flowsOn (die : Nat) : Nat := if isIo die then (if die < 94 then 6554 else 6553) else 0
def fdestOn (die : Nat) : Nat := if isCd die || isIo die then 2048 else 0
def routesOn (die : Nat) : Nat := if isCd die then 100 else 0
def cdN (n die : Nat) : Nat := if isCd die then n else 0
def ioN (n die : Nat) : Nat := if isIo die then n else 0
def smN (n die : Nat) : Nat := if die = 99 then n else 0
def tdDies (die : Nat) : Nat := if die = 98 then 100 else 0
def domN (die : Nat) : Nat := if die = 99 then 98 else 0
def pwGroups (die : Nat) : Nat := if die = 99 then 4096 else 0

/-! ### Fields -/

/-- The access types of R8. -/
inductive RegAccess where
  | ro | rw | wo | w1s | w1c
  deriving DecidableEq, Repr

structure RegField where
  hi    : Nat
  lo    : Nat
  acc   : RegAccess
  reset : Nat
  deriving DecidableEq, Repr

/-- A register of a table: name, offset in the die's set-up window, how many there are on a die and how far apart, a second
index where the table has one, and the fields. -/
structure RegRow where
  name   : String
  off    : Nat
  count  : Nat → Nat
  stride : Nat
  count2 : Nat
  stride2 : Nat
  fields : List RegField

namespace Reg

def ro (hi lo reset : Nat) : RegField := ⟨hi, lo, .ro, reset⟩
def rw (hi lo reset : Nat) : RegField := ⟨hi, lo, .rw, reset⟩
def wo (hi lo : Nat) : RegField := ⟨hi, lo, .wo, 0⟩
def w1s (hi lo reset : Nat) : RegField := ⟨hi, lo, .w1s, reset⟩
def w1c (hi lo reset : Nat) : RegField := ⟨hi, lo, .w1c, reset⟩

/-! ### Addresses -/

/-- Set-up space of die i (R21). -/
def setupBase (die : Nat) : Nat := 0x0E0000000000 + 0x1000000 * die

/-- DC_RING_BASE_LO, R32. -/
def dcRingBaseLo (die k : Nat) : Nat := setupBase die + 0x10000 + 0x40 * k
/-- DC_RING_BASE_HI, R32. -/
def dcRingBaseHi (die k : Nat) : Nat := setupBase die + 0x10004 + 0x40 * k
/-- DC_RING_SIZE, R32. -/
def dcRingSize (die k : Nat) : Nat := setupBase die + 0x10008 + 0x40 * k
/-- DC_RING_TARGET, R32. -/
def dcRingTarget (die k : Nat) : Nat := setupBase die + 0x1000C + 0x40 * k
/-- DC_RING_CPL_LO, R32. -/
def dcRingCplLo (die k : Nat) : Nat := setupBase die + 0x10010 + 0x40 * k
/-- DC_RING_CPL_HI, R32. -/
def dcRingCplHi (die k : Nat) : Nat := setupBase die + 0x10014 + 0x40 * k
/-- DC_RING_CTRL, R32. -/
def dcRingCtrl (die k : Nat) : Nat := setupBase die + 0x10018 + 0x40 * k
/-- DC_RING_IRQ, R32. -/
def dcRingIrq (die k : Nat) : Nat := setupBase die + 0x1001C + 0x40 * k
/-- DC_RING_PROD, R32. -/
def dcRingProd (die k : Nat) : Nat := setupBase die + 0x10020 + 0x40 * k
/-- DC_RING_CONS, R32. -/
def dcRingCons (die k : Nat) : Nat := setupBase die + 0x10024 + 0x40 * k
/-- DC_RING_CPL_WR, R32. -/
def dcRingCplWr (die k : Nat) : Nat := setupBase die + 0x10028 + 0x40 * k
/-- DC_RING_CPL_RD, R32. -/
def dcRingCplRd (die k : Nat) : Nat := setupBase die + 0x1002C + 0x40 * k
/-- DC_RING_ERR, R32. -/
def dcRingErr (die k : Nat) : Nat := setupBase die + 0x10030 + 0x40 * k
/-- DC_FENCE, R45. -/
def dcFence (die n : Nat) : Nat := setupBase die + 0x20000 + 0x4 * n
/-- DC_GANG_CTRL, R57. -/
def dcGangCtrl (die s : Nat) : Nat := setupBase die + 0x40000 + 0x100 * s
/-- DC_GANG_SPAN, R57. -/
def dcGangSpan (die s : Nat) : Nat := setupBase die + 0x40004 + 0x100 * s
/-- DC_GANG_MEMBER, R57. -/
def dcGangMember (die s j : Nat) : Nat := setupBase die + 0x40010 + 0x100 * s + 4 * j
/-- RU_RM_CUR, R89. -/
def ruRmCur (die s : Nat) : Nat := setupBase die + 0x80000 + 0x80 * s
/-- RU_RM_CTRL, R89. -/
def ruRmCtrl (die s : Nat) : Nat := setupBase die + 0x80004 + 0x80 * s
/-- RU_RM_DEPTH, R89. -/
def ruRmDepth (die s : Nat) : Nat := setupBase die + 0x80008 + 0x80 * s
/-- RU_RM_PREV, R89. -/
def ruRmPrev (die s : Nat) : Nat := setupBase die + 0x8000C + 0x80 * s
/-- RU_RM_SHADOW, R89. -/
def ruRmShadow (die s : Nat) : Nat := setupBase die + 0x80010 + 0x80 * s
/-- RU_RM_HIST, R89. -/
def ruRmHist (die s h : Nat) : Nat := setupBase die + 0x80040 + 0x80 * s + 4 * h
/-- MA_CTRL, R123. -/
def maCtrl (die e : Nat) : Nat := setupBase die + 0x100000 + 0x100000 * e
/-- MA_STATUS, R123. -/
def maStatus (die e : Nat) : Nat := setupBase die + 0x100004 + 0x100000 * e
/-- MA_ERR, R123. -/
def maErr (die e : Nat) : Nat := setupBase die + 0x100008 + 0x100000 * e
/-- MA_PART_RING, R123. -/
def maPartRing (die e j : Nat) : Nat := setupBase die + 0x100010 + 0x100000 * e + 4 * j
/-- MA_FAULT, R123. -/
def maFault (die e j : Nat) : Nat := setupBase die + 0x100020 + 0x100000 * e + 8 * j
/-- MA_FAULT_IX, R123. -/
def maFaultIx (die e j : Nat) : Nat := setupBase die + 0x100024 + 0x100000 * e + 8 * j
/-- VE_MODE, R134. -/
def veMode (die k : Nat) : Nat := setupBase die + 0x30000 + 0x4 * k
/-- VE_STATUS, R165. -/
def veStatus (die e : Nat) : Nat := setupBase die + 0x100100 + 0x100000 * e
/-- VE_FAULT, R165. -/
def veFault (die e : Nat) : Nat := setupBase die + 0x100104 + 0x100000 * e
/-- VE_FAULT_IX, R165. -/
def veFaultIx (die e : Nat) : Nat := setupBase die + 0x100108 + 0x100000 * e
/-- VD_STATUS, R231. -/
def vdStatus (die e : Nat) : Nat := setupBase die + 0x200000 + 0x100000 * e
/-- VD_FAULT, R231. -/
def vdFault (die e : Nat) : Nat := setupBase die + 0x200004 + 0x100000 * e
/-- VD_FAULT_IX, R231. -/
def vdFaultIx (die e : Nat) : Nat := setupBase die + 0x200008 + 0x100000 * e
/-- VD_FAULT_POS, R231. -/
def vdFaultPos (die e : Nat) : Nat := setupBase die + 0x20000C + 0x100000 * e
/-- HC_W1500_CTRL, R239. -/
def hcW1500Ctrl (die : Nat) : Nat := setupBase die + 0x0
/-- HC_W1500_IR, R239. -/
def hcW1500Ir (die : Nat) : Nat := setupBase die + 0x4
/-- HC_W1500_GO, R239. -/
def hcW1500Go (die : Nat) : Nat := setupBase die + 0x8
/-- HC_W1500_DR, R239. -/
def hcW1500Dr (die n : Nat) : Nat := setupBase die + 0x100 + 0x4 * n
/-- HC_CTRL, R241. -/
def hcCtrl (die : Nat) : Nat := setupBase die + 0x800000
/-- HC_SCRUB, R241. -/
def hcScrub (die : Nat) : Nat := setupBase die + 0x800004
/-- HC_CE_COUNT, R241. -/
def hcCeCount (die : Nat) : Nat := setupBase die + 0x800008
/-- HC_UE_COUNT, R241. -/
def hcUeCount (die : Nat) : Nat := setupBase die + 0x80000C
/-- HC_LAST_UE_LO, R241. -/
def hcLastUeLo (die : Nat) : Nat := setupBase die + 0x800010
/-- HC_LAST_UE_HI, R241. -/
def hcLastUeHi (die : Nat) : Nat := setupBase die + 0x800014
/-- HC_PPR_CTRL, R241. -/
def hcPprCtrl (die : Nat) : Nat := setupBase die + 0x800020
/-- HC_PPR_ADDR_LO, R241. -/
def hcPprAddrLo (die : Nat) : Nat := setupBase die + 0x800024
/-- HC_PPR_ADDR_HI, R241. -/
def hcPprAddrHi (die : Nat) : Nat := setupBase die + 0x800028
/-- HC_TEMP, R241. -/
def hcTemp (die : Nat) : Nat := setupBase die + 0x800030
/-- WM_CTRL, R245. -/
def wmCtrl (die : Nat) : Nat := setupBase die + 0x900000
/-- WM_CE_COUNT, R245. -/
def wmCeCount (die : Nat) : Nat := setupBase die + 0x900004
/-- WM_UE_COUNT, R245. -/
def wmUeCount (die : Nat) : Nat := setupBase die + 0x900008
/-- WM_LAST_UE, R245. -/
def wmLastUe (die : Nat) : Nat := setupBase die + 0x90000C
/-- MV_CTRL, R249. -/
def mvCtrl (die n : Nat) : Nat := setupBase die + 0x700000 + 0x40 * n
/-- MV_FAULT, R249. -/
def mvFault (die n : Nat) : Nat := setupBase die + 0x700004 + 0x40 * n
/-- MV_FAULT_IX, R249. -/
def mvFaultIx (die n : Nat) : Nat := setupBase die + 0x700008 + 0x40 * n
/-- MB_CLAIM, R261. -/
def mbClaim : Nat := setupBase 99 + 0x330000
/-- MB_STATUS, R261. -/
def mbStatus : Nat := setupBase 99 + 0x330004
/-- MB_COLLIDE_IX, R261. -/
def mbCollideIx : Nat := setupBase 99 + 0x330008
/-- MB_IRQ, R261. -/
def mbIrq : Nat := setupBase 99 + 0x33000C
/-- DC_PG_CTRL, R267. -/
def dcPgCtrl (die s : Nat) : Nat := setupBase die + 0xC0000 + 0x40 * s
/-- DC_PG_LR, R267. -/
def dcPgLr (die s : Nat) : Nat := setupBase die + 0xC0004 + 0x40 * s
/-- DC_PG_BETA1, R267. -/
def dcPgBeta1 (die s : Nat) : Nat := setupBase die + 0xC0008 + 0x40 * s
/-- DC_PG_BETA2, R267. -/
def dcPgBeta2 (die s : Nat) : Nat := setupBase die + 0xC000C + 0x40 * s
/-- DC_PG_DECAY, R267. -/
def dcPgDecay (die s : Nat) : Nat := setupBase die + 0xC0010 + 0x40 * s
/-- DC_PG_CLIP, R267. -/
def dcPgClip (die s : Nat) : Nat := setupBase die + 0xC0014 + 0x40 * s
/-- DC_STEP_LO, R292. -/
def dcStepLo (die : Nat) : Nat := setupBase die + 0x200
/-- DC_STEP_HI, R292. -/
def dcStepHi (die : Nat) : Nat := setupBase die + 0x204
/-- DC_ABORT, R292. -/
def dcAbort (die : Nat) : Nat := setupBase die + 0x208
/-- DC_COMMIT_STATE, R292. -/
def dcCommitState (die : Nat) : Nat := setupBase die + 0x210
/-- DC_COMMIT_MISS, R292. -/
def dcCommitMiss (die : Nat) : Nat := setupBase die + 0x214
/-- DC_RNG_SEED, R295. -/
def dcRngSeed (die k : Nat) : Nat := setupBase die + 0x30400 + 0x8 * k
/-- DC_RNG_STREAM, R295. -/
def dcRngStream (die k : Nat) : Nat := setupBase die + 0x30404 + 0x8 * k
/-- FB_PORT_CTRL, R323. -/
def fbPortCtrl (die q : Nat) : Nat := setupBase die + 0x100000 + 0x40 * q
/-- FB_PORT_STAT, R323. -/
def fbPortStat (die q : Nat) : Nat := setupBase die + 0x100004 + 0x40 * q
/-- FB_PORT_PEER, R323. -/
def fbPortPeer (die q : Nat) : Nat := setupBase die + 0x100008 + 0x40 * q
/-- FB_PORT_DROP, R323. -/
def fbPortDrop (die q : Nat) : Nat := setupBase die + 0x10000C + 0x40 * q
/-- FB_FLOW_CTRL, R329. -/
def fbFlowCtrl (die j : Nat) : Nat := setupBase die + 0x110000 + 0x40 * j
/-- FB_FLOW_PEER, R329. -/
def fbFlowPeer (die j : Nat) : Nat := setupBase die + 0x110004 + 0x40 * j
/-- FB_FLOW_RTO, R329. -/
def fbFlowRto (die j : Nat) : Nat := setupBase die + 0x110018 + 0x40 * j
/-- FB_FLOW_TX, R329. -/
def fbFlowTx (die j : Nat) : Nat := setupBase die + 0x11001C + 0x40 * j
/-- FB_FLOW_TXACK, R329. -/
def fbFlowTxack (die j : Nat) : Nat := setupBase die + 0x110020 + 0x40 * j
/-- FB_FLOW_RX, R329. -/
def fbFlowRx (die j : Nat) : Nat := setupBase die + 0x110024 + 0x40 * j
/-- FB_FLOW_ROUTE, R329. -/
def fbFlowRoute (die j n : Nat) : Nat := setupBase die + 0x110008 + 0x40 * j + 4 * n
/-- DC_FDEST, R334. -/
def dcFdest (die m : Nat) : Nat := setupBase die + 0x50000 + 0x4 * m
/-- HC_BIAS_BASE_LO, R369. -/
def hcBiasBaseLo (die : Nat) : Nat := setupBase die + 0x800800
/-- HC_BIAS_BASE_HI, R369. -/
def hcBiasBaseHi (die : Nat) : Nat := setupBase die + 0x800804
/-- HC_BIAS_CTRL, R369. -/
def hcBiasCtrl (die : Nat) : Nat := setupBase die + 0x800808
/-- HX_BIAS_BASE_LO, R369. -/
def hxBiasBaseLo (die : Nat) : Nat := setupBase die + 0x100000
/-- HX_BIAS_BASE_HI, R369. -/
def hxBiasBaseHi (die : Nat) : Nat := setupBase die + 0x100004
/-- HX_BIAS_CTRL, R369. -/
def hxBiasCtrl (die : Nat) : Nat := setupBase die + 0x100008
/-- HX_SCRUB, R370. -/
def hxScrub (die : Nat) : Nat := setupBase die + 0x100010
/-- HX_CE_COUNT, R370. -/
def hxCeCount (die : Nat) : Nat := setupBase die + 0x100014
/-- HX_UE_COUNT, R370. -/
def hxUeCount (die : Nat) : Nat := setupBase die + 0x100018
/-- HX_LAST_UE_LO, R370. -/
def hxLastUeLo (die : Nat) : Nat := setupBase die + 0x10001C
/-- HX_LAST_UE_HI, R370. -/
def hxLastUeHi (die : Nat) : Nat := setupBase die + 0x100020
/-- HX_MTIME_LO, R370. -/
def hxMtimeLo (die : Nat) : Nat := setupBase die + 0x100030
/-- HX_MTIME_HI, R370. -/
def hxMtimeHi (die : Nat) : Nat := setupBase die + 0x100034
/-- HX_PCIE_CTRL, R371. -/
def hxPcieCtrl (die : Nat) : Nat := setupBase die + 0x90000
/-- HX_PCIE_STAT, R371. -/
def hxPcieStat (die : Nat) : Nat := setupBase die + 0x90004
/-- HX_PCIE_IRQ, R371. -/
def hxPcieIrq (die : Nat) : Nat := setupBase die + 0x90008
/-- HX_PCIE_MSI_LO, R371. -/
def hxPcieMsiLo (die : Nat) : Nat := setupBase die + 0x90020
/-- HX_PCIE_MSI_HI, R371. -/
def hxPcieMsiHi (die : Nat) : Nat := setupBase die + 0x90024
/-- HX_CXL_WIN_BASE, R371. -/
def hxCxlWinBase (die : Nat) : Nat := setupBase die + 0x90050
/-- HX_CXL_WIN_SIZE, R371. -/
def hxCxlWinSize (die : Nat) : Nat := setupBase die + 0x90054
/-- HX_CXL_XF, R371. -/
def hxCxlXf (die : Nat) : Nat := setupBase die + 0x90058
/-- HX_PCIE_INk_BASE, R371. -/
def hxPcieInBase (die k : Nat) : Nat := setupBase die + 0x90010 + 0x8 * k
/-- HX_PCIE_INk_LIMIT, R371. -/
def hxPcieInLimit (die k : Nat) : Nat := setupBase die + 0x90014 + 0x8 * k
/-- HX_PCIE_WINk_LO, R371. -/
def hxPcieWinLo (die k : Nat) : Nat := setupBase die + 0x90030 + 0x8 * k
/-- HX_PCIE_WINk_HI, R371. -/
def hxPcieWinHi (die k : Nat) : Nat := setupBase die + 0x90034 + 0x8 * k
/-- DC_ROUTE, R388. -/
def dcRoute (die d v : Nat) : Nat := setupBase die + 0x60000 + 0x8 * d + 4 * v
/-- CP_CTRL, R395. -/
def cpCd_CTRL (die p : Nat) : Nat := setupBase die + 0xA00000 + 0x40 * p
/-- CP_STATUS, R395. -/
def cpCd_STATUS (die p : Nat) : Nat := setupBase die + 0xA00004 + 0x40 * p
/-- CP_RX_BAD, R395. -/
def cpCd_RX_BAD (die p : Nat) : Nat := setupBase die + 0xA00008 + 0x40 * p
/-- CP_RX_ASM, R395. -/
def cpCd_RX_ASM (die p : Nat) : Nat := setupBase die + 0xA0000C + 0x40 * p
/-- CP_RX_NEW, R395. -/
def cpCd_RX_NEW (die p : Nat) : Nat := setupBase die + 0xA00010 + 0x40 * p
/-- CP_TX_BAD, R395. -/
def cpCd_TX_BAD (die p : Nat) : Nat := setupBase die + 0xA00014 + 0x40 * p
/-- CP_RETRY, R395. -/
def cpCd_RETRY (die p : Nat) : Nat := setupBase die + 0xA00018 + 0x40 * p
/-- CP_FAULT, R395. -/
def cpCd_FAULT (die p : Nat) : Nat := setupBase die + 0xA0001C + 0x40 * p
/-- CP_REF, R396. -/
def cpCdRef (die : Nat) : Nat := setupBase die + 0xA00400
/-- CP_CTRL, R395. -/
def cpIo_CTRL (die p : Nat) : Nat := setupBase die + 0x400000 + 0x40 * p
/-- CP_STATUS, R395. -/
def cpIo_STATUS (die p : Nat) : Nat := setupBase die + 0x400004 + 0x40 * p
/-- CP_RX_BAD, R395. -/
def cpIo_RX_BAD (die p : Nat) : Nat := setupBase die + 0x400008 + 0x40 * p
/-- CP_RX_ASM, R395. -/
def cpIo_RX_ASM (die p : Nat) : Nat := setupBase die + 0x40000C + 0x40 * p
/-- CP_RX_NEW, R395. -/
def cpIo_RX_NEW (die p : Nat) : Nat := setupBase die + 0x400010 + 0x40 * p
/-- CP_TX_BAD, R395. -/
def cpIo_TX_BAD (die p : Nat) : Nat := setupBase die + 0x400014 + 0x40 * p
/-- CP_RETRY, R395. -/
def cpIo_RETRY (die p : Nat) : Nat := setupBase die + 0x400018 + 0x40 * p
/-- CP_FAULT, R395. -/
def cpIo_FAULT (die p : Nat) : Nat := setupBase die + 0x40001C + 0x40 * p
/-- CP_REF, R396. -/
def cpIoRef (die : Nat) : Nat := setupBase die + 0x400400
/-- TD_REF, R397. -/
def tdRef : Nat := setupBase 98 + 0x0
/-- TD_LOSS, R397. -/
def tdLoss : Nat := setupBase 98 + 0x4
/-- TD_LOSS_IRQ, R397. -/
def tdLossIrq : Nat := setupBase 98 + 0x8
/-- TD_START, R397. -/
def tdStart : Nat := setupBase 98 + 0xC
/-- TD_DIE, R397. -/
def tdDie (i : Nat) : Nat := setupBase 98 + 0x100 + 0x4 * i
/-- PW_OP, R420. -/
def pwOp (die k : Nat) : Nat := setupBase die + 0xB00000 + 0x4 * k
/-- PW_PHASE, R420. -/
def pwPhase (die t : Nat) : Nat := setupBase die + 0xB00100 + 0x4 * t
/-- PW_DIE_CTRL, R420. -/
def pwDieCtrl (die : Nat) : Nat := setupBase die + 0xB00200
/-- PW_DIE_STATUS, R420. -/
def pwDieStatus (die : Nat) : Nat := setupBase die + 0xB00204
/-- PW_DROOP, R420. -/
def pwDroop (die : Nat) : Nat := setupBase die + 0xB0020C
/-- PW_DIE_TEMP, R420. -/
def pwDieTemp (die : Nat) : Nat := setupBase die + 0xB00208
/-- PW_DIE_TEMP, R420. -/
def pwHdTemp (die : Nat) : Nat := setupBase die + 0x200208
/-- PW_DIE_TEMP, R420. -/
def pwIoTemp (die : Nat) : Nat := setupBase die + 0x500208
/-- PW_CAP, R421. -/
def pwCap : Nat := setupBase 99 + 0x100000
/-- PW_STATUS, R421. -/
def pwStatus : Nat := setupBase 99 + 0x100004
/-- PW_INPUT, R421. -/
def pwInput : Nat := setupBase 99 + 0x100008
/-- PW_AVG, R421. -/
def pwAvg : Nat := setupBase 99 + 0x10000C
/-- PW_COOLANT, R421. -/
def pwCoolant : Nat := setupBase 99 + 0x100010
/-- PW_SAFE_CAUSE, R421. -/
def pwSafeCause : Nat := setupBase 99 + 0x100014
/-- PW_DOM, R421. -/
def pwDom (i : Nat) : Nat := setupBase 99 + 0x100100 + 0x4 * i
/-- PW_GRP_CTRL, R421. -/
def pwGrpCtrl (g : Nat) : Nat := setupBase 99 + 0x110000 + 0x20 * g
/-- PW_GRP_SHARE, R421. -/
def pwGrpShare (g : Nat) : Nat := setupBase 99 + 0x110004 + 0x20 * g
/-- PW_GRP_DIES_LO, R421. -/
def pwGrpDiesLo (g : Nat) : Nat := setupBase 99 + 0x110008 + 0x20 * g
/-- PW_GRP_DIES_HI, R421. -/
def pwGrpDiesHi (g : Nat) : Nat := setupBase 99 + 0x11000C + 0x20 * g
/-- PW_GRP_SPAN, R421. -/
def pwGrpSpan (g : Nat) : Nat := setupBase 99 + 0x110010 + 0x20 * g
/-- SM_BOOT, R442. -/
def smBoot : Nat := setupBase 99 + 0x0
/-- SM_FW_VER, R442. -/
def smFwVer : Nat := setupBase 99 + 0x4
/-- SM_FW_SVN, R442. -/
def smFwSvn : Nat := setupBase 99 + 0x8
/-- SM_RB_COUNT, R442. -/
def smRbCount : Nat := setupBase 99 + 0xC
/-- SM_RB_CTRL, R442. -/
def smRbCtrl : Nat := setupBase 99 + 0x10
/-- SM_SETUP_ACL, R442. -/
def smSetupAcl : Nat := setupBase 99 + 0x20
/-- SM_FWUP_ADDR_LO, R442. -/
def smFwupAddrLo : Nat := setupBase 99 + 0x30
/-- SM_FWUP_ADDR_HI, R442. -/
def smFwupAddrHi : Nat := setupBase 99 + 0x34
/-- SM_FWUP_LEN, R442. -/
def smFwupLen : Nat := setupBase 99 + 0x38
/-- SM_FWUP_CTRL, R442. -/
def smFwupCtrl : Nat := setupBase 99 + 0x3C
/-- SM_DESC, R442. -/
def smDesc (n : Nat) : Nat := setupBase 99 + 0x1000 + 0x4 * n
/-- JR_STATUS, R443. -/
def jrStatus : Nat := setupBase 99 + 0x200000
/-- JR_GEN, R443. -/
def jrGen : Nat := setupBase 99 + 0x200004
/-- JR_SEQ, R443. -/
def jrSeq : Nat := setupBase 99 + 0x200008
/-- JR_CTRL, R443. -/
def jrCtrl : Nat := setupBase 99 + 0x20000C
/-- JR_TYPE, R443. -/
def jrType : Nat := setupBase 99 + 0x200010
/-- JR_KEY, R443. -/
def jrKey : Nat := setupBase 99 + 0x200014
/-- JR_BUF, R443. -/
def jrBuf (n : Nat) : Nat := setupBase 99 + 0x200100 + 0x4 * n
/-- PW_ALERT, R453. -/
def pwAlert : Nat := setupBase 99 + 0x100020
/-- PW_PINS, R453. -/
def pwPins : Nat := setupBase 99 + 0x100024

/-! Course registers lie in different sub-windows on compute dies and I/O dies (R395, R396). -/

def cpReg (off die p : Nat) : Nat := setupBase die + (if isCd die then 0xA00000 else 0x400000) + 0x40 * p + off
def cpCtrl (die p : Nat) : Nat := cpReg 0x00 die p
def cpStatus (die p : Nat) : Nat := cpReg 0x04 die p
def cpRxBad (die p : Nat) : Nat := cpReg 0x08 die p
def cpRxAsm (die p : Nat) : Nat := cpReg 0x0C die p
def cpRxNew (die p : Nat) : Nat := cpReg 0x10 die p
def cpTxBad (die p : Nat) : Nat := cpReg 0x14 die p
def cpRetry (die p : Nat) : Nat := cpReg 0x18 die p
def cpFault (die p : Nat) : Nat := cpReg 0x1C die p
def cpRef (die : Nat) : Nat := setupBase die + (if isCd die then 0xA00000 else 0x400000) + 0x400

/-- PW_DIE_TEMP of a compute, host or I/O die (R420 note 1). -/
def dieTemp (die : Nat) : Nat :=
  if isCd die then pwDieTemp die else if isHd die then pwHdTemp die else pwIoTemp die

end Reg

/-! ### The table -/

open Reg

def regRows0 : List RegRow := [
  ⟨"DC_RING_BASE_LO", 0x10000, ringsOn, 0x40, 1, 4, [rw 31 6 0]⟩,
  ⟨"DC_RING_BASE_HI", 0x10004, ringsOn, 0x40, 1, 4, [rw 15 0 0]⟩,
  ⟨"DC_RING_SIZE", 0x10008, ringsOn, 0x40, 1, 4, [rw 20 16 0x4, rw 4 0 0x4]⟩,
  ⟨"DC_RING_TARGET", 0x1000C, ringsOn, 0x40, 1, 4, [rw 31 0 0]⟩,
  ⟨"DC_RING_CPL_LO", 0x10010, ringsOn, 0x40, 1, 4, [rw 31 5 0]⟩,
  ⟨"DC_RING_CPL_HI", 0x10014, ringsOn, 0x40, 1, 4, [rw 15 0 0]⟩,
  ⟨"DC_RING_CTRL", 0x10018, ringsOn, 0x40, 1, 4, [rw 13 12 0, rw 11 11 0, rw 10 10 0, ro 9 9 0, wo 8 8, ro 6 4 0, ro 3 3 0, ro 2 2 0, wo 1 1, wo 0 0]⟩,
  ⟨"DC_RING_IRQ", 0x1001C, ringsOn, 0x40, 1, 4, [rw 23 21 0, rw 20 16 0, rw 15 0 0]⟩,
  ⟨"DC_RING_PROD", 0x10020, ringsOn, 0x40, 1, 4, [rw 31 0 0]⟩,
  ⟨"DC_RING_CONS", 0x10024, ringsOn, 0x40, 1, 4, [rw 31 0 0]⟩,
  ⟨"DC_RING_CPL_WR", 0x10028, ringsOn, 0x40, 1, 4, [ro 31 0 0]⟩,
  ⟨"DC_RING_CPL_RD", 0x1002C, ringsOn, 0x40, 1, 4, [rw 31 0 0]⟩,
  ⟨"DC_RING_ERR", 0x10030, ringsOn, 0x40, 1, 4, [w1c 7 7 0, w1c 6 6 0, w1c 5 5 0, w1c 4 4 0, w1c 3 3 0, w1c 2 2 0, w1c 1 1 0, w1c 0 0 0]⟩,
  ⟨"DC_FENCE", 0x20000, fencesOn, 0x4, 1, 4, [rw 31 0 0]⟩,
  ⟨"DC_GANG_CTRL", 0x40000, gangSlotsOn, 0x100, 1, 4, [rw 31 31 0, rw 25 24 0, ro 13 8 0, rw 5 0 0]⟩,
  ⟨"DC_GANG_SPAN", 0x40004, gangSlotsOn, 0x100, 1, 4, [rw 31 23 0, rw 22 11 0, rw 10 0 0]⟩,
  ⟨"DC_GANG_MEMBER", 0x40010, gangSlotsOn, 0x100, 48, 4, [rw 31 0 0]⟩,
  ⟨"RU_RM_CUR", 0x80000, rmSlotsOn, 0x80, 1, 4, [rw 31 0 0]⟩,
  ⟨"RU_RM_CTRL", 0x80004, rmSlotsOn, 0x80, 1, 4, [w1c 31 31 0, wo 30 30, wo 29 29, ro 28 28 0, rw 27 24 0x4, rw 23 19 0x10, rw 18 16 0, rw 15 8 0, rw 7 0 0]⟩,
  ⟨"RU_RM_DEPTH", 0x80008, rmSlotsOn, 0x80, 1, 4, [ro 4 0 0]⟩,
  ⟨"RU_RM_PREV", 0x8000C, rmSlotsOn, 0x80, 1, 4, [ro 20 16 0, ro 15 8 0, ro 7 0 0]⟩,
  ⟨"RU_RM_SHADOW", 0x80010, rmSlotsOn, 0x80, 1, 4, [ro 31 0 0]⟩,
  ⟨"RU_RM_HIST", 0x80040, rmSlotsOn, 0x80, 16, 4, [ro 31 0 0]⟩,
  ⟨"MA_CTRL", 0x100000, epsOn, 0x100000, 1, 4, [rw 9 8 0, ro 6 4 0, ro 3 3 0, ro 2 2 0, wo 1 1, wo 0 0]⟩,
  ⟨"MA_STATUS", 0x100004, epsOn, 0x100000, 1, 4, [ro 11 8 0, ro 7 4 0, w1c 3 0 0]⟩,
  ⟨"MA_ERR", 0x100008, epsOn, 0x100000, 1, 4, [w1c 1 1 0, w1c 0 0 0]⟩,
  ⟨"MA_PART_RING", 0x100010, epsOn, 0x100000, 4, 4, [rw 31 31 0, rw 11 0 0]⟩,
  ⟨"MA_FAULT", 0x100020, epsOn, 0x100000, 4, 8, [ro 7 0 0]⟩,
  ⟨"MA_FAULT_IX", 0x100024, epsOn, 0x100000, 4, 8, [ro 31 0 0]⟩,
  ⟨"VE_MODE", 0x30000, cdRings, 0x4, 1, 4, [rw 0 0 0]⟩]

def regRows1 : List RegRow := [
  ⟨"VE_STATUS", 0x100100, epsOn, 0x100000, 1, 4, [ro 12 12 0, ro 8 8 0, w1c 0 0 0]⟩,
  ⟨"VE_FAULT", 0x100104, epsOn, 0x100000, 1, 4, [ro 19 8 0, ro 7 0 0]⟩,
  ⟨"VE_FAULT_IX", 0x100108, epsOn, 0x100000, 1, 4, [ro 31 0 0]⟩,
  ⟨"VD_STATUS", 0x200000, vdsOn, 0x100000, 1, 4, [ro 8 8 0, w1c 0 0 0]⟩,
  ⟨"VD_FAULT", 0x200004, vdsOn, 0x100000, 1, 4, [ro 27 24 0, ro 19 8 0, ro 7 0 0]⟩,
  ⟨"VD_FAULT_IX", 0x200008, vdsOn, 0x100000, 1, 4, [ro 31 0 0]⟩,
  ⟨"VD_FAULT_POS", 0x20000C, vdsOn, 0x100000, 1, 4, [ro 31 0 0xFFFFFFFF]⟩,
  ⟨"HC_W1500_CTRL", 0x0, oneStack, 0x1000000, 1, 4, [w1c 17 17 0, ro 16 16 0, rw 10 0 0x020]⟩,
  ⟨"HC_W1500_IR", 0x4, oneStack, 0x1000000, 1, 4, [rw 15 0 0]⟩,
  ⟨"HC_W1500_GO", 0x8, oneStack, 0x1000000, 1, 4, [wo 0 0]⟩,
  ⟨"HC_W1500_DR", 0x100, drOn, 0x4, 1, 4, [rw 31 0 0]⟩,
  ⟨"HC_CTRL", 0x800000, oneCd, 0x1000000, 1, 4, [ro 1 1 0, rw 0 0 0]⟩,
  ⟨"HC_SCRUB", 0x800004, oneCd, 0x1000000, 1, 4, [rw 15 0 24]⟩,
  ⟨"HC_CE_COUNT", 0x800008, oneCd, 0x1000000, 1, 4, [rw 31 0 0]⟩,
  ⟨"HC_UE_COUNT", 0x80000C, oneCd, 0x1000000, 1, 4, [rw 31 0 0]⟩,
  ⟨"HC_LAST_UE_LO", 0x800010, oneCd, 0x1000000, 1, 4, [ro 31 0 0]⟩,
  ⟨"HC_LAST_UE_HI", 0x800014, oneCd, 0x1000000, 1, 4, [ro 4 0 0]⟩,
  ⟨"HC_PPR_CTRL", 0x800020, oneCd, 0x1000000, 1, 4, [wo 31 31, ro 30 30 0, ro 29 28 0, rw 0 0 0]⟩,
  ⟨"HC_PPR_ADDR_LO", 0x800024, oneCd, 0x1000000, 1, 4, [rw 31 6 0]⟩,
  ⟨"HC_PPR_ADDR_HI", 0x800028, oneCd, 0x1000000, 1, 4, [rw 4 0 0]⟩,
  ⟨"HC_TEMP", 0x800030, oneCd, 0x1000000, 1, 4, [ro 7 0 0]⟩,
  ⟨"WM_CTRL", 0x900000, oneCd, 0x1000000, 1, 4, [ro 1 1 0, wo 0 0]⟩,
  ⟨"WM_CE_COUNT", 0x900004, oneCd, 0x1000000, 1, 4, [rw 31 0 0]⟩,
  ⟨"WM_UE_COUNT", 0x900008, oneCd, 0x1000000, 1, 4, [rw 31 0 0]⟩,
  ⟨"WM_LAST_UE", 0x90000C, oneCd, 0x1000000, 1, 4, [ro 26 0 0]⟩,
  ⟨"MV_CTRL", 0x700000, moversOn, 0x40, 1, 4, [ro 6 4 0, ro 3 3 0, ro 2 2 0, wo 1 1, wo 0 0]⟩,
  ⟨"MV_FAULT", 0x700004, moversOn, 0x40, 1, 4, [ro 19 8 0, ro 7 0 0]⟩,
  ⟨"MV_FAULT_IX", 0x700008, moversOn, 0x40, 1, 4, [ro 31 0 0]⟩,
  ⟨"MB_CLAIM", 0x330000, oneSm, 0x1000000, 1, 4, [ro 1 1 0, rw 0 0 0]⟩,
  ⟨"MB_STATUS", 0x330004, oneSm, 0x1000000, 1, 4, [w1c 5 5 0, w1c 4 4 0, w1c 3 3 0, w1c 2 2 0, w1c 1 1 0, ro 0 0 0]⟩]

def regRows2 : List RegRow := [
  ⟨"MB_COLLIDE_IX", 0x330008, oneSm, 0x1000000, 1, 4, [ro 13 0 0]⟩,
  ⟨"MB_IRQ", 0x33000C, oneSm, 0x1000000, 1, 4, [rw 24 24 0, rw 23 21 0, rw 20 16 0, rw 15 0 0]⟩,
  ⟨"DC_PG_CTRL", 0xC0000, gangSlotsOn, 0x40, 1, 4, [rw 31 31 0, rw 30 30 0, rw 27 16 0, ro 13 8 0, rw 7 0 0]⟩,
  ⟨"DC_PG_LR", 0xC0004, gangSlotsOn, 0x40, 1, 4, [rw 31 0 0]⟩,
  ⟨"DC_PG_BETA1", 0xC0008, gangSlotsOn, 0x40, 1, 4, [rw 31 0 0]⟩,
  ⟨"DC_PG_BETA2", 0xC000C, gangSlotsOn, 0x40, 1, 4, [rw 31 0 0]⟩,
  ⟨"DC_PG_DECAY", 0xC0010, gangSlotsOn, 0x40, 1, 4, [rw 31 0 0]⟩,
  ⟨"DC_PG_CLIP", 0xC0014, gangSlotsOn, 0x40, 1, 4, [rw 31 0 0]⟩,
  ⟨"DC_STEP_LO", 0x200, oneRb, 0x1000000, 1, 4, [rw 31 0 0]⟩,
  ⟨"DC_STEP_HI", 0x204, oneRb, 0x1000000, 1, 4, [rw 15 0 0]⟩,
  ⟨"DC_ABORT", 0x208, oneRb, 0x1000000, 1, 4, [rw 31 31 0, rw 15 0 0]⟩,
  ⟨"DC_COMMIT_STATE", 0x210, oneCd, 0x1000000, 1, 4, [ro 31 30 0, ro 27 16 0, ro 15 0 0]⟩,
  ⟨"DC_COMMIT_MISS", 0x214, oneCd, 0x1000000, 1, 4, [ro 10 0 0]⟩,
  ⟨"DC_RNG_SEED", 0x30400, cdRings, 0x8, 1, 4, [rw 31 0 0]⟩,
  ⟨"DC_RNG_STREAM", 0x30404, cdRings, 0x8, 1, 4, [rw 31 0 0]⟩,
  ⟨"FB_PORT_CTRL", 0x100000, portsOn, 0x40, 1, 4, [wo 1 1, rw 0 0 0]⟩,
  ⟨"FB_PORT_STAT", 0x100004, portsOn, 0x40, 1, 4, [ro 15 12 0, ro 9 8 0, ro 4 4 0, w1c 3 3 0, ro 1 0 0]⟩,
  ⟨"FB_PORT_PEER", 0x100008, portsOn, 0x40, 1, 4, [ro 31 31 0, ro 21 16 0, ro 15 0 0]⟩,
  ⟨"FB_PORT_DROP", 0x10000C, portsOn, 0x40, 1, 4, [rw 31 0 0]⟩,
  ⟨"FB_FLOW_CTRL", 0x110000, flowsOn, 0x40, 1, 4, [rw 15 12 7, w1c 11 11 0, w1c 10 10 0, ro 6 4 0, ro 3 3 0, ro 2 2 0, wo 1 1, wo 0 0]⟩,
  ⟨"FB_FLOW_PEER", 0x110004, flowsOn, 0x40, 1, 4, [rw 10 0 0]⟩,
  ⟨"FB_FLOW_RTO", 0x110018, flowsOn, 0x40, 1, 4, [rw 15 0 20]⟩,
  ⟨"FB_FLOW_TX", 0x11001C, flowsOn, 0x40, 1, 4, [ro 23 0 0]⟩,
  ⟨"FB_FLOW_TXACK", 0x110020, flowsOn, 0x40, 1, 4, [ro 23 0 0]⟩,
  ⟨"FB_FLOW_RX", 0x110024, flowsOn, 0x40, 1, 4, [ro 23 0 0]⟩,
  ⟨"FB_FLOW_ROUTE", 0x110008, flowsOn, 0x40, 4, 4, [rw 31 0 0]⟩,
  ⟨"DC_FDEST", 0x50000, fdestOn, 0x4, 1, 4, [rw 31 31 0, rw 15 0 0]⟩,
  ⟨"HC_BIAS_BASE_LO", 0x800800, oneCd, 0x1000000, 1, 4, [rw 31 16 0]⟩,
  ⟨"HC_BIAS_BASE_HI", 0x800804, oneCd, 0x1000000, 1, 4, [rw 15 0 0]⟩,
  ⟨"HC_BIAS_CTRL", 0x800808, oneCd, 0x1000000, 1, 4, [ro 31 31 0, w1c 30 30 0, rw 3 2 0, wo 0 0]⟩]

def regRows3 : List RegRow := [
  ⟨"HX_BIAS_BASE_LO", 0x100000, oneHd, 0x1000000, 1, 4, [rw 31 16 0]⟩,
  ⟨"HX_BIAS_BASE_HI", 0x100004, oneHd, 0x1000000, 1, 4, [rw 15 0 0]⟩,
  ⟨"HX_BIAS_CTRL", 0x100008, oneHd, 0x1000000, 1, 4, [ro 31 31 0, w1c 30 30 0, rw 3 2 0, wo 0 0]⟩,
  ⟨"HX_SCRUB", 0x100010, oneHd, 0x1000000, 1, 4, [rw 15 0 24]⟩,
  ⟨"HX_CE_COUNT", 0x100014, oneHd, 0x1000000, 1, 4, [rw 31 0 0]⟩,
  ⟨"HX_UE_COUNT", 0x100018, oneHd, 0x1000000, 1, 4, [rw 31 0 0]⟩,
  ⟨"HX_LAST_UE_LO", 0x10001C, oneHd, 0x1000000, 1, 4, [ro 31 0 0]⟩,
  ⟨"HX_LAST_UE_HI", 0x100020, oneHd, 0x1000000, 1, 4, [ro 6 0 0]⟩,
  ⟨"HX_MTIME_LO", 0x100030, oneHd, 0x1000000, 1, 4, [rw 31 0 0]⟩,
  ⟨"HX_MTIME_HI", 0x100034, oneHd, 0x1000000, 1, 4, [rw 31 0 0]⟩,
  ⟨"HX_PCIE_CTRL", 0x90000, oneIo, 0x1000000, 1, 4, [w1c 3 3 0, wo 2 2, rw 1 0 0]⟩,
  ⟨"HX_PCIE_STAT", 0x90004, oneIo, 0x1000000, 1, 4, [ro 10 8 0, ro 7 5 0, ro 4 3 0, w1c 1 1 0, ro 0 0 0]⟩,
  ⟨"HX_PCIE_IRQ", 0x90008, oneIo, 0x1000000, 1, 4, [rw 24 24 0, rw 23 0 0]⟩,
  ⟨"HX_PCIE_MSI_LO", 0x90020, oneIo, 0x1000000, 1, 4, [rw 31 2 0]⟩,
  ⟨"HX_PCIE_MSI_HI", 0x90024, oneIo, 0x1000000, 1, 4, [rw 31 0 0]⟩,
  ⟨"HX_CXL_WIN_BASE", 0x90050, oneIo, 0x1000000, 1, 4, [rw 19 0 0]⟩,
  ⟨"HX_CXL_WIN_SIZE", 0x90054, oneIo, 0x1000000, 1, 4, [rw 14 0 0]⟩,
  ⟨"HX_CXL_XF", 0x90058, oneIo, 0x1000000, 1, 4, [ro 22 0 0]⟩,
  ⟨"HX_PCIE_INk_BASE", 0x90010, (ioN 2), 0x8, 1, 4, [rw 31 0 0xFFFFFFFF]⟩,
  ⟨"HX_PCIE_INk_LIMIT", 0x90014, (ioN 2), 0x8, 1, 4, [rw 31 0 0]⟩,
  ⟨"HX_PCIE_WINk_LO", 0x90030, (ioN 4), 0x8, 1, 4, [rw 31 16 0]⟩,
  ⟨"HX_PCIE_WINk_HI", 0x90034, (ioN 4), 0x8, 1, 4, [rw 31 0 0]⟩,
  ⟨"DC_ROUTE", 0x60000, routesOn, 0x8, 2, 4, [rw 31 31 0, rw 9 8 0, rw 4 4 0]⟩,
  ⟨"CP_CTRL", 0xA00000, (cdN 16), 0x40, 1, 4, [ro 6 4 0, ro 3 3 0, ro 2 2 0, wo 1 1, wo 0 0]⟩,
  ⟨"CP_STATUS", 0xA00004, (cdN 16), 0x40, 1, 4, [ro 23 20 0, ro 19 16 0, ro 11 8 0, ro 4 0 0]⟩,
  ⟨"CP_RX_BAD", 0xA00008, (cdN 16), 0x40, 1, 4, [ro 17 0 0]⟩,
  ⟨"CP_RX_ASM", 0xA0000C, (cdN 16), 0x40, 1, 4, [rw 17 0 0]⟩,
  ⟨"CP_RX_NEW", 0xA00010, (cdN 16), 0x40, 1, 4, [w1c 17 0 0]⟩,
  ⟨"CP_TX_BAD", 0xA00014, (cdN 16), 0x40, 1, 4, [ro 17 0 0]⟩,
  ⟨"CP_RETRY", 0xA00018, (cdN 16), 0x40, 1, 4, [rw 31 0 0]⟩]

def regRows4 : List RegRow := [
  ⟨"CP_FAULT", 0xA0001C, (cdN 16), 0x40, 1, 4, [ro 7 0 0]⟩,
  ⟨"CP_REF", 0xA00400, oneCd, 0x1000000, 1, 4, [w1c 19 19 0, w1c 18 18 0, ro 17 16 0, rw 12 12 0, rw 11 8 0, rw 4 4 0, rw 3 0 0]⟩,
  ⟨"CP_CTRL", 0x400000, (ioN 4), 0x40, 1, 4, [ro 6 4 0, ro 3 3 0, ro 2 2 0, wo 1 1, wo 0 0]⟩,
  ⟨"CP_STATUS", 0x400004, (ioN 4), 0x40, 1, 4, [ro 23 20 0, ro 19 16 0, ro 11 8 0, ro 4 0 0]⟩,
  ⟨"CP_RX_BAD", 0x400008, (ioN 4), 0x40, 1, 4, [ro 17 0 0]⟩,
  ⟨"CP_RX_ASM", 0x40000C, (ioN 4), 0x40, 1, 4, [rw 17 0 0]⟩,
  ⟨"CP_RX_NEW", 0x400010, (ioN 4), 0x40, 1, 4, [w1c 17 0 0]⟩,
  ⟨"CP_TX_BAD", 0x400014, (ioN 4), 0x40, 1, 4, [ro 17 0 0]⟩,
  ⟨"CP_RETRY", 0x400018, (ioN 4), 0x40, 1, 4, [rw 31 0 0]⟩,
  ⟨"CP_FAULT", 0x40001C, (ioN 4), 0x40, 1, 4, [ro 7 0 0]⟩,
  ⟨"CP_REF", 0x400400, oneIo, 0x1000000, 1, 4, [w1c 19 19 0, w1c 18 18 0, ro 17 16 0, rw 12 12 0, rw 11 8 0, rw 4 4 0, rw 3 0 0]⟩,
  ⟨"TD_REF", 0x0, oneTd, 0x1000000, 1, 4, [ro 3 3 0, ro 2 2 0, w1c 1 1 0, ro 0 0 0]⟩,
  ⟨"TD_LOSS", 0x4, oneTd, 0x1000000, 1, 4, [w1c 31 31 0, ro 6 0 0]⟩,
  ⟨"TD_LOSS_IRQ", 0x8, oneTd, 0x1000000, 1, 4, [rw 24 24 0, rw 23 0 0]⟩,
  ⟨"TD_START", 0xC, oneTd, 0x1000000, 1, 4, [wo 0 0]⟩,
  ⟨"TD_DIE", 0x100, tdDies, 0x4, 1, 4, [ro 11 8 1, ro 7 4 0, wo 1 1, wo 0 0]⟩,
  ⟨"PW_OP", 0xB00000, (cdN 16), 0x4, 1, 4, [ro 27 16 0, ro 11 0 0]⟩,
  ⟨"PW_PHASE", 0xB00100, (cdN 64), 0x4, 1, 4, [rw 8 8 0, rw 7 4 0, rw 3 0 0]⟩,
  ⟨"PW_DIE_CTRL", 0xB00200, oneCd, 0x1000000, 1, 4, [rw 3 0 0]⟩,
  ⟨"PW_DIE_STATUS", 0xB00204, oneCd, 0x1000000, 1, 4, [ro 31 20 0, ro 17 17 0, ro 16 16 0, ro 15 12 0, ro 11 8 0, ro 7 4 0, ro 3 0 0]⟩,
  ⟨"PW_DROOP", 0xB0020C, oneCd, 0x1000000, 1, 4, [w1c 31 31 0, rw 30 0 0]⟩,
  ⟨"PW_DIE_TEMP", 0xB00208, oneCd, 0x1000000, 1, 4, [ro 7 0 0]⟩,
  ⟨"PW_DIE_TEMP", 0x200208, oneHd, 0x1000000, 1, 4, [ro 7 0 0]⟩,
  ⟨"PW_DIE_TEMP", 0x500208, oneIo, 0x1000000, 1, 4, [ro 7 0 0]⟩,
  ⟨"PW_CAP", 0x100000, oneSm, 0x1000000, 1, 4, [rw 21 16 10, rw 15 0 16000]⟩,
  ⟨"PW_STATUS", 0x100004, oneSm, 0x1000000, 1, 4, [ro 2 2 0, ro 1 1 0, ro 0 0 0]⟩,
  ⟨"PW_INPUT", 0x100008, oneSm, 0x1000000, 1, 4, [ro 31 16 0, ro 15 0 0]⟩,
  ⟨"PW_AVG", 0x10000C, oneSm, 0x1000000, 1, 4, [ro 15 0 0]⟩,
  ⟨"PW_COOLANT", 0x100010, oneSm, 0x1000000, 1, 4, [ro 15 8 0, ro 7 0 0]⟩,
  ⟨"PW_SAFE_CAUSE", 0x100014, oneSm, 0x1000000, 1, 4, [ro 7 0 0]⟩]

def regRows5 : List RegRow := [
  ⟨"PW_DOM", 0x100100, domN, 0x4, 1, 4, [ro 6 4 2, ro 3 3 0, ro 2 2 0, wo 1 1, wo 0 0]⟩,
  ⟨"PW_GRP_CTRL", 0x110000, pwGroups, 0x20, 1, 4, [rw 31 31 0, rw 30 30 0, ro 13 8 0]⟩,
  ⟨"PW_GRP_SHARE", 0x110004, pwGroups, 0x20, 1, 4, [rw 27 27 0, rw 26 16 0, rw 15 0 0]⟩,
  ⟨"PW_GRP_DIES_LO", 0x110008, pwGroups, 0x20, 1, 4, [rw 31 0 0]⟩,
  ⟨"PW_GRP_DIES_HI", 0x11000C, pwGroups, 0x20, 1, 4, [rw 7 0 0]⟩,
  ⟨"PW_GRP_SPAN", 0x110010, pwGroups, 0x20, 1, 4, [rw 31 0 0]⟩,
  ⟨"SM_BOOT", 0x0, oneSm, 0x1000000, 1, 4, [ro 31 28 0, ro 27 24 0, ro 19 19 0, ro 18 18 0, ro 17 16 0]⟩,
  ⟨"SM_FW_VER", 0x4, oneSm, 0x1000000, 1, 4, [ro 31 0 0]⟩,
  ⟨"SM_FW_SVN", 0x8, oneSm, 0x1000000, 1, 4, [ro 31 0 0]⟩,
  ⟨"SM_RB_COUNT", 0xC, oneSm, 0x1000000, 1, 4, [ro 31 0 0]⟩,
  ⟨"SM_RB_CTRL", 0x10, oneSm, 0x1000000, 1, 4, [ro 1 1 0, wo 0 0]⟩,
  ⟨"SM_SETUP_ACL", 0x20, oneSm, 0x1000000, 1, 4, [w1s 31 31 0, rw 2 2 0, rw 1 1 0, rw 0 0 0]⟩,
  ⟨"SM_FWUP_ADDR_LO", 0x30, oneSm, 0x1000000, 1, 4, [rw 31 6 0]⟩,
  ⟨"SM_FWUP_ADDR_HI", 0x34, oneSm, 0x1000000, 1, 4, [rw 15 0 0]⟩,
  ⟨"SM_FWUP_LEN", 0x38, oneSm, 0x1000000, 1, 4, [rw 31 0 0]⟩,
  ⟨"SM_FWUP_CTRL", 0x3C, oneSm, 0x1000000, 1, 4, [ro 3 2 0, ro 1 1 0, wo 0 0]⟩,
  ⟨"SM_DESC", 0x1000, (smN 12), 0x4, 1, 4, [ro 31 0 0]⟩,
  ⟨"JR_STATUS", 0x200000, oneSm, 0x1000000, 1, 4, [ro 31 31 0, ro 30 30 0, ro 29 29 0, ro 28 28 0, ro 15 8 0, ro 7 0 0]⟩,
  ⟨"JR_GEN", 0x200004, oneSm, 0x1000000, 1, 4, [ro 31 0 0]⟩,
  ⟨"JR_SEQ", 0x200008, oneSm, 0x1000000, 1, 4, [ro 31 0 0]⟩,
  ⟨"JR_CTRL", 0x20000C, oneSm, 0x1000000, 1, 4, [wo 1 0]⟩,
  ⟨"JR_TYPE", 0x200010, oneSm, 0x1000000, 1, 4, [rw 15 0 0]⟩,
  ⟨"JR_KEY", 0x200014, oneSm, 0x1000000, 1, 4, [rw 31 0 0]⟩,
  ⟨"JR_BUF", 0x200100, (smN 16), 0x4, 1, 4, [rw 31 0 0]⟩,
  ⟨"PW_ALERT", 0x100020, oneSm, 0x1000000, 1, 4, [w1c 5 5 0, w1c 4 4 0, ro 3 3 0, w1c 2 2 0, w1c 1 1 0, w1c 0 0 0]⟩,
  ⟨"PW_PINS", 0x100024, oneSm, 0x1000000, 1, 4, [ro 5 5 0, ro 4 4 0, ro 3 3 0, ro 2 2 0, ro 1 1 0, ro 0 0 1]⟩]

/-- Every register table of the spec. -/
def regRows : List RegRow :=
  regRows0 ++ regRows1 ++ regRows2 ++ regRows3 ++ regRows4 ++ regRows5

/-! ### Reset values -/

/-- PW_OP_k.mhz at reset: the ACLK frequencies of R401; OP15 is loaded from the journal, 0 until then. -/
def pwOpReset (k : Nat) : Nat :=
  match k with
  | 0 => 600 | 1 => 700 | 2 => 800 | 3 => 900 | 4 => 1000 | 5 => 1100 | 6 => 1200 | 7 => 1300
  | 8 => 1400 | 9 => 1500 | 10 => 1550 | 11 => 1600 | 12 => 1650 | 13 => 1700 | 14 => 1750 | _ => 0

/-- The index of a register in its row, when offset `off` of die `die` holds one. -/
def RegRow.index (r : RegRow) (die off : Nat) : Option (Nat × Nat) :=
  if off < r.off then none
  else
    let d := off - r.off
    let i := d / r.stride
    let e := d % r.stride
    if i < r.count die ∧ e % r.stride2 = 0 ∧ e / r.stride2 < r.count2 then some (i, e / r.stride2) else none

/-- PW_DOM_i exists for i = 0-39 and 80-97 only (R421 note 2). -/
def RegRow.exists (r : RegRow) (die i : Nat) : Bool :=
  if die = 99 ∧ r.off = 0x100100 then decide (i < 40 ∨ 80 ≤ i) else true

def findRow (rows : List RegRow) (die off : Nat) : Option (RegRow × Nat × Nat) :=
  match rows with
  | [] => none
  | r :: rs =>
    match r.index die off with
    | some (i, j) => if r.exists die i then some (r, i, j) else none
    | none => findRow rs die off

/-- The row of the register at a set-up address, with its indices. -/
def regAt (addr : Nat) : Option (RegRow × Nat × Nat) :=
  if addr < Reg.setupBase 0 then none
  else findRow regRows ((addr - Reg.setupBase 0) / 0x1000000) ((addr - Reg.setupBase 0) % 0x1000000)

def fieldsReset : List RegField → Nat
  | [] => 0
  | f :: fs => 2 ^ f.lo * f.reset + fieldsReset fs

/-- What a register of row r and first index i of a die reads at reset: PW_OP_k as R401 gives it, TD_DIE_98 and
TD_DIE_99 running (R397). -/
def RegRow.resetVal (r : RegRow) (die i : Nat) : Word :=
  if isCd die ∧ r.off = 0xB00000 then BitVec.ofNat 32 (pwOpReset i)
  else if die = 98 ∧ r.off = 0x100 ∧ 98 ≤ i then 0x200#32
  else BitVec.ofNat 32 (fieldsReset r.fields)

/-- What the set-up address reads at reset; an offset without a register reads 0 (R27 note 2). -/
def regReset (addr : Nat) : Word :=
  match regAt addr with
  | some (r, i, _) => r.resetVal ((addr - Reg.setupBase 0) / 0x1000000) i
  | none => 0

/-! ### Writes (R8, R9) -/

/-- The bits of a field. -/
def RegField.mask (f : RegField) : Word := BitVec.ofNat 32 (2 ^ f.lo * (2 ^ (f.hi + 1 - f.lo) - 1))

/-- What a write of `w` makes of a field's bits in `old`. -/
def RegField.write (f : RegField) (old w : Word) : Word :=
  match f.acc with
  | .ro => old &&& f.mask
  | .rw => w &&& f.mask
  | .wo => 0
  | .w1s => (old ||| w) &&& f.mask
  | .w1c => (old &&& ~~~ w) &&& f.mask

def fieldsWrite (old w : Word) : List RegField → Word
  | [] => 0
  | f :: fs => f.write old w ||| fieldsWrite old w fs

end Sys2Proof.Machine
end

