-- ==== Sys2Proof/Machine/State.lean ====
section
/-! DEFINITION. The state of the module as plain data, what a step can stop with, and the state after reset. -/

namespace Sys2Proof.Machine

/-! ### Stops -/

/-- Why the machine stops with a fault: no rule of the spec stops the module without giving the state it leaves, so there
is no such reason. Safe: a command always answers a next state. -/
inductive Fault where
  deriving DecidableEq, Repr

/-- Why a command has no meaning. -/
inductive Refusal where
  /-- Raised by the dispatch of a command that has no meaning yet. Safe: nothing is claimed of it. -/
  | notModelled (mnemonic : String)
  deriving DecidableEq, Repr

/-! ### Descriptors in the module (R38, R48, R54, R291) -/

/-- What the execution of a descriptor has come to: the parts of the completion record (R50, R53), the merges into
running-maximum slots that completion makes (R88, R90), the dies its transactions used (R392) and its length in cycles of
the unit's clock without holds. -/
structure Result where
  status    : BitVec 8
  detail    : Word
  sat       : Nat
  runMax    : Option Word
  member    : BitVec 8
  merges    : List (Nat × Nat × Word × Bool)
  uses      : List Nat
  /-- The course pairs its requests and responses may have used, by die and pair (R376, R380). -/
  pairs     : List (Nat × Nat)
  cycles    : Nat
  /-- The destination lines written, which a partition rewrites when a fault reaches it later (R126). -/
  lines     : List Nat
  deriving DecidableEq, Repr

/-- How far a descriptor has come. `waiting`: fetched and not started. `started`: its checks passed and its unit executes
it. `faulted`: its unit stopped at a fault whose consequences the fault step of the unit still brings about; `lines` are the
destination lines already written. `done`: executed, its writes outstanding. `completed`: complete under R44, its record
waits for the records before it (R51). -/
inductive Phase where
  | waiting
  | started
  | faulted (status : BitVec 8) (detail : Word) (lines : List Nat)
  | done
  | completed
  deriving DecidableEq, Repr

/-- One descriptor in the module: fetched by a ring, a member copy a fan-out made, or a gang's descriptor received from
another module. -/
structure Flight where
  fid    : Nat
  ring   : Nat
  /-- Where its ring's order puts it: the module of the ring, the ring, and the number of the descriptor it comes from there;
  a member copy has its gang descriptor's place (R43). -/
  place  : Nat × Nat × Nat
  /-- Its number in the order in which descriptors start (R113, R129). -/
  start  : Nat
  index  : Word
  desc   : Desc
  target : Word
  step   : BitVec 48
  lenSrc : Bool
  seed   : Word
  stream : Word
  mover  : BitVec 2
  parent : Option (Nat × Nat)
  level  : Nat
  remote : Option (Nat × Nat)
  /-- The member reports a fanned-out gang waits for in all, and the module at each position of its span (R61, R63). -/
  expect : Nat
  mods   : List Nat
  phase  : Phase
  res    : Result
  /-- The records and lists read at the start (R39), and the scale exponents and E_refs read from slots then, by the
  descriptor bit of their format word (R87). -/
  recs   : List Byte
  vals   : List (Nat × Int)
  /-- Rows a mover has moved to another module so far: it sends a row once the one before is acknowledged (R249). -/
  rows   : Nat
  deriving DecidableEq, Repr

/-- A member's report kept by the home die until the gang is complete (R63, R64). -/
structure Report where
  gang   : Nat
  member : Nat
  res    : Result
  deriving DecidableEq, Repr

/-! ### Logs and outputs -/

/-- What a fault-log entry records (R24 note 1 and the rules named). -/
inductive LogKind where
  | address | setupRights | bias | lost | maintenance | poisonedStore | poisonRead
  | ringRefused | courseRefused | badDoorbell | fetchFault (status : Nat) | recordFault | cplFault
  | corrected | uncorrectable | ppr
  | frameDropped | portChanged | flowOff
  | interruptLost | msiDropped | pcieTimeout | pcieRefused | cxlLost
  | decodeError (reason : Nat) | spillHeader (reason : Nat) | laneFailed
  | laneCorrected (row lane : Nat) | laneUncorrectable (row lane : Nat)
  | weightParity | refclkBad | dieStart | i3cIgnored | courseFault (reason : Nat) | dieLost
  deriving DecidableEq, Repr

/-- The requester a fault-log entry names (R24 note 1): none, a descriptor of the module, a core, a requester of set-up space,
a PCIe or CXL device of an I/O die, another module, a die controller's own ring work, the scrub. -/
inductive LogBy where
  | nobody
  | desc (fid : Nat)
  | hart (h : Nat)
  | setup (req : Requester)
  | device (io : Nat)
  | module (m : Nat)
  | controller (die : Nat)
  | scrub
  deriving DecidableEq, Repr

/-- The access type a fault-log entry names (R24 note 1). -/
inductive LogAcc where
  | none
  | read
  | write
  | fetch
  | atomic
  deriving DecidableEq, Repr

/-- A place in a stack as its controller decodes an address (R233): the channel, the pseudo-channel and the channel-local
address. -/
structure HbmPlace where
  channel : Nat
  pseudo  : Nat
  loc     : Nat
  deriving DecidableEq, Repr

/-- One entry of a die's fault log: an address or index, a further word, the requester and its access type (R24 note 1), and
the place in the stack of an HBM address (R233). -/
structure LogEntry where
  die   : Nat
  kind  : LogKind
  addr  : Nat
  info  : Nat
  who   : LogBy
  acc   : LogAcc
  place : Option HbmPlace
  deriving DecidableEq, Repr

/-- What the module sends out, or answers to a requester outside the modelled block. -/
inductive OutEvent where
  | coreData (hart : Nat) (data : List Byte)
  | coreDone (hart : Nat)
  | coreFault (hart cause : Nat)
  | setupData (req : Requester) (value : Word)
  | accessFault (req : Requester) (write : Bool)
  | frame (port : Nat) (f : Frame)
  | pcieRequest (io tag : Nat) (config : Bool) (addr : Nat) (access : BusAccess)
  | pcieOnes (io tag : Nat)
  | outboundData (io tag : Nat) (data : List Byte)
  | deviceData (io : Nat) (data : List Byte) (poisoned : Bool)
  | deviceUnsupported (io : Nat)
  | cxlData (io : Nat) (data : List Byte) (poisoned : Bool)
  | bisnp (io line : Nat)
  | linkTraining (io : Nat) (mode : Nat)
  /-- PERST# of a port as driven, none where it is received, and whether its 100 MHz clock pair is on (R446). -/
  | portPins (io : Nat) (perst : Option Bool) (clock : Bool)
  | snoopData (agent line : Nat) (data : List Byte)
  | snoopInvalid (agent line : Nat)
  | snoopLost (agent line : Nat)
  | gangReport (origin ref member : Nat) (r : Result)
  | gangSend (module : Nat) (c : GangCopy)
  | i3cBytes (data : List Byte)
  | i3cAck
  | i3cNoAck
  | mctp (data : List Byte)
  | spdm (path : SpdmPath) (data : List Byte)
  | spdmError (path : SpdmPath) (code : Nat)
  | jtagData (bits : Nat) (len : Nat)
  /-- What the five outputs of the boundary register drive, none for an output that is off (R456). -/
  | pins (levels : List (Option Bool))
  | memData (data : List Byte) (poisoned : Bool)
  | memAck (poisoned : Bool)
  | memFault (status : BitVec 8)
  deriving DecidableEq, Repr

/-! ### Engines -/

/-- A poison mark on a row of the tile buffers: the lanes it covers and those of them not yet written again (R126, R128). -/
structure RowMark where
  row  : Nat
  lo   : Nat
  hi   : Nat
  left : List Nat
  deriving DecidableEq, Repr

/-! ### Memories -/

/-- A post-package repair in progress (R240): the stack, soft or hard, and the lines read into the buffer, each with
whether it read uncorrectable. -/
structure Repair where
  stack  : Nat
  hard   : Bool
  buffer : List (Nat × List Byte × Bool)
  deriving DecidableEq, Repr

/-- A working-memory access that waits for initialisation to end (R245 note 1). -/
structure WmWait where
  die      : Nat
  offset   : Nat
  access   : BusAccess
  poisoned : Bool
  eccs     : List Ecc
  deriving DecidableEq, Repr

/-! ### Host dies and coherence (R346-R357) -/

inductive CopyState where
  | shared
  | exclusive
  | modified
  deriving DecidableEq, Repr

/-- A line a caching agent holds (R351); `data` is the agent's own data when the line is modified. -/
structure Copy where
  agent : Nat
  line  : Nat
  state : CopyState
  data  : List Byte
  deriving DecidableEq, Repr

/-- A snoop-filter entry of a host-memory home (R353): S, or O naming the agent. -/
structure FilterEntry where
  line  : Nat
  owner : Option Nat
  deriving DecidableEq, Repr

/-- A grant of an HBM home (R354). -/
structure Grant where
  home    : Nat
  line    : Nat
  hostDie : Nat
  hart    : Nat
  deriving DecidableEq, Repr

/-- A hart released from reset, as SM leaves it (R432): in machine mode or not, its pc, and its registers x0 to x31. -/
structure HartSt where
  hart    : Nat
  machine : Bool
  pc      : DWord
  x       : List DWord
  deriving DecidableEq, Repr

/-- A core's private caches (R346). -/
inductive CoreCache where
  | l1i
  | l1d
  | l2
  deriving DecidableEq, Repr

/-- A line a private cache holds. The bytes are those of an L1I, which no snoop reaches (R351); L1D and L2 lines are as their die
holds them, whose L3 includes them. -/
structure CoreLine where
  cache : CoreCache
  hart  : Nat
  line  : Nat
  data  : List Byte
  deriving DecidableEq, Repr

structure HostSt where
  copies    : List Copy
  cores     : List CoreLine
  filter    : List FilterEntry
  grants    : List Grant
  resv      : List (Nat × Nat)
  imsicPend : List Nat
  imsicM    : List Nat
  stimecmp  : List (Nat × DWord)
  stip      : List Nat
  /-- Granules (64 KiB, counted from address 0) whose flip waits for answers, with the flipping descriptor (R359, R372). -/
  flips     : List (Nat × Nat)
  /-- The harts released from reset (R432). -/
  harts     : List HartSt
  deriving DecidableEq, Repr

/-! ### PCIe and CXL (R362-R371) -/

/-- A non-posted request of the root port that waits for its completion (R363). -/
structure NonPosted where
  io  : Nat
  tag : Nat
  req : Requester
  deriving DecidableEq, Repr

/-- A line of the external filter (R366). -/
structure ExtLine where
  io   : Nat
  line : Nat
  excl : Bool
  deriving DecidableEq, Repr

/-- Who makes an access that may wait for an external host: a descriptor, a die controller, a hart, a device of a port, the frames of a
flow, or a request at a home. -/
inductive Waiter where
  | desc (fid : Nat)
  | controller (die : Nat)
  | hart (n : Nat)
  | device (io : Nat)
  | frame (flow : Nat)
  | home (die : Nat)
  deriving DecidableEq, Repr

/-- An access that waits on a line's BISnp, with the dies it uses: the line's, and those its way crosses under the route tables in force
as it was issued (R392). -/
structure Waiting where
  who  : Waiter
  line : Nat
  dies : List Nat
  deriving DecidableEq, Repr

structure PcieSt where
  np      : List NonPosted
  nextTag : Nat
  ext     : List ExtLine
  waits   : List (Nat × Nat)
  /-- The accesses that wait on a line's BISnp, and those that waited when its answer came or the external host was lost, which are
  served under EXT (R359, R366, R367). -/
  waiters : List Waiting
  exempt  : List (Waiter × Nat)
  hdm     : List Nat
  walk    : List Nat
  deriving DecidableEq, Repr

/-! ### Fabric (R316-R345) -/

/-- A sequenced frame sent on a flow and not yet acknowledged (R332): the descriptor it belongs to, how often it has been sent, its
number among the frames its descriptor formed, and the dies and course pairs its way to the flow and back uses (R376, R392). -/
structure Sent where
  flow  : Nat
  seq   : BitVec 24
  frame : Frame
  fid   : Option Nat
  sends : Nat
  ix    : Nat
  uses  : List Nat
  pairs : List (Nat × Nat)
  deriving DecidableEq, Repr

/-- A copy of a spanning gang's descriptor sent to another module of the span, while the gang waits: the gang's descriptor, the module,
the flow it went over and how often it has been sent, 0 once a member there has answered (R60, R63, R332). -/
structure GangOut where
  fid    : Nat
  module : Nat
  flow   : Nat
  sends  : Nat
  deriving DecidableEq, Repr

/-- A line of another module's memory delivered by READ_RSP for a descriptor (R331), or the status its READ was answered with
instead (R332, R333). -/
structure RemoteLine where
  fid      : Nat
  flow     : Nat
  addr     : Nat
  data     : List Byte
  poisoned : Bool
  fault    : Nat
  /-- The detail the status asks for, where it does not come from the flow. -/
  detail   : Option Word
  deriving DecidableEq, Repr

/-- The content of a routed frame before it gets its route and numbers. -/
structure FrameBody where
  type    : Nat
  addr    : Nat := 0
  aux     : Nat := 0
  payload : List Byte := []
  mask    : Word := 0
  last    : Bool := false
  poison  : Bool := false
  deriving DecidableEq, Repr

/-- A write of one plane of an MXFP4 block that follows the other plane's, once the frames of that, by their numbers, are
acknowledged (R84): a frame on a flow, or bytes of this module's memory. -/
structure Guard where
  fid   : Nat
  after : List Nat
  frame : Option (Nat × FrameBody)
  ix    : Nat
  addr  : Nat
  bytes : List Byte
  mark  : Bool
  deriving DecidableEq, Repr

/-- One element of a reduction: the 80-bit partial, its GNaN flag and whether poison reached it (R95, R339, R340). -/
structure Partial where
  sum    : BitVec 80
  gnan   : Bool
  poison : Bool
  deriving DecidableEq, Repr

/-- A GRED in progress (R337-R340): the partials, per in-flow the units received and granted, how many units went up, how many
results were written, and the units the parent granted. -/
structure Gred where
  fid      : Nat
  die      : Nat
  cid      : Nat
  parts    : List Partial
  recv     : List (Nat × Nat)
  granted  : List (Nat × Nat)
  upGrant  : Nat
  sentUp   : Nat
  resDone  : Nat
  deriving DecidableEq, Repr

/-- A barrier record of a fabric engine (R341). -/
structure Barrier where
  io      : Nat
  cid     : Nat
  step    : BitVec 48
  arrived : List Nat
  deriving DecidableEq, Repr

/-- Credits owed to the peer of a port: the pool and the blocks (R324). -/
structure Owed where
  port   : Nat
  pool   : Nat
  blocks : Nat
  deriving DecidableEq, Repr

/-- A frame that waits at an output port for credits: its pool, and for a frame in transit the credits its buffer holds (R324). -/
structure TxFrame where
  port  : Nat
  pool  : Nat
  frame : Frame
  owed  : Option Owed
  deriving DecidableEq, Repr

structure FabricSt where
  credits   : List (Nat × List Nat)
  txq       : List TxFrame
  unacked   : List Sent
  rxVis     : List (Nat × Nat)
  nakGap    : List (Nat × BitVec 24)
  syncSends : List (Nat × Nat)
  greds     : List Gred
  barriers  : List Barrier
  remoteRd  : List RemoteLine
  gangOut   : List GangOut
  guards    : List Guard
  capoSeq   : BitVec 24
  shiftSeq  : BitVec 24
  deriving DecidableEq, Repr

/-! ### Courses, clocks and lost dies (R373-R398) -/

/-- The flit a pair is replaying and how often it has been replayed (R375). -/
structure CourseSt where
  die     : Nat
  pair    : Nat
  flit    : Nat
  replays : Nat
  deriving DecidableEq, Repr

/-- A loss notice whose answers are outstanding (R392): the lost die, the descriptors that were executing, and the accesses waiting for
an external host that used the die, by requester and line. -/
structure Loss where
  die   : Nat
  fids  : List Nat
  lines : List (Waiter × Nat)
  deriving DecidableEq, Repr

/-! ### Power (R399-R422) -/

/-- An operating-point change in progress (R402): where the frequency (MHz) and the voltage (mV) stand and which of the two
moves. -/
structure OpChange where
  die    : Nat
  goal   : Nat
  mv     : Nat
  slew   : Bool
  deriving DecidableEq, Repr

/-- An offer of budget in a shifting group (R411): the other module, its sequence number and the watts. -/
structure Offer where
  group  : Nat
  sender : Nat
  seq    : BitVec 24
  watts  : Nat
  deriving DecidableEq, Repr

structure PowerSt where
  bins      : List Nat
  eBin      : Nat
  tLeft     : Nat
  allow     : Int
  lowered   : Bool
  floorOn   : Bool
  lehr      : List (Nat × Nat)
  thermal   : List (Nat × Nat)
  hotTicks  : List (Nat × Nat)
  longDroop : List Nat
  changes   : List OpChange
  droops    : List Nat
  deferred  : List Nat
  volts     : List (Nat × Nat)
  capo      : List (Nat × Nat × BitVec 24 × Nat)
  capoSent  : List (Nat × Nat)
  given     : List Offer
  recv      : List Offer
  hclk      : List (Nat × Nat)
  /-- The readings of the last 2 ms, newest first (R418 code 5). -/
  samples   : List Nat
  outRange  : Nat
  /-- The record of the safe state's cause waits for the input to lie in range (R419). -/
  causeDue  : Bool
  deriving DecidableEq, Repr

/-! ### Pins (R447-R458) -/

structure PinsSt where
  powered   : Bool
  armed     : Bool
  thrSeen   : Bool
  /-- An interval of 100 microseconds of THROTTLE_N runs, and changes have been collected in it (R448). -/
  thrInt    : Bool
  thrCol    : Bool
  /-- MOD_RESET_N holds the module in reset, an interval of its own runs, and changes have been collected in it (R448, R450). -/
  rst       : Bool
  rstInt    : Bool
  rstCol    : Bool
  startWait : Bool
  /-- MBX_BUSY is asserted for a collision (R259). -/
  mbxPulse  : Bool
  /-- PWR_GOOD is asserted (R452). -/
  pwrGood   : Bool
  deriving DecidableEq, Repr

/-! ### SM: flashes, journal, identity, management bus, attestation (R423-R444, R454-R456) -/

/-- A journal operation in progress (R443). -/
structure JournalOp where
  op   : Nat
  type : BitVec 16
  key  : Word
  data : BitVec 384
  deriving DecidableEq, Repr

/-- An image update in progress (R431): the slot written and the image. -/
structure FwUpdate where
  slot  : Nat
  image : List Byte
  readable : Bool
  deriving DecidableEq, Repr

/-- The identity seed and what is derived from it: the private scalars of the identity and alias keys, the counter key (R427), and the
alias certificate that the identity key signs at each start (R434). -/
structure SmKeys where
  seed    : BitVec 256
  ident   : Nat
  aliasD  : Nat
  counter : List Byte
  cert    : List Byte
  deriving DecidableEq, Repr

structure SmSt where
  imgFlash   : List (Nat × Byte)
  journal    : List (Nat × BitVec 512)
  counter    : Word
  /-- The key that the assembly test installed at the counter, and the digests of two signing keys in the boot ROM (R429, R430). -/
  counterKey : List Byte
  romKeys    : List (List Byte)
  keys       : Option SmKeys
  jop        : Option JournalOp
  jwait      : List JournalOp
  compact    : Bool
  erase      : Bool
  fwup       : Option FwUpdate
  cwrite     : Option Word
  mbxServed  : Bool
  mctpServed : Bool
  dynAddr    : List (Bool × BitVec 7)
  /-- The I3C targets (true: the MCTP target) whose events are enabled (R454). -/
  i3cEvents  : List Bool
  mctpEid    : Byte
  /-- A private transfer at the management target in progress, and whether it wrote mailbox words (R258, R260, R455). -/
  i3c        : Option Bool
  spdmVer    : List SpdmPath
  spdmAlg    : List SpdmPath
  deriving DecidableEq, Repr

structure JtagSt where
  ir  : Byte
  bsr : BitVec 13
  upd : BitVec 13
  deriving DecidableEq, Repr

/-- The last pass a partition placed: its beats S and F and its vectors, with the descriptors that had started behind it, whose
passes go on from it (R105). -/
structure PassEnd where
  key   : Nat
  heirs : List Nat
  s     : Nat
  f     : Nat
  m     : Nat
  deriving DecidableEq, Repr

/-! ### The state -/

/-- The state of the module and the queue of waiting commands. -/
structure State where
  pending  : List Instr
  /-- Set-up registers by set-up address; an unlisted one reads its reset value. -/
  regs     : List (Nat × Word)
  /-- HBM, host memory and working memory by physical address; an unlisted byte reads 0. -/
  mem      : List Host.Cell
  /-- Poisoned lines, by line number (address div 64), rising. -/
  poison   : List Nat
  moduleId : Nat
  flights  : List Flight
  nextFid  : Nat
  /-- The number the next descriptor to start gets (R113, R129). -/
  nextStart : Nat
  /-- The ring each unit served last, by unit handle (R30). -/
  turns    : List (Nat × Nat)
  reports  : List Report
  sigQ     : List (Nat × Nat)
  irqQ     : List (Nat × BitVec 24)
  flog     : List LogEntry
  out      : List OutEvent
  free     : Nat
  /-- TB0-TB3 of every engine pair, by `tbKey`. -/
  tb       : List (Nat × Word)
  tbMarks  : List RowMark
  /-- V0-V31 and H of every engine pair, by `vrKey`. -/
  vr       : List (Nat × Word)
  vrMarks  : List Nat
  /-- Active and shadow weight registers, by `cellKey`. -/
  wAct     : List (Nat × Word)
  wShd     : List (Nat × Word)
  /-- The last passes of the partitions that go on with a descriptor already started (R105). -/
  passes   : List PassEnd
  scrubPos : List (Nat × Nat)
  wir      : List (Nat × BitVec 16)
  ppr      : List Repair
  wmQ      : List WmWait
  /-- The mailbox words by index, and those that read uncorrectable. -/
  mbx      : List (Nat × Word)
  mbxBad   : List Nat
  host     : HostSt
  pcie     : PcieSt
  fab      : FabricSt
  /-- COMMIT descriptors whose barrier has started (R306). -/
  commits  : List Nat
  courses  : List CourseSt
  refQ     : List (Nat × Bool × Bool)
  losses   : List Loss
  /-- Requesters whose outstanding access was answered with DIE_LOST, with the line and the lost die (R392). -/
  answered : List (Waiter × Nat × Nat)
  pw       : PowerSt
  pins     : PinsSt
  sm       : SmSt
  jtag     : JtagSt
  deriving DecidableEq, Repr

/-- The module at power-on: every register at the value its table gives, nothing in flight. The values the spec leaves
open are named in the assumption log (entries 2 to 14). -/
def State.reset : State where
  pending := []
  regs := []
  mem := []
  poison := []
  moduleId := 0
  flights := []
  nextFid := 0
  nextStart := 1
  turns := []
  reports := []
  sigQ := []
  irqQ := []
  flog := []
  out := []
  free := 0
  tb := []
  tbMarks := []
  vr := []
  vrMarks := []
  wAct := []
  wShd := []
  passes := []
  scrubPos := []
  wir := []
  ppr := []
  wmQ := []
  mbx := []
  mbxBad := []
  host := { copies := [], cores := [], filter := [], grants := [], resv := [], imsicPend := [], imsicM := [], stimecmp := [],
            stip := [], flips := [], harts := [] }
  pcie := { np := [], nextTag := 0, ext := [], waits := [], waiters := [], exempt := [], hdm := [], walk := [] }
  fab := { credits := [], txq := [], unacked := [], rxVis := [], nakGap := [], syncSends := [], greds := [],
           barriers := [], remoteRd := [], gangOut := [], guards := [], capoSeq := 0, shiftSeq := 0 }
  commits := []
  courses := []
  refQ := []
  losses := []
  answered := []
  pw := { bins := [], eBin := 0, tLeft := 0, allow := 0, lowered := false, floorOn := false, lehr := [], thermal := [],
          hotTicks := [], longDroop := [], changes := [], droops := [], deferred := [], volts := [], capo := [],
          capoSent := [], given := [], recv := [], hclk := [], samples := [], outRange := 0, causeDue := false }
  pins := { powered := true, armed := false, thrSeen := false, thrInt := false, thrCol := false, rst := false, rstInt := false,
            rstCol := false, startWait := false, mbxPulse := false, pwrGood := false }
  sm := { imgFlash := [], journal := [], counter := 0, counterKey := [],
          romKeys := [Config.romKeys false, Config.romKeys true], keys := none, jop := none, jwait := [], compact := false,
          erase := false, fwup := none, cwrite := none, mbxServed := false, mctpServed := false, dynAddr := [],
          i3cEvents := [], mctpEid := 0, i3c := none, spdmVer := [], spdmAlg := [] }
  jtag := { ir := 0x01, bsr := 0, upd := 0 }

end Sys2Proof.Machine
end

