-- ==== Sys2Proof/Machine/Ops.lean ====
section
/-! DEFINITION. The named operations on the state: sparse maps, set-up registers, memory with its poison marks, the copies
caching agents hold and the bias of granules, the map of addresses, the mesh, fault logs, interrupts, and the common enable
and disable machine. -/

namespace Sys2Proof.Machine

/-! ### Sparse maps in canonical form: keys rising, no entry equal to what an unlisted key reads as -/

section Maps
variable {α : Type}

/-- What a map reads at a key; `d` gives what an unlisted key reads as. -/
def lookup (d : Nat → α) (m : List (Nat × α)) (k : Nat) : α :=
  match m with
  | [] => d k
  | p :: m' => if p.1 = k then p.2 else lookup d m' k

/-- The entries of a run of values from key `k` that differ from what the keys read as unlisted. -/
def runCells [DecidableEq α] (d : Nat → α) (k : Nat) (vs : List α) : List (Nat × α) :=
  match vs with
  | [] => []
  | v :: vs' => if v = d k then runCells d (k + 1) vs' else (k, v) :: runCells d (k + 1) vs'

/-- Store a run of values from key `k` on. -/
def storeRun [DecidableEq α] (d : Nat → α) (m : List (Nat × α)) (k : Nat) (vs : List α) : List (Nat × α) :=
  m.filter (fun p => decide (p.1 < k)) ++ (runCells d k vs ++ m.filter (fun p => decide (k + vs.length ≤ p.1)))

/-- Store one value. -/
def store [DecidableEq α] (d : Nat → α) (m : List (Nat × α)) (k : Nat) (v : α) : List (Nat × α) :=
  storeRun d m k [v]

/-- The canonical form of a map. -/
abbrev Canonical (d : Nat → α) (m : List (Nat × α)) : Prop :=
  m.Pairwise (fun p q => p.1 < q.1) ∧ ∀ p ∈ m, p.2 ≠ d p.1

end Maps

/-- Reset the entries of a range of keys to what they read as unlisted. -/
def eraseRange {α : Type} (m : List (Nat × α)) (lo hi : Nat) : List (Nat × α) :=
  m.filter (fun p => decide (p.1 < lo ∨ hi ≤ p.1))

/-! ### Sets of numbers, rising -/

def setInsert (m : List Nat) (k : Nat) : List Nat :=
  m.filter (fun x => decide (x < k)) ++ (k :: m.filter (fun x => decide (k < x)))

def setErase (m : List Nat) (k : Nat) : List Nat := m.filter (fun x => decide (x ≠ k))

def setEraseRange (m : List Nat) (lo hi : Nat) : List Nat := m.filter (fun x => decide (x < lo ∨ hi ≤ x))

/-! ### Bit fields and bytes -/

/-- Bits [hi:lo] of a word as a number. -/
def wfld (w : Word) (hi lo : Nat) : Nat := w.toNat / 2 ^ lo % 2 ^ (hi + 1 - lo)

/-- Bits [hi:lo] of a word set to `v`, the others kept. -/
def wset (w : Word) (hi lo v : Nat) : Word :=
  BitVec.ofNat 32 (2 ^ (hi + 1) * (w.toNat / 2 ^ (hi + 1)) + 2 ^ lo * (v % 2 ^ (hi + 1 - lo)) + w.toNat % 2 ^ lo)

def bit (w : Word) (i : Nat) : Bool := w.getLsbD i

/-- Little-endian (R7, R76): the number n bytes spell. -/
def leNat : List Byte → Nat
  | [] => 0
  | b :: bs => b.toNat + 256 * leNat bs

/-- The n lowest bytes of a number, least significant first. -/
def leBytes : Nat → Nat → List Byte
  | 0, _ => []
  | n + 1, v => BitVec.ofNat 8 v :: leBytes n (v / 256)

/-! ### Set-up registers -/

/-- TD_DIE_40 to TD_DIE_79 read the state of the compute die the stack is attached to (R397 note 1). -/
def regAlias (a : Nat) : Nat :=
  if Reg.tdDie 40 ≤ a ∧ a ≤ Reg.tdDie 79 then a - 160 else a

/-- A register's value. -/
def State.reg (s : State) (a : Nat) : Word := lookup regReset s.regs (regAlias a)

def State.setReg (s : State) (a : Nat) (v : Word) : State := { s with regs := store regReset s.regs a v }

/-- A field of a register, and a register with one field changed. -/
def State.fld (s : State) (a hi lo : Nat) : Nat := wfld (s.reg a) hi lo
def State.putFld (s : State) (a hi lo v : Nat) : State := s.setReg a (wset (s.reg a) hi lo v)
def State.flag (s : State) (a i : Nat) : Bool := (s.reg a).getLsbD i
def State.setFlag (s : State) (a i : Nat) (b : Bool) : State := s.putFld a i i (if b then 1 else 0)

/-- A counter register raised by n, saturating at all ones. -/
def State.count (s : State) (a : Nat) (n : Nat := 1) : State :=
  s.setReg a (BitVec.ofNat 32 (min (s.reg a |>.toNat |> (· + n)) 0xFFFFFFFF))

/-! ### The map of addresses (R21) -/

inductive Region where
  | hbm (n off : Nat)
  | hostMem (h off : Nat)
  | workMem (d off : Nat)
  | setup (i off : Nat)
  | unmapped
  deriving DecidableEq, Repr

def regionOf (a : Nat) : Region :=
  if a < 0x050000000000 then .hbm (a / 0x2000000000) (a % 0x2000000000)
  else if 0x080000000000 ≤ a ∧ a < 0x0C0000000000 then
    .hostMem ((a - 0x080000000000) / 0x8000000000) ((a - 0x080000000000) % 0x8000000000)
  else if 0x0C0000000000 ≤ a ∧ a < 0x0C2800000000 then
    .workMem ((a - 0x0C0000000000) / 0x100000000) ((a - 0x0C0000000000) % 0x100000000)
  else if 0x0E0000000000 ≤ a ∧ a < 0x0E0064000000 then
    .setup ((a - 0x0E0000000000) / 0x1000000) ((a - 0x0E0000000000) % 0x1000000)
  else .unmapped

def hbmBase (n : Nat) : Nat := 0x2000000000 * n
def hostBase (h : Nat) : Nat := 0x080000000000 + 0x8000000000 * h
def wmBase (d : Nat) : Nat := 0x0C0000000000 + 0x100000000 * d
def hbmSize : Nat := 0x1800000000
def hostSize : Nat := 0x8000000000
def wmSize : Nat := 0x8000000

/-- Memory stands at the address (R21: the populated parts of the windows). -/
def populated (a : Nat) : Bool :=
  match regionOf a with
  | .hbm _ off => decide (off < hbmSize)
  | .hostMem _ _ => true
  | .workMem _ off => decide (off < wmSize)
  | .setup _ _ => false
  | .unmapped => false

/-- The die that serves a memory address (R23): the compute die of a stack, the host die, the compute die. -/
def ownerDie (a : Nat) : Nat :=
  match regionOf a with
  | .hbm n _ => n
  | .hostMem h _ => 80 + h
  | .workMem d _ => d
  | .setup i _ => i
  | .unmapped => 0

def isHbm (a : Nat) : Bool := match regionOf a with | .hbm _ _ => true | _ => false
def isHostMem (a : Nat) : Bool := match regionOf a with | .hostMem _ _ => true | _ => false
def isWorkMem (a : Nat) : Bool := match regionOf a with | .workMem _ _ => true | _ => false

/-- Where a stack's controller decodes an address of its HBM to (R233). -/
def hbmPlace (a : Nat) : Option HbmPlace :=
  match regionOf a with
  | .hbm _ o => some { channel := o / 0x100 % 32, pseudo := o / 0x40 % 2, loc := o / 0x2000 * 0x100 + o % 0x100 }
  | _ => none

/-- The LPDDR5X channel of an address of host memory: bits [12:8] of its offset (R349). -/
def hostChannel (a : Nat) : Option Nat :=
  match regionOf a with
  | .hostMem _ o => some (o / 0x100 % 32)
  | _ => none

/-- The entries a stack's controller makes, which give the decoded place of their address (R233). -/
def LogKind.ofStack : LogKind → Bool
  | .maintenance | .poisonedStore | .poisonRead | .corrected | .uncorrectable | .ppr => true
  | _ => false

/-! ### Fault logs, outputs, interrupts, free values -/

/-- An entry of a die's fault log. -/
def logEntry (die : Nat) (kind : LogKind) (addr : Nat := 0) (info : Nat := 0) (who : LogBy := .nobody) (acc : LogAcc := .none) :
    LogEntry := ⟨die, kind, addr, info, who, acc, if kind.ofStack then hbmPlace addr else none⟩

/-- Place an entry in a die's fault log. -/
def State.log (s : State) (die : Nat) (kind : LogKind) (addr : Nat := 0) (info : Nat := 0) (who : LogBy := .nobody)
    (acc : LogAcc := .none) : State :=
  { s with flog := s.flog ++ [logEntry die kind addr info who acc] }

/-- The sequence number the next entry of a die's fault log gets. -/
def State.nextSeq (s : State) (die : Nat) : Word :=
  Config.faultSeq die (s.flog.filter (fun e => decide (e.die = die))).length

def State.emit (s : State) (e : OutEvent) : State := { s with out := s.out ++ [e] }

/-- Send an interrupt message (R350): the source die and the host_die, hart and irq_id bits of an IRQ register. -/
def State.interrupt (s : State) (src : Nat) (target : Nat) : State :=
  { s with irqQ := s.irqQ ++ [(src, BitVec.ofNat 24 target)] }

/-- The next free value of each kind; each use advances the counter (entry 1). -/
def State.freeWord (s : State) : Word × State := (Config.freeWord s.free, { s with free := s.free + 1 })
def State.freeCount (s : State) : Nat × State := (Config.freeCount s.free, { s with free := s.free + 1 })
def State.freeBytes (s : State) (n : Nat) : List Byte × State :=
  ((List.range n).map (fun i => Config.freeByte (s.free + i)), { s with free := s.free + n })

/-! ### Rings and dies (R11, R13, R28) -/

/-- The die that holds a module ring number, and its local number there (R28). -/
def ringDie (ring : Nat) : Nat :=
  if ring < 3840 then ring / 96 else if ring < 4000 then 88 + (ring - 3840) / 16 else 80 + (ring - 4000) / 12
def ringLocal (ring : Nat) : Nat :=
  if ring < 3840 then ring % 96 else if ring < 4000 then (ring - 3840) % 16 else (ring - 4000) % 12

/-- The ring a die holds under a local number. -/
def ringOf (die k : Nat) : Nat :=
  if isCd die then die * 96 + k else if isIo die then 3840 + (die - 88) * 16 + k else 4000 + (die - 80) * 12 + k

/-- A register of a ring context, by its address function. -/
def State.ringReg (s : State) (f : Nat → Nat → Nat) (ring : Nat) : Word := s.reg (f (ringDie ring) (ringLocal ring))
def ringAddr (f : Nat → Nat → Nat) (ring : Nat) : Nat := f (ringDie ring) (ringLocal ring)

/-- The compute die a die is attached to (R13); a compute die is its own. -/
def attachedTo (die : Nat) : Nat :=
  if isCd die then die
  else if isStack die then die - 40
  else if isHd die then die - 48
  else if die = 88 then 0 else if die = 97 then 7 else if isIo die then die - 89
  else if die = 98 then 16 else 23

/-- TD_DIE_i.state (R397). -/
def State.dieState (s : State) (die : Nat) : Nat := s.fld (Reg.tdDie die) 11 8

/-- A die that answers nothing: off, lost or being readmitted (R24, R393, R417). -/
def State.dieDown (s : State) (die : Nat) : Bool :=
  s.dieState die == 0 || s.dieState die == 3 || s.dieState die == 4

/-! ### Copies in caches and memory bytes (R22, R351) -/

/-- The data of the modified copy of a line, when an agent holds one. -/
def State.modifiedCopy (s : State) (line : Nat) : Option (List Byte) :=
  (s.host.copies.find? (fun c => decide (c.line = line ∧ c.state = .modified))).map (·.data)

def memDefault : Nat → Byte := fun _ => 0

/-- The 64 bytes of a line's data. -/
def lineOf (d : List Byte) : List Byte := (List.range 64).map (fun i => d.getD i 0)

/-- The byte memory itself holds. -/
def State.memByte (s : State) (a : Nat) : Byte := lookup memDefault s.mem a

/-- The byte every coherent requester reads (R22): a modified copy's data stands before memory's. -/
def State.byte (s : State) (a : Nat) : Byte :=
  match s.modifiedCopy (a / 64) with
  | some d => d.getD (a % 64) 0
  | none => s.memByte a

def State.bytes (s : State) (a n : Nat) : List Byte := (List.range n).map (fun i => s.byte (a + i))

def State.linePoisoned (s : State) (line : Nat) : Bool := s.poison.contains line

/-- Some line of the bytes a to a + n - 1 is poisoned. -/
def State.anyPoison (s : State) (a n : Nat) : Bool :=
  s.poison.any (fun l => decide (a / 64 ≤ l ∧ n ≠ 0 ∧ l ≤ (a + n - 1) / 64))

/-- Store bytes as memory holds them, with no rule of poison or coherence. -/
def State.putMem (s : State) (a : Nat) (bs : List Byte) : State := { s with mem := storeRun memDefault s.mem a bs }

def State.markPoison (s : State) (line : Nat) : State := { s with poison := setInsert s.poison line }
def State.clearPoison (s : State) (line : Nat) : State := { s with poison := setErase s.poison line }

/-- Give up every copy of a line, with its grants and reservations; a modified one is written back first, a whole-line write, which
clears a mark (SNP_INV, R236, R352-R354); the lines its die's cores hold in L1D and L2 go with it, inclusive as the L3 is (R346). -/
def State.invalidate (s : State) (line : Nat) : State :=
  let s := match s.modifiedCopy line with
    | some d => (s.putMem (64 * line) (lineOf d)).clearPoison line
    | none => s
  { s with
    host := { s.host with
      copies := s.host.copies.filter (fun c => decide (c.line ≠ line))
      cores := s.host.cores.filter (fun c => decide (c.line ≠ line ∨ c.cache = .l1i))
      filter := s.host.filter.filter (fun e => decide (e.line ≠ line))
      grants := s.host.grants.filter (fun g => decide (g.line ≠ line))
      resv := s.host.resv.filter (fun p => decide (p.2 ≠ line)) } }

/-- Write bytes that lie within one line, as R236 and R244 lay down: a poisoned line takes only whole-line writes; the mark
follows the data written. The second part of the answer is whether the acknowledgement is marked poisoned. -/
def State.writeLine (s : State) (a : Nat) (bs : List Byte) (mark : Bool) : State × Bool :=
  let s := s.invalidate (a / 64)
  if bs.length = 64 then
    let s := s.putMem a bs
    (if mark then s.markPoison (a / 64) else s.clearPoison (a / 64), false)
  else if s.linePoisoned (a / 64) then (s, true)
  else
    let s := s.putMem a bs
    (if mark then s.markPoison (a / 64) else s, false)

/-- Write a run of bytes, split at line boundaries (R234). `fuel` is the number of bytes. -/
def State.writeRun (s : State) (a : Nat) (bs : List Byte) (mark : Bool) (fuel : Nat) : State × Bool :=
  match fuel with
  | 0 => (s, false)
  | fuel + 1 =>
    match bs with
    | [] => (s, false)
    | _ :: _ =>
      let k := 64 - a % 64
      let (s1, p1) := s.writeLine a (bs.take k) mark
      let (s2, p2) := s1.writeRun (a + k) (bs.drop k) mark fuel
      (s2, p1 || p2)

def State.write (s : State) (a : Nat) (bs : List Byte) (mark : Bool := false) : State × Bool :=
  s.writeRun a bs mark bs.length

/-! ### Granule bias (R355, R356) -/

/-- The base of the bias table of a home, and the granule of an address counted from the home's window base. -/
def State.biasBase (s : State) (home : Nat) : Nat :=
  if isHd home then
    0x100000000 * s.fld (Reg.hxBiasBaseHi home) 15 0 + 0x10000 * s.fld (Reg.hxBiasBaseLo home) 31 16
  else
    0x100000000 * s.fld (Reg.hcBiasBaseHi home) 15 0 + 0x10000 * s.fld (Reg.hcBiasBaseLo home) 31 16

def granuleOf (a : Nat) : Nat :=
  match regionOf a with
  | .hbm _ off => off / 0x10000
  | .hostMem _ off => off / 0x10000
  | _ => 0

/-- The code of an address's granule: two bits of the home's table (R356). Working memory acts as DEV (R355). What a home takes
from a poisoned table line is open (entry 1). -/
def State.biasCode (s : State) (a : Nat) : Nat :=
  if isHbm a || isHostMem a then
    let g := granuleOf a
    let b := s.biasBase (ownerDie a) + g / 4
    if s.linePoisoned (b / 64) then Config.poisonedBias a % 4 else (s.memByte b).toNat / 2 ^ (2 * (g % 4)) % 4
  else 0

/-- An external host is UP on IO0 or IO1 (R365, R371), and the I/O die holding the endpoint is not lost (R368). -/
def State.extUp (s : State) : Bool :=
  [88, 89].any (fun io => s.fld (Reg.hxPcieCtrl io) 1 0 == 2 && s.fld (Reg.hxPcieStat io) 4 3 == 1 && !s.dieDown io)

/-- The bias that rules an access: EXT acts as HELD whenever no external host is UP (R355). -/
def State.bias (s : State) (a : Nat) : Nat :=
  let c := s.biasCode a
  if c = 2 ∧ s.extUp = false then 3 else c

/-- The bias that rules an access of a requester: one that waited on the line's BISnp when the answer came, or the host was lost, is
served under EXT, the code in force as the home accepted it (R359, R367, R372). -/
def State.biasFor (s : State) (who : Option Waiter) (a : Nat) : Nat :=
  if who.any (fun w => s.pcie.exempt.contains (w, a / 64)) then 2 else s.bias a

/-- A requester's access to a line waits no longer. -/
def State.unwait (s : State) (who : Waiter) (line : Nat) : State :=
  { s with pcie := { s.pcie with waiters := s.pcie.waiters.filter (fun w => decide (¬ (w.who = who ∧ w.line = line)))
                                 exempt := s.pcie.exempt.filter (fun w => decide (w ≠ (who, line))) }
           answered := s.answered.filter (fun x => decide (¬ (x.1 = who ∧ x.2.1 = line))) }

/-! ### Courses and the mesh (R13, R374, R376, R388) -/

/-- The die beyond an edge of a compute die (R12, R13). -/
def neighbour (die edge : Nat) : Option Nat :=
  let row := die / 8
  let col := die % 8
  match edge with
  | 0 => if row = 0 then some (89 + col) else some (die - 8)
  | 1 => if col < 7 then some (die + 1) else if die = 7 then some 97 else if die = 23 then some 99 else none
  | 2 => if row = 4 then some (80 + col) else some (die + 8)
  | 3 => if 0 < col then some (die - 1) else if die = 0 then some 88 else if die = 16 then some 98 else none
  | _ => none

/-- Where the die's only edge to the mesh joins its compute die: the edge seen from the compute die. -/
def attachEdge (die : Nat) : Nat :=
  if isHd die then 2
  else if die = 88 then 3 else if die = 97 then 1 else if isIo die then 0
  else if die = 98 then 3 else 1

/-- A course pair joins its die to another. -/
def pairAttached (die pair : Nat) : Bool :=
  if isIo die then decide (pair < 4)
  else match neighbour die (pair / 4) with
    | some d => if d = 98 ∨ d = 99 then pair % 4 == 0 else true
    | none => false

/-- The die a pair leads to. -/
def pairPeer (die pair : Nat) : Option Nat :=
  if isIo die then some (attachedTo die) else if pairAttached die pair then neighbour die (pair / 4) else none

/-- The pair at the other end, where that die has course registers (R379). -/
def peerPair (die pair : Nat) : Option (Nat × Nat) :=
  match pairPeer die pair with
  | none => none
  | some d =>
    if isIo die then some (d, 4 * attachEdge die + pair)
    else if isCd d then some (d, 4 * ((pair / 4 + 2) % 4) + pair % 4)
    else if isIo d then some (d, pair % 4)
    else none

/-- One end of a pair is ON with its link up. -/
def State.endUp (s : State) (die pair : Nat) : Bool :=
  s.fld (Reg.cpCtrl die pair) 6 4 == 2 && s.fld (Reg.cpStatus die pair) 11 8 == 3

/-- The ends of a pair that have course registers: the named one first. -/
def pairEnds (die pair : Nat) : List (Nat × Nat) := (die, pair) :: (peerPair die pair).toList

/-- A course pair carries traffic: ON with its link up, at both ends (R376). -/
def State.pairUsable (s : State) (die pair : Nat) : Bool := (pairEnds die pair).all (fun e => s.endUp e.1 e.2)

/-- The usable pairs of an edge in ascending order; edges of a compute die are 0 south, 1 east, 2 north, 3 west, and an I/O die's
one edge is 0 (R374). -/
def State.usablePairs (s : State) (die edge : Nat) : List Nat :=
  ((List.range 4).map (fun k => 4 * edge + k)).filter (s.pairUsable die)

def State.edgeUsable (s : State) (die edge : Nat) : Bool := !(s.usablePairs die edge).isEmpty

/-- What chooses among an edge's pairs: a request's line address, or a response's tag, which the model does not fix. -/
inductive Spread where
  | line (a : Nat)
  | tag
  deriving DecidableEq, Repr

/-- The pairs a packet may go on across an edge: a request's by bits [7:6] of its line address, modulo the usable pairs (R376). -/
def State.spread (s : State) (die edge : Nat) (by' : Spread) : List (Nat × Nat) :=
  let ps := s.usablePairs die edge
  match by' with
  | .line a => ((ps[(a / 64 % 4) % ps.length]?).toList).map (fun p => (die, p))
  | .tag => ps.map (fun p => (die, p))

/-- Some pair of an edge is quiesced: it leads to a die that has just been lost (R392). -/
def State.edgeQuiesced (s : State) (die edge : Nat) : Bool :=
  (List.range 4).any (fun k => s.fld (Reg.cpStatus die (4 * edge + k)) 11 8 == 4)

/-- What a packet meets on its way: the dies it crosses and the pairs it may use, a course edge without a usable pair (R376), or
what answers it with DIE_LOST, naming a die: the destination at a die without a valid entry for it (R388 note 3), the lost die
at a quiesced edge (R392). `by'` is the die where the packet stops, which answers it. -/
inductive Path where
  | ok (dies : List Nat) (pairs : List (Nat × Nat))
  | courseLost (by' : Nat)
  | dieLost (by' die : Nat)
  deriving DecidableEq, Repr

/-- The die that answers a packet of die `src` to a lost die: the one holding the quiesced course (R392 step 3), or the one where
the packet stops for want of a route or a usable pair; a packet that would get through is answered by its own die. Once the
pairs are OFF no rule names the answering die (DESIGN CHOICE, entry 159). -/
def Path.answerer (src : Nat) : Path → Nat
  | .ok _ _ => src
  | .courseLost x => x
  | .dieLost x _ => x

def Path.cons (d : Nat) (ps : List (Nat × Nat)) : Path → Path
  | .ok ds qs => .ok (d :: ds) (ps ++ qs)
  | p => p

/-- An edge that carries nothing: its pairs are quiesced, or none is usable. -/
def State.edgeLost (s : State) (die edge toDie : Nat) : Path :=
  if s.edgeQuiesced die edge then .dieLost die toDie else .courseLost die

/-- Follow the route tables from compute die `x` to die `dst`. -/
def State.walkMesh (s : State) (k : Spread) (dst : Nat) (x v : Nat) : Nat → Path
  | 0 => .dieLost x dst
  | fuel + 1 =>
    if x = dst then .ok [x] []
    else
      let e := s.reg (Reg.dcRoute x dst v)
      if bit e 31 then
        let edge := wfld e 9 8
        match neighbour x edge with
        | none => .courseLost x
        | some y =>
          if s.edgeUsable x edge then
            if y = dst then .ok [x, y] (s.spread x edge k)
            else if isCd y then (s.walkMesh k dst y (wfld e 4 4) fuel).cons x (s.spread x edge k)
            else .dieLost x dst
          else s.edgeLost x edge y
      else .dieLost x dst

/-- The way of a packet from one die to another: off an attached die, then over the mesh. -/
def State.way (s : State) (k : Spread) (src dst : Nat) : Path :=
  if src = dst then .ok [src] []
  else if isCd src then s.walkMesh k dst src 0 64
  else
    let entry := attachedTo src
    let (d, edge) := if isIo src then (src, 0) else (entry, attachEdge src)
    if s.edgeUsable d edge then (s.walkMesh k dst entry 0 64).cons src (s.spread d edge k) else s.edgeLost d edge entry

/-- The way of a request for the line at `a`. -/
def State.path (s : State) (src dst : Nat) (a : Nat := 0) : Path := s.way (.line a) src dst

/-- The way of its response, looked up for the requester's die (R388). -/
def State.back (s : State) (src dst : Nat) : Path := s.way .tag dst src

/-! ### The enable and disable machine (R65, R66, R67) -/

/-- The safe state was entered: nothing starts and nothing is issued (R419). -/
def State.isSafe (s : State) : Bool := s.flag Reg.pwStatus 0


/-- The state of a function: 0 OFF, 1 ENABLING, 2 ON, 3 DISABLING. -/
def State.fnState (s : State) (ctrl : Nat) : Nat := s.fld ctrl 6 4

/-- An enable request (R67); it clears err (R66), and ENABLING begins with nothing latched. -/
def State.enableReq (s : State) (ctrl : Nat) : State :=
  let s := s.setFlag ctrl 2 false
  match s.fnState ctrl with
  | 0 => (s.setFlag ctrl 3 false).putFld ctrl 6 4 1
  | 3 => s.setFlag ctrl 3 true
  | _ => s

/-- A disable request (R67). -/
def State.disableReq (s : State) (ctrl : Nat) : State :=
  match s.fnState ctrl with
  | 1 => s.putFld ctrl 6 4 3
  | 2 => s.putFld ctrl 6 4 3
  | 3 => s.setFlag ctrl 3 false
  | _ => s

/-- ENABLING ends: ON, or OFF with err. -/
def State.enablingEnd (s : State) (ctrl : Nat) (ok : Bool) : State :=
  if ok then s.putFld ctrl 6 4 2 else (s.putFld ctrl 6 4 0).setFlag ctrl 2 true

/-- DISABLING ends: OFF. An enable that is latched stands until the next cycle, in which ENABLING begins (R67; entry 27). -/
def State.disablingEnd (s : State) (ctrl : Nat) : State := s.putFld ctrl 6 4 0

/-- The requests a write of a control register's low byte makes: both bits set count as a disable (R66). -/
def State.enableByte (s : State) (ctrl : Nat) (v : Word) : State :=
  if bit v 1 then s.disableReq ctrl else if bit v 0 then s.enableReq ctrl else s

/-! ### The host-die timers (R348) -/

/-- One count of the timer of a host die. -/
def State.tickTimer (s : State) (hd : Nat) : State :=
  if s.dieState hd = 2 then
    let t := (s.reg (Reg.hxMtimeLo hd)).toNat + 0x100000000 * (s.reg (Reg.hxMtimeHi hd)).toNat + 1
    (s.setReg (Reg.hxMtimeLo hd) (BitVec.ofNat 32 t)).setReg (Reg.hxMtimeHi hd) (BitVec.ofNat 32 (t / 0x100000000))
  else s

/-- The timers of the running host dies count the same reference (R348). -/
def State.tick (s : State) : State := (List.range 8).foldl (fun s h => s.tickTimer (80 + h)) s

end Sys2Proof.Machine
end

