-- ==== Sys2Proof/Machine/Frames.lean ====
section
/-! DEFINITION. Fabric frames and flows: the fields of R319, the CRC of R318, building frames, credits (R324), sending on a
port and on a flow (R326, R328, R332), and acknowledgement. -/

namespace Sys2Proof

open Machine

/-! ### Header fields (R319, R320) -/

def Frame.fld (f : Frame) (hi lo : Nat) : Nat := f.hdr.toNat / 2 ^ lo % 2 ^ (hi + 1 - lo)

def Frame.type (f : Frame) : Nat := f.fld 7 0

/-- LINK and CREDIT cross one link only; they use bits [255:128] for their own content (R319, R320). -/
def linkLocal (t : Nat) : Bool := t == 0x01 || t == 0x02

/-- Payload units: a link-local frame has none. -/
def Frame.plen (f : Frame) : Nat := if linkLocal f.type then 0 else f.fld 195 192
def Frame.cls (f : Frame) : Nat := f.fld 9 8
def Frame.hp (f : Frame) : Nat := f.fld 13 10
def Frame.poison (f : Frame) : Bool := f.fld 14 14 == 1
def Frame.last (f : Frame) : Bool := f.fld 15 15 == 1
/-- route[h], hop h of the route. -/
def Frame.hop (f : Frame) (h : Nat) : Nat := f.fld (22 + 7 * h) (16 + 7 * h)
def Frame.src (f : Frame) : Nat := f.fld 138 128
def Frame.dst (f : Frame) : Nat := f.fld 149 139
def Frame.flow (f : Frame) : Nat := f.fld 165 150
def Frame.seq (f : Frame) : Nat := f.fld 189 166
def Frame.addr (f : Frame) : Nat := f.fld 247 200
def Frame.aux (f : Frame) : Nat := f.fld 255 248

/-- Blocks of a frame: the header, two for each payload unit, the trailer (R318). -/
def Frame.blocks (f : Frame) : Nat := 2 + 2 * f.plen

/-- The class of a frame type; none for a reserved code (R320). -/
def frameClass : Nat → Option Nat
  | 0x01 => some 2 | 0x02 => some 2
  | 0x10 => some 0 | 0x11 => some 0 | 0x12 => some 0 | 0x13 => some 0 | 0x14 => some 0
  | 0x18 => some 0 | 0x1A => some 0 | 0x1B => some 0
  | 0x20 => some 1 | 0x21 => some 1 | 0x22 => some 1 | 0x23 => some 1 | 0x24 => some 1 | 0x25 => some 1
  | 0x30 => some 2 | 0x31 => some 2
  | _ => none

/-- The payload units a type carries (R320). -/
def payloadOk (t plen : Nat) : Bool :=
  match t with
  | 0x10 => decide (1 ≤ plen ∧ plen ≤ 8)
  | 0x11 => plen == 1
  | 0x18 => plen == 1
  | 0x1A => decide (1 ≤ plen ∧ plen ≤ 8)
  | 0x1B => decide (1 ≤ plen ∧ plen ≤ 8)
  | 0x22 => decide (1 ≤ plen ∧ plen ≤ 8)
  | _ => plen == 0

/-! ### CRC-32C (R318) -/

def crcStep (c : Nat) : Nat := if c % 2 = 1 then (c / 2) ^^^ 0x82F63B78 else c / 2

def crcByte (c : Nat) (b : Byte) : Nat :=
  crcStep (crcStep (crcStep (crcStep (crcStep (crcStep (crcStep (crcStep (c ^^^ b.toNat))))))))

def crc32c (bs : List Byte) : Word := BitVec.ofNat 32 ((bs.foldl crcByte 0xFFFFFFFF) ^^^ 0xFFFFFFFF)

/-- The header with hp taken as 0. -/
def Frame.hdrNoHp (f : Frame) : Nat := f.hdr.toNat - 2 ^ 10 * f.hp

def Frame.crcOf (f : Frame) : Word := crc32c (leBytes 32 f.hdrNoHp ++ f.payload)

def Frame.crcOk (f : Frame) : Bool := f.crc == f.crcOf

/-- A frame a receiver takes: no FEC error, CRC right, no reserved type, class or field value (R320, R321). -/
def Frame.fieldsOk (f : Frame) : Bool :=
  frameClass f.type == some f.cls && payloadOk f.type f.plen &&
  (linkLocal f.type || (f.fld 199 196 == 0 && f.fld 191 190 == 0)) &&
  (f.type != 0x10 || f.fld 255 254 == 0) && (f.type != 0x12 || decide (1 ≤ f.aux ∧ f.aux ≤ 8)) &&
  (decide (f.type < 0x10 ∨ 0x12 < f.type) || f.addr % 64 == 0) &&
  (f.type == 0x11 || f.mask == 0)

/-- Put the right CRC in the trailer. -/
def Frame.sealed (f : Frame) : Frame := { f with crc := f.crcOf }

def Frame.setHp (f : Frame) (h : Nat) : Frame := { f with hdr := BitVec.ofNat 256 (f.hdrNoHp + 2 ^ 10 * (h % 16)) }

end Sys2Proof

namespace Sys2Proof.Machine

/-- A routed frame (R319). -/
def mkFrame (b : FrameBody) (src dst flow seq route : Nat) : Frame :=
  Frame.sealed
    { hdr := BitVec.ofNat 256 (2 ^ 10 + b.type + 2 ^ 8 * (frameClass b.type).getD 0 + (if b.poison then 2 ^ 14 else 0) +
        (if b.last then 2 ^ 15 else 0) + 2 ^ 16 * (route % 2 ^ 112) + 2 ^ 128 * (src % 2048) + 2 ^ 139 * (dst % 2048) +
        2 ^ 150 * (flow % 65536) + 2 ^ 166 * (seq % 2 ^ 24) + 2 ^ 192 * (b.payload.length / 64) + 2 ^ 200 * (b.addr % 2 ^ 48) +
        2 ^ 248 * (b.aux % 256))
      payload := b.payload
      crc := 0
      mask := b.mask
      fecBad := false }

/-- A link-local frame: its own content in bits [255:128], route and hp 0 (R319). -/
def mkLinkFrame (type content : Nat) : Frame :=
  Frame.sealed { hdr := BitVec.ofNat 256 (2 ^ 9 + type + 2 ^ 128 * content), payload := [], crc := 0, mask := 0,
                 fecBad := false }

/-! ### Ports and credits (R323, R324) -/

/-- The I/O die of a port, and the port's number there (R316). -/
def portDie (p : Nat) : Nat := 88 + p / 4
def portReg (f : Nat → Nat → Nat) (p : Nat) : Nat := f (portDie p) (p % 4)

/-- The port is up: it received a LINK frame since it trained (R322). -/
def State.portUp (s : State) (p : Nat) : Bool :=
  decide (p < 40) && s.fld (portReg Reg.fbPortStat p) 1 0 == 3 && !s.dieDown (portDie p)

/-- The pool of a class and vl, in the order of R320 note 2. -/
def poolIx (cls vl : Nat) : Nat := 2 * cls + vl

def State.pools (s : State) (p : Nat) : List Nat :=
  ((s.fab.credits.find? (fun c => decide (c.1 = p))).map (·.2)).getD [0, 0, 0, 0, 0, 0]

def State.setPools (s : State) (p : Nat) (v : List Nat) : State :=
  { s with fab := { s.fab with credits := (p, v) :: s.fab.credits.filter (fun c => decide (c.1 ≠ p)) } }

/-- Credits of a pool taken or returned. -/
def bump (v : List Nat) (i : Nat) (f : Nat → Nat) : List Nat :=
  v.mapIdx (fun j x => if j = i then f x else x)

def addPools (a b : List Nat) : List Nat := List.zipWith (· + ·) a b

/-- Link-local frames cross no hop and need no credits. -/
def State.sendLink (s : State) (p : Nat) (f : Frame) : State := s.emit (.frame p f)

/-- Give the credits of a consumed frame back to the peer (R324). -/
def State.returnCredits (s : State) (p i n : Nat) : State :=
  s.sendLink p (mkLinkFrame 0x02 (2 ^ (16 * i) * n))

/-- The credits a frame in transit owes its port go back once its buffer is free. -/
def State.payBack (s : State) (owed : Option Owed) : State :=
  match owed with
  | some o => if s.portUp o.port then s.returnCredits o.port o.pool o.blocks else s
  | none => s

/-- Frames of a port leave in order for each pool, each only when its pool holds its blocks (R324). -/
def State.pump (s : State) (p : Nat) : Nat → List TxFrame → List Nat → State × List TxFrame
  | 0, q, _ => (s, q)
  | _, [], _ => (s, [])
  | n + 1, x :: q, held =>
    let v := s.pools p
    if held.contains x.pool || decide (v.getD x.pool 0 < x.frame.blocks) then
      let (s', q') := s.pump p n q (x.pool :: held)
      (s', x :: q')
    else
      ((((s.setPools p (bump v x.pool (· - x.frame.blocks))).emit (.frame p x.frame)).payBack x.owed)).pump p n q held

/-- Send what the credits of a port allow; in the safe state nothing is issued (R419). -/
def State.drainPort (s : State) (p : Nat) : State :=
  if s.isSafe then s
  else
  let mine := s.fab.txq.filter (fun x => decide (x.port = p))
  let rest := s.fab.txq.filter (fun x => decide (x.port ≠ p))
  let (s', left) := s.pump p mine.length mine []
  { s' with fab := { s'.fab with txq := rest ++ left } }

/-- Hand a frame to output port `p` on vl `vl`; a hop that names a port that is not up drops it (R326). `io` is the I/O die
that logs; `owed` are the credits that a frame in transit gives back when it leaves the module. -/
def State.sendPort (s : State) (io p vl : Nat) (f : Frame) (owed : Option Owed := none) : State :=
  if s.portUp p then
    ({ s with fab := { s.fab with txq := s.fab.txq ++ [⟨p, poolIx f.cls vl, f, owed⟩] } } : State).drainPort p
  else
    let s := s.payBack owed
    let s := if p < 40 then s.count (portReg Reg.fbPortDrop p) else s
    s.log io .frameDropped f.type f.seq

/-! ### Flows (R328-R332) -/

def flowDie (f : Nat) : Nat := 88 + f % 10
def flowReg (r : Nat → Nat → Nat) (f : Nat) : Nat := r (flowDie f) (f / 10)
def State.flowOn (s : State) (f : Nat) : Bool := s.fnState (flowReg Reg.fbFlowCtrl f) == 2 && !s.dieDown (flowDie f)
def State.flowPeer (s : State) (f : Nat) : Nat := s.fld (flowReg Reg.fbFlowPeer f) 10 0

/-- The route of a flow, bits [111:0] (R329). -/
def State.flowRoute (s : State) (f : Nat) : Nat :=
  let r (n : Nat) := (s.reg (Reg.fbFlowRoute (flowDie f) (f / 10) n)).toNat
  (r 0 + 2 ^ 32 * r 1 + 2 ^ 64 * r 2 + 2 ^ 96 * r 3) % 2 ^ 112

def routeHop (route h : Nat) : Nat := route / 2 ^ (7 * h) % 128

/-- Transmit a frame on the flow's route, on port route[0] with hp = 1 (R326). -/
def State.sendRouted (s : State) (io : Nat) (f : Frame) : State :=
  s.sendPort io (f.hop 0 % 64) (f.hop 0 / 64) f

/-- Send an unsequenced frame of a flow. -/
def State.sendPlain (s : State) (flow seq : Nat) (b : FrameBody) : State :=
  s.sendRouted (flowDie flow) (mkFrame b s.moduleId (s.flowPeer flow) flow seq (s.flowRoute flow))

/-- Frames a flow may hold unacknowledged (R332). -/
def flowWindow : Nat := 16384

/-- Send the frames of a flow that wait for the window. A frame with `sends = 0` has not left yet. -/
def State.openWindow (s : State) (flow : Nat) : Nat → State
  | 0 => s
  | n + 1 =>
    let out := (s.fab.unacked.filter (fun u => decide (u.flow = flow ∧ u.sends ≠ 0))).length
    match s.fab.unacked.find? (fun u => decide (u.flow = flow ∧ u.sends = 0)) with
    | none => s
    | some u =>
      if out < flowWindow then
        let nxt := s.fld (flowReg Reg.fbFlowTx flow) 23 0
        let b : FrameBody := { type := u.frame.type, addr := u.frame.addr, aux := u.frame.aux, payload := u.frame.payload,
                               mask := u.frame.mask, last := u.frame.last, poison := u.frame.poison }
        let f := mkFrame b s.moduleId (s.flowPeer flow) flow nxt (s.flowRoute flow)
        let pre := s.fab.unacked.takeWhile (fun x => !decide (x.flow = flow ∧ x.sends = 0))
        let post := s.fab.unacked.drop (pre.length + 1)
        let s := { s with fab := { s.fab with
          unacked := pre ++ ({ u with seq := BitVec.ofNat 24 nxt, frame := f, sends := 1 } :: post) } }
        let s := s.setReg (flowReg Reg.fbFlowTx flow) (BitVec.ofNat 32 ((nxt + 1) % 2 ^ 24))
        (s.sendRouted (flowDie flow) f).openWindow flow n
      else s

/-- The dies and pairs that the way from a die to a flow's I/O die and back uses (R376, R392). -/
def State.flowUses (s : State) (die flow : Nat) : List Nat × List (Nat × Nat) :=
  match s.path die (flowDie flow), s.back die (flowDie flow) with
  | .ok ds ps, .ok es qs => (ds ++ es, ps ++ qs)
  | .ok ds ps, _ => (ds, ps)
  | _, _ => ([], [])

/-- The same for a descriptor's unit. -/
def State.usesFor (s : State) (fid : Option Nat) (flow : Nat) : List Nat × List (Nat × Nat) :=
  match fid.bind (fun i => s.flights.find? (fun f => decide (f.fid = i))) with
  | some f => s.flowUses (wfld f.target 19 13) flow
  | none => ([], [])

/-- Queue a sequenced frame for a flow and, while the flow is ON, send what the window allows (R330). -/
def State.sendSeq (s : State) (flow : Nat) (b : FrameBody) (fid : Option Nat) (ix : Nat := 0) : State :=
  let f := mkFrame b s.moduleId (s.flowPeer flow) flow 0 0
  let u := s.usesFor fid flow
  let s := { s with fab := { s.fab with unacked := s.fab.unacked ++ [(⟨flow, 0, f, fid, 0, ix, u.1, u.2⟩ : Sent)] } }
  if s.flowOn flow then s.openWindow flow 1 else s

/-- Some frame of a descriptor is not acknowledged, or a write of it still follows one. -/
def State.awaitsAck (s : State) (fid : Nat) : Bool :=
  s.fab.unacked.any (fun u => decide (u.fid = some fid)) || s.fab.guards.any (fun g => decide (g.fid = fid))

/-- (a - b) mod 2^24 below 2^23: a is at or after b. -/
def seqGe (a b : Nat) : Bool := decide ((a + 2 ^ 24 - b % 2 ^ 24) % 2 ^ 24 < 2 ^ 23)

/-- Send the acknowledgement of a flow: the next sequence number expected (R331). -/
def State.sendAck (s : State) (flow : Nat) : State :=
  let s := { s with fab := { s.fab with rxVis := s.fab.rxVis.filter (fun x => decide (x.1 ≠ flow)) } }
  s.sendPlain flow (s.fld (flowReg Reg.fbFlowRx flow) 23 0) { type := 0x20 }

/-- One more frame of a flow is visible: an ACK goes out at the eighth, or at once for a frame with last = 1 (R331). -/
def State.visible (s : State) (flow : Nat) (last : Bool) : State :=
  let n := ((s.fab.rxVis.find? (fun x => decide (x.1 = flow))).map (·.2)).getD 0 + 1
  if last || n == 8 then s.sendAck flow
  else { s with fab := { s.fab with rxVis := (flow, n) :: s.fab.rxVis.filter (fun x => decide (x.1 ≠ flow)) } }

/-- The flow that carries a die's traffic to a module (R334). -/
def State.fdest (s : State) (die m : Nat) : Option Nat :=
  let e := s.reg (Reg.dcFdest die m)
  if bit e 31 then some (wfld e 15 0) else none

end Sys2Proof.Machine
end

