-- ==== Sys2Proof/Machine/Real.lean ====
section
/-! DEFINITION. Exact arithmetic on binary fractions, one rounding to nearest even, and the FP32 arithmetic of the engines
(IEEE 754 binary32; R79, R82 note 1, R100). -/

namespace Sys2Proof.Machine

/-! ### Exact values -/

/-- What a floating-point code stands for: NaN, an infinity, or (-1)^neg * mag * 2^exp. -/
inductive FVal where
  | nan
  | inf (neg : Bool)
  | fin (neg : Bool) (mag : Nat) (exp : Int)
  deriving DecidableEq, Repr

/-- n / d rounded to the nearest integer, ties to even. -/
def rne (n d : Nat) : Nat :=
  let q := n / d
  let r := n % d
  if 2 * r < d then q else if d < 2 * r then q + 1 else q + q % 2

/-- mag * 2^sh rounded to the nearest integer, ties to even. -/
def rneShift (mag : Nat) (sh : Int) : Nat :=
  match sh with
  | .ofNat k => mag * 2 ^ k
  | .negSucc k => rne mag (2 ^ (k + 1))

/-- The code, without sign and with no upper bound, of mag * 2^e rounded once to `p` significant bits, where the smallest
non-zero value is 2^qmin: in every format of R77 the code of m * 2^q is (q - qmin) * 2^(p-1) + m. -/
def roundCode (p : Nat) (qmin : Int) (mag : Nat) (e : Int) : Nat :=
  if mag = 0 then 0
  else
    let q := max (e + (mag.log2 : Int) + 1 - (p : Int)) qmin
    (q - qmin).toNat * 2 ^ (p - 1) + rneShift mag (e - q)

/-- The value of a code without sign: `p` significant bits, smallest non-zero value 2^qmin. -/
def codeMag (p : Nat) (c : Nat) : Nat × Nat :=
  let ex := c / 2 ^ (p - 1)
  let fr := c % 2 ^ (p - 1)
  if ex = 0 then (fr, 0) else (fr + 2 ^ (p - 1), ex - 1)

/-- The value of a code of a format without special codes. -/
def codeFin (neg : Bool) (p : Nat) (qmin : Int) (c : Nat) : FVal :=
  let (m, q) := codeMag p c
  .fin neg m (q + qmin)

/-! ### FP32 -/

def fpNaN : Word := 0x7FC00000#32
def fpInf (neg : Bool) : Word := if neg then 0xFF800000#32 else 0x7F800000#32
def fpZero : Word := 0#32
def fpOne : Word := 0x3F800000#32
def fpMax : Nat := 0x7F7FFFFF

def fpNeg (w : Word) : Bool := w.getLsbD 31
def fpMag (w : Word) : Nat := w.toNat % 0x80000000
def fpIsNaN (w : Word) : Bool := decide (0x7F800000 < fpMag w)
def fpIsInf (w : Word) : Bool := decide (fpMag w = 0x7F800000)
def fpIsZero (w : Word) : Bool := decide (fpMag w = 0)

/-- The value of an FP32 code (R77). -/
def fpVal (w : Word) : FVal :=
  if fpIsNaN w then .nan else if fpIsInf w then .inf (fpNeg w) else codeFin (fpNeg w) 24 (-149) (fpMag w)

def fpSigned (neg : Bool) (mag : Nat) : Word := BitVec.ofNat 32 (if neg then 0x80000000 + mag else mag)

/-- Round to FP32 as an IEEE operation does: a value beyond the range becomes infinity (R82 note 1). -/
def fpRound : FVal → Word
  | .nan => fpNaN
  | .inf n => fpInf n
  | .fin n m e =>
    let c := roundCode 24 (-149) m e
    if fpMax < c then fpInf n else fpSigned n c

/-- Exact sum of two finite values; an exact zero is negative only when both are (IEEE 754, round to nearest). -/
def exactAdd (an : Bool) (am : Nat) (ae : Int) (bn : Bool) (bm : Nat) (be : Int) : FVal :=
  let e := min ae be
  let x := am * 2 ^ (ae - e).toNat
  let y := bm * 2 ^ (be - e).toNat
  if an = bn then .fin an (x + y) e
  else if x = y then .fin false 0 e
  else if y < x then .fin an (x - y) e
  else .fin bn (y - x) e

def FVal.add (a b : FVal) : FVal :=
  match a, b with
  | .nan, _ => .nan
  | _, .nan => .nan
  | .inf x, .inf y => if x = y then .inf x else .nan
  | .inf x, .fin .. => .inf x
  | .fin .., .inf y => .inf y
  | .fin an am ae, .fin bn bm be => exactAdd an am ae bn bm be

def FVal.mul (a b : FVal) : FVal :=
  match a, b with
  | .nan, _ => .nan
  | _, .nan => .nan
  | .inf x, .inf y => .inf (x != y)
  | .inf x, .fin y m _ => if m = 0 then .nan else .inf (x != y)
  | .fin y m _, .inf x => if m = 0 then .nan else .inf (x != y)
  | .fin an am ae, .fin bn bm be => .fin (an != bn) (am * bm) (ae + be)

def FVal.neg : FVal → FVal
  | .nan => .nan
  | .inf n => .inf (!n)
  | .fin n m e => .fin (!n) m e

/-- Exact multiplication by 2^v. -/
def FVal.scale (v : Int) : FVal → FVal
  | .fin n m e => .fin n m (e + v)
  | x => x

def fpFlip (w : Word) : Word := w ^^^ 0x80000000#32
def fpAbs (w : Word) : Word := w &&& 0x7FFFFFFF#32

def fpAdd (a b : Word) : Word := fpRound ((fpVal a).add (fpVal b))
def fpSub (a b : Word) : Word := fpAdd a (fpFlip b)
def fpMul (a b : Word) : Word := fpRound ((fpVal a).mul (fpVal b))
/-- a * b + c rounded once. -/
def fpFma (a b c : Word) : Word := fpRound (((fpVal a).mul (fpVal b)).add (fpVal c))

/-- A key that orders the codes that are no NaN as their values, with -0 equal to +0. -/
def fpKey (w : Word) : Int := if fpNeg w then -(fpMag w : Int) else (fpMag w : Int)
def fpLt (a b : Word) : Bool := !fpIsNaN a && !fpIsNaN b && decide (fpKey a < fpKey b)
def fpLe (a b : Word) : Bool := !fpIsNaN a && !fpIsNaN b && decide (fpKey a ≤ fpKey b)
def fpEq (a b : Word) : Bool := !fpIsNaN a && !fpIsNaN b && decide (fpKey a = fpKey b)

/-! ### Quotients and roots, correctly rounded -/

/-- The finite value n / d * 2^e to 2^-s, with a sticky bit below. -/
def quotVal (neg : Bool) (n d : Nat) (e : Int) : FVal :=
  let s := 64 + d.log2
  let q := n * 2 ^ s / d
  .fin neg (2 * q + (if n * 2 ^ s % d = 0 then 0 else 1)) (e - s - 1)

/-- The integer square root by binary digits. -/
def isqrtAux (n : Nat) : Nat → Nat → Nat
  | 0, r => r
  | k + 1, r => let r' := r + 2 ^ k; isqrtAux n k (if r' * r' ≤ n then r' else r)

def isqrt (n : Nat) : Nat := isqrtAux n (n.log2 / 2 + 1) 0

/-- The square root of m * 2^e, with a sticky bit below. -/
def sqrtVal (m : Nat) (e : Int) : FVal :=
  let m' := if e % 2 = 0 then m else 2 * m
  let e' := if e % 2 = 0 then e else e - 1
  let x := 2 ^ 128 * m'
  let r := isqrt x
  .fin false (2 * r + (if r * r = x then 0 else 1)) (e' / 2 - 65)

def fpDiv (a b : Word) : Word :=
  match fpVal a, fpVal b with
  | .nan, _ => fpNaN
  | _, .nan => fpNaN
  | .inf x, .fin y _ _ => fpInf (x != y)
  | .inf _, .inf _ => fpNaN
  | .fin x _ _, .inf y => fpSigned (x != y) 0
  | .fin x m e, .fin y n f =>
    if n = 0 then (if m = 0 then fpNaN else fpInf (x != y))
    else fpRound (quotVal (x != y) m n (e - f))

def fpRecip (a : Word) : Word := fpDiv fpOne a

def fpSqrt (a : Word) : Word :=
  match fpVal a with
  | .nan => fpNaN
  | .inf n => if n then fpNaN else fpInf false
  | .fin n m e => if m = 0 then a else if n then fpNaN else fpRound (sqrtVal m e)

/-! ### Integers -/

/-- An integer as an FP32 value rounded once. -/
def fpOfInt (i : Int) : Word := fpRound (.fin (decide (i < 0)) i.natAbs 0)
def fpOfNat (n : Nat) : Word := fpRound (.fin false n 0)

/-- mag * 2^e with a sign as an integer rounded to nearest even. -/
def rneInt (neg : Bool) (m : Nat) (e : Int) : Int :=
  if neg then -(rneShift m e : Int) else (rneShift m e : Int)

end Sys2Proof.Machine
end

