-- ==== Sys2Proof/Machine/Formats.lean ====
section
/-! DEFINITION. Tensor formats: reading to FP32, writing with saturation, MXFP4 blocks, running maxima of conversions, and
the G64 grid sum (R75-R98). -/

namespace Sys2Proof.Machine

/-! ### Formats (R75, R77) -/

inductive Fmt where
  | fp32 | bf16 | fp16 | e5m2 | e4m3 | mxfp4 | g64
  deriving DecidableEq, Repr

/-- The format of a code; 0x7 to 0xF are reserved. -/
def Fmt.ofCode : Nat → Option Fmt
  | 0 => some .fp32
  | 1 => some .bf16
  | 2 => some .fp16
  | 3 => some .e5m2
  | 4 => some .e4m3
  | 5 => some .mxfp4
  | 6 => some .g64
  | _ => none

/-- Bits of storage per element (R75); the scale plane of MXFP4 is apart. -/
def Fmt.bits : Fmt → Nat
  | .fp32 => 32 | .bf16 => 16 | .fp16 => 16 | .e5m2 => 8 | .e4m3 => 8 | .mxfp4 => 4 | .g64 => 64

/-- Bytes of a run of n elements (R76). -/
def Fmt.runBytes (f : Fmt) (n : Nat) : Nat := (n * f.bits + 7) / 8

/-- Significant bits, exponent of the smallest non-zero value, largest finite code, code of +infinity when the format has
one, code of the NaN written (R77). -/
structure FmtSpec where
  p    : Nat
  qmin : Int
  max  : Nat
  inf  : Option Nat
  nan  : Nat
  sign : Nat

def Fmt.spec : Fmt → FmtSpec
  | .fp32 => ⟨24, -149, 0x7F7FFFFF, some 0x7F800000, 0x7FC00000, 0x80000000⟩
  | .bf16 => ⟨8, -133, 0x7F7F, some 0x7F80, 0x7FC0, 0x8000⟩
  | .fp16 => ⟨11, -24, 0x7BFF, some 0x7C00, 0x7E00, 0x8000⟩
  | .e5m2 => ⟨3, -16, 0x7B, some 0x7C, 0x7F, 0x80⟩
  | .e4m3 => ⟨4, -9, 0x7E, none, 0x7F, 0x80⟩
  | .mxfp4 => ⟨2, -1, 0x7, none, 0, 0x8⟩
  | .g64 => ⟨24, -149, 0x7F7FFFFF, some 0x7F800000, 0x7FC00000, 0x80000000⟩

/-- The value of an element code (R77, R78). -/
def Fmt.value (f : Fmt) (code : Nat) : FVal :=
  let sp := f.spec
  let neg := decide (sp.sign ≤ code % (2 * sp.sign))
  let c := code % sp.sign
  if c ≤ sp.max then codeFin neg sp.p sp.qmin c
  else if sp.inf = some c then .inf neg
  else .nan

/-- An FP32 word and how many values saturated in making it. -/
abbrev Read := Word × Nat

/-- A finite value to FP32 as a conversion: beyond the range it saturates and counts (R82). -/
def satFP32 (x : FVal) : Read :=
  match x with
  | .nan => (fpNaN, 0)
  | .inf n => (fpInf n, 0)
  | .fin n m e =>
    let c := roundCode 24 (-149) m e
    if fpMax < c then (fpSigned n fpMax, 1) else (fpSigned n c, 0)

/-- Read an element to FP32; `v` is the scale exponent of E5M2 and E4M3 (R79). -/
def readElem (f : Fmt) (v : Int) (code : Nat) : Read := satFP32 ((f.value code).scale (-v))

/-- Read an MXFP4 element of a block with scale code c (R79). -/
def readMx (c e : Nat) : Read :=
  if c % 256 = 0xFF then (fpNaN, 0) else satFP32 ((Fmt.mxfp4.value e).scale ((c % 256 : Nat) - 127 : Int))

/-! ### Writing (R80-R83) -/

/-- Write a value in a format other than MXFP4 and G64 with scale exponent v, rounding once: the code and the saturations
counted. -/
def writeVal (f : Fmt) (v : Int) (x : FVal) : Nat × Nat :=
  let sp := f.spec
  match x with
  | .nan => (sp.nan, 0)
  | .inf n =>
    match sp.inf with
    | some c => ((if n then sp.sign else 0) + c, 0)
    | none => ((if n then sp.sign else 0) + sp.max, 1)
  | .fin n m e =>
    let c := roundCode sp.p sp.qmin m (e + v)
    if c = 0 then (0, 0)
    else if sp.max < c then ((if n then sp.sign else 0) + sp.max, 1)
    else ((if n then sp.sign else 0) + c, 0)

def writeElem (f : Fmt) (v : Int) (x : Word) : Nat × Nat := writeVal f v (fpVal x)

/-- The FP32 word a tensor operation writes: zeros positive, the one NaN (R80). -/
def canon32 (x : Word) : Word :=
  if fpIsNaN x then fpNaN else if fpIsZero x then fpZero else x

/-! ### Writing MXFP4 (R84) -/

/-- The scale exponent of a block whose largest finite magnitude is m * 2^e, m not 0. -/
def mxScale (m : Nat) (e : Int) : Int :=
  let l := m.log2
  let ex : Int := e + l
  let k := if 2 * m ≤ 3 * 2 ^ l then ex - 2 else ex - 1
  max k (-127)

def finMag (x : Word) : Nat := if fpIsNaN x || fpIsInf x then 0 else fpMag x

/-- A block of up to 32 values: its scale code, its element codes, the saturations counted. -/
def writeMxBlock (xs : List Word) : Nat × List Nat × Nat :=
  if xs.any fpIsNaN then (0xFF, xs.map (fun _ => 0), 0)
  else
    let a := xs.foldl (fun a x => max a (finMag x)) 0
    let k : Int :=
      if a = 0 then -127
      else match codeFin false 24 (-149) a with
        | .fin _ m e => mxScale m e
        | _ => -127
    let cs := xs.map (fun x => writeElem .mxfp4 (-k) x)
    ((k + 127).toNat, cs.map (·.1), cs.foldl (fun n c => n + c.2) 0)

/-! ### Running maxima (R88) -/

/-- The larger of a maximum and |x|; NaN is ignored. -/
def rmStep (a : Word) (x : Word) : Word :=
  if fpIsNaN x then a else if fpMag a < fpMag x then fpAbs x else a

def rmOf (xs : List Word) : Word := xs.foldl rmStep 0

/-- The larger of two optional maxima. -/
def rmJoin : Option Word → Option Word → Option Word
  | none, b => b
  | a, none => a
  | some a, some b => some (rmStep a b)

/-! ### G64 (R93-R98) -/

/-- A working sum: an exact integer and the GNaN flag (R95). -/
structure GSum where
  sum  : Int
  gnan : Bool
  deriving DecidableEq, Repr

def gnanCode : DWord := 0x8000000000000000#64

/-- An addend read to FP32 as a grid integer; none when it is not finite (R94). -/
def gAddend (eref : Int) (x : Word) : Option Int × Nat :=
  match fpVal x with
  | .fin n m e =>
    let q := rneShift m (e - (eref - 46))
    let lim : Nat := 2 ^ 47 - 1
    let q' := min q lim
    (some (if n then -(q' : Int) else (q' : Int)), if lim < q then 1 else 0)
  | _ => (none, 0)

def GSum.zero : GSum := ⟨0, false⟩

/-- Reduction units and fabric engines add modulo 2^80 (R95). -/
def wrap80 (i : Int) : Int :=
  let r := i % (2 ^ 80)
  if r < 2 ^ 79 then r else r - 2 ^ 80

def GSum.add (a : GSum) (q : Option Int) : GSum :=
  match q with
  | some q => ⟨wrap80 (a.sum + q), a.gnan⟩
  | none => ⟨a.sum, true⟩

/-- Two partials. -/
def GSum.join (a b : GSum) : GSum := ⟨wrap80 (a.sum + b.sum), a.gnan || b.gnan⟩

/-- A stored G64 word as an addend. -/
def gWord (w : DWord) : GSum := if w = gnanCode then ⟨0, true⟩ else ⟨w.toInt, false⟩

/-- The single saturation point: the word written, and the saturations counted (R95). -/
def GSum.word (a : GSum) : DWord × Nat :=
  if a.gnan then (gnanCode, 0)
  else if (2 : Int) ^ 63 - 1 < a.sum then (0x7FFFFFFFFFFFFFFF#64, 1)
  else if a.sum < -((2 : Int) ^ 63 - 1) then (0x8000000000000001#64, 1)
  else (BitVec.ofInt 64 a.sum, 0)

/-- The exact value of a G64 word (R93). -/
def gVal (eref : Int) (w : DWord) : FVal :=
  if w = gnanCode then .nan else .fin (decide (w.toInt < 0)) w.toInt.natAbs (eref - 46)

/-- Finalisation to a format with scale exponent v by one rounding (R98). -/
def gFinal (f : Fmt) (v eref : Int) (w : DWord) : Nat × Nat := writeVal f v (gVal eref w)

/-- A G64 source operand read to FP32 (R79). -/
def gRead (eref : Int) (w : DWord) : Read :=
  let (c, n) := gFinal .fp32 0 eref w
  (BitVec.ofNat 32 c, n)

/-- The memory-side accumulate of two stored words: modulo 2^64, GNaN sticky (R95, R97). -/
def gMemAdd (a b : DWord) : DWord := if a = gnanCode ∨ b = gnanCode then gnanCode else a + b

end Sys2Proof.Machine
end

