-- ==== Sys2Proof/Machine/Flags.lean ====
section
/-! DEFINITION. Status codes and completion records (R50, R53, R63, R464), and the results that carry them. -/

namespace Sys2Proof.Machine

/-! ### Status codes (R53) -/

def stOK : Nat := 0x00
def stSaturated : Nat := 0x01
def stEmpty : Nat := 0x02
def stStepSkipped : Nat := 0x03
def stDescInvalid : Nat := 0x10
def stAddrFault : Nat := 0x11
def stBiasFault : Nat := 0x12
def stPoison : Nat := 0x20
def stCourseLost : Nat := 0x21
def stDieLost : Nat := 0x22
def stFlowTimeout : Nat := 0x30
def stFabricPoison : Nat := 0x31
def stGangMember : Nat := 0x40
def stStepAborted : Nat := 0x50
def stSafeState : Nat := 0x60

/-- Detail words of DESC_INVALID that name no descriptor bit (R464). -/
def detailNoClass : Word := 0xFFFFFFFF#32
def detailArrival : Word := 0xFFFFFFFD#32
def detailRecord : Word := 0xFFFFFFFE#32

def isFault (status : Nat) : Bool := decide (0x10 ≤ status)

/-! ### Records (R50) -/

/-- A completion record: 32 bytes, little-endian. -/
def recordBits (lap : Bool) (runMax : Option Word) (sat : Nat) (detail : Word) (member tag stepLo phase status : Nat)
    (index handle : Word) : Nat :=
  (if lap then 2 ^ 255 else 0) + 2 ^ 192 * (runMax.getD 0).toNat + 2 ^ 160 * min sat 0xFFFFFFFF +
  2 ^ 128 * detail.toNat + (if runMax.isSome then 2 ^ 112 else 0) + 2 ^ 104 * (member % 256) + 2 ^ 96 * (tag % 256) +
  2 ^ 80 * (stepLo % 65536) + 2 ^ 72 * (phase % 64) + 2 ^ 64 * (status % 256) + 2 ^ 32 * index.toNat + handle.toNat

/-- A record is due under cmpl (R38). -/
def recordDue (cmpl status : Nat) : Bool :=
  match cmpl with
  | 0 => false
  | 1 => true
  | 2 => isFault status
  | _ => status != stOK

end Sys2Proof.Machine
end

