-- ==== Sys2Proof/Machine/Operands.lean ====
section
/-! DEFINITION. The operand forms of descriptors: the common header (R38), address words (R42), format words (R85-R87), unit
and gang handles (R54, R55), shards (R62), and the bookkeeping of start checks (R39, R464). -/

namespace Sys2Proof.Machine

/-! ### The descriptor -/

/-- Bits [hi:lo] of a descriptor as a number. -/
def dfld (d : Desc) (hi lo : Nat) : Nat := d.toNat / 2 ^ lo % 2 ^ (hi + 1 - lo)
def dbit (d : Desc) (i : Nat) : Bool := d.getLsbD i
def dword (d : Desc) (lo : Nat) : Word := BitVec.ofNat 32 (d.toNat / 2 ^ lo)

def dShardN (d : Desc) : Nat := dfld d 127 108
def dShardIx (d : Desc) : Nat := dfld d 107 88
def dTag (d : Desc) : Nat := dfld d 87 80
def dWaitVal (d : Desc) : Nat := dfld d 79 64
def dSigCtr (d : Desc) : Nat := dfld d 63 56
def dSigDie (d : Desc) : Nat := dfld d 55 49
def dSigEn (d : Desc) : Bool := dbit d 48
def dWaitCtr (d : Desc) : Nat := dfld d 47 40
def dWaitEn (d : Desc) : Bool := dbit d 39
def dOrder (d : Desc) : Bool := dbit d 38
def dCmpl (d : Desc) : Nat := dfld d 37 36
def dIrq (d : Desc) : Bool := dbit d 35
def dStepLo (d : Desc) : Nat := dfld d 31 16
def dPhase (d : Desc) : Nat := dfld d 13 8
def dClass (d : Desc) : Nat := dfld d 7 0

/-- A descriptor with the field [hi:lo] set. -/
def dset (d : Desc) (hi lo v : Nat) : Desc :=
  BitVec.ofNat 512 (d.toNat - dfld d hi lo * 2 ^ lo + v % 2 ^ (hi + 1 - lo) * 2 ^ lo)

/-! ### Address words (R42) -/

structure AddrWord where
  rel  : Nat
  resv : Nat
  mod  : Nat
  addr : Nat
  deriving DecidableEq, Repr

def addrWord (w : Nat) : AddrWord :=
  ⟨w / 2 ^ 62 % 4, w / 2 ^ 59 % 8, w / 2 ^ 48 % 2048, w % 2 ^ 48⟩

def dAddr (d : Desc) (lo : Nat) : AddrWord := addrWord (dfld d (lo + 63) lo)

/-- The word breaks R42 for a unit on `die`. -/
def AddrWord.ok (w : AddrWord) (die : Nat) : Bool :=
  w.resv == 0 && decide (w.rel < 3) && (w.rel == 0 || (w.mod == 0 && isCd die))

/-- Where a byte of an operand lies: in this module, in another, or nowhere (R24, R42). -/
inductive Place where
  | here (a : Nat)
  | far (m a : Nat)
  | nowhere (a : Nat)
  deriving DecidableEq, Repr

/-- The byte `off` bytes on from an address word, for a unit on `die` of module `own` (R25, R42): an offset never leaves the
window of a relative word, nor the 48-bit space. -/
def AddrWord.at (w : AddrWord) (own die off : Nat) : Place :=
  let a := w.addr + off
  match w.rel with
  | 0 => if 2 ^ 48 ≤ a then .nowhere a else if w.mod = own then .here a else .far w.mod a
  | 1 => if 0x2000000000 ≤ a then .nowhere a else .here (hbmBase die + a)
  | _ => if 0x100000000 ≤ a then .nowhere a else .here (wmBase die + a)

/-- The word names the die's own working memory: by rel = 2, at every offset, or by an absolute address of its window (R42, R140). -/
def AddrWord.ownWm (w : AddrWord) (own die : Nat) : Bool :=
  w.rel == 2 || match w.at own die 0 with
  | .here a => isWorkMem a && ownerDie a == die
  | _ => false

/-- A word of the executing die's own HBM or working memory (R248, R254); a relative word names it at every offset, and one past the
window meets R24 when it is accessed (R42). -/
def AddrWord.ownMem (w : AddrWord) (own die : Nat) : Bool :=
  w.rel == 1 || w.rel == 2 || match w.at own die 0 with
  | .here a => (isHbm a && ownerDie a == die) || (isWorkMem a && ownerDie a == die)
  | _ => false

/-- The word resolves to HBM of this module or of another (R250, R253); a word with rel = 1 does at every offset (R42). -/
def AddrWord.isHbm (w : AddrWord) (own die : Nat) : Bool :=
  w.rel == 1 || match w.at own die 0 with
  | .here a => Machine.isHbm a
  | .far _ a => Machine.isHbm a
  | .nowhere _ => false

def AddrWord.aligned (w : AddrWord) (n : Nat) : Bool := w.addr % n == 0

/-! ### Format words (R85, R86, R87) -/

structure FmtWord where
  code   : Nat
  gather : Bool
  close  : Bool
  auto   : Bool
  resv   : Nat
  slot   : Nat
  val    : Int
  deriving DecidableEq, Repr

/-- A signed 8-bit field. -/
def sgn8 (n : Nat) : Int := if n % 256 < 128 then (n % 256 : Nat) else ((n % 256 : Nat) : Int) - 256

def fmtWord (w : Nat) : FmtWord :=
  { code := w / 2 ^ 28 % 16, gather := w / 2 ^ 27 % 2 == 1, close := w / 2 ^ 26 % 2 == 1, auto := w / 2 ^ 25 % 2 == 1,
    resv := w / 2 ^ 23 % 4 * 32 + w / 2 ^ 8 % 32, slot := w / 2 ^ 13 % 1024, val := sgn8 w }

def dFmt (d : Desc) (lo : Nat) : FmtWord := fmtWord (dfld d (lo + 31) lo)

def FmtWord.fmt (w : FmtWord) : Fmt := (Fmt.ofCode w.code).getD .fp32

/-- The rules of R86 that every word follows, for a unit on `die`. -/
def FmtWord.ok (w : FmtWord) (die : Nat) : Bool :=
  match Fmt.ofCode w.code with
  | none => false
  | some f =>
    w.resv == 0 &&
    (match f with
     | .e5m2 => decide (-127 ≤ w.val)
     | .e4m3 => decide (-127 ≤ w.val)
     | .g64 => decide (-126 ≤ w.val)
     | _ => w.val == 0 && !w.auto) &&
    (!w.auto || w.val == 0) && (!w.close || w.gather) &&
    (!(w.gather || w.auto) || decide (w.slot < rmSlotsOn die))

/-- A word of a source operand: no gather, no close (R86). -/
def FmtWord.okSrc (w : FmtWord) (die : Nat) : Bool := w.ok die && !w.gather && !w.close

def Fmt.narrow (f : Fmt) : Bool :=
  match f with
  | .e5m2 => true
  | .e4m3 => true
  | .mxfp4 => true
  | _ => false

/-- A word of a target converted into: the narrow formats must gather (R86). -/
def FmtWord.okDst (w : FmtWord) (die : Nat) : Bool := w.ok die && (!w.fmt.narrow || w.gather)

/-- A word of a target that is a bit copy when it equals the source's (R86, R212, R248, R299, R301). -/
def bitCopy (src dst : Nat) : Bool := src == dst && src / 2 ^ 25 % 8 == 0

def FmtWord.okCopyDst (w : FmtWord) (die src dst : Nat) : Bool :=
  if bitCopy src dst then w.ok die else w.okDst die

/-- The scale exponent or E_ref of a word: its val, or the slot's field when auto is set (R87). -/
def State.slotVal (s : State) (die : Nat) (w : FmtWord) : Int :=
  if w.auto then
    let c := s.reg (Reg.ruRmCtrl die w.slot)
    if w.code = 6 then sgn8 (wfld c 7 0) else sgn8 (wfld c 15 8)
  else w.val

/-! ### Handles (R54, R55) -/

def hGang (h : Word) : Bool := bit h 20
def hModule (h : Word) : Nat := wfld h 31 21
def hDie (h : Word) : Nat := wfld h 19 13
def hSlot (h : Word) : Nat := wfld h 12 10
def hGangNo (h : Word) : Nat := wfld h 11 0

/-- The units of R16. -/
inductive Unit where
  | enginePair
  | moverGroup
  | dieController
  | hostCoupling
  | decodeEngine
  | fabricEngine
  deriving DecidableEq, Repr

def unitAt (die slot : Nat) : Option Unit :=
  if isCd die then
    if slot < 6 then some .enginePair else if slot = 6 then some .moverGroup else if slot = 7 then some .dieController else none
  else if isHd die then (if slot = 7 then some .hostCoupling else none)
  else if isIo die then
    if slot < 2 then some .decodeEngine else if slot = 6 then some .fabricEngine
    else if slot = 7 then some .dieController else none
  else none

/-- A handle names a unit of R16 or a gang. -/
def handleValid (h : Word) : Bool :=
  if hGang h then wfld h 19 12 == 0
  else wfld h 9 0 == 0 && (unitAt (hDie h) (hSlot h)).isSome

/-- The die that homes a gang, and the slot of its entry (R56). -/
def gangHome (g : Nat) : Nat := g % 40
def gangSlot (g : Nat) : Nat := g / 40

/-! ### Shards (R62) -/

/-- The indices of part j of n of an extent: from the first up to, but not including, the second. -/
def shardPart (ext n j : Nat) : Nat × Nat := (j * ext / n, (j + 1) * ext / n)

/-! ### Start checks (R39, R464) -/

/-- The lowest 1 of a reserved run, when it holds one. -/
def lowBit (v : Nat) (lo : Nat) : Nat → Option Nat
  | 0 => none
  | k + 1 => if v % 2 = 1 then some lo else lowBit (v / 2) (lo + 1) k

def resvBits (d : Desc) (hi lo : Nat) : Option Nat := lowBit (dfld d hi lo) lo (hi + 1 - lo)

/-- A field at descriptor bit `lo` that offends when `ok` is false. -/
def need (lo : Nat) (ok : Bool) : Option Nat := if ok then none else some lo

/-- The lowest offending bit. -/
def lowest : List (Option Nat) → Option Nat
  | [] => none
  | none :: xs => lowest xs
  | some b :: xs => match lowest xs with
    | none => some b
    | some c => some (min b c)

/-- The checks of the common header (R38, R39). -/
def headerChecks (d : Desc) : List (Option Nat) :=
  [resvBits d 34 32, resvBits d 15 14,
   need 88 (decide (dShardIx d < dShardN d)), need 108 (decide (0 < dShardN d)),
   need 49 (!dSigEn d || ringBearing (dSigDie d))]

end Sys2Proof.Machine
end

