-- ==== Sys2Proof/Machine/Access.lean ====
section
/-! DEFINITION. The memory accesses of descriptor work: what each access meets (R24, R236, R238, R334, R357, R366, R376,
R392), and the run of a descriptor over memory, with its faults, its poison, its saturations and its running maximum. -/

namespace Sys2Proof.Machine

/-! ### What an access meets -/

/-- Why an access is not served. -/
inductive Miss where
  | addr (logDie : Nat) (kind : LogKind)
  | bias (home : Nat)
  | course
  | lost (die : Nat)
  | flow (f : Nat)
  | remote (code f : Nat) (detail : Option Word)
  deriving DecidableEq, Repr

/-- The stack of an HBM address is out of service (R238). -/
def State.inMaint (s : State) (a : Nat) : Bool := isHbm a && s.flag (Reg.hcCtrl (ownerDie a)) 0

/-- What an address waits for before its home looks at it: initialisation of the working memory or of the bias table, which
holds every access that needs a code (R245 note 1, R369). -/
def State.initBusy (s : State) (a : Nat) : Bool :=
  if isWorkMem a then s.flag (Reg.wmCtrl (ownerDie a)) 1
  else s.flag (if isHbm a then Reg.hcBiasCtrl (ownerDie a) else Reg.hxBiasCtrl (ownerDie a)) 31

/-- An access that arrives while its granule flips waits for the new code (R359, R372). -/
def State.flipping (s : State) (a : Nat) : Bool :=
  s.host.flips.any (fun g => decide (g.2 = a / 0x10000) && s.flights.any (fun f => decide (f.fid = g.1 ∧ f.phase = .started)))

/-- What a packet on its way meets. -/
def Path.miss : Path → Option Miss
  | .ok _ _ => none
  | .courseLost _ => some .course
  | .dieLost _ d => some (.lost d)

/-- The lost die that a requester's access to a line was answered for, when it was outstanding at the notice of a die it used (R392). -/
def State.lostFor (s : State) (who : Option Waiter) (a : Nat) : Option Nat :=
  (s.answered.find? (fun x => decide (who = some x.1 ∧ x.2.1 = a / 64))).map (·.2.2)

/-- An access of descriptor work on `die` to an address of this module; none when it is served. One to memory of a lost die is
logged by the die that answers it (R24 note 1). -/
def State.meets (s : State) (die a : Nat) (who : Option Waiter := none) : Option Miss :=
  if let some d := s.lostFor who a then some (.lost d)
  else if !populated a then some (.addr die .address)
  else if s.dieDown (ownerDie a) then some (.addr ((s.path die (ownerDie a) a).answerer die) .lost)
  else match (s.path die (ownerDie a) a).miss with
    | some m => some m
    | none =>
      if s.inMaint a then some (.addr (ownerDie a) .maintenance)
      else if s.initBusy a || s.flipping a then none
      else if s.biasFor who a = 3 then some (.bias (ownerDie a))
      else none

/-- What the response of a served access meets on its way to the requester (R376, R388). -/
def State.answerMiss (s : State) (die a : Nat) : Option Miss := (s.back die (ownerDie a)).miss

/-- What an access of a requester that does nothing more once its response fails meets, there or on the way back. -/
def State.meetsBoth (s : State) (die a : Nat) (who : Option Waiter := none) : Option Miss :=
  match s.meets die a who with
  | some m => some m
  | none => s.answerMiss die a

/-- The dies and pairs a served access uses: those its request and its response cross (R376, R392). -/
def State.usesOf (s : State) (die a : Nat) : List Nat × List (Nat × Nat) :=
  match s.path die (ownerDie a) a, s.back die (ownerDie a) with
  | .ok ds ps, .ok es qs => (ds ++ es, ps ++ qs)
  | .ok ds ps, _ => (ds, ps)
  | _, _ => ([], [])

/-- What a served access waits for: initialisation, numbered 100, a flip of its granule, numbered 101, or the I/O die of an
external host that holds the line (R366). An access that its home accepted before the flip does not wait for it (R359). -/
def State.extHolder (s : State) (line : Nat) (who : Option Waiter := none) : Option Nat :=
  let a := 64 * line
  let early := who.any (fun w => s.pcie.exempt.contains (w, line))
  if s.initBusy a then some 100
  else if isWorkMem a then none
  else if s.flipping a && !early then some 101
  else if early || s.biasCode a == 2 then (s.pcie.ext.find? (fun e => decide (e.line = line))).map (·.io) else none

/-- SNP_SHR of a read of a host-memory line: a modified copy is written back and kept shared, an exclusive one shared; a read of
an HBM line needs no snoop (R352, R353). -/
def State.shareCopies (s : State) (line : Nat) : State :=
  if isHostMem (64 * line) && (s.host.copies.any (fun c => decide (c.line = line ∧ c.state ≠ .shared))) then
    let s := match s.modifiedCopy line with
      | some d => (s.putMem (64 * line) (lineOf d)).clearPoison line
      | none => s
    { s with host := { s.host with
        copies := s.host.copies.map (fun c => if c.line = line then { c with state := .shared, data := [] } else c)
        filter := s.host.filter.map (fun e => if e.line = line then { e with owner := none } else e) } }
  else s

/-! ### Filter entries (R346, R353) -/

def filterSize : Nat := 16777216

/-- Room for an entry in the filter of a host-memory home: a full filter evicts one, which the spec does not choose (entry 1),
with SNP_INV. -/
def State.filterRoom (s : State) (home : Nat) : State :=
  let mine := s.host.filter.filter (fun e => decide (ownerDie (64 * e.line) = home))
  if mine.length < filterSize then s
  else
    let (n, s) := s.freeCount
    s.invalidate (mine.getD (n % mine.length) ⟨0, none⟩).line

/-! ### Room in caches (R346, R351) -/

def State.dropCopy (s : State) (agent line : Nat) : State :=
  { s with host := { s.host with copies := s.host.copies.filter (fun c => decide (¬ (c.agent = agent ∧ c.line = line))) } }

/-- The cores of an agent's die hold a line no more in L1D and L2, which the L3 includes (R346). -/
def State.dropCores (s : State) (agent line : Nat) : State :=
  { s with host := { s.host with
      cores := s.host.cores.filter (fun c => decide (¬ (c.line = line ∧ c.hart / 24 = agent ∧ c.cache ≠ .l1i))) } }

/-- The home takes the data of a modified copy: a whole-line write (R236). -/
def State.writeBack (s : State) (c : Copy) : State :=
  if c.state = .modified then (s.putMem (64 * c.line) (lineOf c.data)).clearPoison c.line else s

/-- The O entry of an agent for a line becomes what `e` gives. -/
def State.setOwner (s : State) (agent line : Nat) (e : List FilterEntry) : State :=
  { s with host := { s.host with
      filter := s.host.filter.flatMap (fun x => if x.line = line ∧ x.owner = some agent then e else [x]) } }

/-- An agent no longer holds a copy: modified data goes home, and the grant and the reservations that rest on the copy end. -/
def State.releaseCopy (s : State) (c : Copy) : State :=
  let s := (((s.writeBack c).dropCopy c.agent c.line).dropCores c.agent c.line).setOwner c.agent c.line []
  { s with host := { s.host with
      grants := s.host.grants.filter (fun g => decide (¬ (g.line = c.line ∧ g.hostDie = c.agent)))
      resv := s.host.resv.filter (fun p => decide (p.2 ≠ c.line)) } }

/-- Lines an agent's cache holds: 96 MiB in an L3, 4 MiB in an I/O cache, 256 KiB at a die controller. -/
def cacheLines (agent : Nat) : Nat := if agent < 8 then 1572864 else if agent < 18 then 65536 else 4096

/-- Room for one more line in an agent's cache: a full one evicts a copy, which the spec does not choose (entry 1). -/
def State.cacheRoom (s : State) (agent : Nat) : State :=
  let mine := s.host.copies.filter (fun c => decide (c.agent = agent))
  if mine.length < cacheLines agent then s
  else
    let (n, s) := s.freeCount
    match mine[n % mine.length]? with
    | some c => if c.state = .modified then s.invalidate c.line else s.releaseCopy c
    | none => s

/-- An agent takes a clean copy of a line; a host-memory home records an S entry when it holds none. -/
def State.placeShared (s : State) (agent line : Nat) : State :=
  let s := if isHostMem (64 * line) && s.host.filter.all (fun e => decide (e.line ≠ line)) then
      let s := s.filterRoom (ownerDie (64 * line))
      { s with host := { s.host with filter := s.host.filter ++ [⟨line, none⟩] } }
    else s
  if s.host.copies.any (fun c => decide (c.agent = agent ∧ c.line = line)) then s
  else
    let s := s.cacheRoom agent
    { s with host := { s.host with copies := s.host.copies ++ [⟨agent, line, .shared, []⟩] } }

/-- Lines a core's private cache holds: 64 KiB of L1I and of L1D, 2 MiB of L2. -/
def coreCacheLines : CoreCache → Nat
  | .l1i => 1024
  | .l1d => 1024
  | .l2 => 32768

/-- A core's private cache takes a line; a full one gives up another, which the spec does not choose (entry 1). -/
def State.coreFill (s : State) (cache : CoreCache) (hart line : Nat) : State :=
  let data := if cache = .l1i then s.bytes (64 * line) 64 else []
  let rest := s.host.cores.filter (fun c => decide (¬ (c.cache = cache ∧ c.hart = hart ∧ c.line = line)))
  let mine := rest.filter (fun c => decide (c.cache = cache ∧ c.hart = hart))
  let (rest, s) := if mine.length < coreCacheLines cache then (rest, s)
    else
      let (n, s) := s.freeCount
      (match mine[n % mine.length]? with
        | some c => rest.erase c
        | none => rest, s)
  { s with host := { s.host with cores := rest ++ [⟨cache, hart, line, data⟩] } }

/-- The granule's bias lets host caches hold the line; working memory acts as DEV. -/
def State.cacheable (s : State) (a : Nat) (who : Option Waiter := none) : Bool := s.biasFor who a == 1 || s.biasFor who a == 2

/-! ### Write hints (R360, R361) -/

/-- The hint keeps the table of R360. -/
def hintOk (h : Nat) : Bool :=
  let kind := h / 2 ^ 14 % 4
  if kind = 0 then h == 0
  else if kind = 1 then decide (h / 2 ^ 6 % 32 < 24) && h % 64 == 0
  else if kind = 2 then h % 2 ^ 11 == 0
  else false

/-- The named core of a hint of kind 1 is powered: it has been released from reset (R361, R432). -/
def State.hintCoreUp (s : State) (hint : Nat) : Bool :=
  hint / 2 ^ 14 % 4 != 1 || s.host.harts.any (fun x => decide (x.hart = 24 * (hint / 2 ^ 11 % 8) + hint / 2 ^ 6 % 32))

/-- A line written whole is placed, clean, in the cache a hint names: the agent of a host die; a host-memory home records an S
entry. The hint is ignored for a granule that is not SHR or EXT, for a host die that is not running, for a core that is not up,
and where the named cache declines the line, which is open (R361; entry 1). -/
def State.hintPlace (s : State) (hint line : Nat) : State :=
  let h := hint / 2 ^ 11 % 8
  let a := 64 * line
  if hint / 2 ^ 14 % 4 = 0 ∨ s.dieState (80 + h) ≠ 2 ∨ ¬ (s.bias a = 1 ∨ s.bias a = 2) ∨ s.hintCoreUp hint = false then s
  else
    let (n, s) := s.freeCount
    if n % 2 = 1 then s
    else
      let s := s.placeShared h line
      if hint / 2 ^ 14 % 4 = 1 then s.coreFill .l2 (24 * h + hint / 2 ^ 6 % 32) line else s

/-! ### A descriptor's run over memory -/

/-- The working state of a descriptor's execution. `stop` marks a fault after which its unit issues nothing further; `far` and
`ext` are the remote lines and external answers it still waits for; `sends` are the frames it makes and `guards` the writes that
follow some of them; `lines` are the lines it has written. -/
structure Run where
  s      : State
  die    : Nat
  fid    : Nat
  stop   : Bool
  code   : Nat
  detail : Word
  sat    : Nat
  rm     : Option Word
  merges : List (Nat × Nat × Word × Bool)
  far    : List (Nat × Nat)
  ext    : List (Nat × Nat)
  sends  : List (Nat × FrameBody)
  guards : List Guard
  /-- Lines written, by fabric address (R25) div 64. -/
  lines  : List Nat
  uses   : List Nat
  pairs  : List (Nat × Nat)
  /-- The write hint of every destination line; 0 is none (R360). -/
  hint   : Nat
  deriving DecidableEq, Repr

def Run.start (s : State) (die fid : Nat) (hint : Nat := 0) : Run :=
  { s := s, die := die, fid := fid, stop := false, code := 0, detail := 0, sat := 0, rm := none, merges := [], far := [],
    ext := [], sends := [], guards := [], lines := [], uses := [], pairs := [], hint := hint }

/-- Keep the highest status met, with its detail (R53 note 2). -/
def Run.raise (r : Run) (code : Nat) (detail : Word) : Run :=
  if r.code < code then { r with code := code, detail := detail } else r

/-- Log a fault at a die, naming the descriptor and the access, and raise its status with the log's sequence number. -/
def Run.raiseLog (r : Run) (code die : Nat) (kind : LogKind) (a : Nat) (acc : LogAcc := .read) : Run :=
  let q := r.s.nextSeq die
  ({ r with s := r.s.log die kind a 0 (.desc r.fid) acc }).raise code q

/-- A fault that stops the unit. -/
def Run.miss (r : Run) (m : Miss) (a : Nat) (acc : LogAcc := .read) : Run :=
  let r := { r with stop := true }
  match m with
  | .addr d k => r.raiseLog stAddrFault d k a acc
  | .bias h => r.raiseLog stBiasFault h .bias a acc
  | .course => r.raiseLog stCourseLost r.die (.courseFault 0) a acc
  | .lost d => r.raise stDieLost (BitVec.ofNat 32 d)
  | .flow f => r.raise stFlowTimeout (BitVec.ofNat 32 f)
  | .remote c f detail =>
    if c = stFlowTimeout ∨ c = stFabricPoison then r.raise c (BitVec.ofNat 32 f)
    else match detail with
      | some d => r.raise c d
      | none =>
        let (v, s) := r.s.freeWord
        ({ r with s := s } : Run).raise c v

/-- A poisoned source, or a poisoned line that a write or operation leaves as it is (R53, R236); a descriptor logs each line
once. -/
def Run.poisoned (r : Run) (a : Nat) (acc : LogAcc := .read) : Run :=
  if r.s.flog.any (fun e => decide (e.kind = .poisonRead ∧ e.who = .desc r.fid ∧ e.addr / 64 = a / 64)) then
    r.raise stPoison (r.s.nextSeq (ownerDie a))
  else r.raiseLog stPoison (ownerDie a) .poisonRead a acc

/-- A served access's way there and back is recorded; the response may still fail on its way, which stops the unit. -/
def Run.answered (r : Run) (a : Nat) (acc : LogAcc) : Run :=
  let u := r.s.usesOf r.die a
  let r := { r with uses := r.uses ++ u.1, pairs := r.pairs ++ u.2 }
  match r.s.answerMiss r.die a with
  | some m => r.miss m a acc
  | none => r

def Run.addSat (r : Run) (n : Nat) : Run := { r with sat := r.sat + n }
def Run.max (r : Run) (x : Word) : Run := { r with rm := some (rmStep (r.rm.getD 0) x) }
def Run.maxes (r : Run) (xs : List Word) : Run := { r with rm := some (xs.foldl rmStep (r.rm.getD 0)) }

/-- The flow an access to module m takes (R334), or why it cannot. -/
def Run.flowFor (r : Run) (m : Nat) : Nat ⊕ Miss :=
  match r.s.fdest r.die m with
  | none => .inr (.addr r.die .address)
  | some f =>
    if r.s.flowOn f && r.s.flowPeer f == m then
      (match (r.s.path r.die (flowDie f)).miss with
       | some e => .inr e
       | none => .inl f)
    else .inr (.flow f)

/-- An access over a flow uses the dies of its way to the flow's I/O die and back (R392). -/
def Run.usesFlow (r : Run) (f : Nat) : Run :=
  let u := r.s.flowUses r.die f
  { r with uses := r.uses ++ u.1, pairs := r.pairs ++ u.2 }

/-- The line of another module delivered to this descriptor. -/
def Run.farLine (r : Run) (m line : Nat) : Option RemoteLine :=
  r.s.fab.remoteRd.find? (fun x => decide (x.fid = r.fid ∧ x.addr = 2 ^ 48 * m + 64 * line))

/-- The flow on which a READ of a line of module m is outstanding for this descriptor: a later change of DC_FDEST does not touch it
(R334). -/
def Run.asked (r : Run) (m line : Nat) : Option Nat :=
  (r.s.fab.unacked.find? (fun u => decide (u.fid = some r.fid ∧ u.frame.type = 0x12 ∧ u.frame.addr = 64 * line) &&
    r.s.flowPeer u.flow == m)).map (·.flow)

/-- The line of another module, as a read of it finds it: delivered, with its fault or its poison, or not asked for yet. An
access already issued is not asked for again (R334). -/
def Run.farRead (r : Run) (m a : Nat) (acc : LogAcc) : Run × Option RemoteLine :=
  match r.farLine m (a / 64) with
  | some l =>
    if l.fault ≠ 0 then (r.miss (.remote l.fault l.flow l.detail) a acc, none)
    else ((if l.poisoned then r.raise stFabricPoison (BitVec.ofNat 32 l.flow) else r).usesFlow l.flow, some l)
  | none =>
    match r.asked m (a / 64) with
    | some f => ({ r with far := r.far ++ [(f, 2 ^ 48 * m + a / 64 * 64)] }, none)
    | none =>
      match r.flowFor m with
      | .inr e => (r.miss e a acc, none)
      | .inl f => ({ r with far := r.far ++ [(f, 2 ^ 48 * m + a / 64 * 64)] }, none)

/-- What an access to an address of this module meets. -/
def Run.meets (r : Run) (a : Nat) : Option Miss := r.s.meets r.die a (some (.desc r.fid))

/-- What an access of the run to a line here waits for. -/
def Run.holder (r : Run) (a : Nat) : Option Nat := r.s.extHolder (a / 64) (some (.desc r.fid))

/-- Read n bytes at off that lie within one line. The bytes are empty when the access is not served (yet). -/
def Run.readLine (r : Run) (p : Place) (n : Nat) : Run × List Byte × Bool :=
  match p with
  | .nowhere a => (r.miss (.addr r.die .address) a, [], false)
  | .here a =>
    match r.meets a with
    | some m => (r.miss m a, [], false)
    | none =>
      match r.holder a with
      | some io => ({ r with ext := r.ext ++ [(io, a / 64)] }, List.replicate n 0, false)
      | none =>
        let r := ({ r with s := r.s.shareCopies (a / 64) }).answered a .read
        if r.stop then (r, [], false)
        else
          let bad := r.s.linePoisoned (a / 64)
          (if bad then r.poisoned a else r, r.s.bytes a n, bad)
  | .far m a =>
    match r.farRead m a .read with
    | (r, some l) => (r, (l.data.drop (a % 64)).take n, l.poisoned)
    | (r, none) => (r, if r.stop then [] else List.replicate n 0, false)

/-- Where the run of bytes from off to off + n - 1 breaks at line boundaries. -/
def chunk (w : AddrWord) (off : Nat) : Nat := 64 - (w.addr + off) % 64

/-- Read n bytes from off on, in ascending order; on a fault the bytes end there. -/
def Run.readRun (r : Run) (w : AddrWord) (off n : Nat) : Nat → Run × List Byte × Bool
  | 0 => (r, [], false)
  | fuel + 1 =>
    if n = 0 || r.stop then (r, [], false)
    else
      let k := min n (chunk w off)
      let (r, bs, p) := r.readLine (w.at r.s.moduleId r.die off) k
      if r.stop then (r, bs, p)
      else
        let (r, bs', p') := r.readRun w (off + k) (n - k) fuel
        (r, bs ++ bs', p || p')

def Run.read (r : Run) (w : AddrWord) (off n : Nat) : Run × List Byte × Bool := r.readRun w off n (n / 64 + 2)

/-- A read of n bytes as a little-endian number; 0 when it is not served. -/
def Run.readNat (r : Run) (w : AddrWord) (off n : Nat) : Run × Nat × Bool :=
  let (r, bs, p) := r.read w off n
  (r, leNat bs, p)

/-- What a descriptor writes to a remote line it has read stands in its copy of that line. -/
def Run.patchFar (r : Run) (m a : Nat) (bs : List Byte) (mark : Bool) : Run :=
  { r with s := { r.s with fab := { r.s.fab with remoteRd := r.s.fab.remoteRd.map (fun l =>
      if l.fid = r.fid ∧ l.addr = 2 ^ 48 * m + a / 64 * 64 then
        { l with data := l.data.take (a % 64) ++ bs ++ l.data.drop (a % 64 + bs.length)
                 poisoned := mark || (l.poisoned && decide (bs.length ≠ 64)) }
      else l) } } }

/-- A WRITE frame of bytes from byte a of a remote line, with what stands before them in the line (R331). -/
def Run.sendWrite (r : Run) (f m a : Nat) (before bs : List Byte) (mark : Bool) : Run :=
  let whole := before ++ bs
  let b : FrameBody := { type := 0x10, addr := a - before.length, aux := whole.length % 64,
                         payload := whole ++ List.replicate (64 - whole.length) 0, poison := mark }
  { (r.patchFar m a bs mark).usesFlow f with
    lines := r.lines ++ [(2 ^ 48 * m + a) / 64], sends := r.sends ++ [(f, b)] }

/-- Write bytes that lie within one line; `mark` says they derive from poisoned data. -/
def Run.writeLine (r : Run) (p : Place) (bs : List Byte) (mark : Bool) : Run :=
  match p with
  | .nowhere a => r.miss (.addr r.die .address) a .write
  | .here a =>
    match r.meets a with
    | some m => r.miss m a .write
    | none =>
      match r.holder a with
      | some io => { r with ext := r.ext ++ [(io, a / 64)] }
      | none =>
        let (s', bad) := r.s.writeLine a bs mark
        let s' := if bs.length = 64 ∧ r.hint ≠ 0 ∧ mark = false then s'.hintPlace r.hint (a / 64) else s'
        let r := { r with s := s', lines := setInsert r.lines ((2 ^ 48 * r.s.moduleId + a) / 64) }
        (if bad then r.poisoned a .write else r).answered a .write
  | .far m a =>
    if a % 64 = 0 then
      match r.flowFor m with
      | .inr e => r.miss e a .write
      | .inl f => (if mark then r.raise stFabricPoison (BitVec.ofNat 32 f) else r).sendWrite f m a [] bs mark
    else
      match r.farRead m a .write with
      | (r, none) => r
      | (r, some l) =>
        match r.flowFor m with
        | .inr e => r.miss e a .write
        | .inl f =>
          (if mark then r.raise stFabricPoison (BitVec.ofNat 32 f) else r).sendWrite f m a (l.data.take (a % 64)) bs
            (mark || l.poisoned)

/-- Write bytes from off on, in ascending order; on a fault nothing from the faulting byte on is written (R24 note 2). -/
def Run.writeRun (r : Run) (w : AddrWord) (off : Nat) (bs : List Byte) (mark : Bool) : Nat → Run
  | 0 => r
  | fuel + 1 =>
    if bs.isEmpty || r.stop then r
    else
      let k := chunk w off
      let r := r.writeLine (w.at r.s.moduleId r.die off) (bs.take k) mark
      if r.stop then r else r.writeRun w (off + k) (bs.drop k) mark fuel

def Run.write (r : Run) (w : AddrWord) (off : Nat) (bs : List Byte) (mark : Bool := false) : Run :=
  r.writeRun w off bs mark (bs.length / 64 + 2)

/-! ### Tensor elements in memory (R76, R79-R83, R87, R88) -/

/-- An operand: its address word, its format and its scale exponent or E_ref as the start read them. -/
structure Opnd where
  w   : AddrWord
  fmt : Fmt
  v   : Int
  deriving DecidableEq, Repr

/-- Split a run of bytes into little-endian numbers of k bytes. -/
def numsOf (k : Nat) : Nat → List Byte → List Nat
  | 0, _ => []
  | n + 1, bs => leNat (bs.take k) :: numsOf k n (bs.drop k)

/-- Element codes to FP32 words (R79), with the saturations counted; G64 is finalised to FP32. -/
def readCode (f : Fmt) (v : Int) (c : Nat) : Read :=
  match f with
  | .g64 => gRead v (BitVec.ofNat 64 c)
  | _ => readElem f v c

/-- Read n consecutive elements of an operand, the first at byte off. Short when a fault stops the run. -/
def Run.readElems (r : Run) (o : Opnd) (off n : Nat) : Run × List Word × Bool :=
  let k := o.fmt.bits / 8
  let (r, bs, p) := r.read o.w off (n * k)
  let cs := (numsOf k (bs.length / k) bs).map (readCode o.fmt o.v)
  (r.addSat (cs.foldl (fun a c => a + c.2) 0), cs.map (·.1), p)

/-- FP32 words to element codes (R80-R83, R94), the saturations counted. -/
def writeCode (f : Fmt) (v : Int) (x : Word) : Nat × Nat :=
  match f with
  | .g64 =>
    let (q, n) := gAddend v x
    ((GSum.zero.add q).word.1.toNat, n)
  | _ => writeElem f v x

/-- A step of a run, and whether it met a fault, stopped by it or not. -/
def Run.meeting (r : Run) (go : Run → Run) : Run × Bool :=
  let x := go { r with code := 0, detail := 0 }
  (if r.code < x.code then x else { x with code := r.code, detail := r.detail }, x.code != 0)

/-- Write consecutive elements; with `gather` their magnitudes enter the run's maximum (R88). -/
def Run.writeElems (r : Run) (o : Opnd) (gather : Bool) (off : Nat) (xs : List Word) (mark : Bool) : Run :=
  let k := o.fmt.bits / 8
  let cs := xs.map (writeCode o.fmt o.v)
  let r := r.addSat (cs.foldl (fun a c => a + c.2) 0)
  let r := if gather then r.maxes xs else r
  r.write o.w off (cs.flatMap (fun c => leBytes k c.1)) mark

/-! ### The end of a run -/

def Flight.noRes : Result :=
  { status := 0, detail := 0, sat := 0, runMax := none, member := 0, merges := [], uses := [], pairs := [], cycles := 0,
    lines := [] }

def State.flight (s : State) (fid : Nat) : Option Flight := s.flights.find? (fun f => decide (f.fid = fid))

def State.setFlight (s : State) (f : Flight) : State :=
  { s with flights := s.flights.map (fun g => if g.fid = f.fid then f else g) }

/-- The status of a descriptor that met no fault: SATURATED when anything saturated (R82 note 2). -/
def okStatus (code sat : Nat) : Nat := if code = 0 ∧ sat ≠ 0 then stSaturated else code

/-- The result a run comes to; sat_count saturates when the record is made (R50). -/
def Run.result (r : Run) (cycles : Nat) : Result :=
  { status := BitVec.ofNat 8 (okStatus r.code r.sat), detail := r.detail, sat := r.sat, runMax := r.rm, member := 0,
    merges := r.merges, uses := r.uses.dedup, pairs := r.pairs.dedup, cycles := cycles, lines := r.lines }

/-- The die of a requester. -/
def State.waiterDie (s : State) : Waiter → Option Nat
  | .desc fid => (s.flight fid).map (fun f => hDie f.target)
  | .controller d => some d
  | .hart n => some (80 + n / 24)
  | .device io => some (88 + io)
  | .frame flow => some (88 + flow % 10)
  | .home d => some d

/-- The dies that a requester's access to a line uses. -/
def State.accessDies (s : State) (w : Waiter) (line : Nat) : List Nat :=
  ownerDie (64 * line) :: (s.waiterDie w).toList.flatMap (fun d => (s.usesOf d (64 * line)).1)

/-- An access waits on a BISnp for a line that an I/O die's external host holds; the home asks for the line once (R366). -/
def State.holdFor (s : State) (line holder : Nat) (who : Option Waiter := none) : State :=
  if 100 ≤ holder then s
  else
    let s := match who with
      | some w => if s.pcie.waiters.any (fun x => decide (x.who = w ∧ x.line = line)) then s
        else { s with pcie := { s.pcie with waiters := s.pcie.waiters ++ [⟨w, line, s.accessDies w line⟩] } }
      | none => s
    if s.pcie.waits.contains (holder, line) then s
    else
      let s : State := { s with pcie := { s.pcie with waits := s.pcie.waits ++ [(holder, line)] } }
      if s.extUp then s.emit (.bisnp holder line) else s

/-- Ask for what a run waits for: a READ for each remote line not asked for yet (R331), a BISnp for each external line (R366). -/
def State.askFor (s : State) (fid : Nat) (far ext : List (Nat × Nat)) : State :=
  let s := far.dedup.foldl (fun s x =>
    if s.fab.unacked.any (fun u => decide (u.fid = some fid ∧ u.frame.type = 0x12 ∧ u.flow = x.1 ∧
        u.frame.addr = x.2 % 2 ^ 48)) then s
    else s.sendSeq x.1 { type := 0x12, addr := x.2 % 2 ^ 48, aux := 1 } (some fid)) s
  ext.dedup.foldl (fun s x => s.holdFor x.2 x.1 (some (.desc fid))) s

/-- A descriptor's accesses wait no longer. -/
def State.unwaitDesc (s : State) (fid : Nat) : State :=
  { s with pcie := { s.pcie with waiters := s.pcie.waiters.filter (fun w => decide (w.who ≠ .desc fid))
                                 exempt := s.pcie.exempt.filter (fun w => decide (w.1 ≠ .desc fid)) }
           answered := s.answered.filter (fun x => decide (x.1 ≠ .desc fid)) }

/-- Queue the frames of a descriptor in order. -/
def State.sendAll (s : State) (fid : Nat) (sends : List (Nat × FrameBody)) : State :=
  (sends.zipIdx).foldl (fun s x => s.sendSeq x.1.1 x.1.2 (some fid) x.2) s

/-- The lines of other modules that a descriptor read are held no longer. -/
def State.dropLines (s : State) (fid : Nat) : State :=
  { s with fab := { s.fab with remoteRd := s.fab.remoteRd.filter (fun x => decide (x.fid ≠ fid)) } }

/-- End a run begun in state `s0`. A run that waits for remote lines or an external host has no effect yet: its requests go
out and the descriptor stays started. Lines of other modules stay held while frames may be formed again from them (R332). A run that
its unit stopped leaves the descriptor faulted when `unitFault` holds, so that the unit's own fault step follows; otherwise the
descriptor is done. The other descriptors are those of `s0`. -/
def Run.finish (r : Run) (s0 : State) (f : Flight) (cycles : Nat) (unitFault : Bool) : State :=
  if r.far ≠ [] ∨ r.ext ≠ [] then s0.askFor f.fid r.far r.ext
  else
    let s := (r.s.sendAll f.fid r.sends).unwaitDesc f.fid
    let s := if r.sends.isEmpty && r.guards.isEmpty then s.dropLines f.fid else s
    let s := { s with fab := { s.fab with guards := s.fab.guards ++ r.guards } }
    let res := r.result cycles
    let ph := if r.stop && unitFault then Phase.faulted res.status res.detail r.lines else Phase.done
    ({ s with flights := s0.flights } : State).setFlight { f with phase := ph, res := res }

/-- The end of a descriptor from its run and its length in cycles. -/
def Run.ends (x : Run × Nat) (s0 : State) (f : Flight) (unitFault : Bool) : State := x.1.finish s0 f x.2 unitFault

/-! ### How far a descriptor has come, and whose turn it is to execute (R113, R129, R306) -/

def Flight.waits (f : Flight) : Bool := match f.phase with | .waiting => true | _ => false
def Flight.completed (f : Flight) : Bool := match f.phase with | .completed => true | _ => false
def Flight.isDone (f : Flight) : Bool := match f.phase with | .done => true | _ => false
/-- Started and not done. -/
def Flight.executing (f : Flight) : Bool := match f.phase with
  | .started => true
  | .faulted .. => true
  | _ => false

/-- Accesses of the descriptor may be outstanding: it has executed, or is a GRED, which writes results as they come. -/
def Flight.issued (f : Flight) : Bool := match f.phase with
  | .done => true
  | .faulted .. => true
  | .started => dClass f.desc == 0x71
  | _ => false

def Flight.running (f : Flight) : Bool := match f.phase with | .started => true | _ => false

/-- The partition a matrix class names. -/
def matPart (d : Desc) : Nat :=
  if dClass d = 0x10 then dfld d 483 482 else if dClass d = 0x11 then dfld d 505 504
  else if dClass d = 0x40 then dfld d 491 490 else dfld d 441 440

/-- The matrix classes: 0x10 to 0x12 and 0x40 (R101, R207). -/
def matClass (c : Nat) : Bool := c / 16 == 1 || c == 0x40

/-- The part of a unit that executes one descriptor at a time: a partition of the array, the vector engine (4), the die
controller (5). NOP and the other units' descriptors take none. -/
def Flight.lane (f : Flight) : Option Nat :=
  match unitAt (hDie f.target) (hSlot f.target) with
  | some .enginePair => if dClass f.desc = 0 then none else if matClass (dClass f.desc) then some (matPart f.desc) else some 4
  | some .dieController => some 5
  | _ => none

/-- Earlier in the order of the same ring. -/
def Flight.before (g f : Flight) : Bool :=
  g.place.1 == f.place.1 && g.place.2.1 == f.place.2.1 && decide (g.place.2.2 < f.place.2.2)

/-- An executing descriptor of the same unit goes first: one of the same part that started earlier, or, at an engine pair, one
earlier in the ring, whose tile-buffer accesses come first (R113, R129). -/
def State.held (s : State) (f : Flight) : Bool :=
  f.lane.isSome && s.flights.any (fun g => g.executing && g.lane.isSome && g.target == f.target && g.fid != f.fid &&
    ((g.lane == f.lane && decide (g.start < f.start)) || g.before f))

/-- A unit executes this descriptor of class `c` now; a gang executes none, its members do (R17). -/
def State.runs (s : State) (f : Flight) (c : Nat) : Bool :=
  f.running && !hGang f.target && dClass f.desc == c && !s.held f

/-- A descriptor done without touching memory. -/
def State.finishWith (s : State) (f : Flight) (status : Nat) (detail : Word) : State :=
  s.setFlight { f with phase := .done, res := { Flight.noRes with status := BitVec.ofNat 8 status, detail := detail } }

end Sys2Proof.Machine
end

