-- ==== Sys2Proof/Machine/MemSide.lean ====
section
/-! DEFINITION. The adders of the HBM4 controllers: operation codes (R251), one operation on a line (R252), and a unit's request
(R250, R333). -/

namespace Sys2Proof.Machine

/-- Bytes of an operation's elements; none for a reserved code (R251). -/
def msopSize (op : Nat) : Option Nat :=
  if 0x01 ≤ op ∧ op ≤ 0x06 then some 4
  else if 0x11 ≤ op ∧ op ≤ 0x16 then some 8
  else if op = 0x21 then some 4
  else if op = 0x22 then some 2
  else if op = 0x31 then some 8
  else none

/-- Round a value to BF16; an overflow gives an infinity, zero is stored as +0 (R251 note 2). -/
def bf16Round (x : FVal) : Nat :=
  match x with
  | .nan => 0x7FC0
  | .inf n => if n then 0xFF80 else 0x7F80
  | .fin n m e =>
    let c := min 0x7F80 (roundCode 8 (-133) m e)
    if c = 0 then 0 else if n then 0x8000 + c else c

/-- The integer operations on n-bit words: 1 ADD, 2 MIN, 3 MAX, 4 AND, 5 OR, 6 XOR. -/
def intOp {n : Nat} (k : Nat) (m v : BitVec n) : BitVec n :=
  match k with
  | 1 => m + v
  | 2 => if m.slt v then m else v
  | 3 => if m.slt v then v else m
  | 4 => m &&& v
  | 5 => m ||| v
  | _ => m ^^^ v

/-- The stored result from stored m and operand v (R251). -/
def msopElem (op m v : Nat) : Nat :=
  if op ≤ 0x06 then (intOp op (BitVec.ofNat 32 m) (BitVec.ofNat 32 v)).toNat
  else if op ≤ 0x16 then (intOp (op - 0x10) (BitVec.ofNat 64 m) (BitVec.ofNat 64 v)).toNat
  else if op = 0x21 then (canon32 (fpAdd (BitVec.ofNat 32 m) (BitVec.ofNat 32 v))).toNat
  else if op = 0x22 then bf16Round ((Fmt.bf16.value m).add (Fmt.bf16.value v))
  else (gMemAdd (BitVec.ofNat 64 m) (BitVec.ofNat 64 v)).toNat

/-- A line after an operation on its masked elements. -/
def msopLine (op size mask : Nat) (line data : List Byte) : List Byte :=
  (List.range (64 / size)).flatMap (fun i =>
    let m := (line.drop (i * size)).take size
    if mask / 2 ^ i % 2 = 1 then leBytes size (msopElem op (leNat m) (leNat ((data.drop (i * size)).take size))) else m)

/-- The controller performs an operation on the line at `a`; the second part says that the acknowledgement is marked poisoned
(R236, R252). -/
def State.msop (s : State) (a op mask : Nat) (data : List Byte) (mark : Bool) : State × Bool :=
  match msopSize op with
  | none => (s, false)
  | some size =>
    let line := a / 64
    let s := s.invalidate line
    if s.linePoisoned line then (s, true)
    else if mark then (s.markPoison line, true)
    else (s.putMem (64 * line) (msopLine op size mask (s.bytes (64 * line) 64) data), false)

/-- A unit's operation on one line; `p` is the line's place. One outside HBM is not sent, in this module or another (R254). -/
def Run.msop (r : Run) (p : Place) (op mask : Nat) (data : List Byte) (mark : Bool) : Run :=
  match p with
  | .nowhere a => r.miss (.addr r.die .address) a .atomic
  | .here a =>
    if !isHbm a then r.miss (.addr r.die .address) a .atomic
    else match r.meets a with
      | some m => r.miss m a .atomic
      | none =>
        match r.holder a with
        | some io => { r with ext := r.ext ++ [(io, a / 64)] }
        | none =>
          let (s, bad) := r.s.msop a op mask data mark
          let r := { r with s := s }
          (if bad then r.poisoned a .atomic else r).answered a .atomic
  | .far m a =>
    if !isHbm a then r.miss (.addr r.die .address) a .atomic
    else match r.flowFor m with
      | .inr e => r.miss e a .atomic
      | .inl f =>
        let r := (if mark then r.raise stFabricPoison (BitVec.ofNat 32 f) else r).usesFlow f
        { r with sends := r.sends ++ [(f, { type := 0x11, addr := a / 64 * 64, aux := op, payload := data,
                                            mask := BitVec.ofNat 32 mask, poison := mark })] }

/-- An operation on one element at byte `off` from an address word. -/
def Run.msopAt (r : Run) (w : AddrWord) (off op v : Nat) (mark : Bool) : Run :=
  match msopSize op with
  | none => r
  | some size =>
    let at_ := (w.addr + off) % 64
    let data := List.replicate at_ (0 : Byte) ++ leBytes size v ++ List.replicate (64 - at_ - size) 0
    r.msop (w.at r.s.moduleId r.die off) op (2 ^ (at_ / size)) data mark

end Sys2Proof.Machine
end

