-- ==== Sys2Proof/Machine/Govern.lean ====
section
/-! DEFINITION. Operating points: the governing phase, the limits of a die, power groups and the changes of frequency and voltage
(R401-R405, R409, R410, R413, R414). -/

namespace Sys2Proof.Machine

/-! ### Operating points (R401, R420) -/

def State.opMhz (s : State) (die k : Nat) : Nat := s.fld (Reg.pwOp die k) 11 0
def State.opMv (s : State) (die k : Nat) : Nat := s.fld (Reg.pwOp die k) 27 16
def State.curMhz (s : State) (die : Nat) : Nat := s.fld (Reg.pwDieStatus die) 31 20
def State.curOp (s : State) (die : Nat) : Nat := s.fld (Reg.pwDieStatus die) 3 0
def State.targetOp (s : State) (die : Nat) : Nat := s.fld (Reg.pwDieStatus die) 7 4

/-- A value by die, or a default. -/
def byDie (m : List (Nat × Nat)) (d die : Nat) : Nat := ((m.find? (fun p => decide (p.1 = die))).map (·.2)).getD d
def setDie (m : List (Nat × Nat)) (die v : Nat) : List (Nat × Nat) := (die, v) :: m.filter (fun p => decide (p.1 ≠ die))

/-! ### The governing phase (R403, R404) -/

/-- Phases of the descriptors started and not completed on a die's units. -/
def State.phasesOn (s : State) (die : Nat) : List Nat :=
  (s.flights.filter (fun f => !hGang f.target && hDie f.target == die &&
    f.start != 0 && !f.completed)).map (fun f => dPhase f.desc)

/-- The phase whose entry has the highest op, the lower tag on ties. -/
def State.governing (s : State) (die : Nat) : Option Nat :=
  (s.phasesOn die).foldl (fun (b : Option Nat) p => match b with
    | none => some p
    | some q =>
      let a := s.fld (Reg.pwPhase die p) 3 0
      let c := s.fld (Reg.pwPhase die q) 3 0
      if c < a ∨ (a = c ∧ p < q) then some p else some q) none

/-- The preferred point, whether the group rules, and the weight. -/
def State.phaseOf (s : State) (die : Nat) : Nat × Bool × Nat :=
  match s.governing die with
  | none => (s.fld (Reg.pwDieCtrl die) 3 0, false, 0)
  | some p => (s.fld (Reg.pwPhase die p) 3 0, s.flag (Reg.pwPhase die p) 8, s.fld (Reg.pwPhase die p) 7 4)

/-! ### Limits (R405, R407) -/

def State.lehrLimit (s : State) (die : Nat) : Nat := byDie s.pw.lehr 15 die
def State.thermalLimit (s : State) (die : Nat) : Nat := byDie s.pw.thermal 15 die

/-- The allowed operating point and the limiter that sets it. -/
def State.allowedOf (s : State) (die : Nat) : Nat × Nat :=
  if s.pw.floorOn then (0, 4)
  else
    let l := s.lehrLimit die
    let t := s.thermalLimit die
    let d := if s.pw.longDroop.contains die then 0 else 15
    let a := min 15 (min l (min t d))
    (a, if a = 15 then 0 else if l = a then 2 else if t = a then 1 else 3)

/-! ### Power groups (R409, R410) -/

/-- Valid group entries. -/
def State.validGroups (s : State) : List Nat :=
  s.regs.filterMap (fun p =>
    if Reg.pwGrpCtrl 0 ≤ p.1 ∧ p.1 < Reg.pwGrpCtrl 4096 ∧ (p.1 - Reg.pwGrpCtrl 0) % 0x20 = 0 ∧ p.2.getLsbD 31 = true then
      some ((p.1 - Reg.pwGrpCtrl 0) / 0x20)
    else none)

def State.grpHas (s : State) (g die : Nat) : Bool :=
  if die < 32 then s.flag (Reg.pwGrpDiesLo g) die else decide (die < 40) && s.flag (Reg.pwGrpDiesHi g) (die - 32)

def State.grpShifting (s : State) (g : Nat) : Bool := s.flag (Reg.pwGrpCtrl g) 30

/-- Local members of a group that run. -/
def State.grpDies (s : State) (g : Nat) : List Nat := (List.range 40).filter (fun d => s.grpHas g d && s.dieState d == 2)

/-- The valid capo group of a die. -/
def State.capoGroup (s : State) (die : Nat) : Option Nat :=
  s.validGroups.find? (fun g => s.grpHas g die && !s.grpShifting g)

/-- The module's contribution to a capo group: the lowest allowed point of its members, limited to OP14. -/
def State.contribution (s : State) (g : Nat) : Nat := (s.grpDies g).foldl (fun m d => min m (s.allowedOf d).1) 14

def State.groupCap (s : State) (g : Nat) : Nat :=
  (s.pw.capo.filter (fun e => decide (e.1 = g))).foldl (fun m e => min m e.2.2.2) (s.contribution g)

/-- The target of R404. -/
def State.targetOf (s : State) (die : Nat) : Nat :=
  let (op, grp, _) := s.phaseOf die
  let a := (s.allowedOf die).1
  match grp, s.capoGroup die with
  | true, some g => min op (min a (s.groupCap g))
  | _, _ => min op a

/-! ### Changes (R402, R414) -/

def State.change (s : State) (die : Nat) : Option OpChange := s.pw.changes.find? (fun c => decide (c.die = die))

def State.setChange (s : State) (die : Nat) (c : Option OpChange) : State :=
  let rest := s.pw.changes.filter (fun x => decide (x.die ≠ die))
  let s : State := { s with pw := { s.pw with changes := match c with | some c => rest ++ [c] | none => rest } }
  s.setFlag (Reg.pwDieStatus die) 17 c.isSome

/-- VDD_A of a die in mV. -/
def State.volt (s : State) (die : Nat) : Nat := byDie s.pw.volts (s.opMv die 0) die

/-- The next part of a change to `goal`: a raise slews the voltage first and then steps the frequency, a lowering steps first. -/
def State.nextPart (s : State) (die goal : Nat) : State :=
  let f := s.curMhz die
  let g := s.opMhz die goal
  let up := decide (s.volt die < s.opMv die goal)
  if f < g then s.setChange die (some ⟨die, goal, s.opMv die goal, up⟩)
  else if g < f then s.setChange die (some ⟨die, goal, s.opMv die goal, false⟩)
  else if s.volt die ≠ s.opMv die goal then s.setChange die (some ⟨die, goal, s.opMv die goal, true⟩)
  else (s.setChange die none).putFld (Reg.pwDieStatus die) 3 0 goal

/-- Re-evaluate a running compute die: allowed, limiter and target; a new target takes effect at once when nothing moves or the
voltage slews, and at the end of a divider step otherwise. None begins during a droop, or in the safe state (R422). -/
def State.evalDie (s : State) (die : Nat) : State :=
  if !isCd die || s.dieState die != 2 then s
  else
    let st := Reg.pwDieStatus die
    let (a, l) := s.allowedOf die
    let t := s.targetOf die
    let s := ((s.putFld st 15 12 l).putFld st 11 8 a).putFld st 7 4 t
    if s.pw.droops.contains die || s.isSafe then s
    else match s.change die with
      | some c => if c.slew ∧ c.goal ≠ t then s.nextPart die t else s
      | none => if s.curOp die = t then s else s.nextPart die t

def State.evalAll (s : State) : State := (List.range 40).foldl (fun s d => s.evalDie d) s

/-- The change goes on after a part of it, unless a droop episode defers it. -/
def State.goOn (s : State) (die : Nat) : State :=
  if s.pw.droops.contains die then { s with pw := { s.pw with deferred := setInsert s.pw.deferred die } }
  else s.nextPart die (s.targetOp die)

/-- A divider step moves ACLK by at most 50 MHz. -/
def State.dividerStep (s : State) (c : OpChange) : State :=
  let f := s.curMhz c.die
  let g := s.opMhz c.die c.goal
  let f' := if f < g then min g (f + 50) else Nat.max g (f - 50)
  (s.putFld (Reg.pwDieStatus c.die) 31 20 f').goOn c.die

def execOpDividerStep (die : Nat) (s : State) : Host.Outcome State Fault Refusal :=
  .next (match s.change die with
    | some c => if c.slew || s.pw.deferred.contains die then s else s.dividerStep c
    | none => s)

def State.slewDone (s : State) (c : OpChange) : State :=
  ({ s with pw := { s.pw with volts := setDie s.pw.volts c.die c.mv } } : State).goOn c.die

def execVoltageSlewDone (die : Nat) (s : State) : Host.Outcome State Fault Refusal :=
  .next (match s.change die with
    | some c => if c.slew && !s.pw.deferred.contains die then s.slewDone c else s
    | none => s)

/-! ### Droop (R413, R414) -/

def State.droopDetect (s : State) (die : Nat) : State :=
  let s := s.setFlag (Reg.pwDieStatus die) 16 true
  let n := s.fld (Reg.pwDroop die) 30 0
  let s := s.putFld (Reg.pwDroop die) 30 0 (min (n + 1) (2 ^ 31 - 1))
  { s with pw := { s.pw with droops := setInsert s.pw.droops die } }

def execDroopDetect (die : Nat) (s : State) : Host.Outcome State Fault Refusal :=
  .next (if isCd die && s.dieState die == 2 && !s.pw.droops.contains die then s.droopDetect die else s)

/-- The episode ends and what it deferred goes on. -/
def State.droopEnd (s : State) (die : Nat) : State :=
  let held := s.pw.deferred.contains die
  let s := s.setFlag (Reg.pwDieStatus die) 16 false
  let s : State := { s with pw := { s.pw with droops := setErase s.pw.droops die, deferred := setErase s.pw.deferred die } }
  if held then s.nextPart die (s.targetOp die) else s.evalDie die

def execDroopEnd (die : Nat) (s : State) : Host.Outcome State Fault Refusal :=
  .next (if s.pw.droops.contains die then s.droopEnd die else s)

/-- An episode longer than 1 ms: the long-droop limit is OP0 until the next 1 ms tick. -/
def State.longDroop (s : State) (die : Nat) : State :=
  let s := s.setFlag (Reg.pwDroop die) 31 true
  ({ s with pw := { s.pw with longDroop := setInsert s.pw.longDroop die } } : State).evalAll

def execLongDroop (die : Nat) (s : State) : Host.Outcome State Fault Refusal :=
  .next (if s.pw.droops.contains die then s.longDroop die else s)

end Sys2Proof.Machine
end

