-- ==== Sys2Proof/Machine/Slots.lean ====
section
/-! DEFINITION. Running-maximum slots: merge, close and revert (R88-R92). -/

namespace Sys2Proof.Machine

def State.rmCtrl (s : State) (die slot : Nat) : Word := s.reg (Reg.ruRmCtrl die slot)

/-- cur becomes the larger of cur and a descriptor's maximum (R90). -/
def State.rmMerge (s : State) (die slot : Nat) (x : Word) : State :=
  let a := Reg.ruRmCur die slot
  s.setReg a (rmStep (s.reg a) x)

def clampInt (lo hi x : Int) : Int := max lo (min hi x)

/-- The exponent and significand of a magnitude: mag = sig * 2^(exp - log2 sig) with a normalised significand. -/
def magParts (m : Nat) : Nat × Int :=
  let (k, q) := codeMag 24 m
  (k, (k.log2 : Int) + q - 149)

/-- A significand a below b, both normalised. -/
def sigLt (a b : Nat) : Bool := decide (a * 2 ^ b.log2 < b * 2 ^ a.log2)

/-- exp and eref from the window maximum A, not 0 and not infinite (R91). -/
def rmScale (fmt margin : Nat) (A : Nat) : Int × Int :=
  let (fF, eF) : Nat × Int := if fmt = 3 then (7, 15) else (7, 8)
  let (fA, eA) := magParts A
  (clampInt (-127) 127 (eF - eA - (if sigLt fF fA then 1 else 0) - margin), clampInt (-126) 127 (eA + 1))

def u8 (i : Int) : Nat := (i % 256).toNat

/-- The window a slot uses: 0 acts as 1, values above 16 as 16 (R89). -/
def rmWindow (ctrl : Word) : Nat := max 1 (min 16 (wfld ctrl 23 19))

/-- The rules applied after each close (R91). -/
def State.rmRules (s : State) (die slot : Nat) : State :=
  let c := s.rmCtrl die slot
  let n := min (rmWindow c) (wfld (s.reg (Reg.ruRmDepth die slot)) 4 0)
  let A := (List.range n).foldl (fun a k => max a (fpMag (s.reg (Reg.ruRmHist die slot k)))) 0
  let ca := Reg.ruRmCtrl die slot
  if 0x7F800000 ≤ A then s.setFlag ca 31 true
  else if A = 0 then s
  else
    let (e, g) := rmScale (wfld c 27 24) (wfld c 18 16) A
    (s.putFld ca 15 8 (u8 e)).putFld ca 7 0 (u8 g)

/-- A close (R90). -/
def State.rmCloseSlot (s : State) (die slot : Nat) : State :=
  let c := s.rmCtrl die slot
  let depth := wfld (s.reg (Reg.ruRmDepth die slot)) 4 0
  let old := (List.range 16).map (fun k => s.reg (Reg.ruRmHist die slot k))
  let s := s.setReg (Reg.ruRmPrev die slot)
    (BitVec.ofNat 32 (2 ^ 16 * depth + 2 ^ 8 * wfld c 15 8 + wfld c 7 0))
  let s := s.setReg (Reg.ruRmShadow die slot) (old.getD 15 0)
  let s := (List.range 15).foldl (fun s k => s.setReg (Reg.ruRmHist die slot (k + 1)) (old.getD k 0)) s
  let s := s.setReg (Reg.ruRmHist die slot 0) (s.reg (Reg.ruRmCur die slot))
  let s := s.setReg (Reg.ruRmDepth die slot) (BitVec.ofNat 32 (min 16 (depth + 1)))
  let s := s.setReg (Reg.ruRmCur die slot) 0
  (s.setFlag (Reg.ruRmCtrl die slot) 28 true).rmRules die slot

/-- A revert (R90). -/
def State.rmRevertSlot (s : State) (die slot : Nat) : State :=
  let ca := Reg.ruRmCtrl die slot
  let s' :=
    if s.flag ca 28 then
      let p := s.reg (Reg.ruRmPrev die slot)
      let old := (List.range 16).map (fun k => s.reg (Reg.ruRmHist die slot k))
      let s1 := (List.range 15).foldl (fun t k => t.setReg (Reg.ruRmHist die slot k) (old.getD (k + 1) 0)) s
      let s2 := s1.setReg (Reg.ruRmHist die slot 15) (s.reg (Reg.ruRmShadow die slot))
      let s3 := s2.setReg (Reg.ruRmDepth die slot) (BitVec.ofNat 32 (wfld p 20 16))
      ((s3.putFld ca 15 8 (wfld p 15 8)).putFld ca 7 0 (wfld p 7 0)).setFlag ca 28 false
    else s
  s'.setReg (Reg.ruRmCur die slot) 0

/-- A software close (R90). -/
def execRmClose (die slot : Nat) (s : State) : Host.Outcome State Fault Refusal :=
  .next (if slot < rmSlotsOn die ∧ s.dieDown die = false then s.rmCloseSlot die slot else s)

/-- A software revert (R90). -/
def execRmRevert (die slot : Nat) (s : State) : Host.Outcome State Fault Refusal :=
  .next (if slot < rmSlotsOn die ∧ s.dieDown die = false then s.rmRevertSlot die slot else s)

/-- All merges of a completion come before its closes (R92). -/
def State.applyMerges (s : State) (all : List (Nat × Nat × Word × Bool)) : State :=
  let ms := all.filter (fun m => decide (m.2.1 < rmSlotsOn m.1))
  let s := ms.foldl (fun s m => s.rmMerge m.1 m.2.1 m.2.2.1) s
  ((ms.filter (·.2.2.2)).map (fun m => (m.1, m.2.1))).dedup.foldl (fun s m => s.rmCloseSlot m.1 m.2) s

end Sys2Proof.Machine
end

