-- ==== Sys2Proof/Machine/Rings.lean ====
section
/-! DEFINITION. Rings: doorbells (R36), enabling and disabling (R34, R68), fetch (R37, R465), completion and its records
(R44, R50-R52, R466), fences (R45), and when a descriptor is ready to start (R30, R43, R69). -/

namespace Sys2Proof.Machine

def halfRange : Nat := 0x80000000

/-- (a - b) mod 2^32. -/
def sub32 (a b : Word) : Nat := (a - b).toNat

/-! ### Doorbells (R35, R36) -/

/-- A doorbell written to DC_DOORBELL of a die; `wide` says it is a 64-bit store. -/
def State.doorbell (s : State) (die : Nat) (wide : Bool) (v : DWord) : State :=
  let ring := v.toNat % 4096
  let prod : Word := BitVec.ofNat 32 (v.toNat / 2 ^ 32)
  if !wide || v.toNat / 2 ^ 12 % 2 ^ 20 != 0 || ringDie ring != die then s.log die .badDoorbell ring prod.toNat
  else
    let ctrl := ringAddr Reg.dcRingCtrl ring
    let err := ringAddr Reg.dcRingErr ring
    if halfRange ≤ sub32 prod (s.ringReg Reg.dcRingProd ring) then s
    else if 2 ^ wfld (s.ringReg Reg.dcRingSize ring) 4 0 < sub32 prod (s.ringReg Reg.dcRingCons ring) then s.setFlag err 3 true
    else if s.fnState ctrl = 1 ∨ s.fnState ctrl = 2 then s.setReg (ringAddr Reg.dcRingProd ring) prod
    else s.setFlag err 2 true

def execDoorbell (die : Nat) (wide : Bool) (value : DWord) (s : State) : Host.Outcome State Fault Refusal :=
  .next (if s.dieDown die then s else s.doorbell die wide value)

/-! ### Enabling (R34, R67) -/

/-- A base lies in HBM, host memory or working memory of the module, aligned to the ring's size, with the whole ring
populated (R32 note 2). -/
def baseOk (base size : Nat) : Bool :=
  base % size == 0 && populated base && populated (base + size - 1) && ownerDie base == ownerDie (base + size - 1)

def ringBase (lo hi : Word) (align : Nat) : Nat := 2 ^ 32 * wfld hi 15 0 + align * (lo.toNat / align)

def State.ringDescBase (s : State) (ring : Nat) : Nat :=
  ringBase (s.ringReg Reg.dcRingBaseLo ring) (s.ringReg Reg.dcRingBaseHi ring) 64
def State.ringCplBase (s : State) (ring : Nat) : Nat :=
  ringBase (s.ringReg Reg.dcRingCplLo ring) (s.ringReg Reg.dcRingCplHi ring) 32
def State.ringLog2 (s : State) (ring : Nat) : Nat := wfld (s.ringReg Reg.dcRingSize ring) 4 0
def State.cplLog2 (s : State) (ring : Nat) : Nat := wfld (s.ringReg Reg.dcRingSize ring) 20 16

/-- The set-up of a ring passes the checks of R34 on sizes and bases. -/
def State.ringSetupOk (s : State) (ring : Nat) : Bool :=
  let l := s.ringLog2 ring
  let c := s.cplLog2 ring
  decide (4 ≤ l ∧ l ≤ 16 ∧ 4 ≤ c ∧ c ≤ 16) && baseOk (s.ringDescBase ring) (2 ^ l * 64) && baseOk (s.ringCplBase ring) (2 ^ c * 32)

/-- The target of a ring passes R29, R34 and R55. -/
def State.ringTargetOk (s : State) (ring : Nat) : Bool :=
  let h := s.ringReg Reg.dcRingTarget ring
  handleValid h && hModule h == s.moduleId &&
  (if hGang h then gangHome (hGangNo h) == ringDie ring else hDie h == ringDie ring)

def execRingEnable (ring : Nat) (s : State) : Host.Outcome State Fault Refusal :=
  .next (if s.dieDown (ringDie ring) then s else s.enableReq (ringAddr Reg.dcRingCtrl ring))

def execRingEnablingDone (ring : Nat) (s : State) : Host.Outcome State Fault Refusal :=
  let ctrl := ringAddr Reg.dcRingCtrl ring
  let err := ringAddr Reg.dcRingErr ring
  .next (
    if s.fnState ctrl = 1 ∧ s.dieDown (ringDie ring) = false then
      let a := s.ringSetupOk ring
      let b := s.ringTargetOk ring
      if a && b then s.enablingEnd ctrl true
      else
        let s := if a then s else s.setFlag err 5 true
        let s := if b then s else s.setFlag err 4 true
        (s.enablingEnd ctrl false).log (ringDie ring) .ringRefused ring
    else s)

/-! ### Descriptors of a ring -/

/-- The descriptors a ring has fetched, in order; member copies are not among them. -/
def State.ringFlights (s : State) (ring : Nat) : List Flight :=
  s.flights.filter (fun f => decide (f.ring = ring ∧ f.parent = none ∧ f.remote = none))

/-- A descriptor that has not started completes with STEP_ABORTED: it has no effect but its signal and record (R68, R69). -/
def State.abort (s : State) (f : Flight) : State := s.finishWith f stStepAborted 0

def State.abortAll (s : State) (fs : List Flight) : State := fs.foldl (fun s f => s.abort f) s

/-- A disable request of a ring; while it is DISABLING its waiting descriptors are aborted (R68). -/
def State.ringDisable (s : State) (ring : Nat) : State :=
  let s := s.disableReq (ringAddr Reg.dcRingCtrl ring)
  if s.fnState (ringAddr Reg.dcRingCtrl ring) = 3 then s.abortAll ((s.ringFlights ring).filter (·.waits)) else s

def execRingDisable (ring : Nat) (s : State) : Host.Outcome State Fault Refusal :=
  .next (if s.dieDown (ringDie ring) then s else s.ringDisable ring)

def execRingDisablingDone (ring : Nat) (s : State) : Host.Outcome State Fault Refusal :=
  .next (
    if s.fnState (ringAddr Reg.dcRingCtrl ring) = 3 ∧ (s.ringFlights ring).isEmpty = true ∧ s.dieDown (ringDie ring) = false then
      s.disablingEnd (ringAddr Reg.dcRingCtrl ring)
    else s)

def execRingResume (ring : Nat) (s : State) : Host.Outcome State Fault Refusal :=
  .next (if s.dieDown (ringDie ring) then s else s.setFlag (ringAddr Reg.dcRingCtrl ring) 9 false)

/-- A write to DC_RING_CPL_RD (R33). -/
def State.cplRdWrite (s : State) (ring : Nat) (v : Word) : State :=
  let past := sub32 v (s.ringReg Reg.dcRingCplWr ring)
  if 1 ≤ past ∧ past < halfRange then s.setFlag (ringAddr Reg.dcRingErr ring) 1 true
  else s.setReg (ringAddr Reg.dcRingCplRd ring) v

def execCplRdWrite (ring : Nat) (value : Word) (s : State) : Host.Outcome State Fault Refusal :=
  .next (if s.dieDown (ringDie ring) then s else s.cplRdWrite ring value)

/-- A record is due for a descriptor that has completed (R38). -/
def Flight.due (f : Flight) : Bool := recordDue (dCmpl f.desc) f.res.status.toNat

/-! ### Fetch (R37, R48, R52, R465) -/

/-- Completion slots that no record holds and no fetched descriptor has reserved (R52). -/
def State.freeSlots (s : State) (ring : Nat) : Nat :=
  let used := sub32 (s.ringReg Reg.dcRingCplWr ring) (s.ringReg Reg.dcRingCplRd ring)
  let held := ((s.ringFlights ring).filter (fun f => decide (dCmpl f.desc ≠ 0) && (!f.completed || f.due))).length
  2 ^ s.cplLog2 ring - used - held

/-- The ring may fetch: ON, not halted, a covered index, fewer than 64 in flight, a slot free. -/
def State.mayFetch (s : State) (ring : Nat) : Bool :=
  let ctrl := ringAddr Reg.dcRingCtrl ring
  let ahead := sub32 (s.ringReg Reg.dcRingProd ring) (s.ringReg Reg.dcRingCons ring)
  s.fnState ctrl == 2 && !s.isSafe && !s.flag ctrl 9 && decide (0 < ahead ∧ ahead < halfRange) &&
  decide (((s.ringFlights ring).filter (fun f => !f.completed)).length < 64) && decide (0 < s.freeSlots ring) &&
  !s.dieDown (ringDie ring)

/-- The full step number a die forms from step_lo (R291). -/
def fullStep (cur lo : Nat) : BitVec 48 :=
  let d : Int := ((lo + 0x8000 + 0x10000 - cur % 0x10000) % 0x10000 : Nat) - (0x8000 : Int)
  BitVec.ofInt 48 ((cur : Int) + d)

def State.dcStep (s : State) (die : Nat) : Nat :=
  (s.reg (Reg.dcStepLo die)).toNat + 2 ^ 32 * wfld (s.reg (Reg.dcStepHi die)) 15 0

/-- The step of a descriptor is aborted on a die (R293). -/
def State.stepAborted (s : State) (die : Nat) (d : Desc) : Bool :=
  s.flag (Reg.dcAbort die) 31 && s.fld (Reg.dcAbort die) 15 0 == dStepLo d

/-- Raise a ring's interrupt (R32, R350). -/
def State.ringIrq (s : State) (ring : Nat) : State :=
  if s.flag (ringAddr Reg.dcRingCtrl ring) 11 then s.interrupt (ringDie ring) (wfld (s.ringReg Reg.dcRingIrq ring) 23 0) else s

def State.halt (s : State) (ring : Nat) : State := s.setFlag (ringAddr Reg.dcRingCtrl ring) 9 true

/-- A fetch that meets a fault, named by a status code (R465). -/
def State.fetchFault (s : State) (ring a status : Nat) : State :=
  let s := (s.halt ring).setFlag (ringAddr Reg.dcRingErr ring) 6 true
  (s.log (ringDie ring) (.fetchFault status) a (s.ringReg Reg.dcRingCons ring).toNat (.controller (ringDie ring)) .read).ringIrq ring

/-- The status code that names what an access met; memory of a lost die is told apart from an unmapped address (R465). -/
def Miss.code : Miss → Nat
  | .addr _ .lost => stDieLost
  | .addr _ _ => stAddrFault
  | .bias _ => stBiasFault
  | .course => stCourseLost
  | .lost _ => stDieLost
  | .flow _ => stFlowTimeout
  | .remote c _ _ => c

/-- A die controller's read of one line; its fault is named by a status code. -/
inductive LineRead where
  | bad (status : Nat)
  | wait (io : Nat)
  | data (s : State) (bs : List Byte)
  deriving DecidableEq, Repr

def State.dcRead (s : State) (die a n : Nat) : LineRead :=
  match s.meets die a (some (.controller die)) with
  | some m => .bad m.code
  | none =>
    match s.extHolder (a / 64) (some (.controller die)) with
    | some io => .wait io
    | none =>
      if s.linePoisoned (a / 64) then .bad stPoison
      else match s.answerMiss die a with
        | some m => .bad m.code
        | none =>
          let s := s.shareCopies (a / 64)
          let t := if isCd die && s.cacheable a (some (.controller die)) then s.placeShared (18 + die) (a / 64) else s
          .data (t.unwait (.controller die) (a / 64)) (s.bytes a n)

/-- What the ring's registers attach to a descriptor it fetches (R134, R249, R291, R295). -/
def State.newFlight (s : State) (ring : Nat) (d : Desc) : Flight :=
  let die := ringDie ring
  let k := ringLocal ring
  { fid := s.nextFid, ring := ring, place := (s.moduleId, ring, s.nextFid), start := 0, index := s.ringReg Reg.dcRingCons ring,
    desc := d, target := s.ringReg Reg.dcRingTarget ring,
    step := fullStep (s.dcStep die) (dStepLo d),
    lenSrc := isCd die && s.flag (Reg.veMode die k) 0,
    seed := if isCd die then s.reg (Reg.dcRngSeed die k) else 0,
    stream := if isCd die then s.reg (Reg.dcRngStream die k) else 0,
    mover := BitVec.ofNat 2 (s.fld (ringAddr Reg.dcRingCtrl ring) 13 12),
    parent := none, level := 0, remote := none, expect := 0, mods := [], phase := .waiting, res := Flight.noRes, recs := [],
    vals := [], rows := 0 }

/-- Read the next covered slot (R37, R465). -/
def State.fetch (s : State) (ring : Nat) : State :=
  let die := ringDie ring
  let cons := s.ringReg Reg.dcRingCons ring
  let a := s.ringDescBase ring + 64 * (cons.toNat % 2 ^ s.ringLog2 ring)
  match s.dcRead die a 64 with
  | .bad status => (s.unwait (.controller die) (a / 64)).fetchFault ring a status
  | .wait io => s.holdFor (a / 64) io (some (.controller die))
  | .data s bs =>
    let f := s.newFlight ring (BitVec.ofNat 512 (leNat bs))
    let s := { s with flights := s.flights ++ [f], nextFid := s.nextFid + 1 }
    let s := s.setReg (ringAddr Reg.dcRingCons ring) (cons + 1)
    if s.stepAborted die f.desc then s.abort f else s

def execDescriptorFetch (ring : Nat) (s : State) : Host.Outcome State Fault Refusal :=
  .next (if s.mayFetch ring then s.fetch ring else s)

/-! ### Ready to start (R30, R43, R45, R69) -/

/-- The state of the unit that executes a descriptor: 0 OFF, 1 ENABLING, 2 ON, 3 DISABLING. Only engine pairs and movers are
switched (R65); a mover-group descriptor runs on the mover its ring names (R249). -/
def State.unitState (s : State) (f : Flight) : Nat :=
  match unitAt (hDie f.target) (hSlot f.target) with
  | some .enginePair => s.fnState (Reg.maCtrl (hDie f.target) (hSlot f.target))
  | some .moverGroup => s.fnState (Reg.mvCtrl (hDie f.target) f.mover.toNat)
  | _ => 2

/-- A die is lost or being readmitted; its domain is off or going off; its domain is coming ON (R69, R393, R417, R422). -/
def State.dieLost (s : State) (die : Nat) : Bool := s.dieState die == 3 || s.dieState die == 4
def State.domainWait (s : State) (die : Nat) : Bool := s.fnState (Reg.pwDom die) == 1
def State.domainGone (s : State) (die : Nat) : Bool :=
  s.fnState (Reg.pwDom die) == 3 || (s.dieState die == 0 && !s.domainWait die)

/-- The fence wait of R45, made once, by the descriptor's ring; a member copy does not wait again. -/
def State.fenceMet (s : State) (f : Flight) : Bool :=
  !dWaitEn f.desc || f.parent.isSome || f.remote.isSome ||
  decide ((s.fld (Reg.dcFence (ringDie f.ring) (dWaitCtr f.desc)) 15 0 + 0x10000 - dWaitVal f.desc) % 0x10000 < 0x8000)

/-- A BIASFLIP starts and lets later descriptors start as with order = 1 (R359). -/
def ordersAll (d : Desc) : Bool := dClass d == 0x80

/-- A member copy comes to its unit, or its gang's home, after every copy there of an earlier descriptor of its ring and after
every earlier descriptor of the ring still to be fanned out here (R43, R48). -/
def State.copyTurn (s : State) (f : Flight) : Bool :=
  s.flights.all (fun g => !(g.waits && g.before f && (hGang g.target || g.target == f.target)))

/-- Every earlier descriptor of the ring has started, and completed where an order asks it (R43, R359). -/
def State.orderMet (s : State) (f : Flight) : Bool :=
  if f.parent.isSome || f.remote.isSome then s.copyTurn f
  else
    ((s.ringFlights f.ring).takeWhile (fun g => g.fid != f.fid)).all (fun g =>
      !g.waits && (g.completed || !(dOrder f.desc || ordersAll f.desc || ordersAll g.desc)))

/-- Fetched, not started, and nothing but its unit keeps it from starting. -/
def State.ready (s : State) (f : Flight) : Bool := f.waits && !s.isSafe && s.orderMet f && s.fenceMet f

/-- The rings with a descriptor ready for the same unit as `f`: one that waits for its mover to be ON is not (R30, R69). -/
def State.rivals (s : State) (f : Flight) : List Nat :=
  (s.flights.filter (fun g => decide (g.target = f.target ∧ g.parent = none ∧ g.remote = none) && s.ready g &&
    s.unitState g == 2)).map (·.ring)

/-- Rings are served in turn, in ascending ring number from the ring served last (R30). A matrix class on a partitioned array
and a member copy wait for no ring's turn (R109). -/
def State.myTurn (s : State) (f : Flight) : Bool :=
  if f.parent.isSome || f.remote.isSome then true
  else if (dClass f.desc / 16 = 1 ∨ dClass f.desc = 0x40) ∧ s.fld (Reg.maCtrl (hDie f.target) (hSlot f.target)) 9 8 ≠ 0 then true
  else
    let last := ((s.turns.find? (fun t => decide (t.1 = f.target.toNat))).map (·.2)).getD 4095
    let dist (r : Nat) := (r + 4096 - last - 1) % 4096
    (s.rivals f).all (fun r => decide (dist f.ring ≤ dist r))

def State.setTurn (s : State) (f : Flight) : State :=
  if f.parent.isSome || f.remote.isSome then s
  else { s with turns := (f.target.toNat, f.ring) :: s.turns.filter (fun t => decide (t.1 ≠ f.target.toNat)) }

/-! ### NOP (R41) -/

def execNop (fid : Nat) (s : State) : Host.Outcome State Fault Refusal :=
  .next (match s.flight fid with
    | some f => if s.runs f 0x00 then s.finishWith f stOK 0 else s
    | none => s)

/-! ### Entries of the gang table (R57) -/

def State.gangReg (s : State) (f : Nat → Nat → Nat) (g : Nat) : Word := s.reg (f (gangHome g) (gangSlot g))
def State.gangCtrl (s : State) (g : Nat) : Word := s.gangReg Reg.dcGangCtrl g
def State.gangValid (s : State) (g : Nat) : Bool := bit (s.gangCtrl g) 31
def State.gangCount (s : State) (g : Nat) : Nat := wfld (s.gangCtrl g) 5 0
def State.gangRule (s : State) (g : Nat) : Nat := wfld (s.gangCtrl g) 25 24
def State.gangSpan (s : State) (g : Nat) : Word := s.gangReg Reg.dcGangSpan g
def State.gangMcount (s : State) (g : Nat) : Nat := wfld (s.gangSpan g) 22 11
def State.gangMember (s : State) (g j : Nat) : Word := s.reg (Reg.dcGangMember (gangHome g) (gangSlot g) j)
/-- The module at span position p. -/
def State.gangModule (s : State) (g p : Nat) : Nat := wfld (s.gangSpan g) 10 0 + p * wfld (s.gangSpan g) 31 23

/-- The member words of an entry in use, with a given count. -/
def State.gangMembers (s : State) (g count : Nat) : List Word := (List.range (min count 48)).map (s.gangMember g)

/-- Positions of a span that are this module, and the others. -/
def State.ownPositions (s : State) (g : Nat) : List Nat :=
  (List.range (s.gangMcount g)).filter (fun p => s.gangModule g p == s.moduleId)
def State.otherPositions (s : State) (g : Nat) : List Nat :=
  (List.range (s.gangMcount g)).filter (fun p => s.gangModule g p != s.moduleId)

/-- The member indices this module has in a gang received from another module (R61). -/
def State.remoteMembers (s : State) (g : Nat) : List Nat :=
  (List.range (max 1 (s.gangCount g))).map (fun j => (s.ownPositions g).headD 0 * s.gangCount g + j)

/-! ### Completion (R44, R46, R49-R52, R90) -/

/-- The record of a descriptor as its ring writes it (R50). -/
def State.recordOf (s : State) (f : Flight) : Nat :=
  let wr := (s.ringReg Reg.dcRingCplWr f.ring).toNat
  let lap := decide (wr / 2 ^ s.cplLog2 f.ring % 2 = 0)
  recordBits lap f.res.runMax f.res.sat f.res.detail f.res.member.toNat (dTag f.desc) (dStepLo f.desc) (dPhase f.desc)
    f.res.status.toNat f.index f.target

def State.recordAddr (s : State) (ring : Nat) : Nat :=
  s.ringCplBase ring + 32 * ((s.ringReg Reg.dcRingCplWr ring).toNat % 2 ^ s.cplLog2 ring)

/-- What a record write meets (R466): a fault, or a poisoned line, which takes no part of a line. -/
def State.recordFault (s : State) (ring : Nat) : Bool :=
  let a := s.recordAddr ring
  (s.meets (ringDie ring) a (some (.controller (ringDie ring)))).isSome || s.linePoisoned (a / 64)


def State.dropFlight (s : State) (fid : Nat) : State := { s with flights := s.flights.filter (fun f => f.fid != fid) }

/-- Count a record as written and free its slot in order (R52). -/
def State.advanceRecord (s : State) (f : Flight) : State :=
  (s.setReg (ringAddr Reg.dcRingCplWr f.ring) (s.ringReg Reg.dcRingCplWr f.ring + 1)).dropFlight f.fid

/-- A descriptor that may write a record. -/
def Flight.records (f : Flight) : Bool := dCmpl f.desc != 0 && (!f.completed || f.due)

/-- Completed descriptors that write no record leave their ring. -/
def State.dropSilent (s : State) (ring : Nat) : State :=
  ((s.ringFlights ring).filter (fun f => f.completed && !f.due)).foldl (fun s f => s.dropFlight f.fid) s

/-- The descriptor whose record comes next in a ring: a record waits only for earlier descriptors that may write one (R51). -/
def State.nextRecord (s : State) (ring : Nat) : Option Flight := (s.ringFlights ring).find? (·.records)

/-- The next record of a ring in its turn (R51): the first descriptor that may write one leaves, once completed, with its record
written; none when that cannot be done now. The state of a record that waits for an external host holds what it asks. -/
def State.recordStep (s : State) (ring : Nat) : State × Bool :=
  match s.nextRecord ring with
  | none => (s, false)
  | some f =>
    if !f.completed then (s, false)
    else if s.recordFault ring then (s, false)
    else
      match s.extHolder (s.recordAddr ring / 64) (some (.controller (ringDie ring))) with
      | some io => (s.holdFor (s.recordAddr ring / 64) io (some (.controller (ringDie ring))), false)
      | none =>
        let t := (s.write (s.recordAddr ring) (leBytes 32 (s.recordOf f))).1
        let t := t.unwait (.controller (ringDie ring)) (s.recordAddr ring / 64)
        ((if dIrq f.desc then t.ringIrq ring else t).advanceRecord f, true)

/-- The records of the ring's descriptors that have completed, in ring order (R51); a record whose write faults, or waits for an
external host, stops here. -/
def State.writeRecords (s : State) (ring : Nat) : Nat → State
  | 0 => s
  | n + 1 => if (s.recordStep ring).2 then (s.recordStep ring).1.writeRecords ring n else (s.recordStep ring).1

def State.drainRecords (s : State) (ring : Nat) : State :=
  (s.dropSilent ring).writeRecords ring (s.ringFlights ring).length

/-- The members of a gang received from another module report what the gang came to, where it was not fanned out (R63). -/
def State.reportRemote (s : State) (f : Flight) (members : List Nat) (origin ref : Nat) : State :=
  (members.foldl (fun s i => s.emit (.gangReport origin ref i f.res)) s).dropFlight f.fid

/-- What follows completion: merges and closes, the signal, the halt, the records (R44, R46, R49, R90). A gang's descriptor and
a direct one do so through their ring; a member copy only merges and waits for its report; a gang received from another module
reports there. -/
def State.complete (s : State) (f : Flight) : State :=
  let st := f.res.status.toNat
  let s := if st = stDescInvalid ∨ st = stStepAborted then s else s.applyMerges f.res.merges
  let s := s.dropLines f.fid
  let s := (s.setFlight { f with phase := .completed }).evalDie (hDie f.target)
  match f.remote with
  | some (origin, ref) => s.reportRemote f (s.remoteMembers (hGangNo f.target)) origin ref
  | none =>
  if f.parent.isSome then s
  else
    let s := if dSigEn f.desc && ringBearing (dSigDie f.desc) then { s with sigQ := s.sigQ ++ [(dSigDie f.desc, dSigCtr f.desc)] } else s
    let s := if isFault st && s.flag (ringAddr Reg.dcRingCtrl f.ring) 10 then s.halt f.ring else s
    s.drainRecords f.ring

def execDescriptorComplete (fid : Nat) (s : State) : Host.Outcome State Fault Refusal :=
  .next (match s.flight fid with
    | some f =>
      if f.isDone && !s.awaitsAck fid then s.complete f
      else if f.completed && f.parent.isNone && f.remote.isNone then s.drainRecords f.ring
      else s
    | none => s)

/-- A record that cannot be written (R466). -/
def State.recordLost (s : State) (f : Flight) : State :=
  let s := s.setFlag (ringAddr Reg.dcRingErr f.ring) 7 true
  let s := s.log (ringDie f.ring) .cplFault f.index.toNat f.res.status.toNat (.desc f.fid) .write
  let s := s.unwait (.controller (ringDie f.ring)) (s.recordAddr f.ring / 64)
  (((s.ringIrq f.ring).halt f.ring).advanceRecord f).drainRecords f.ring

def execCompletionWriteFault (fid : Nat) (s : State) : Host.Outcome State Fault Refusal :=
  .next (match s.flight fid with
    | some f =>
      if f.completed && f.due && ((s.nextRecord f.ring).map (·.fid)) == some fid && s.recordFault f.ring then s.recordLost f
      else s
    | none => s)

/-! ### Fences (R45) -/

def execFenceSignal (die ctr : Nat) (s : State) : Host.Outcome State Fault Refusal :=
  .next (
    if s.sigQ.contains (die, ctr) then
      let s := { s with sigQ := s.sigQ.erase (die, ctr) }
      if s.dieDown die || !ringBearing die || decide (256 ≤ ctr) then s
      else s.setReg (Reg.dcFence die ctr) (s.reg (Reg.dcFence die ctr) + 1)
    else s)

def execFenceWrite (die ctr : Nat) (value : Word) (s : State) : Host.Outcome State Fault Refusal :=
  .next (if s.dieDown die || !ringBearing die || decide (256 ≤ ctr) then s else s.setReg (Reg.dcFence die ctr) value)

end Sys2Proof.Machine
end

