-- ==== Sys2Proof/Machine/Gangs.lean ====
section
/-! DEFINITION. The gang table, fan-out and the gathering of members' reports (R17-R20, R56-R64). -/

namespace Sys2Proof.Machine

/-! ### The check of an entry (R58) -/

/-- The refusals of the gangs nested below `h` at a level: depth, reaching the entry, a member gang that spans. Only entries
with valid = 1 are followed. -/
def State.nestedErrs (s : State) (root h level : Nat) : Nat → List Nat
  | 0 => []
  | fuel + 1 =>
    if h = root then (if 3 < level then [2] else []) ++ [3]
    else if !s.gangValid h then []
    else if 3 < level then [2]
    else
      let here := if s.gangMcount h ≠ 0 then [6] else []
      here ++ ((s.gangMembers h (s.gangCount h)).filter hGang).flatMap (fun w => s.nestedErrs root (hGangNo w) (level + 1) fuel)

/-- The codes of R58 that apply to an entry as its words stand, with the control word being written. -/
def State.gangErrs (s : State) (g : Nat) (v : Word) : List Nat :=
  let count := wfld v 5 0
  let ms := s.gangMembers g count
  let span := s.gangSpan g
  let mcount := s.gangMcount g
  let stride := wfld span 31 23
  (if ms.any (fun w => !handleValid w || wfld w 31 21 != 0) then [1] else []) ++
  ((ms.filter (fun w => handleValid w && hGang w)).flatMap (fun w => s.nestedErrs g (hGangNo w) 1 5)) ++
  (if 1 ≤ mcount ∧ (stride = 0 ∨ 2048 ≤ s.gangModule g (mcount - 1)) then [4] else []) ++
  (if count = 0 ∨ 48 < count then [5] else []) ++
  (if 2 ≤ wfld v 25 24 then [8] else [])

/-- A write to DC_GANG_CTRL (R58). -/
def State.gangCtrlWrite (s : State) (die slot : Nat) (v : Word) : State :=
  let a := Reg.dcGangCtrl die slot
  let g := slot * 40 + die
  let base := ((((0 : Word) |> (wset · 25 24 (wfld v 25 24))) |> (wset · 5 0 (wfld v 5 0))) |> (wset · 13 8 (s.fld a 13 8)))
  if bit v 31 then
    match lowest ((s.gangErrs g v).map some) with
    | some e => s.setReg a (wset base 13 8 e)
    | none => s.setReg a (wset (wset base 13 8 0) 31 31 1)
  else s.setReg a base

def execGangEntryValidate (die slot : Nat) (value : Word) (s : State) : Host.Outcome State Fault Refusal :=
  .next (if slot < gangSlotsOn die ∧ s.dieDown die = false then s.gangCtrlWrite die slot value else s)

/-! ### Fan-out (R59-R61) -/

def noGang : Nat := 0xFFFFFFFF

/-- A member copy: shard fields composed, sig_en, irq and cmpl cleared (R61). An index that its field cannot hold stands as the
field's largest, which no share count lies above. -/
def memberCopy (d : Desc) (ix n : Nat) : Desc :=
  dset (dset (dset (dset (dset d 48 48 0) 37 36 0) 35 35 0) 107 88 (min ix 0xFFFFF)) 127 108 n

/-- The class is defined for some unit (R40). -/
def definedClass (c : Nat) : Bool :=
  [0x00, 0x10, 0x11, 0x12, 0x20, 0x21, 0x30, 0x31, 0x32, 0x33, 0x34, 0x40, 0x41, 0x42, 0x48, 0x50, 0x51, 0x54, 0x55, 0x60, 0x61, 0x62,
   0x63, 0x68, 0x69, 0x70, 0x71, 0x80, 0x81].contains c

/-- The detail word of a descriptor refused at fan-out: an undefined class stands first (R464). -/
def fanoutDetail (d : Desc) (other : Word) : Word := if definedClass (dClass d) then other else detailNoClass

/-- The flight of a member copy of `f`, member index i. -/
def memberFlight (fid own : Nat) (f : Flight) (d : Desc) (w : Word) (i : Nat) : Flight :=
  { f with fid := fid, desc := d, target := BitVec.ofNat 32 (2 ^ 21 * own + wfld w 20 0), parent := some (f.fid, i),
           level := f.level + 1, remote := none, expect := 0, mods := [], start := 0, phase := .waiting, res := Flight.noRes, recs := [],
           vals := [], rows := 0 }

/-- A share that cannot be fanned out: it is done at once with its status (R59). -/
def failedShare (c : Flight) (status : Nat) (detail : Word) : Flight :=
  { c with phase := .done, res := { Flight.noRes with status := BitVec.ofNat 8 status, detail := detail } }

/-- The gangs a copy has come through, from its own parent up. -/
def State.gangPath (s : State) (f : Flight) : Nat → List Nat
  | 0 => []
  | n + 1 =>
    (if hGang f.target then [hGangNo f.target] else []) ++
    (match f.parent with
     | none => []
     | some (p, _) => match s.flight p with
       | some g => s.gangPath g n
       | none => [])

/-- What becomes of a member copy as it reaches its target: a nested gang is checked again (R59), the home die of a nested gang
answers when it is lost (R393) or off (R69, R422). -/
def State.sendShare (s : State) (f c : Flight) : Flight :=
  if hGang c.target then
    let h := hGangNo c.target
    if s.dieLost (gangHome h) then failedShare c stDieLost (BitVec.ofNat 32 (gangHome h))
    else if s.domainGone (gangHome h) then failedShare c stStepAborted 0
    else if !s.gangValid h || s.gangMcount h != 0 || 3 < c.level || (s.gangPath f 5).contains h then
      failedShare c stDescInvalid (fanoutDetail c.desc detailArrival)
    else c
  else c

/-- The copies for one module of the span: position p of M. -/
def State.localShares (s : State) (f : Flight) (g p m : Nat) : List Flight :=
  let ms := s.gangMembers g (s.gangCount g)
  let l := ms.length
  let ix := dShardIx f.desc
  let n := dShardN f.desc
  let split := s.gangRule g == 1
  ms.mapIdx (fun j w =>
    let i := p * l + j
    let d := if split then memberCopy f.desc (ix * m + i) (n * m) else memberCopy f.desc ix n
    let c := memberFlight (s.nextFid + j) s.moduleId f d w i
    if split && decide (1048575 < n * m) then failedShare c stDescInvalid (fanoutDetail c.desc detailArrival) else s.sendShare f c)

def State.addFlights (s : State) (cs : List Flight) : State :=
  { s with flights := s.flights ++ cs, nextFid := s.nextFid + cs.length }

/-- The copy sent to another module of the span: the descriptor with what its home die attached (R60, R134, R291, R295). -/
def State.gangCopyOf (s : State) (f : Flight) (g : Nat) : GangCopy :=
  { origin := s.moduleId, gang := g, desc := f.desc, step := f.step, lenSrc := f.lenSrc, seed := f.seed, stream := f.stream,
    mover := f.mover, ref := f.fid, ring := f.ring }

/-- The reports a fan-out gathers here: one from each member, of this module alone for a gang received from another. -/
def State.reportsOf (s : State) (f : Flight) : Nat :=
  let g := hGangNo f.target
  if f.remote.isSome then s.gangCount g else max (s.gangMcount g) 1 * s.gangCount g

/-- Report space a home die has reserved for the gangs it has fanned out (R64). -/
def State.reserved (s : State) (home : Nat) : Nat :=
  ((s.flights.filter (fun f => hGang f.target && f.running && gangHome (hGangNo f.target) == home)).map (·.expect)).sum

/-- Report space of a home die: at least the members of the largest gang, 2,048 modules of 48; how much more is open. -/
def reportSpace (home : Nat) : Nat := 98304 + Config.reportExtra home

/-- There is room for one report from each member (R64). -/
def State.hasRoom (s : State) (f : Flight) : Bool :=
  let home := gangHome (hGangNo f.target)
  decide (s.reserved home + s.reportsOf f ≤ reportSpace home)

/-- A descriptor cannot be fanned out because of how it arrived (R59): the entry is not valid, or a nested gang spans modules. -/
def State.gangRefuses (s : State) (f : Flight) : Bool :=
  let g := hGangNo f.target
  !s.gangValid g || (f.parent.isSome && s.gangMcount g != 0)

/-- The gang's own signal names a die without fence counters (R39, R61). -/
def badSignal (f : Flight) : Bool := dSigEn f.desc && !ringBearing (dSigDie f.desc) && f.remote.isNone

/-- The flow that carries a gang's copies to a module of its span: the one of the home die's DC_FDEST, when it is ON to that module
(R334). -/
def State.spanFlow (s : State) (home m : Nat) : Option Nat :=
  (s.fdest home m).filter (fun f => s.flowOn f && s.flowPeer f == m)

/-- Send a copy to another module of the span, where a flow leads there. -/
def State.sendGang (s : State) (f : Flight) (g p : Nat) : State :=
  let m := s.gangModule g p
  match s.spanFlow (gangHome g) m with
  | some fl =>
    { s.emit (.gangSend m (s.gangCopyOf f g)) with fab := { s.fab with gangOut := s.fab.gangOut ++ [⟨f.fid, m, fl, 1⟩] } }
  | none => s

/-! ### Reports (R63) -/

def statusAny (rs : List Report) (st : Nat) : Bool := rs.any (fun r => r.res.status.toNat == st)

/-- The lowest faulting member. -/
def firstFault (rs : List Report) : Option Report :=
  rs.foldl (fun a r =>
    if isFault r.res.status.toNat then
      match a with
      | none => some r
      | some b => if r.member < b.member then some r else a
    else a) none

/-- The gang's record from its members' results. -/
def combine (rs : List Report) : Result :=
  let sat := min ((rs.map (·.res.sat)).sum) 0xFFFFFFFF
  let rm := rs.foldl (fun a r => rmJoin a r.res.runMax) none
  let uses := (rs.flatMap (·.res.uses)).dedup
  let pairs := (rs.flatMap (·.res.pairs)).dedup
  let cyc := rs.foldl (fun a r => max a r.res.cycles) 0
  let base : Result := { Flight.noRes with sat := sat, runMax := rm, uses := uses, pairs := pairs, cycles := cyc }
  match firstFault rs with
  | some r => { base with status := BitVec.ofNat 8 stGangMember, detail := BitVec.ofNat 32 r.member, member := r.res.status }
  | none =>
    let st := if statusAny rs stStepSkipped then stStepSkipped
              else if statusAny rs stSaturated then stSaturated
              else if rs.all (fun r => r.res.status.toNat == stEmpty) then stEmpty else stOK
    { base with status := BitVec.ofNat 8 st }

/-- Copies of gangs' descriptors that nothing waits for any more. -/
def State.dropGangOut (s : State) (p : GangOut → Bool) : State :=
  { s with fab := { s.fab with gangOut := s.fab.gangOut.filter (fun x => !p x) } }

/-- Take a member's result. A gang received from another module passes it to its origin; otherwise the home die keeps it, and
when the last is in, the gang is done, or completed where it is itself a member. -/
def State.takeReport (s : State) (g : Flight) (member : Nat) (r : Result) : State :=
  match g.remote with
  | some (origin, ref) =>
    let s := s.emit (.gangReport origin ref member r)
    if g.expect ≤ 1 then s.dropFlight g.fid else s.setFlight { g with expect := g.expect - 1 }
  | none =>
    let s := { s with reports := s.reports ++ [⟨g.fid, member, r⟩] }
    let mine := s.reports.filter (fun x => decide (x.gang = g.fid))
    if mine.length < g.expect then s
    else
      let s := { s.dropGangOut (fun x => x.fid == g.fid) with reports := s.reports.filter (fun x => decide (x.gang ≠ g.fid)) }
      s.setFlight { g with phase := if g.parent.isSome then .completed else .done, res := combine mine }

/-- A report is waited for: this member has not reported yet. -/
def State.awaitsReport (s : State) (g : Flight) (member : Nat) : Bool :=
  g.running && hGang g.target && !s.reports.any (fun x => decide (x.gang = g.fid ∧ x.member = member))

/-- Local members of each module of a gang under way. -/
def perModule (g : Flight) : Nat := g.expect / max 1 g.mods.length

/-- The members of the modules a test names that have still to report. -/
def State.silentMembers (s : State) (g : Flight) (silent : Nat → Bool) : List Nat :=
  let l := perModule g
  ((g.mods.zipIdx).filter (fun x => x.1 != s.moduleId && silent x.1)).flatMap
    (fun x => ((List.range l).map (fun j => x.2 * l + j)).filter (s.awaitsReport g))

/-- The members of modules of a span that do not answer report FLOW_TIMEOUT (R63). -/
def State.reportSilent (s : State) (g : Flight) (silent : Nat → Bool) (detail : Word) : State :=
  (s.silentMembers g silent).foldl (fun s i => match s.flight g.fid with
    | some h => s.takeReport h i { Flight.noRes with status := BitVec.ofNat 8 stFlowTimeout, detail := detail }
    | none => s) s

/-- Fan a descriptor out to the members of its gang. A module of the span to which no flow is ON does not answer (R63). -/
def State.fanout (s : State) (f : Flight) : State :=
  let g := hGangNo f.target
  if s.gangRefuses f then s.finishWith f stDescInvalid (fanoutDetail f.desc detailArrival)
  else if badSignal f then
    s.finishWith f stDescInvalid (fanoutDetail f.desc (BitVec.ofNat 32 ((lowest (headerChecks f.desc)).getD 49)))
  else if !s.hasRoom f then s
  else
    let l := s.gangCount g
    let mc := s.gangMcount g
    match f.remote with
    | some _ =>
      let p := (s.ownPositions g).headD 0
      let cs := s.localShares f g p ((max mc 1) * l)
      (s.setFlight { f with phase := .started, expect := cs.length }).addFlights cs
    | none =>
      if mc = 0 then
        let cs := s.localShares f g 0 l
        (s.setFlight { f with phase := .started, expect := l }).addFlights cs
      else
        let m := mc * l
        let s1 := (s.ownPositions g).foldl (fun t p => t.addFlights (t.localShares f g p m)) s
        let s2 := (s.otherPositions g).foldl (fun t p => t.sendGang f g p) s1
        let h := { f with phase := .started, expect := m, mods := (List.range mc).map (s.gangModule g) }
        let home := gangHome g
        (s2.setFlight h).reportSilent h (fun x => (s.spanFlow home x).isNone) 0

/-- A descriptor whose home die is lost is answered with DIE_LOST (R393), one whose home die is off with STEP_ABORTED, and one
whose home die is coming ON waits (R69, R422). -/
def execGangFanout (fid : Nat) (s : State) : Host.Outcome State Fault Refusal :=
  .next (match s.flight fid with
    | some f =>
      if hGang f.target && s.ready f then
        let home := gangHome (hGangNo f.target)
        if s.dieLost home then s.finishWith f stDieLost (BitVec.ofNat 32 home)
        else if s.domainGone home || s.stepAborted home f.desc then s.abort f
        else if s.domainWait home then s
        else s.fanout f
      else s
    | none => s)

/-- The descriptor of a spanning gang received from its originating module (R60): it is fanned out here and not forwarded. -/
def execRemoteGangDescriptor (c : GangCopy) (s : State) : Host.Outcome State Fault Refusal :=
  let f : Flight :=
    { fid := s.nextFid, ring := noGang, place := (c.origin, c.ring, c.ref), start := 0, index := 0, desc := c.desc,
      target := BitVec.ofNat 32 (2 ^ 21 * s.moduleId + 2 ^ 20 + c.gang % 4096),
      step := c.step, lenSrc := c.lenSrc, seed := c.seed, stream := c.stream, mover := c.mover, parent := none, level := 0,
      remote := some (c.origin, c.ref), expect := 0, mods := [], phase := .waiting, res := Flight.noRes, recs := [], vals := [],
      rows := 0 }
  .next ({ s with flights := s.flights ++ [f], nextFid := s.nextFid + 1 })

/-! ### Reports of the members -/

/-- A member copy of the gang in flight in this module. -/
def State.ownShare (s : State) (gang member : Nat) : Bool := s.flights.any (fun c => decide (c.parent = some (gang, member)))

def RemoteReport.toResult (r : RemoteReport) : Result :=
  { Flight.noRes with status := r.status, detail := r.detail, sat := r.sat, runMax := r.runMax }

/-- A completed copy whose gang waits for no report, its home die being lost, is gone (R393). -/
def State.dropOrphan (s : State) (gang member : Nat) : State :=
  match s.flights.find? (fun c => decide (c.parent = some (gang, member)) && c.completed) with
  | some c => s.dropFlight c.fid
  | none => s

/-- The module of a member of a spanning gang has answered: its copy is not sent again. -/
def State.answeredBy (s : State) (g : Flight) (member : Nat) : State :=
  { s with fab := { s.fab with gangOut := s.fab.gangOut.map (fun x =>
      if x.fid = g.fid ∧ g.mods[member / perModule g]? = some x.module then { x with sends := 0 } else x) } }

def execGangMemberReport (gang member : Nat) (remote : Option RemoteReport) (s : State) : Host.Outcome State Fault Refusal :=
  .next (match s.flight gang with
    | some g =>
      if s.awaitsReport g member then
        match remote with
        | some r =>
          if g.remote.isNone && !s.ownShare gang member && decide (member < g.expect) then
            (s.answeredBy g member).takeReport g member (RemoteReport.toResult r)
          else s
        | none =>
          match s.flights.find? (fun c => decide (c.parent = some (gang, member)) && c.completed) with
          | some c => (s.dropFlight c.fid).takeReport g member c.res
          | none => s
      else s.dropOrphan gang member
    | none => s.dropOrphan gang member)

end Sys2Proof.Machine
end

