-- ==== Sys2Proof/Machine/Tiles.lean ====
section
/-! DEFINITION. Tile buffers, vector registers and weight registers of engine pairs: reading, writing and their poison marks
(R113, R126, R128), and the fault registers of units (R123, R165, R231, R249). -/

namespace Sys2Proof.Machine

/-- VE_STATUS.poisoned follows the marks on tile buffers, V registers and H (R165). -/
def State.vePoisonBit (s : State) (die ep : Nat) : State :=
  s.setFlag (Reg.veStatus die ep) 12
    (s.tbMarks.any (fun m => decide (m.row / 1024 = die * 6 + ep)) ||
     s.vrMarks.any (fun k => decide (k / (33 * 256) = die * 6 + ep)))

/-! ### Tile buffers: TB0-TB3 of 256 rows of 256 lanes -/

def tbRowKey (die ep b row : Nat) : Nat := ((die * 6 + ep) * 4 + b) * 256 + row
def tbKey (die ep b row lane : Nat) : Nat := tbRowKey die ep b row * 256 + lane

def word0 : Nat → Word := fun _ => 0

/-- Lanes lo to lo + n - 1 of a tile-buffer row. -/
def State.tbRow (s : State) (die ep b row lo n : Nat) : List Word :=
  (List.range n).map (fun i => lookup word0 s.tb (tbKey die ep b row (lo + i)))

/-- A lane that a poison mark covers. -/
def State.tbBad (s : State) (die ep b row lo n : Nat) : Bool :=
  s.tbMarks.any (fun m => decide (m.row = tbRowKey die ep b row ∧ m.lo < lo + n ∧ lo ≤ m.hi ∧ n ≠ 0))

/-- Lanes written again leave a mark when none of its lanes is left (R128). -/
def RowMark.wrote (m : RowMark) (row lo n : Nat) : RowMark :=
  if m.row = row then { m with left := m.left.filter (fun l => decide (l < lo ∨ lo + n ≤ l)) } else m

/-- Write lanes from lo on. -/
def State.tbWrite (s : State) (die ep b row lo : Nat) (ws : List Word) : State :=
  { s with
    tb := storeRun word0 s.tb (tbKey die ep b row lo) ws
    tbMarks := (s.tbMarks.map (fun m => m.wrote (tbRowKey die ep b row) lo ws.length)).filter (fun m => !m.left.isEmpty) }

/-- Mark lanes lo to hi of a row poisoned until each is written again. -/
def State.tbMark (s : State) (die ep b row lo hi : Nat) : State :=
  { s with tbMarks := s.tbMarks ++ [⟨tbRowKey die ep b row, lo, hi, (List.range (hi + 1 - lo)).map (· + lo)⟩] }

/-- Clear every tile buffer of an engine pair (R166). -/
def State.tbClear (s : State) (die ep : Nat) : State :=
  { s with
    tb := eraseRange s.tb (tbKey die ep 0 0 0) (tbKey die (ep + 1) 0 0 0)
    tbMarks := s.tbMarks.filter (fun m => decide (m.row < tbRowKey die ep 0 0 ∨ tbRowKey die (ep + 1) 0 0 ≤ m.row)) }

/-! ### Vector registers V0-V31 and H: 256 lanes each; register 32 is H -/

def vrKey (die ep reg lane : Nat) : Nat := ((die * 6 + ep) * 33 + reg) * 256 + lane

def State.vrRow (s : State) (die ep reg n : Nat) : List Word :=
  (List.range n).map (fun i => lookup word0 s.vr (vrKey die ep reg i))

def State.vrWrite (s : State) (die ep reg : Nat) (ws : List Word) : State :=
  { s with vr := storeRun word0 s.vr (vrKey die ep reg 0) ws }

def State.vrClear (s : State) (die ep : Nat) : State :=
  { s with
    vr := eraseRange s.vr (vrKey die ep 0 0) (vrKey die (ep + 1) 0 0)
    vrMarks := setEraseRange s.vrMarks (vrKey die ep 0 0) (vrKey die (ep + 1) 0 0) }

/-! ### Errors of lane values (R128) -/

/-- A value of a tile-buffer lane is read with an error: a corrected one is logged, an uncorrectable one makes the value read as
poisoned, and the row keeps the mark until every lane has been written again. -/
def State.tbError (s : State) (die ep fid : Nat) (e : LaneEcc) : State :=
  match e.ecc with
  | .clean => s
  | .corrected => s.log die (.laneCorrected e.row e.lane) 0 ep (.desc fid) .read
  | .uncorrectable =>
    { s with tbMarks := s.tbMarks ++ [⟨tbRowKey die ep (e.row / 256) (e.row % 256), e.lane, e.lane, List.range 256⟩] }

/-- The same of a lane of V0-V31 or H that a descriptor reads: its value reads as poisoned, and the descriptor completes with POISON
(R128, R169). -/
def Run.laneMet (ep : Nat) (r : Run) (e : LaneEcc) : Run :=
  match e.ecc with
  | .clean => r
  | .corrected => { r with s := r.s.log r.die (.laneCorrected e.row e.lane) 0 ep (.desc r.fid) .read }
  | .uncorrectable =>
    let q := r.s.nextSeq r.die
    ({ r with s := r.s.log r.die (.laneUncorrectable e.row e.lane) 0 ep (.desc r.fid) .read } : Run).raise stPoison q

/-! ### Weight registers: the cell of array row r and column c, two weights in MXFP4 -/

def cellKey (die ep r c half : Nat) : Nat := (((die * 6 + ep) * 256 + r) * 256 + c) * 2 + half

def State.clearWeights (s : State) (die ep : Nat) : State :=
  { s with
    wAct := eraseRange s.wAct (cellKey die ep 0 0 0) (cellKey die (ep + 1) 0 0 0)
    wShd := eraseRange s.wShd (cellKey die ep 0 0 0) (cellKey die (ep + 1) 0 0 0) }

/-- Keys of the columns lo to hi - 1 of an array. -/
def inCols (die ep lo hi k : Nat) : Bool :=
  decide (cellKey die ep 0 0 0 ≤ k ∧ k < cellKey die (ep + 1) 0 0 0 ∧ lo ≤ k / 2 % 256 ∧ k / 2 % 256 < hi)

/-- The weights of a partition's columns are cleared to +0 (R126). -/
def State.clearCols (s : State) (die ep lo hi : Nat) : State :=
  { s with
    wAct := s.wAct.filter (fun p => !inCols die ep lo hi p.1)
    wShd := s.wShd.filter (fun p => !inCols die ep lo hi p.1) }

/-- Load a tile: the active and the shadow register of each cell it uses hold its weight (R104). -/
def State.loadWeights (s : State) (cells : List (Nat × Word)) : State :=
  { s with
    wAct := cells.foldl (fun m c => store word0 m c.1 c.2) s.wAct
    wShd := cells.foldl (fun m c => store word0 m c.1 c.2) s.wShd }

/-- Write the active registers of cells (class 0x12 writes its partner elements straight there). -/
def State.loadActive (s : State) (cells : List (Nat × Word)) : State :=
  { s with wAct := cells.foldl (fun m c => store word0 m c.1 c.2) s.wAct }

/-! ### Fault registers of the units -/

/-- The register word that holds a ring and a status: ring in [19:8], status in [7:0]. -/
def ringStatus (ring status : Nat) : Word := BitVec.ofNat 32 (ring % 4096 * 256 + status % 256)

/-- A status a unit records as a fault: 0x10 and above, but for a descriptor that was not executed. -/
def recordsFault (status : Nat) : Bool := isFault status && status != stStepAborted

/-- Partition j of an engine pair reports a fault (R123, R126). -/
def State.maFaultSet (s : State) (die ep j status : Nat) (index : Word) : State :=
  let s := s.setReg (Reg.maFault die ep j) (BitVec.ofNat 32 status)
  let s := s.setReg (Reg.maFaultIx die ep j) index
  s.setFlag (Reg.maStatus die ep) j true

/-- The vector engine reports a fault (R165). -/
def State.veFaultSet (s : State) (die ep : Nat) (f : Flight) (status : Nat) : State :=
  ((s.setFlag (Reg.veStatus die ep) 0 true).setReg (Reg.veFault die ep) (ringStatus f.ring status)).setReg (Reg.veFaultIx die ep) f.index

/-- A mover reports a fault (R249). -/
def State.mvFaultSet (s : State) (die n : Nat) (f : Flight) (status : Nat) : State :=
  (s.setReg (Reg.mvFault die n) (ringStatus f.ring status)).setReg (Reg.mvFaultIx die n) f.index

/-- A decode engine reports a fault (R231). -/
def State.vdFaultSet (s : State) (die e : Nat) (f : Flight) (status : Nat) : State :=
  ((s.setFlag (Reg.vdStatus die e) 0 true).setReg (Reg.vdFault die e) (ringStatus f.ring status)).setReg (Reg.vdFaultIx die e) f.index

end Sys2Proof.Machine
end

