-- ==== Sys2Proof/Machine/Matrix.lean ====
section
/-! DEFINITION. The matrix arrays: classes 0x10, 0x11 and 0x12 (R101-R122, R125), faults in a partition (R126), and enabling
and disabling of engine pairs (R124, R166). -/

namespace Sys2Proof.Machine

/-! ### Partitions and beats -/

/-- MA_CTRL.parts of an engine pair: P = 2^parts partitions (R108). -/
def State.maParts (s : State) (die ep : Nat) : Nat := 2 ^ s.fld (Reg.maCtrl die ep) 9 8
def State.partWidth (s : State) (die ep : Nat) : Nat := 256 / s.maParts die ep

/-- The partition takes matrix classes from this ring (R109). -/
def State.partOk (s : State) (die ep part ring : Nat) : Bool :=
  let p := s.maParts die ep
  decide (part < p) &&
  (p == 1 || (s.flag (Reg.maPartRing die ep part) 31 && s.fld (Reg.maPartRing die ep part) 11 0 == ring))

/-- ACLK cycles per beat of a format pair; none when the array does not take it (R102). -/
def pairBeat (a w : Nat) : Option Nat :=
  if (a = 3 ∨ a = 4) ∧ (w = 3 ∨ w = 4) then some 1
  else if a = 5 ∧ w = 5 then some 1
  else if (a = 1 ∨ a = 2) ∧ (w = 1 ∨ w = 2) then some 2
  else if a = 0 ∧ w = 0 then some 8
  else none

/-- The beats (S, F) of the pass after one with beats s and f and m vectors, its tile readable in time (R105). -/
def nextBeats (w s f m : Nat) : Nat × Nat :=
  let s' := max (f + w - 1) (s + 256)
  (s', max (f + m) (s' + 1))

/-- The beats (S, F) of passes with the given numbers of vectors, every tile readable from the start (R105). -/
def passBeats (w : Nat) (s f : Nat) : List Nat → List (Nat × Nat)
  | [] => []
  | m :: ms =>
    let x := nextBeats w s f m
    (s, f) :: passBeats w x.1 x.2 ms

/-- Extents cut into pieces of at most r: (first, length). -/
def pieces (r : Nat) (first : Nat) : Nat → Nat → List (Nat × Nat)
  | _, 0 => []
  | 0, _ => []
  | ext, fuel + 1 => (first, min r ext) :: pieces r (first + min r ext) (ext - min r ext) fuel

def cut (r ext : Nat) : List (Nat × Nat) := pieces r 0 ext ext

/-! ### Sources in working memory -/

/-- What stops a partition at a source (R126): an access that is not served, a poisoned value, read at an address, or a weight
register that reads with a parity error. -/
inductive SrcBad where
  | miss (m : Miss) (a : Nat)
  | poison (a : Nat)
  | parity
  deriving DecidableEq, Repr

/-- What a read of n bytes at `off` would meet, with nothing done: a fault, or a poisoned line's address. With `own`, only the
die's own working memory serves it (R111). -/
def State.probe (s : State) (die : Nat) (w : AddrWord) (off n : Nat) (own : Bool := false) : Option SrcBad :=
  if n = 0 then none
  else
    let first := (w.addr + off) / 64
    let last := (w.addr + off + n - 1) / 64
    ((List.range (last + 1 - first)).filterMap (fun i =>
      let o := if i = 0 then off else (first + i) * 64 - w.addr
      match w.at s.moduleId die o with
      | .here a =>
        if own && !(isWorkMem a && ownerDie a == die) then some (.miss (.addr die .address) a)
        else match s.meets die a with
          | some m => some (.miss m a)
          | none => if s.linePoisoned (a / 64) then some (.poison a) else none
      | .nowhere a => some (.miss (.addr die .address) a)
      | .far _ a => some (.miss (.addr die .address) a))).head?

/-- The sources of the array wait while the die's working memory is being initialised (R107, R245 note 1). -/
def Run.wmWait (r : Run) : Run :=
  if r.s.flag (Reg.wmCtrl r.die) 1 then { r with ext := r.ext ++ [(100, wmBase r.die / 64)] } else r

/-- Element codes at a list of byte offsets, read to FP32 with the saturations counted; memory as it stands. -/
def State.elemAt (s : State) (die : Nat) (o : Opnd) (off : Nat) : Read :=
  match o.w.at s.moduleId die off with
  | .here a => readCode o.fmt o.v (leNat (s.bytes a (o.fmt.bits / 8)))
  | _ => (0, 0)

/-- An MXFP4 element: element i of a row in a dense element plane and scale plane (R76, R119). -/
def State.mxAt (s : State) (die : Nat) (el sc : AddrWord) (row k i : Nat) : Read :=
  let rb := (k + 31) / 32
  let e := match el.at s.moduleId die (row * rb * 16 + i / 2) with
    | .here a => (s.byte a).toNat / 16 ^ (i % 2) % 16
    | _ => 0
  let c := match sc.at s.moduleId die (row * rb + i / 32) with
    | .here a => (s.byte a).toNat
    | _ => 0
  readMx c e

/-! ### The product -/

/-- What a product computes over: FP32 values of A (rows of the member) and W, with saturations, and the source bytes each row
of A and of a weight tile reads (for faults). -/
structure Product where
  die    : Nat
  ep     : Nat
  part   : Nat
  w      : Nat
  m      : Nat
  n      : Nat
  k      : Nat
  ktile  : Nat
  rows   : Nat
  cpb    : Nat
  fp32   : Bool
  add    : Bool
  keep   : Bool
  first  : Nat
  /-- The beats (S, F) of its first pass. -/
  begin_ : Nat × Nat
  /-- The tile-buffer row of the first row of A, where A is read there (R117). -/
  aRow   : Option Nat := none
  /-- What the code of the tile buffers finds as the array reads them (R128). -/
  errs   : List LaneEcc := []

/-- One column sum of a pass: products added in array-row order from +0 (R103). -/
def passSum (fp32 : Bool) (ab : List (Word × Word)) : Word :=
  ab.foldl (fun acc p => if fp32 then fpAdd acc (fpMul p.1 p.2) else fpFma p.1 p.2 acc) fpZero

/-- The accumulator of one output element: the passes in ascending K-tile order; the first overwrites, unless the descriptor
adds to the tile buffers (R103, R117). -/
def accumulate (fp32 : Bool) (ktile : Nat) (start : Option Word) (ab : List (Word × Word)) : Word :=
  let sums := (cut ktile ab.length).map (fun t => passSum fp32 ((ab.drop t.1).take t.2))
  match start, sums with
  | some x, ss => ss.foldl fpAdd x
  | none, [] => fpZero
  | none, s :: ss => ss.foldl fpAdd s

/-- The pieces a descriptor walks: M blocks, then N tiles (R114). -/
def Product.units (p : Product) : List ((Nat × Nat) × (Nat × Nat)) :=
  (cut p.rows p.m).flatMap (fun b => (cut p.w p.n).map (fun t => (b, t)))

/-- The vectors of every pass in order. -/
def Product.passes (p : Product) : List Nat :=
  let kt := (cut p.ktile p.k).length
  p.units.flatMap (fun u => List.replicate kt u.1.2)

/-- The beats of passes with the given numbers of vectors on the product's partition. -/
def Product.beatsOf (p : Product) (ms : List Nat) : List (Nat × Nat) := passBeats p.w p.begin_.1 p.begin_.2 ms

/-- One pass: its group, block of rows, N tile and K tile, each by first and length, and its beats (S, F) of R104. -/
structure Pass where
  q  : Nat
  b  : Nat × Nat
  nt : Nat × Nat
  t  : Nat × Nat
  s  : Nat
  f  : Nat

def inPiece (x : Nat × Nat) (i : Nat) : Bool := decide (x.1 ≤ i ∧ i < x.1 + x.2)

/-- An event at a beat happens before the partition stops. -/
def before (stop : Option Nat) (beat : Nat) : Bool := match stop with | none => true | some e => decide (beat < e)

/-- Row i of A enters with reduction index κ before the partition stops (R104, R126). -/
def injects (ps : List Pass) (stop : Option Nat) (q i κ : Nat) : Bool :=
  ps.any (fun x => x.q == q && inPiece x.b i && inPiece x.t κ && before stop (x.f + (i - x.b.1)))

/-- The weight of reduction index κ and column j is loaded before the partition stops; `pair` puts two indices in an array row. -/
def loads (ps : List Pass) (pair : Bool) (stop : Option Nat) (q κ j : Nat) : Bool :=
  ps.any (fun x => x.q == q && inPiece x.nt j && inPiece x.t κ &&
    before stop (x.s + (if pair then (κ - x.t.1) / 2 else κ - x.t.1)))

/-- The passes of a product in order. -/
def Product.schedule (p : Product) : List Pass :=
  let tasks := p.units.flatMap (fun u => (cut p.ktile p.k).map (fun t => (u, t)))
  (tasks.zip (p.beatsOf p.passes)).map (fun x => ⟨0, x.1.1.1, x.1.1.2, x.1.2, x.2.1, x.2.2⟩)

/-- A source fault and the beat of it. -/
abbrev SrcFault := Nat × SrcBad

def earliest : List SrcFault → Option SrcFault
  | [] => none
  | x :: xs => match earliest xs with
    | none => some x
    | some y => if y.1 < x.1 then some y else some x

/-- The first beat at which a source read meets a fault. `aBad i t` and `wBad r u t` say what row i of A, or row r of the weight
tile of an N tile, meets for a K tile (R104); the accumulators that a first pass adds to are read as its sums leave the columns
(R103, R117). -/
def Product.firstFault (p : Product) (aBad : Nat → (Nat × Nat) → Option SrcBad)
    (wBad : Nat → (Nat × Nat) → (Nat × Nat) → Option SrcBad) (s : State) : Option SrcFault :=
  earliest (p.schedule.flatMap (fun x =>
    let rows := if p.ktile = 512 then (x.t.2 + 1) / 2 else x.t.2
    ((List.range rows).filterMap (fun r => (wBad r x.nt x.t).map (fun e => (x.s + r, e)))) ++
    ((List.range x.b.2).filterMap (fun i => (aBad (x.b.1 + i) x.t).map (fun e => (x.f + i, e)))) ++
    (if p.add && x.t.1 == 0 then
      (List.range x.b.2).flatMap (fun i => (List.range x.nt.2).filterMap (fun j =>
        let row := p.first + x.b.1 + i
        if s.tbBad p.die p.ep (row / 256) (row % 256) (p.part * p.w + j) 1 then
          some (x.f + i + 256 + j, .poison (wmBase p.die)) else none))
     else [])))

/-- The saturations of the values of A and W that were read before the partition stopped. -/
def Product.sats (p : Product) (stop : Option Nat) (aSat wSat : Nat → Nat → Nat) : Nat :=
  let ps := p.schedule
  ((List.range p.m).map (fun i => ((List.range p.k).map (fun q => if injects ps stop 0 i q then aSat i q else 0)).sum)).sum +
  ((List.range p.k).map (fun q => ((List.range p.n).map (fun j =>
    if loads ps (p.ktile == 512) stop 0 q j then wSat q j else 0)).sum)).sum

/-- The beat at which the drain of unit u begins: after the last row of its last used column is accumulated (R104, R126). -/
def Product.drainBeat (p : Product) (u : Nat) : Nat :=
  let kt := (cut p.ktile p.k).length
  if kt = 0 then 0
  else
    let (b, nt) := p.units.getD u ((0, 0), (0, 0))
    let f := ((p.beatsOf p.passes).getD (u * kt + kt - 1) (0, 1)).2
    f + b.2 - 1 + 256 + nt.2

/-- The length of a descriptor in ACLK cycles, without holds: its passes and the drain of its last block (R105, R114). -/
def Product.cycles (p : Product) : Nat :=
  let us := p.units
  if us.isEmpty then 0
  else if p.k = 0 then (us.map (·.1.2)).sum
  else (p.drainBeat (us.length - 1) - p.begin_.1) * p.cpb + (if p.keep then 0 else ((us.getLast?.map (·.1.2)).getD 0))

/-- The column of the tile buffers a partition begins at. -/
def Product.col0 (p : Product) : Nat := p.part * p.w

/-! ### Errors in the tile buffers as the array reads them (R128) -/

/-- The accumulator row of row i of a block. -/
def Product.accRow (p : Product) (i : Nat) : Nat := if p.keep then p.first + i else i

/-- Lane `lane` is a column of an N tile. -/
def Product.inTile (p : Product) (nt : Nat × Nat) (lane : Nat) : Bool := decide (p.col0 ≤ lane ∧ lane < p.col0 + nt.2)

/-- The beat at which the pass named by an error reads its lane: of a row of A as it enters, or of an accumulator as the pass adds
to it (R104, R117). -/
def Product.laneBeat (p : Product) (ps : List Pass) (e : LaneEcc) : Option Nat :=
  match ps[e.strip]? with
  | none => none
  | some x =>
    let a := p.aRow.getD e.row
    if p.aRow.isSome && decide (a ≤ e.row) && inPiece x.b (e.row - a) && inPiece x.t e.lane then some (x.f + (e.row - a - x.b.1))
    else if (p.add || x.t.1 != 0) && decide (p.accRow 0 ≤ e.row ∧ e.row < p.accRow x.b.2) && p.inTile x.nt e.lane then
      some (x.f + (e.row - p.accRow 0) + 256 + (e.lane - p.col0))
    else none

/-- The uncorrectable values that passes read, with their beats. -/
def Product.laneFaults (p : Product) (ps : List Pass) : List SrcFault :=
  (p.errs.filter (fun e => e.ecc == .uncorrectable)).filterMap (fun e => (p.laneBeat ps e).map (fun b => (b, .poison (wmBase p.die))))

/-- The errors that passes met before the partition stopped are logged, or marked. -/
def Product.lanesMet (p : Product) (ps : List Pass) (stop : Option Nat) (s : State) (fid : Nat) : State :=
  (p.errs.filter (fun e => (p.laneBeat ps e).any (fun b => before stop (b - 1)))).foldl (fun s e => s.tbError p.die p.ep fid e) s

/-- A drain, numbered `ix` after the passes, reads accumulators, by row and column: an uncorrectable value reads as poisoned. -/
def Product.drainMeets (p : Product) (ix : Nat) (cells : List (Nat × Nat)) (r : Run) : Run × Bool :=
  let es := p.errs.filter (fun e => e.strip == ix && cells.any (fun c => decide (c.1 = e.row ∧ p.col0 + c.2 = e.lane)))
  let r := { r with s := es.foldl (fun s e => s.tbError p.die p.ep r.fid e) r.s }
  if es.any (fun e => e.ecc == .uncorrectable) then (r.poisoned (wmBase p.die), true) else (r, false)

/-- What a run shares with the drain: the beat at which a drain met a fault, if one did (R126). -/
structure MatRun where
  r    : Run
  halt : Option Nat
  deriving DecidableEq, Repr

/-- The drain met a fault at a beat; the first counts. -/
def MatRun.stopAt (x : MatRun) (beat : Nat) : MatRun := { x with halt := some (x.halt.getD beat) }

/-- Compute one unit's accumulators into the tile buffers (R114). Row i of a block lies in TB(i div 256), row i mod 256, of the
partition's columns. -/
def Product.fill (p : Product) (aVal wVal : Nat → Nat → Word) (b nt : Nat × Nat) (s : State) : State :=
  (List.range b.2).foldl (fun s i =>
    let row := if p.keep then p.first + i else i
    let old := s.tbRow p.die p.ep (row / 256) (row % 256) p.col0 nt.2
    let acc := (List.range nt.2).map (fun j =>
      let ab := (List.range p.k).map (fun q => (aVal (b.1 + i) q, wVal q (nt.1 + j)))
      accumulate p.fp32 p.ktile (if p.add then some (old.getD j 0) else none) ab)
    s.tbWrite p.die p.ep (row / 256) (row % 256) p.col0 acc) s

/-- The weights the passes of a unit load, tile after tile: the rows beyond a short last tile keep those of the tile before it
(R101, R104). -/
def Product.tiles (p : Product) (wVal : Nat → Nat → Word) (nt : Nat × Nat) : List (Nat × Word) :=
  (cut p.ktile p.k).flatMap (fun t =>
    (List.range t.2).flatMap (fun q => (List.range nt.2).map (fun j =>
      if p.ktile = 512 then (cellKey p.die p.ep (q / 2) (p.col0 + j) (q % 2), wVal (t.1 + q) (nt.1 + j))
      else (cellKey p.die p.ep q (p.col0 + j) 0, wVal (t.1 + q) (nt.1 + j)))))

/-- The output of one accumulator value: t = 2^alpha * acc, then beta * C added with one rounding (R115). -/
def drainValue (alpha : Int) (beta : Nat) (acc c : Word) : Word :=
  let t := fpRound ((fpVal acc).scale alpha)
  match beta with
  | 0 => t
  | 1 => fpFma fpOne c t
  | _ => fpFma (fpFlip fpOne) c t

/-- The destination of a product. -/
structure Dest where
  o      : Opnd
  gather : Bool
  pitch  : Nat
  alpha  : Int
  beta   : Nat

/-- Drain one row at a beat (R115): a poisoned C stops the partition after this block, and its row is written marked; so does a
poisoned line of D that takes no part of a row (R126, R236). -/
def Product.drainRow (p : Product) (d : Dest) (b nt : Nat × Nat) (ix beat : Nat) (x : MatRun) (i : Nat) : MatRun :=
  if x.r.stop then x
  else
    let off := (b.1 + i) * d.pitch + nt.1 * (d.o.fmt.bits / 8)
    let acc := x.r.s.tbRow p.die p.ep (i / 256) (i % 256) p.col0 nt.2
    let (r, spoilt) := p.drainMeets ix ((List.range nt.2).map (fun j => (i, j))) x.r
    let (r, cs, bad) := if d.beta = 0 then (r, [], false) else r.readElems d.o off nt.2
    let bad := bad || spoilt
    let x := if r.stop || bad then x.stopAt (beat + i / p.cpb) else x
    if r.stop then { x with r := r }
    else
      let out := acc.mapIdx (fun j a => drainValue d.alpha d.beta a (cs.getD j 0))
      let (r, met) := r.meeting (fun r => r.writeElems d.o d.gather off out bad)
      let x := { x with r := r }
      if met then x.stopAt (beat + i / p.cpb) else x

/-- Run the units of a descriptor up to its first fault. With k = 0 no pass runs, and the drain takes +0. -/
def Product.go (p : Product) (dst : Option Dest) (aVal wVal : Nat → Nat → Word) (fault : Option SrcFault)
    (x : MatRun) : MatRun :=
  (p.units.zipIdx).foldl (fun x u =>
    let ((b, nt), ix) := u
    let cutOff := match fault with
      | some e => decide (e.1 < p.drainBeat ix)
      | none => false
    if x.halt.isSome || cutOff then x
    else
      let s := if p.k = 0 then
          (if p.add then x.r.s
           else if p.keep || dst.isSome then
             (List.range b.2).foldl (fun s i =>
               let row := if p.keep then p.first + i else i
               s.tbWrite p.die p.ep (row / 256) (row % 256) p.col0 (List.replicate nt.2 fpZero)) x.r.s
           else x.r.s)
        else (p.fill aVal wVal b nt x.r.s).loadWeights (p.tiles wVal nt)
      let x := { x with r := { x.r with s := s } }
      match dst with
      | none => x
      | some d => (List.range b.2).foldl (p.drainRow d b nt (p.passes.length + ix) (p.drainBeat ix)) x) x

/-- The sums of a unit cut short are discarded: what its accumulator rows hold is open (R126); the marks stay. -/
def Product.scramble (p : Product) (s : State) : State :=
  let rows := min p.rows p.m
  let s' := (List.range rows).foldl (fun s i =>
    let ws := (List.range (min p.w p.n)).map (fun j => Config.freeWord (s.free + j))
    { s.tbWrite p.die p.ep (i / 256) (i % 256) p.col0 ws with free := s.free + ws.length }) s
  { s' with tbMarks := s.tbMarks }

/-- Raise what a source read met (R126, R53). -/
def Run.source (r : Run) (ep : Nat) (e : SrcBad) : Run :=
  match e with
  | .miss m a => r.miss m a
  | .poison a => { r.poisoned a with stop := true }
  | .parity => { r.raiseLog stPoison r.die .weightParity ep .none with stop := true }

/-- What a partition meets first: at its sources, in the tile buffers, or a weight register that reads with a parity error at a beat
(R126). -/
def withParity (parity : Option Nat) (lanes : List SrcFault) (fault : Option SrcFault) : Option SrcFault :=
  earliest (fault.toList ++ lanes ++ (parity.map (fun b => (b, SrcBad.parity))).toList)

/-- The source fault, where the partition meets it: a drain that stopped earlier leaves it unmet (R126). -/
def metFault (fault : Option SrcFault) (halt : Option Nat) : Option SrcFault := fault.filter (fun e => before halt (e.1 - 1))

/-- The beat at which the partition stopped, if it did. -/
def stopBeat (fault : Option SrcFault) (halt : Option Nat) : Option Nat :=
  match metFault fault halt with
  | some e => some e.1
  | none => halt

/-- The whole of a matrix product on its partition, and the beat at which a fault stopped it. The sums of a unit cut short are
discarded. -/
def Product.run (p : Product) (dst : Option Dest) (aVal wVal : Nat → Nat → Word) (fault : Option SrcFault) (r : Run) :
    Run × Option Nat :=
  let x := p.go dst aVal wVal fault ⟨r, none⟩
  let stop := stopBeat fault x.halt
  let r := if stop.isSome && !p.keep then { x.r with s := p.scramble x.r.s } else x.r
  let r := { r with s := p.lanesMet p.schedule stop r.s r.fid }
  let r := match metFault fault x.halt with
    | some e => r.source p.ep e.2
    | none => r
  (if stop.isSome then { r with stop := true } else r, stop)

/-! ### Passes that go on across descriptors (R105) -/

/-- The partition of a matrix descriptor among all. -/
def Flight.partKey (f : Flight) : Nat := (hDie f.target * 6 + hSlot f.target) * 4 + matPart f.desc

/-- The beats of a descriptor's first pass: those that follow the last pass of the descriptor it started behind, or those of a fresh
start (R105). -/
def State.beginBeats (s : State) (f : Flight) : Nat × Nat :=
  match s.passes.find? (fun e => decide (e.key = f.partKey) && e.heirs.contains f.fid) with
  | some e => nextBeats (s.partWidth (hDie f.target) (hSlot f.target)) e.s e.f e.m
  | none => (0, 1)

/-- Descriptors that have started on a descriptor's partition and have not executed. -/
def State.heirs (s : State) (f : Flight) : List Nat :=
  (s.flights.filter (fun g => decide (g.phase = .started ∧ g.fid ≠ f.fid) && !hGang g.target && matClass (dClass g.desc) &&
    g.partKey == f.partKey)).map (·.fid)

/-- A descriptor's run has come to its end. -/
def State.ranOut (s : State) (f : Flight) : Bool := (s.flight f.fid).all (fun g => decide (g.phase ≠ .started))

/-- The partition holds no pass any more: the next descriptor begins afresh. -/
def State.passesEnd (s : State) (f : Flight) : State := { s with passes := s.passes.filter (fun e => decide (e.key ≠ f.partKey)) }

/-- A descriptor's last pass, by its beats and vectors, is the one that the descriptors started behind it go on from. -/
def State.passOn (s : State) (f : Flight) (passes : List ((Nat × Nat) × Nat)) : State :=
  match passes.getLast? with
  | none => s
  | some ((sb, fb), m) =>
    if s.ranOut f then
      let hs := s.heirs f
      let s := s.passesEnd f
      if hs.isEmpty then s else { s with passes := s.passes ++ [⟨f.partKey, hs, sb, fb, m⟩] }
    else s

/-- The passes of a product with their beats. -/
def Product.placed (p : Product) : List ((Nat × Nat) × Nat) := (p.beatsOf p.passes).zip p.passes

/-! ### Fields of the classes -/

def matFlag (_s : State) (f : Flight) : Nat := Reg.maStatus (hDie f.target) (hSlot f.target)

/-- Take the resolved scale exponent or E_ref of the format word at descriptor bit `lo` (R87). -/
def Flight.val (f : Flight) (lo : Nat) : Int :=
  ((f.vals.find? (fun x => decide (x.1 = lo))).map (·.2)).getD (dFmt f.desc lo).val

def Flight.opnd (f : Flight) (addr fmt : Nat) : Opnd := ⟨dAddr f.desc addr, (dFmt f.desc fmt).fmt, f.val fmt⟩

/-- The merge a gathering format word asks for at completion (R88, R90). -/
def Run.gatherInto (r : Run) (fw : FmtWord) : Run :=
  if fw.gather then
    { r with rm := some (r.rm.getD 0), merges := r.merges ++ [(r.die, fw.slot, r.rm.getD 0, fw.close)] }
  else r

/-- Signed field of eight bits. -/
def dSigned8 (d : Desc) (lo : Nat) : Int := sgn8 (dfld d (lo + 7) lo)

/-! ### Checks (R109, R111, R116, R118, R120-R122) -/

/-- A source plane: own working memory, aligned to 64 bytes (R111). -/
def srcPlane (s : State) (die : Nat) (d : Desc) (lo : Nat) : Option Nat :=
  let w := dAddr d lo
  need lo (w.ok die && w.ownWm s.moduleId die && w.aligned 64)

def opFmt (c : Nat) : Bool := decide (c ≤ 4)

def matmulChecks (s : State) (f : Flight) : List (Option Nat) :=
  let d := f.desc
  let die := hDie f.target
  let ep := hSlot f.target
  let part := dfld d 483 482
  let w := s.partWidth die ep
  let m := dfld d 439 416
  let n := dfld d 455 440
  let k := dfld d 471 456
  let mblk := dfld d 485 484
  let dst := dfld d 487 486
  let beta := dfld d 481 480
  let fa := dFmt d 320
  let fw := dFmt d 352
  let fd := dFmt d 384
  let aSrc := dbit d 488
  [resvBits d 490 489, need 472 (dfld d 479 472 != 0x80), need 480 (beta != 3), need 486 (dst != 3),
   need 482 (s.partOk die ep part f.ring),
   if aSrc then need 128 (dfld d 191 128 == 0) else srcPlane s die d 128,
   srcPlane s die d 192,
   need 320 ((if aSrc then fa.okDst die else fa.okSrc die) && opFmt fa.code),
   need 352 (fw.okSrc die && opFmt fw.code),
   need 320 (!(fa.ok die && fw.ok die) || (pairBeat fa.code fw.code).isSome),
   if dst = 0 then need 384 (fd.okDst die && opFmt fd.code) else need 384 (dfld d 415 384 == 0),
   if dst = 0 then need 256 ((dAddr d 256).ok die && (!opFmt fd.code || (dAddr d 256).aligned (fd.fmt.bits / 8)))
   else need 256 (dfld d 319 256 == 0),
   need 480 (dst == 0 || beta == 0), need 440 (dst == 0 || decide (n ≤ w)),
   need 416 (dst == 0 || decide (m ≤ 256 * (mblk + 1))),
   need 488 (!aSrc || s.maParts die ep == 1), need 456 (!aSrc || decide (k ≤ 256)),
   need 416 (!aSrc || decide (m ≤ 256 * (3 - mblk))),
   need 320 (!opFmt fa.code || dfld d 501 492 == 0 || decide (k * (fa.fmt.bits / 8) ≤ dfld d 501 492 * 256)),
   need 384 (!opFmt fd.code || dfld d 511 502 == 0 || decide (n * (fd.fmt.bits / 8) ≤ dfld d 511 502 * 256))]

/-- The format of dfmt (R118). -/
def dfmtOf (n : Nat) : Fmt := match n with | 0 => .fp32 | 1 => .bf16 | _ => .fp16

def mxChecks (s : State) (f : Flight) : List (Option Nat) :=
  let d := f.desc
  let die := hDie f.target
  let ep := hSlot f.target
  let dst := dfld d 509 508
  let dfmt := dfld d 511 510
  [need 504 (s.partOk die ep (dfld d 505 504) f.ring), need 508 (dst != 3), need 510 (dfmt != 3),
   srcPlane s die d 128, srcPlane s die d 192, srcPlane s die d 256, srcPlane s die d 320,
   if dst = 0 then need 384 ((dAddr d 384).ok die && (dAddr d 384).aligned ((dfmtOf dfmt).bits / 8))
   else need 384 (dfld d 447 384 == 0),
   need 508 (dst == 0 || dfmt == 0), need 472 (dst == 0 || decide (dfld d 487 472 ≤ s.partWidth die ep)),
   need 448 (dst == 0 || decide (dfld d 471 448 ≤ 256 * (dfld d 507 506 + 1)))]

def elemChecks (s : State) (f : Flight) : List (Option Nat) :=
  let d := f.desc
  let die := hDie f.target
  let fx := dFmt d 320
  let fy := dFmt d 352
  let fz := dFmt d 384
  [resvBits d 511 443, need 440 (s.partOk die (hSlot f.target) (dfld d 441 440) f.ring),
   srcPlane s die d 128, srcPlane s die d 192,
   need 256 ((dAddr d 256).ok die && (!opFmt fz.code || (dAddr d 256).aligned (fz.fmt.bits / 8))),
   need 320 (fx.okSrc die && opFmt fx.code), need 352 (fy.okSrc die && opFmt fy.code),
   need 384 (fz.okDst die && opFmt fz.code),
   need 320 (!(fx.ok die && fy.ok die) || (pairBeat fx.code fy.code).isSome)]

/-! ### Class 0x10 (R112, R114-R117) -/

/-- A tile-buffer value converted on injection (R117): the value the cells see, and its saturations, in the conversion or when the
code is read back (R79, R82). -/
def inject (fmt : Fmt) (v : Int) (x : Word) : Read :=
  let (c, n) := writeElem fmt v x
  let (y, m) := readElem fmt v c
  (y, n + m)

/-- The product of a class 0x10 descriptor. -/
def State.matmulProduct (s : State) (f : Flight) (errs : List LaneEcc := []) : Product :=
  let d := f.desc
  let die := hDie f.target
  let ep := hSlot f.target
  let dst := dfld d 487 486
  let (first, last) := shardPart (dfld d 439 416) (dShardN d) (dShardIx d)
  { die := die, ep := ep, part := matPart d, w := s.partWidth die ep, m := last - first, n := dfld d 455 440, k := dfld d 471 456,
    ktile := 256, rows := 256 * (dfld d 485 484 + 1), cpb := (pairBeat (dFmt d 320).code (dFmt d 352).code).getD 1,
    fp32 := (dFmt d 320).code == 0, add := dst == 2, keep := dst != 0, first := first, begin_ := s.beginBeats f,
    aRow := if dbit d 488 then some (256 * (dfld d 485 484 + 1) + first) else none, errs := errs }

def State.matmulRun (s : State) (f : Flight) (parity : Option Nat := none) (errs : List LaneEcc := []) : Run × Nat :=
  let d := f.desc
  let die := hDie f.target
  let ep := hSlot f.target
  let p := s.matmulProduct f errs
  let m := p.m
  let n := p.n
  let k := p.k
  let first := p.first
  let mblk := dfld d 485 484
  let dst := dfld d 487 486
  let aSrc := dbit d 488
  let wt := dbit d 491
  let a := f.opnd 128 320
  let wo := f.opnd 192 352
  let o := f.opnd 256 384
  let aPitch := if dfld d 501 492 = 0 then k * (a.fmt.bits / 8) else dfld d 501 492 * 256
  let dPitch := if dfld d 511 502 = 0 then n * (o.fmt.bits / 8) else dfld d 511 502 * 256
  let fa := dFmt d 320
  let fd := dFmt d 384
  let r0 := Run.start s die f.fid
  let gathers (r : Run) : Run :=
    let r := if aSrc then r.gatherInto fa else r
    if dst = 0 then r.gatherInto fd else r
  if m = 0 ∨ n = 0 then ((gathers r0).raise stEmpty 0, 0)
  else
    let tbAt (i : Nat) : Nat × Nat := (mblk + 1 + (first + i) / 256, (first + i) % 256)
    let aRead (i q : Nat) : Read :=
      if aSrc then inject a.fmt a.v ((s.tbRow die ep (tbAt i).1 (tbAt i).2 q 1).headD 0)
      else s.elemAt die a ((first + i) * aPitch + q * (a.fmt.bits / 8))
    let es := wo.fmt.bits / 8
    let wRead (q j : Nat) : Read := s.elemAt die wo ((if wt then j * k + q else q * n + j) * es)
    let aTab := (List.range m).map (fun i => (List.range k).map (aRead i))
    let wTab := (List.range k).map (fun q => (List.range n).map (wRead q))
    let aBad (i : Nat) (t : Nat × Nat) : Option SrcBad :=
      if aSrc then (if s.tbBad die ep (tbAt i).1 (tbAt i).2 t.1 t.2 then some (.poison (wmBase die)) else none)
      else s.probe die a.w ((first + i) * aPitch + t.1 * (a.fmt.bits / 8)) (t.2 * (a.fmt.bits / 8)) true
    let wBad (row : Nat) (nt t : Nat × Nat) : Option SrcBad :=
      if wt then
        ((List.range nt.2).filterMap (fun j => s.probe die wo.w (((nt.1 + j) * k + t.1 + row) * es) es true)).head?
      else s.probe die wo.w (((t.1 + row) * n + nt.1) * es) (nt.2 * es) true
    let fault := withParity (if k = 0 then none else parity) (p.laneFaults p.schedule) (p.firstFault aBad wBad s)
    let dest : Option Dest :=
      if dst = 0 then
        some { o := { o with w := { o.w with addr := o.w.addr + first * dPitch } }, gather := fd.gather, pitch := dPitch,
               alpha := dSigned8 d 472, beta := dfld d 481 480 }
      else none
    let val (tab : List (List Read)) (i j : Nat) : Word := ((tab.getD i []).getD j (0, 0)).1
    let sat (tab : List (List Read)) (i j : Nat) : Nat := ((tab.getD i []).getD j (0, 0)).2
    let (r, stop) := p.run dest (val aTab) (val wTab) fault (if k = 0 then r0 else r0.wmWait)
    let r := r.addSat (p.sats stop (sat aTab) (sat wTab))
    let ps := p.schedule
    let r := if aSrc && fa.gather then
        r.maxes (((List.range m).filter (fun i => injects ps stop 0 i 0)).flatMap (fun i => s.tbRow die ep (tbAt i).1 (tbAt i).2 0 k))
      else r
    (gathers r, p.cycles)

def State.matmul (s : State) (f : Flight) (errs : List LaneEcc) : State := Run.ends (s.matmulRun f none errs) s f true

/-- Partition `part` of an engine pair holds a started descriptor (R123). -/
def State.partHolds (s : State) (die ep part : Nat) : Bool :=
  s.flights.any (fun g => g.executing && !hGang g.target && hDie g.target == die && hSlot g.target == ep && matClass (dClass g.desc) &&
    matPart g.desc == part)

def State.maBusy (s : State) (f : Flight) : State :=
  let die := hDie f.target
  let ep := hSlot f.target
  s.setFlag (Reg.maStatus die ep) (4 + matPart f.desc) (s.partHolds die ep (matPart f.desc))

/-- The marks on the tile buffers show; a partition that stopped at a fault is draining until the fault step ends it (R126,
R165). -/
def State.matEnd (s : State) (f : Flight) : State :=
  match s.flight f.fid with
  | some g =>
    let s := s.vePoisonBit (hDie f.target) (hSlot f.target)
    match g.phase with
    | .started => s
    | .faulted .. =>
      (s.passesEnd f).setFlag (Reg.maStatus (hDie f.target) (hSlot f.target)) (8 + matPart f.desc) true
    | _ => s.maBusy f
  | none => s

def execMatmul (fid : Nat) (s : State) (errs : List LaneEcc := []) : Host.Outcome State Fault Refusal :=
  .next (match s.flight fid with
    | some f => if s.runs f 0x10 then ((s.matmul f errs).passOn f (s.matmulProduct f).placed).matEnd f else s
    | none => s)

/-! ### Class 0x11 (R118, R119) -/

/-- The product of a class 0x11 descriptor. -/
def State.mxProduct (s : State) (f : Flight) (errs : List LaneEcc := []) : Product :=
  let d := f.desc
  let die := hDie f.target
  let ep := hSlot f.target
  let dst := dfld d 509 508
  let (first, last) := shardPart (dfld d 471 448) (dShardN d) (dShardIx d)
  { die := die, ep := ep, part := matPart d, w := s.partWidth die ep, m := last - first, n := dfld d 487 472, k := dfld d 503 488,
    ktile := 512, rows := 256 * (dfld d 507 506 + 1), cpb := 1, fp32 := false, add := dst == 2, keep := dst != 0, first := first,
    begin_ := s.beginBeats f, errs := errs }

def State.matmulMxRun (s : State) (f : Flight) (parity : Option Nat := none) (errs : List LaneEcc := []) : Run × Nat :=
  let d := f.desc
  let die := hDie f.target
  let p := s.mxProduct f errs
  let m := p.m
  let n := p.n
  let k := p.k
  let first := p.first
  let dst := dfld d 509 508
  let fmt := dfmtOf (dfld d 511 510)
  let pitch := n * (fmt.bits / 8)
  let r0 := Run.start s die f.fid
  if m = 0 ∨ n = 0 then (r0.raise stEmpty 0, 0)
  else
    let rb := (k + 31) / 32
    let plane (el sc : Nat) (row : Nat) (q len : Nat) : Option SrcBad :=
      match s.probe die (dAddr d el) (row * rb * 16 + q / 2) ((q % 2 + len + 1) / 2) true with
      | some e => some e
      | none => s.probe die (dAddr d sc) (row * rb + q / 32) ((q % 32 + len + 31) / 32) true
    let aTab := (List.range m).map (fun i => (List.range k).map (s.mxAt die (dAddr d 128) (dAddr d 192) (first + i) k))
    let wTab := (List.range k).map (fun q => (List.range n).map (fun j => s.mxAt die (dAddr d 256) (dAddr d 320) j k q))
    let aBad (i : Nat) (t : Nat × Nat) : Option SrcBad := plane 128 192 (first + i) t.1 t.2
    let wBad (row : Nat) (nt t : Nat × Nat) : Option SrcBad :=
      ((List.range nt.2).filterMap (fun j => plane 256 320 (nt.1 + j) (t.1 + 2 * row) (min 2 (t.2 - 2 * row)))).head?
    let fault := withParity (if k = 0 then none else parity) (p.laneFaults p.schedule) (p.firstFault aBad wBad s)
    let o : Opnd := ⟨dAddr d 384, fmt, 0⟩
    let dest : Option Dest :=
      if dst = 0 then
        some { o := { o with w := { o.w with addr := o.w.addr + first * pitch } }, gather := false, pitch := pitch, alpha := 0,
               beta := 0 }
      else none
    let val (tab : List (List Read)) (i j : Nat) : Word := ((tab.getD i []).getD j (0, 0)).1
    let sat (tab : List (List Read)) (i j : Nat) : Nat := ((tab.getD i []).getD j (0, 0)).2
    let (r, stop) := p.run dest (val aTab) (val wTab) fault (if k = 0 then r0 else r0.wmWait)
    (r.addSat (p.sats stop (sat aTab) (sat wTab)), p.cycles)

def State.matmulMx (s : State) (f : Flight) (errs : List LaneEcc) : State := Run.ends (s.matmulMxRun f none errs) s f true

def execMatmulMxfp4 (fid : Nat) (s : State) (errs : List LaneEcc := []) : Host.Outcome State Fault Refusal :=
  .next (match s.flight fid with
    | some f => if s.runs f 0x11 then ((s.matmulMx f errs).passOn f (s.mxProduct f).placed).matEnd f else s
    | none => s)

/-! ### Class 0x12 (R120, R121) -/

/-- What a class 0x12 descriptor works on. -/
structure ElemCfg where
  x      : Opnd
  y      : Opnd
  z      : Opnd
  beta   : Bool
  gather : Bool
  fp32   : Bool
  base   : Nat

def ElemCfg.size (o : Opnd) : Nat := o.fmt.bits / 8

/-- Read a group as it enters: x, y, and z when beta is set, each a source whose fault or poison stops the partition; the answer
holds the outputs. -/
def ElemCfg.enter (c : ElemCfg) (r : Run) (g : Nat × Nat) : Run × List Word :=
  let at_ (o : Opnd) : Nat := (c.base + g.1) * ElemCfg.size o
  let (r, xs, px) := r.readElems c.x (at_ c.x) g.2
  let (r, ys, py) := if r.stop then (r, [], false) else r.readElems c.y (at_ c.y) g.2
  if r.stop || px || py then ({ r with stop := true }, [])
  else
    let (r, zs, pz) := if c.beta then r.readElems c.z (at_ c.z) g.2 else (r, [], false)
    if r.stop || pz then ({ r with stop := true }, [])
    else
      (r, xs.mapIdx (fun i a =>
        let b := ys.getD i 0
        let z := if c.beta then zs.getD i 0 else fpZero
        if c.fp32 then fpAdd z (fpMul a b) else fpFma a b z))

/-- The groups that enter, in order, up to a source fault or up to `last` groups: the run and their outputs. -/
def ElemCfg.enterAll (c : ElemCfg) : List (Nat × Nat) → Run → Run × List (Nat × List Word)
  | [], r => (r, [])
  | g :: gs, r =>
    let (r, out) := c.enter r g
    if r.stop then (r, [])
    else
      let (r, rest) := c.enterAll gs r
      (r, (g.1, out) :: rest)

/-- Write groups in order; the answer counts those written before a destination fault. -/
def ElemCfg.leave (c : ElemCfg) : List (Nat × List Word) → Run → Run × Nat
  | [], r => (r, 0)
  | g :: gs, r =>
    let (r, met) := r.meeting (fun r => r.writeElems c.z c.gather ((c.base + g.1) * ElemCfg.size c.z) g.2 false)
    if met then ({ r with stop := true }, 0)
    else
      let (r, n) := c.leave gs r
      (r, n + 1)

/-- The groups that enter, up to one of whose beats a weight register reads with a parity error: no group enters from that beat on. -/
def ElemCfg.enterUntil (c : ElemCfg) (ep : Nat) (parity : Option Nat) (groups : List (Nat × Nat)) (r : Run) :
    Run × List (Nat × List Word) :=
  match parity with
  | none => c.enterAll groups r
  | some b =>
    if groups.length + 255 < b then c.enterAll groups r
    else
      let (r, outs) := c.enterAll (groups.take (b - 1)) r
      (if r.stop then r else r.source ep .parity, outs)

/-- A group is written 255 + w beats after it enters (R121). A source fault leaves the groups still in the partition unwritten; a
destination fault leaves those that would enter later unread (R126). -/
def ElemCfg.run (c : ElemCfg) (w : Nat) (ep : Nat) (parity : Option Nat) (groups : List (Nat × Nat)) (r : Run) : Run :=
  let (ra, outs) := c.enterUntil ep parity groups r
  let due := if ra.stop then outs.take (outs.length - (255 + w)) else outs
  let (rb, n) := c.leave due { ra with stop := false }
  if n < due.length then
    let (ra, _) := c.enterAll (groups.take (n + 255 + w + 1)) r
    (c.leave due { ra with stop := false, code := r.code, detail := r.detail }).1
  else { rb with stop := ra.stop }

/-- The y values in the diagonal cells after the last group: each cell holds that of the last group that reached it. -/
def State.diagCells (s : State) (die ep part w : Nat) (y : Opnd) (first : Nat) (groups : List (Nat × Nat)) : List (Nat × Word) :=
  groups.flatMap (fun g => (List.range g.2).map (fun i =>
    (cellKey die ep i (part * w + i) 0, (s.elemAt die y ((first + g.1 + i) * (y.fmt.bits / 8))).1)))

def State.elementwiseRun (s : State) (f : Flight) (parity : Option Nat := none) : Run × Nat :=
  let d := f.desc
  let die := hDie f.target
  let ep := hSlot f.target
  let w := s.partWidth die ep
  let (first, last) := shardPart (dfld d 439 416) (dShardN d) (dShardIx d)
  let count := last - first
  let y := f.opnd 192 352
  let fz := dFmt d 384
  let r0 := Run.start s die f.fid
  if count = 0 then ((r0.gatherInto fz).raise stEmpty 0, 0)
  else
    let groups := cut w count
    let cpb := (pairBeat (dFmt d 320).code (dFmt d 352).code).getD 1
    let c : ElemCfg :=
      { x := f.opnd 128 320, y := y, z := f.opnd 256 384, beta := dbit d 442, gather := fz.gather,
        fp32 := (dFmt d 320).code == 0, base := first }
    let r := c.run w ep parity groups r0
    let r := { r with s := r.s.loadActive (s.diagCells die ep (matPart d) w y first groups) }
    (r.gatherInto fz, (groups.length + 255 + w) * cpb)

def State.elementwise (s : State) (f : Flight) : State := Run.ends (s.elementwiseRun f) s f true

def execElementwiseFma (fid : Nat) (s : State) : Host.Outcome State Fault Refusal :=
  .next (match s.flight fid with
    | some f =>
      if s.runs f 0x12 then
        let t := s.elementwise f
        (if t.ranOut f then t.passesEnd f else t).matEnd f
      else s
    | none => s)

/-! ### Faults in a partition (R126) -/

/-- A line of D already written is rewritten marked poisoned; a line of another module by a WRITE marked poisoned on the flow that
the die's table names, whose content is open. -/
def State.poisonLine (s : State) (die fid line : Nat) : State :=
  let a := 64 * line % 2 ^ 48
  let m := 64 * line / 2 ^ 48
  if m = s.moduleId then (s.invalidate (a / 64)).markPoison (a / 64)
  else
    match s.fdest die m with
    | some f =>
      let (bs, s) := s.freeBytes 64
      if s.flowOn f && s.flowPeer f == m then s.sendSeq f { type := 0x10, addr := a, payload := bs, poison := true } (some fid) else s
    | none => s

/-- The columns a kept product occupies are marked poisoned (R126). -/
def State.poisonKept (s : State) (f : Flight) : State :=
  let die := hDie f.target
  let ep := hSlot f.target
  let w := s.partWidth die ep
  let mblk := if dClass f.desc = 0x10 then dfld f.desc 485 484 else dfld f.desc 507 506
  (List.range (256 * (mblk + 1))).foldl (fun s i =>
    s.tbMark die ep (i / 256) (i % 256) (matPart f.desc * w) (matPart f.desc * w + w - 1)) s

def matKeeps (d : Desc) : Bool :=
  (dClass d == 0x10 && dfld d 487 486 != 0) || (dClass d == 0x11 && dfld d 509 508 != 0)

def State.partitionFault (s : State) (f : Flight) (status : BitVec 8) (lines : List Nat) : State :=
  let die := hDie f.target
  let ep := hSlot f.target
  let part := matPart f.desc
  let w := s.partWidth die ep
  let s := s.clearCols die ep (part * w) (part * w + w)
  let s := s.setFlag (Reg.maStatus die ep) (8 + part) false
  let s := if matKeeps f.desc then (s.poisonKept f).vePoisonBit die ep else lines.dedup.foldl (fun s l => s.poisonLine die f.fid l) s
  let s := s.maFaultSet die ep part status.toNat f.index
  (s.setFlight { f with phase := .done }).maBusy f

/-- A partition that stopped at a fault acts on it. -/
def State.partitionActs (s : State) (fid : Nat) : State :=
  match s.flight fid with
  | some f => match f.phase with
    | .faulted st _ lines => s.partitionFault f st lines
    | _ => s
  | none => s

/-! ### Engine pairs (R124, R166) -/

/-- Descriptors that have reached a unit and not started. -/
def State.queuedAt (s : State) (p : Flight → Bool) : List Flight := s.flights.filter (fun f => f.waits && p f)

/-- A descriptor that has started and is not complete under R44 yet. -/
def Flight.inWork (f : Flight) : Bool := f.start != 0 && !f.waits && !f.completed

def onEp (die ep : Nat) (f : Flight) : Bool := !hGang f.target && hDie f.target == die && hSlot f.target == ep

/-- An enable request; parts = 3 is refused (R124). -/
def State.epEnable (s : State) (die ep : Nat) : State :=
  let ctrl := Reg.maCtrl die ep
  if s.fnState ctrl = 0 ∧ s.fld ctrl 9 8 = 3 then ((s.setFlag (Reg.maErr die ep) 1 true).setFlag ctrl 2 true).setFlag ctrl 3 false
  else s.enableReq ctrl

def execEnginePairEnable (die ep : Nat) (s : State) : Host.Outcome State Fault Refusal :=
  .next (if s.dieDown die then s else s.epEnable die ep)

def execEnginePairEnablingDone (die ep : Nat) (s : State) : Host.Outcome State Fault Refusal :=
  let ctrl := Reg.maCtrl die ep
  .next (
    if s.fnState ctrl = 1 ∧ s.dieDown die = false then
      if s.fld ctrl 9 8 = 3 then (s.setFlag (Reg.maErr die ep) 1 true).enablingEnd ctrl false
      else ((((s.clearWeights die ep).tbClear die ep).vrClear die ep).vePoisonBit die ep).enablingEnd ctrl true
    else s)

/-- A disable request: queued descriptors are aborted (R69, R124). -/
def State.epDisable (s : State) (die ep : Nat) : State :=
  let s := s.disableReq (Reg.maCtrl die ep)
  if s.fnState (Reg.maCtrl die ep) = 3 then s.abortAll (s.queuedAt (fun f => onEp die ep f && s.ready f)) else s

def execEnginePairDisable (die ep : Nat) (s : State) : Host.Outcome State Fault Refusal :=
  .next (if s.dieDown die then s else s.epDisable die ep)

def execEnginePairDisablingDone (die ep : Nat) (s : State) : Host.Outcome State Fault Refusal :=
  .next (
    if s.fnState (Reg.maCtrl die ep) = 3 ∧ s.flights.any (fun f => onEp die ep f && f.inWork) = false ∧ s.dieDown die = false
    then (s.clearWeights die ep).disablingEnd (Reg.maCtrl die ep)
    else s)

end Sys2Proof.Machine
end

