-- ==== Sys2Proof/Machine/Special.lean ====
section
/-! DEFINITION. The special functions, correctly rounded (R151): each value is formed to some 200 bits in fixed point of 256
fractional bits with a sticky bit below, exact cases apart, and rounded once (log entry 17); and the lane operations of R149
and R150. -/

namespace Sys2Proof.Machine

/-! ### Fixed point -/

def fixP : Nat := 256
def fixOne : Nat := 2 ^ fixP

/-- z + z^3/3 + z^5/5 + …, n terms, for a fixed-point z; `zp` is the current power. -/
def atanhAux (z2 : Nat) : Nat → Nat → Nat → Nat
  | 0, _, _ => 0
  | n + 1, zp, k => zp / k + atanhAux z2 n (zp * z2 / fixOne) (k + 2)

def atanhFix (z : Nat) : Nat := atanhAux (z * z / fixOne) 90 z 1

def ln2Fix : Nat := 2 * atanhFix (fixOne / 3)

/-- The terms of e^r - 1 from the n-th on. -/
def expAux (r : Nat) : Nat → Nat → Nat → Nat
  | 0, _, _ => 0
  | n + 1, t, k => let t' := t * r / fixOne / k; t' + expAux r n t' (k + 1)

def squares (x : Nat) : Nat → Nat
  | 0 => x
  | n + 1 => squares (x * x / fixOne) n

/-- e^r for 0 ≤ r < 1, by e^(r/2^16) squared 16 times. -/
def expFix (r : Nat) : Nat :=
  let r' := r / 2 ^ 16
  squares (fixOne + expAux r' 24 fixOne 1) 16

/-- m * 2^e with a sign in fixed point, rounded down. -/
def toFix (neg : Bool) (m : Nat) (e : Int) : Int :=
  let x : Int := match e + fixP with
    | .ofNat k => (m * 2 ^ k : Nat)
    | .negSucc k => (m / 2 ^ (k + 1) : Nat)
  if neg then -x else x

/-- e^x for a fixed-point x: v and k with e^x = v * 2^(k - 256), v in [1, 2). -/
def expParts (x : Int) : Nat × Int :=
  let k := x / (ln2Fix : Int)
  (expFix (x - k * ln2Fix).toNat, k)

/-- An inexact value v * 2^e, v rounded down. -/
def inexact (neg : Bool) (v : Nat) (e : Int) : FVal := .fin neg (2 * v + 1) (e - 1)

/-- ln of m * 2^e, m not 0, in fixed point. -/
def lnFix (m : Nat) (e : Int) : Int :=
  let l := m.log2
  let y := m * 2 ^ fixP / 2 ^ l
  let z := (y - fixOne) * fixOne / (y + fixOne)
  (2 * atanhFix z : Nat) + (e + l) * (ln2Fix : Int)

def ofFix (x : Int) : FVal := inexact (decide (x < 0)) x.natAbs (-(fixP : Int))

/-! ### The functions -/

def fpExp (a : Word) : Word :=
  match fpVal a with
  | .nan => fpNaN
  | .inf n => if n then fpZero else fpInf false
  | .fin n m e =>
    if m = 0 then fpOne
    else
      let x := toFix n m e
      if (128 : Int) * fixOne ≤ x then fpInf false
      else if x ≤ -(160 : Int) * fixOne then fpZero
      else
        let (v, k) := expParts x
        fpRound (inexact false v (k - fixP))

def fpExp2 (a : Word) : Word :=
  match fpVal a with
  | .nan => fpNaN
  | .inf n => if n then fpZero else fpInf false
  | .fin n m e =>
    let x := toFix n m e
    if (128 : Int) * fixOne ≤ x then fpInf false
    else if x ≤ -(160 : Int) * fixOne then fpZero
    else
      let k := x / (fixOne : Int)
      let f := (x - k * fixOne).toNat
      if f = 0 then fpRound (.fin false 1 k)
      else fpRound (inexact false (expFix (f * ln2Fix / fixOne)) (k - fixP))

def fpLog (a : Word) : Word :=
  match fpVal a with
  | .nan => fpNaN
  | .inf n => if n then fpNaN else fpInf false
  | .fin n m e =>
    if m = 0 then fpInf true
    else if n then fpNaN
    else if a = fpOne then fpZero
    else fpRound (ofFix (lnFix m e))

def fpLog2 (a : Word) : Word :=
  match fpVal a with
  | .nan => fpNaN
  | .inf n => if n then fpNaN else fpInf false
  | .fin n m e =>
    if m = 0 then fpInf true
    else if n then fpNaN
    else if m = 2 ^ m.log2 then fpOfInt (e + m.log2)
    else
      let x := lnFix m e
      fpRound (ofFix (x * fixOne / (ln2Fix : Int)))

/-- 1 / sqrt(m * 2^e), m not 0. -/
def rsqrtVal (m : Nat) (e : Int) : FVal :=
  let m' := if e % 2 = 0 then m else 2 * m
  let e' := if e % 2 = 0 then e else e - 1
  let r := isqrt (2 ^ 256 / m')
  .fin false (2 * r + (if r * r * m' = 2 ^ 256 then 0 else 1)) (-(e' / 2) - 129)

def fpRsqrt (a : Word) : Word :=
  match fpVal a with
  | .nan => fpNaN
  | .inf n => if n then fpNaN else fpZero
  | .fin n m e =>
    if m = 0 then fpInf n else if n then fpNaN else fpRound (rsqrtVal m e)

def fpTanh (a : Word) : Word :=
  match fpVal a with
  | .nan => fpNaN
  | .inf n => fpSigned n 0x3F800000
  | .fin n m e =>
    if m = 0 then a
    else
      let x := (toFix false m e).toNat
      if x < 2 ^ (fixP - 60) then fpRound (.fin n (m * 2 ^ 40 - 1) (e - 40))
      else if 64 * fixOne ≤ x then fpRound (.fin n (2 ^ 40 - 1) (-40))
      else
        -- (t - 1) / (t + 1) with t = e^(2x)
        let (v, k) := expParts (2 * x : Nat)
        let t := v * 2 ^ k.toNat
        match quotVal n (t - fixOne) (t + fixOne) 0 with
        | .fin s q f => fpRound (inexact s q f)
        | y => fpRound y

def fpSigmoid (a : Word) : Word :=
  match fpVal a with
  | .nan => fpNaN
  | .inf n => if n then fpZero else fpOne
  | .fin n m e =>
    if m = 0 then 0x3F000000#32
    else
      let x := (toFix false m e).toNat
      if 160 * fixOne ≤ x then (if n then fpZero else fpOne)
      else
        -- t = e^-|x| = v * 2^(k - 256), k ≤ 0
        let (v, k) := expParts (-(x : Int))
        let one := 2 ^ ((fixP : Int) - k).toNat
        match quotVal false (if n then v else one) (one + v) 0 with
        | .fin s q f => fpRound (inexact s q f)
        | y => fpRound y

/-! ### Lane operations (R149, R150) -/

def canonNaN (x : Word) : Word := if fpIsNaN x then fpNaN else x

/-- The order of maximum and minimum: -0 below +0 (R150). -/
def fpOrd (w : Word) : Int := if fpNeg w then -(fpMag w : Int) - 1 else (fpMag w : Int)

def fpMaximum (a b : Word) : Word :=
  if fpIsNaN a || fpIsNaN b then fpNaN else if fpOrd a < fpOrd b then b else a
def fpMinimum (a b : Word) : Word :=
  if fpIsNaN a || fpIsNaN b then fpNaN else if fpOrd b < fpOrd a then b else a

def fpBool (b : Bool) : Word := if b then fpOne else fpZero

/-- Rounded to an integer to nearest even; larger magnitudes unchanged (R150). -/
def fpRint (a : Word) : Word :=
  match fpVal a with
  | .fin n m e => if 0 ≤ e then a else fpSigned n (roundCode 24 (-149) (rneShift m e) 0)
  | _ => canonNaN a

def fpFloor (a : Word) : Word :=
  match fpVal a with
  | .fin n m e =>
    if 0 ≤ e then a
    else
      let d := 2 ^ (-e).toNat
      let q := m / d
      let q' := if n && m % d != 0 then q + 1 else q
      fpSigned n (roundCode 24 (-149) q' 0)
  | _ => canonNaN a

def fpLdexp (a : Word) (k : Int) : Word := canonNaN (fpRound ((fpVal a).scale k))

def fpTrue (a : Word) : Bool := !fpIsNaN a && !fpIsZero a

end Sys2Proof.Machine
end

