-- ==== Sys2Proof/Machine/Walk.lean ====
section
/-! DEFINITION. Tensor walks of the vector engine: chain, program and walk records, streams in memory and tile buffers, strips,
shards, and the checks of R146 on the records (R130-R148). -/

namespace Sys2Proof.Machine

/-- n bytes of a record from byte `off` on, as a number. -/
def recNat (bs : List Byte) (off n : Nat) : Nat := leNat ((bs.drop off).take n)

def sgn32 (n : Nat) : Int := if n % 2 ^ 32 < 2 ^ 31 then (n % 2 ^ 32 : Nat) else ((n % 2 ^ 32 : Nat) : Int) - 2 ^ 32

/-- A value of a lane and whether poison reached it. -/
abbrev Lane := Word × Bool

/-- An address word moved by a signed number of bytes; below 0 no byte is meant. -/
def AddrWord.move (w : AddrWord) (off : Int) : AddrWord :=
  let a := (w.addr : Int) + off
  { w with addr := if a < 0 then 2 ^ 48 else a.toNat }

/-- The key of a format word held in a record, in `Flight.vals` (R87). -/
def recKey (off : Nat) : Nat := 512 + 8 * off

/-! ### The records -/

/-- What a vector-engine descriptor of classes 0x20 and 0x21 works from: its records as its start read them. -/
structure VecPlan where
  die     : Nat
  ep      : Nat
  own     : Nat
  cls     : Nat
  bs      : List Byte
  wk      : List Byte
  cm      : Bool
  count   : Nat
  shardIx : Nat
  shardN  : Nat
  vals    : List (Nat × Int)

def progLen (d : Desc) : Nat := dfld d 279 272 + 1

/-- Bytes of the chain or program record (R131, R132). -/
def vecRecLen (d : Desc) : Nat := if dClass d = 0x20 then 256 else 192 + 16 * progLen d

def vecPlan (own : Nat) (f : Flight) : VecPlan :=
  { die := hDie f.target, ep := hSlot f.target, own := own, cls := dClass f.desc, bs := f.recs.take (vecRecLen f.desc),
    wk := f.recs.drop (vecRecLen f.desc), cm := !f.lenSrc, count := dfld f.desc 271 256, shardIx := dShardIx f.desc,
    shardN := dShardN f.desc, vals := f.vals }

/-- Address words: streams S0, S1, S2, D0, D1 are 0 to 4, RV, RI and RS 5 to 7 (R136). -/
def VecPlan.aw (p : VecPlan) (i : Nat) : Nat := recNat p.bs (8 * i) 8
/-- Format words: the streams 0 to 4, fRV 5, fRA 6. -/
def VecPlan.fw (p : VecPlan) (i : Nat) : Nat := recNat p.bs (64 + 4 * i) 4
def VecPlan.tw (p : VecPlan) (i : Nat) : Nat := recNat p.bs (96 + 4 * i) 4
def VecPlan.ctl (p : VecPlan) : Nat := recNat p.bs 128 8
def VecPlan.cf (p : VecPlan) (hi lo : Nat) : Nat := p.ctl / 2 ^ lo % 2 ^ (hi + 1 - lo)

def VecPlan.nst (p : VecPlan) : Nat := p.cf 3 0
def VecPlan.d0Tap (p : VecPlan) : Nat := p.cf 7 4
def VecPlan.d1Tap (p : VecPlan) : Nat := p.cf 11 8
def VecPlan.maskTap (p : VecPlan) : Nat := p.cf 15 12
def VecPlan.maskWr (p : VecPlan) : Bool := p.cf 16 16 == 1
def VecPlan.ruTap (p : VecPlan) : Nat := p.cf 23 20
def VecPlan.ruOp (p : VecPlan) : Nat := p.cf 27 24
def VecPlan.rdim (p : VecPlan) : Nat := p.cf 30 28

def VecPlan.ndim (p : VecPlan) : Nat := if p.cm then 1 else recNat p.wk 15 1 % 8
def VecPlan.ext (p : VecPlan) (d : Nat) : Nat :=
  if p.cm then (if d = 0 then p.count else 1) else recNat p.wk (3 * d) 3

def VecPlan.tb (p : VecPlan) (i : Nat) : Bool := p.tw i / 2 ^ 31 == 1
/-- S0 or D0 is in MXFP4, and stream i is its scale plane (R141). -/
def VecPlan.mx (p : VecPlan) (i : Nat) : Bool := (i == 0 || i == 3) && p.fw i / 2 ^ 28 == 5
def VecPlan.mate (p : VecPlan) (i : Nat) : Bool := (i == 1 && p.mx 0) || (i == 4 && p.mx 3)
def VecPlan.used (p : VecPlan) (i : Nat) : Bool := !p.mate i && (p.aw i != 0 || p.tb i)

def VecPlan.recStride (p : VecPlan) (i d : Nat) : Int :=
  if p.cm then 0 else sgn32 (recNat p.wk (16 + 20 * i + 4 * d) 4)
/-- Strides as the walk uses them: count mode walks elements in order (R138). -/
def VecPlan.stride (p : VecPlan) (i d : Nat) : Int :=
  if p.cm then (if d = 0 then 1 else 0) else p.recStride i d

def VecPlan.fmtw (p : VecPlan) (i : Nat) : FmtWord := fmtWord (p.fw i)
def VecPlan.val (p : VecPlan) (i : Nat) : Int :=
  ((p.vals.find? (fun x => decide (x.1 = recKey (64 + 4 * i)))).map (·.2)).getD (p.fmtw i).val
def VecPlan.opnd (p : VecPlan) (i : Nat) : Opnd := ⟨addrWord (p.aw i), (p.fmtw i).fmt, p.val i⟩

/-- The format words whose scale exponent or E_ref the start reads (R87). -/
def VecPlan.startVals (p : VecPlan) (s : State) : List (Nat × Int) :=
  (List.range 7).map (fun i => (recKey (64 + 4 * i), s.slotVal p.die (p.fmtw i)))

/-! ### The checks of the body (R131-R135) -/

/-- A record of own working memory, aligned to 64 bytes (R133). -/
def recPlace (s : State) (die : Nat) (d : Desc) (lo : Nat) : Option Nat :=
  let w := dAddr d lo
  need lo (w.ok die && w.ownWm s.moduleId die && w.aligned 64)

def vecBodyChecks (s : State) (f : Flight) : List (Option Nat) :=
  let d := f.desc
  let die := hDie f.target
  [if dClass d = 0x20 then resvBits d 511 272 else resvBits d 511 280, recPlace s die d 128,
   if f.lenSrc then recPlace s die d 192 else need 192 (dfld d 255 192 == 0),
   need 256 (!f.lenSrc || dfld d 271 256 == 0)]

/-- The records the start reads: address words with their lengths. -/
def vecReads (f : Flight) : List (AddrWord × Nat) :=
  (dAddr f.desc 128, vecRecLen f.desc) :: (if f.lenSrc then [(dAddr f.desc 192, 128)] else [])

/-! ### The checks of the records (R135-R148, R158) -/

/-- A stream's element size in bytes divides its base; blocks of MXFP4 have none. -/
def elemAligned (w : AddrWord) (f : Fmt) : Bool := w.aligned (max 1 (f.bits / 8))

/-- A tile-buffer stream (R139). The check of count-mode length compares the descriptor's count, and is made apart. -/
def VecPlan.tbOk (p : VecPlan) (i : Nat) : Bool :=
  let t := p.tw i
  p.aw i == 0 && t / 2 ^ 26 % 32 == 0 && t / 2 ^ 8 % 256 == 0 && (p.fmtw i).code == 0 &&
  (List.range 5).all (fun d => p.recStride i d == 0) &&
  (if p.cm then t % 256 == 0
   else p.ext 2 == 1 && p.ext 3 == 1 && p.ext 4 == 1 && decide (t % 256 + p.ext 0 ≤ 256) &&
     decide (t / 2 ^ 16 % 1024 + p.ext 1 ≤ 1024))

def VecPlan.streamOk (p : VecPlan) (i : Nat) : Bool :=
  let src := decide (i < 3)
  let noStride := (List.range 5).all (fun d => p.recStride i d == 0)
  let w := addrWord (p.aw i)
  if p.mate i then p.fw i == 0 && p.tw i == 0 && p.aw i != 0 && noStride && w.ok p.die && (!src || w.ownWm p.own p.die)
  else if !p.used i then p.fw i == 0 && p.tw i == 0 && noStride
  else
    let f := p.fmtw i
    (if src then f.okSrc p.die else f.okDst p.die) &&
    (if p.tb i then p.tbOk i
     else
       p.tw i == 0 && w.ok p.die && (!src || w.ownWm p.own p.die) && elemAligned w f.fmt &&
       (f.code != 5 || (p.mx i && noStride)))

/-- Formats permitted for RV (R158), whether or not RV is in use (R146); without a reduction, every format some reduction permits. -/
def rvFmtOk (ru code : Nat) : Bool :=
  match ru with
  | 0 => code == 0 || code == 1 || code == 6
  | 1 => code == 0 || code == 1 || code == 6
  | 6 => code == 0
  | 7 => code == 0 || code == 1
  | 15 => decide (code ≤ 4) || code == 6
  | _ => decide (code ≤ 4)

def VecPlan.outOk (p : VecPlan) : Bool :=
  let ru := p.ruOp
  let w (i : Nat) := addrWord (p.aw i)
  let on (i : Nat) := p.aw i != 0
  let ra := p.fw 6
  (decide (ru < 8) || ru == 15) && (ru != 15 || (!on 5 && !on 6 && !on 7)) &&
  (ra == 0 || ((ru == 0 || ru == 1 || ru == 7 || ru == 15) && (p.fmtw 6).code == 6 && (p.fmtw 6).okSrc p.die)) &&
  rvFmtOk ru (p.fmtw 5).code && (p.fmtw 5).ok p.die && (!on 5 || (p.fmtw 5).okDst p.die) && ((p.fmtw 5).code != 6 || ra != 0) &&
  (!on 5 || ((w 5).ok p.die && elemAligned (w 5) (p.fmtw 5).fmt)) &&
  (!on 6 || ((w 6).ok p.die && (w 6).aligned 4)) && (!on 7 || (w 7).ok p.die) &&
  (on 5 || !(ru == 0 || ru == 1 || ru == 2 || ru == 3 || ru == 6 || ru == 7)) && (on 6 == (ru == 4 || ru == 5))

/-- Elements of a reduction row. -/
def VecPlan.rowSize (p : VecPlan) : Nat := (List.range (p.rdim + 1)).foldl (fun n d => n * p.ext d) 1

def VecPlan.walkOk (p : VecPlan) : Bool :=
  if p.cm then p.rdim == 0
  else
    recNat p.wk 15 1 / 8 == 0 && decide (1 ≤ p.ndim ∧ p.ndim ≤ 5) && recNat p.wk 116 12 == 0 &&
    (List.range 5).all (fun d => decide (d < p.ndim) ||
      (p.ext d == 1 && (List.range 5).all (fun i => p.recStride i d == 0))) &&
    decide (p.rdim < p.ndim)

/-- What both classes check of the records. -/
def VecPlan.recOk (p : VecPlan) : Bool :=
  recNat p.bs 92 4 == 0 && recNat p.bs 116 12 == 0 && recNat p.bs 136 56 == 0 && p.ctl / 2 ^ 31 == 0 && p.cf 19 17 == 0 &&
  p.walkOk && (List.range 5).all p.streamOk && p.outOk && (p.ruOp == 15 || decide (p.rowSize ≤ 16777216)) &&
  !(p.maskWr && p.mx 3)

/-- Checks that compare a record with a field of the descriptor (R464): shard_n with a tile-buffer stream (R142), and the
count with a tile-buffer stream's rows (R139). -/
def VecPlan.descChecks (p : VecPlan) : List (Option Nat) :=
  let tbs := (List.range 5).filter (fun i => p.used i && p.tb i)
  [need 108 (p.shardN == 1 || tbs.isEmpty || (!p.cm && p.ndim == 2)),
   need 256 (!p.cm || tbs.all (fun i => decide (p.tw i / 2 ^ 16 % 1024 + (p.count + 255) / 256 ≤ 1024)))]

/-! ### Strips (R138, R142) -/

/-- Up to 256 consecutive elements of a line: the indices i1 to i4, the first i0 and the number of elements. `lane0` is the
first lane's offset in the member's line. -/
structure Strip where
  hi    : List Nat
  first : Nat
  n     : Nat
  deriving DecidableEq, Repr

/-- The dimension a shard splits. -/
def VecPlan.outer (p : VecPlan) : Nat := if p.cm then 0 else p.ndim - 1

/-- The indices of the split dimension that fall to this member: first, and up to. -/
def VecPlan.part (p : VecPlan) : Nat × Nat :=
  let e := p.ext p.outer
  if p.outer = 0 ∧ (p.mx 0 ∨ p.mx 3) then
    let (a, b) := shardPart ((e + 31) / 32) p.shardN p.shardIx
    (min e (32 * a), min e (32 * b))
  else shardPart e p.shardN p.shardIx

/-- The indices of one dimension this member walks. -/
def VecPlan.indices (p : VecPlan) (d : Nat) : List Nat :=
  if d = p.outer then (List.range (p.part.2 - p.part.1)).map (· + p.part.1) else List.range (p.ext d)

/-- First element and number of elements of a member's lines. -/
def VecPlan.line (p : VecPlan) : Nat × Nat :=
  if p.outer = 0 then (p.part.1, p.part.2 - p.part.1) else (0, p.ext 0)

/-- The strips of the walk in order. -/
def VecPlan.strips (p : VecPlan) : List Strip :=
  let (f0, n0) := p.line
  let cuts := (List.range ((n0 + 255) / 256)).map (fun t => (f0 + 256 * t, min 256 (n0 - 256 * t)))
  (p.indices 4).flatMap (fun i4 => (p.indices 3).flatMap (fun i3 => (p.indices 2).flatMap (fun i2 =>
    (p.indices 1).flatMap (fun i1 => cuts.map (fun c => ⟨[i1, i2, i3, i4], c.1, c.2⟩)))))

/-- The element index of the unsharded walk over dimensions 0 to d (R142, R161, R294). -/
def VecPlan.elemIx (p : VecPlan) (hi : List Nat) (i0 : Nat) : Nat → Nat
  | 0 => i0
  | d + 1 =>
    let size := (List.range (d + 1)).foldl (fun n k => n * p.ext k) 1
    p.elemIx hi i0 d + hi.getD d 0 * size

/-- The line number of a dense stream, in walk order. -/
def VecPlan.lineNo (p : VecPlan) (hi : List Nat) : Nat :=
  hi.getD 0 0 + p.ext 1 * (hi.getD 1 0 + p.ext 2 * (hi.getD 2 0 + p.ext 3 * hi.getD 3 0))

/-- The row of a reduction (R158, R142). -/
def VecPlan.rowNo (p : VecPlan) (hi : List Nat) : Nat :=
  if p.outer ≤ p.rdim then p.shardIx
  else (List.range (p.outer - p.rdim)).foldl (fun r k =>
    let d := p.outer - k
    r * p.ext d + hi.getD (d - 1) 0) 0

/-- The rows of this member in order: from the first up to, but not including, the second. -/
def VecPlan.rows (p : VecPlan) : Nat × Nat :=
  if p.outer ≤ p.rdim then (p.shardIx, p.shardIx + 1)
  else
    let inner := (List.range (p.outer - p.rdim - 1)).foldl (fun n k => n * p.ext (p.rdim + 1 + k)) 1
    (p.part.1 * inner, p.part.2 * inner)

/-! ### Reading streams -/

/-- Byte offset of element (i0, hi) of a memory stream. -/
def VecPlan.offset (p : VecPlan) (i : Nat) (hi : List Nat) (i0 : Nat) : Int :=
  let size : Nat := (p.fmtw i).fmt.bits / 8
  (p.stride i 0 * i0 + (List.range 4).foldl (fun o d => o + p.stride i (d + 1) * (hi.getD d 0 : Nat)) 0) * size

/-- Tile-buffer row and first lane of a strip. -/
def VecPlan.tbAt (p : VecPlan) (i : Nat) (st : Strip) : Nat × Nat :=
  let row := p.tw i / 2 ^ 16 % 1024
  if p.cm then (row + st.first / 256, st.first % 256) else (row + st.hi.getD 0 0, p.tw i % 256 + st.first)

/-- One element of MXFP4: its byte and its scale code. -/
def Run.readMxElem (r : Run) (el sc : AddrWord) (lineBlocks line i0 : Nat) : Run × Word × Bool :=
  let (r, c, p1) := r.readNat sc (line * lineBlocks + i0 / 32) 1
  let (r, e, p2) := if r.stop then (r, 0, false) else r.readNat el (line * lineBlocks * 16 + i0 / 2) 1
  let (x, n) := readMx c (e / 16 ^ (i0 % 2) % 16)
  (r.addSat n, x, p1 || p2)

def VecPlan.readElem (p : VecPlan) (i : Nat) (hi : List Nat) (r : Run) (i0 : Nat) : Run × Lane :=
  if p.mx i then
    let (r, x, b) := r.readMxElem (addrWord (p.aw i)) (addrWord (p.aw (i + 1))) ((p.ext 0 + 31) / 32) (p.lineNo hi) i0
    (r, x, b)
  else
    let o := p.opnd i
    let (r, xs, b) := r.readElems { o with w := o.w.move (p.offset i hi i0) } 0 1
    (r, xs.headD 0, b)

/-- The elements of a strip of a source stream. -/
def VecPlan.readStrip (p : VecPlan) (i : Nat) (st : Strip) (r : Run) : Run × List Lane :=
  if p.tb i then
    let (row, lane) := p.tbAt i st
    let ws := r.s.tbRow p.die p.ep (row / 256) (row % 256) lane st.n
    let bad := (List.range st.n).map (fun l => r.s.tbBad p.die p.ep (row / 256) (row % 256) (lane + l) 1)
    let r := if bad.any id then r.poisoned (wmBase p.die) else r
    (r, ws.zip bad)
  else
    (List.range st.n).foldl (fun x l =>
      if x.1.stop then x
      else
        let (r, v) := p.readElem i st.hi x.1 (st.first + l)
        (r, x.2 ++ [v])) (r, [])

/-! ### Writing streams -/

/-- Bytes of a destination, each with the mark of what it derives from; a line written with a marked byte is marked (R169). A
chunk that meets a fault is not written, and the chunks after it are: the strip's writes to valid addresses are made. -/
def Run.writeMarks (r : Run) (w : AddrWord) (off : Nat) (bs : List (Byte × Bool)) : Nat → Run
  | 0 => r
  | fuel + 1 =>
    if bs.isEmpty then r
    else
      let k := chunk w off
      let c := bs.take k
      let r' := Run.writeLine { r with stop := false } (w.at r.s.moduleId r.die off) (c.map (·.1)) (c.any (·.2))
      let r' := { r' with stop := r'.stop || r.stop }
      r'.writeMarks w (off + k) (bs.drop k) fuel

/-- Consecutive elements joined into runs of bytes. -/
def joinRuns : List (Int × List (Byte × Bool)) → List (Int × List (Byte × Bool))
  | [] => []
  | x :: xs =>
    match joinRuns xs with
    | [] => [x]
    | y :: ys => if x.1 + x.2.length = y.1 then (x.1, x.2 ++ y.2) :: ys else x :: y :: ys

/-- Write runs of bytes at signed offsets from a base. -/
def Run.writeRuns (r : Run) (w : AddrWord) (xs : List (Int × List (Byte × Bool))) : Run :=
  (joinRuns xs).foldl (fun r x => r.writeMarks (w.move x.1) 0 x.2 (x.2.length / 64 + 2)) r

/-- Whether a byte of an operand can be written, and the fault it meets otherwise; a remote line read for its bytes may have
been answered with one. -/
def Run.refuses (r : Run) (w : AddrWord) (off : Nat) : Option (Miss × Nat) :=
  match w.at r.s.moduleId r.die off with
  | .here a => (r.meets a).map (fun m => (m, a))
  | .nowhere a => some (.addr r.die .address, a)
  | .far m a => match r.flowFor m, r.farLine m (a / 64) with
    | .inr e, _ => some (e, a)
    | .inl _, some l => if l.fault = 0 then none else some (.remote l.fault l.flow l.detail, a)
    | .inl _, none => none

/-- Faults of a strip's writes, one for each line. -/
def Run.missEach (r : Run) : List (Miss × Nat) → Run
  | [] => r
  | x :: xs => (if xs.any (fun y => decide (y.2 / 64 = x.2 / 64)) then r else r.miss x.1 x.2 .write).missEach xs

/-- Write elements at signed byte offsets from an operand's base; only those whose addresses can be written are converted,
counted and gathered (R148, R169). -/
def Run.writeLanes (r : Run) (o : Opnd) (gather : Bool) (xs : List (Int × Lane)) : Run :=
  let k := o.fmt.bits / 8
  let es : List (Int × Lane × Option (Miss × Nat)) := xs.map (fun x => (x.1, x.2, r.refuses (o.w.move x.1) 0))
  let r := r.missEach (es.filterMap (·.2.2))
  let ws := es.filter (fun e => e.2.2.isNone)
  let cs : List (Int × (Nat × Nat) × Bool) := ws.map (fun e => (e.1, writeCode o.fmt o.v e.2.1.1, e.2.1.2))
  let r := r.addSat (cs.map (·.2.1.2)).sum
  let r := if gather then r.maxes (ws.map (·.2.1.1)) else r
  r.writeRuns o.w (cs.map (fun c => (c.1, (leBytes k c.2.1.1).map (fun b => (b, c.2.2)))))

/-- Consecutive elements from byte `off` on, all with one mark. -/
def Run.writeRow (r : Run) (o : Opnd) (gather : Bool) (off : Nat) (xs : List Word) (mark : Bool) : Run :=
  r.writeLanes o gather ((xs.zipIdx).map (fun x => (((off + x.2 * (o.fmt.bits / 8) : Nat) : Int), x.1, mark)))

/-- Write bytes at an unsigned offset, each marked as given; chunks after a faulting one are still written. -/
def Run.writeAll (r : Run) (w : AddrWord) (off : Nat) (bs : List Byte) (mark : Bool) : Run :=
  r.writeMarks w off (bs.map (fun b => (b, mark))) (bs.length / 64 + 2)

/-- The codes of a block packed two to a byte; unused positions hold 0 (R76). -/
def packNibbles (cs : List Nat) : List Byte :=
  (List.range 16).map (fun k => BitVec.ofNat 8 (cs.getD (2 * k) 0 + 16 * cs.getD (2 * k + 1) 0))

/-- What a block of MXFP4 meets first: its elements, which may lie in two lines, then its scale byte. -/
def Run.blockRefuses (r : Run) (el sc : AddrWord) (block : Nat) : Option (Miss × Nat) :=
  (r.refuses el (block * 16)).orElse (fun _ => (r.refuses el (block * 16 + 15)).orElse (fun _ => r.refuses sc block))

/-- The place of an operand's byte lies in another module. -/
def Run.isFar (r : Run) (w : AddrWord) (off : Nat) : Bool :=
  match w.at r.s.moduleId r.die off with
  | .far _ _ => true
  | _ => false

/-- Write one plane of a block after the frames numbered `after`: the write waits until they are acknowledged (R84). -/
def Run.writeAfter (r : Run) (after : List Nat) (w : AddrWord) (off : Nat) (bs : List Byte) (mark : Bool) : Run :=
  match w.at r.s.moduleId r.die off with
  | .here a =>
    let k := 64 - a % 64
    let parts := [(a, bs.take k), (a + k, bs.drop k)].filter (fun p => !p.2.isEmpty)
    let held := parts.filterMap (fun p => (r.holder p.1).map (fun io => (io, p.1 / 64)))
    if !held.isEmpty then { r with ext := r.ext ++ held }
    else { r with guards := r.guards ++ parts.map (fun p => ⟨r.fid, after, none, 0, p.1, p.2, mark⟩)
                  lines := parts.foldl (fun ls p => setInsert ls ((2 ^ 48 * r.s.moduleId + p.1) / 64)) r.lines }
  | _ =>
    let x := r.writeMarks w off (bs.map (fun b => (b, mark))) 2
    let new := x.sends.drop r.sends.length
    { x with sends := r.sends, guards := r.guards ++
      (new.zipIdx).map (fun y => ⟨r.fid, after, some y.1, 1000000 + r.guards.length + y.2, 0, [], false⟩) }

/-- Write the planes of one block: at once where the first lies in this module; otherwise the second follows once the first is
acknowledged (R84). -/
def Run.writePlanes (r : Run) (w : AddrWord) (off : Nat) (bs : List Byte) (w' : AddrWord) (off' : Nat) (bs' : List Byte) (mark : Bool) :
    Run :=
  let x := r.writeMarks w off (bs.map (fun b => (b, mark))) 2
  let after := (List.range (x.sends.length - r.sends.length)).map (· + r.sends.length)
  if after.isEmpty then x.writeMarks w' off' (bs'.map (fun b => (b, mark))) 2 else x.writeAfter after w' off' bs' mark

/-- Write one MXFP4 block: both planes or neither (R84, R141). -/
def Run.writeBlock (r : Run) (el sc : AddrWord) (gather : Bool) (block : Nat) (xs : List Lane) : Run :=
  match r.blockRefuses el sc block with
  | some (m, a) => r.miss m a .write
  | none =>
    let (c, cs, n) := writeMxBlock (xs.map (·.1))
    let mark := xs.any (·.2)
    let r := r.addSat n
    let r := if gather then r.maxes (xs.map (·.1)) else r
    if r.isFar sc block && !r.isFar el (block * 16) then r.writePlanes sc block [BitVec.ofNat 8 c] el (block * 16) (packNibbles cs) mark
    else r.writePlanes el (block * 16) (packNibbles cs) sc block [BitVec.ofNat 8 c] mark

/-- Lanes in groups of 32. -/
def blocksOf : Nat → List (Option Lane) → List (List (Option Lane))
  | 0, _ => []
  | _, [] => []
  | n + 1, xs => xs.take 32 :: blocksOf n (xs.drop 32)

/-- Marked lanes of a tile-buffer row: the row keeps the mark (R128, R169). -/
def State.tbWriteLanes (s : State) (die ep row lane : Nat) (xs : List (Option Lane)) : State :=
  let s := (xs.zipIdx).foldl (fun s x => match x.1 with
    | some v => s.tbWrite die ep (row / 256) (row % 256) (lane + x.2) [canon32 v.1]
    | none => s) s
  if xs.any (fun x => match x with | some v => v.2 | none => false) then s.tbMark die ep (row / 256) (row % 256) 0 255 else s

/-- Write a strip to a destination stream; `none` is a lane not written (R147, R148). A block of MXFP4 with a lane not written
is not written. -/
def VecPlan.writeStrip (p : VecPlan) (i : Nat) (st : Strip) (xs : List (Option Lane)) (r : Run) : Run :=
  let fw := p.fmtw i
  if p.tb i then
    let (row, lane) := p.tbAt i st
    let r := if fw.gather then r.maxes (xs.filterMap (fun (x : Option Lane) => x.map (fun v => v.1))) else r
    { r with s := r.s.tbWriteLanes p.die p.ep row lane xs }
  else if p.mx i then
    let nb := (p.ext 0 + 31) / 32
    ((blocksOf 8 xs).zipIdx).foldl (fun r b =>
      match b.1.mapM id with
      | some vs =>
        let stop := r.stop
        let r := Run.writeBlock { r with stop := false } (addrWord (p.aw i)) (addrWord (p.aw (i + 1))) fw.gather
          (p.lineNo st.hi * nb + st.first / 32 + b.2) vs
        { r with stop := r.stop || stop }
      | none => r) r
  else
    let o := p.opnd i
    r.writeLanes o fw.gather ((xs.zipIdx).filterMap (fun (x : Option Lane × Nat) => x.1.map (fun v =>
      (p.offset i st.hi (st.first + x.2), v))))

end Sys2Proof.Machine
end

