-- ==== Sys2Proof/Machine/Reduce.lean ====
section
/-! DEFINITION. Row states of the soft maximum (R171-R176), the reduction unit (R158-R164) and the generator of RNGU (R152, R294). -/

namespace Sys2Proof.Machine

/-! ### Row states -/

abbrev RowState := Word × Word

def rsEmpty : RowState := (fpInf true, fpZero)
def rsNaN : RowState := (fpNaN, fpNaN)

/-- merge(a, b) with the factors of the payloads; none where a payload is taken unchanged or is NaN (R174). -/
inductive Payload where
  | nan
  | first
  | second
  | mix (ea eb : Word)
  deriving DecidableEq, Repr

def rsMerge (a b : RowState) : RowState × Payload :=
  if fpIsNaN a.1 || fpIsNaN b.1 then (rsNaN, .nan)
  else if fpIsZero a.2 then (b, .second)
  else if fpIsZero b.2 then (a, .first)
  else
    let big := fpMaximum a.1 b.1
    if big = fpInf false then
      let ea := fpBool (a.1 == fpInf false)
      let eb := fpBool (b.1 == fpInf false)
      ((big, fpAdd (fpMul a.2 ea) (fpMul b.2 eb)), .mix ea eb)
    else
      let ea := fpExp (fpSub a.1 big)
      let eb := fpExp (fpSub b.1 big)
      ((big, fpFma b.2 eb (fpMul a.2 ea)), .mix ea eb)

/-- One element of the payloads of a merge (R174). -/
def Payload.apply (p : Payload) (oa ob : Word) : Word :=
  match p with
  | .nan => fpNaN
  | .first => oa
  | .second => ob
  | .mix ea eb => fpFma ob eb (fpMul oa ea)

/-- An entry joins a lane's state; an entry of -infinity is not active (R172). -/
def rsPush (a : RowState) (x : Word) : RowState :=
  if x = fpInf true then a else if fpIsNaN x then rsNaN else (rsMerge a (x, fpOne)).1

/-- A state read from memory (R173). -/
def rsNormal (a : RowState) : RowState :=
  if fpIsNaN a.1 || fpIsNaN a.2 then rsNaN
  else if a.1 = fpInf true || fpIsZero a.2 || fpNeg a.2 then rsEmpty
  else a

/-- The log-sum-exp (R176). -/
def rsLse (a : RowState) : Word :=
  if fpIsNaN a.1 then fpNaN
  else if fpIsZero a.2 then fpInf true
  else if a.1 = fpInf false then fpInf false
  else fpAdd a.1 (fpLog a.2)

/-- The tree over 256 lanes: h = 128, 64, ..., 1 (R159, R175). -/
def laneTree {α : Type} (f : α → α → α) (xs : List α) : List α :=
  [128, 64, 32, 16, 8, 4, 2, 1].foldl (fun xs h => List.zipWith f (xs.take h) (xs.drop h)) xs

/-! ### Philox4x32-10 (R294) -/

def mulHi (a b : Word) : Word := BitVec.ofNat 32 (a.toNat * b.toNat / 2 ^ 32)

/-- One round on the counter words, and the next key. -/
def philoxRounds (k0 k1 x0 x1 x2 x3 : Word) : Nat → List Word
  | 0 => [x0, x1, x2, x3]
  | n + 1 =>
    philoxRounds (k0 + 0x9E3779B9#32) (k1 + 0xBB67AE85#32)
      (mulHi 0xCD9E8D57#32 x2 ^^^ x1 ^^^ k0) (0xCD9E8D57#32 * x2)
      (mulHi 0xD2511F53#32 x0 ^^^ x3 ^^^ k1) (0xD2511F53#32 * x0) n

/-- The uniform value of element e for a seed, a stream, a step and a tensor (R152, R294). -/
def rngu (seed stream : Word) (step : BitVec 48) (tensor e : Nat) : Word :=
  let e := e % 2 ^ 64
  let q := e / 4
  let y := philoxRounds seed stream (BitVec.ofNat 32 q) (BitVec.ofNat 32 (q / 2 ^ 32)) (BitVec.ofNat 32 step.toNat)
    (BitVec.ofNat 32 (step.toNat / 2 ^ 32 + 65536 * (tensor % 65536))) 10
  fpRound (.fin false ((y.getD (e % 4) 0).toNat / 256) (-24))

/-! ### Reduction rows (R158-R164) -/

structure RowAcc where
  n      : Nat
  lanes  : List Word
  states : List RowState
  g      : GSum
  gsat   : Nat
  best   : Option (Word × Nat)
  nanIx  : Option Nat
  poison : Bool
  deriving DecidableEq, Repr

def RowAcc.empty : RowAcc :=
  { n := 0, lanes := List.replicate 256 fpZero, states := List.replicate 256 rsEmpty, g := GSum.zero, gsat := 0, best := none,
    nanIx := none, poison := false }

/-- x beats the extreme held: the larger for MAX and ARGMAX, the smaller for MIN and ARGMIN, -0 below +0 (R161). -/
def beats (ru : Nat) (x y : Word) : Bool :=
  if ru = 2 ∨ ru = 4 then decide (fpOrd y < fpOrd x) else decide (fpOrd x < fpOrd y)

/-- An element of the row, active or not, that poison reached (R169). -/
def RowAcc.taint (a : RowAcc) (bad : Bool) : RowAcc := { a with poison := a.poison || bad }

/-- One active element, of lane l and index e. -/
def RowAcc.push (a : RowAcc) (ru : Nat) (g64 : Option Int) (l e : Nat) (v : Lane) : RowAcc :=
  let x := v.1
  let a := { a with n := a.n + 1, poison := a.poison || v.2 }
  if ru = 0 ∨ ru = 1 ∨ ru = 7 then
    match g64 with
    | some eref =>
      let (q, n) := gAddend eref (if ru = 1 then fpMul x x else x)
      { a with g := a.g.add q, gsat := a.gsat + n }
    | none =>
      let p := a.lanes.getD l fpZero
      { a with lanes := a.lanes.set l (if ru = 1 then fpFma x x p else fpAdd p x) }
  else if ru = 6 then { a with states := a.states.set l (rsPush (a.states.getD l rsEmpty) x) }
  else if fpIsNaN x then { a with nanIx := a.nanIx.orElse (fun _ => some e) }
  else match a.best with
    | none => { a with best := some (x, e) }
    | some (y, _) => if beats ru x y then { a with best := some (x, e) } else a

/-- A row's result in RV: the bytes, the values its conversion took, whether it is NaN, and the saturations. -/
structure RowOut where
  bytes : List Byte
  conv  : List Word
  nan   : Bool
  sat   : Nat

/-- The words of a state in memory (R171). -/
def rsBytes (a : RowState) : List Byte := leBytes 4 (canon32 a.1).toNat ++ leBytes 4 (canon32 a.2).toNat

def convOut (o : Opnd) (x : FVal) (word : Word) : RowOut :=
  let (c, n) := writeVal o.fmt o.v x
  ⟨leBytes (o.fmt.bits / 8) c, [word], decide (x = .nan), n⟩

/-- A sum with G64 accumulation (R160). -/
def RowAcc.outG (a : RowAcc) (o : Opnd) (ru : Nat) (eref : Int) : RowOut :=
  let (w, n) := a.g.word
  let n := n + a.gsat
  if o.fmt = .g64 then ⟨leBytes 8 w.toNat, [], decide (w = gnanCode), n⟩
  else
    let x : FVal :=
      if ru = 7 then
        (if w = gnanCode then .nan else quotVal (decide (w.toInt < 0)) w.toInt.natAbs a.n (eref - 46))
      else gVal eref w
    let out := convOut o x (satFP32 x).1
    { out with sat := out.sat + n }

/-- A sum with FP32 accumulation (R159, R162). -/
def RowAcc.out32 (a : RowAcc) (o : Opnd) (ru : Nat) : RowOut :=
  let t := (laneTree fpAdd a.lanes).headD fpZero
  if ru = 7 then
    match fpVal t with
    | .fin neg m e => let x := quotVal neg m a.n e; convOut o x (satFP32 x).1
    | y => convOut o y t
  else convOut o (fpVal t) t

/-- An extreme (R161). -/
def RowAcc.outExt (a : RowAcc) (o : Opnd) : RowOut :=
  let x := if a.nanIx.isSome then fpNaN else (a.best.map (·.1)).getD fpNaN
  convOut o (fpVal x) x

/-- The result of a row with no active element (R163). -/
def emptyRow (o : Opnd) (ru : Nat) : List Byte :=
  if ru = 6 then rsBytes rsEmpty
  else if ru = 2 ∨ ru = 4 then leBytes (o.fmt.bits / 8) (writeVal o.fmt o.v (.inf true)).1
  else if ru = 3 ∨ ru = 5 then leBytes (o.fmt.bits / 8) (writeVal o.fmt o.v (.inf false)).1
  else leBytes (o.fmt.bits / 8) 0

def RowAcc.out (a : RowAcc) (o : Opnd) (ru : Nat) (g64 : Option Int) : RowOut :=
  if ru = 6 then
    let t := (laneTree (fun x y => (rsMerge x y).1) a.states).headD rsEmpty
    ⟨rsBytes t, [t.1, t.2], fpIsNaN t.1, 0⟩
  else if a.n = 0 then ⟨emptyRow o ru, [], false, 0⟩
  else if ru = 0 ∨ ru = 1 ∨ ru = 7 then
    match g64 with
    | some eref => a.outG o ru eref
    | none => a.out32 o ru
  else a.outExt o

/-- The index of an extreme (R161, R163). -/
def RowAcc.index (a : RowAcc) : Nat :=
  match a.nanIx, a.best with
  | some e, _ => e
  | none, some (_, e) => e
  | none, none => 0xFFFFFFFF

def VecPlan.g64 (p : VecPlan) : Option Int := if p.fw 6 = 0 then none else some (p.val 6)

/-- Write RV, RI and RS of a row (R158, R164). -/
def VecPlan.writeRow (p : VecPlan) (a : RowAcc) (row : Nat) (r : Run) : Run :=
  let o := p.opnd 5
  let ru := p.ruOp
  let q := a.out o ru p.g64
  let conv := if a.n = 0 then [] else q.conv
  let r := r.addSat q.sat
  let r := if p.aw 5 ≠ 0 then
      let r := if (p.fmtw 5).gather then r.maxes conv else r
      r.writeAll o.w (row * (if ru = 6 then 8 else o.fmt.bits / 8)) q.bytes a.poison
    else r
  let r := if p.aw 6 ≠ 0 then r.writeAll (addrWord (p.aw 6)) (4 * row) (leBytes 4 a.index) a.poison else r
  if p.aw 7 ≠ 0 then
    let rs := (if a.n = 0 then 1 else 0) + (if q.nan then 2 else 0) + (if q.sat = 0 then 0 else 4)
    r.writeAll (addrWord (p.aw 7)) row [BitVec.ofNat 8 rs] a.poison
  else r

end Sys2Proof.Machine
end

