-- ==== Sys2Proof/Machine/Vector.lean ====
section
/-! DEFINITION. The vector engine: fused chains (R143-R148), fallback programs (R153-R155), the lane operations (R149-R152), and
the fault step (R169). -/

namespace Sys2Proof.Machine

/-! ### Lane operations (R149-R151) -/

/-- Operands an operation uses and its cost per strip; none when the code is undefined or not one of both paths. -/
def vopUse (op : Nat) : Option (Nat × Nat) :=
  match op with
  | 0x00 => some (1, 1) | 0x01 => some (2, 1) | 0x02 => some (2, 1) | 0x03 => some (2, 1) | 0x04 => some (3, 1)
  | 0x05 => some (2, 1) | 0x06 => some (2, 1) | 0x07 => some (1, 1) | 0x08 => some (1, 1) | 0x09 => some (3, 1)
  | 0x0A => some (1, 1) | 0x0B => some (1, 1) | 0x0C => some (1, 1) | 0x0D => some (2, 1) | 0x0E => some (2, 1)
  | 0x0F => some (2, 1) | 0x10 => some (3, 1) | 0x11 => some (2, 1) | 0x12 => some (1, 1) | 0x13 => some (0, 1)
  | 0x14 => some (0, 1)
  | 0x20 => some (1, 4) | 0x21 => some (1, 4) | 0x22 => some (1, 4) | 0x23 => some (1, 4) | 0x24 => some (1, 4)
  | 0x25 => some (1, 4) | 0x26 => some (1, 4) | 0x27 => some (1, 4) | 0x28 => some (1, 4)
  | 0x30 => some (0, 2)
  | _ => none

/-- |a| with the sign of b. -/
def fpCopysign (a b : Word) : Word := if fpNeg b then fpAbs a ||| 0x80000000#32 else fpAbs a

def fpFinite (a : Word) : Bool := decide (fpMag a < 0x7F800000)

/-- The result of an operation but for the generator, at element index (i0, i1). -/
def vopVal (op : Nat) (a b c imm : Word) (i0 i1 : Nat) : Word :=
  canonNaN (match op with
  | 0x00 => a
  | 0x01 => fpAdd a b
  | 0x02 => fpSub a b
  | 0x03 => fpMul a b
  | 0x04 => fpFma a b c
  | 0x05 => fpMaximum a b
  | 0x06 => fpMinimum a b
  | 0x07 => fpAbs a
  | 0x08 => fpFlip a
  | 0x09 => fpMinimum (fpMaximum a b) c
  | 0x0A => fpLdexp a imm.toInt
  | 0x0B => fpRint a
  | 0x0C => fpFloor a
  | 0x0D => fpBool (fpLt a b)
  | 0x0E => fpBool (fpLe a b)
  | 0x0F => fpBool (fpEq a b)
  | 0x10 => if fpTrue a then b else c
  | 0x11 => fpCopysign a b
  | 0x12 => fpBool (fpFinite a)
  | 0x13 => fpOfInt (i0 + imm.toInt)
  | 0x14 => fpOfInt (i1 + imm.toInt)
  | 0x20 => fpExp a
  | 0x21 => fpExp2 a
  | 0x22 => fpLog a
  | 0x23 => fpLog2 a
  | 0x24 => fpRecip a
  | 0x25 => fpRsqrt a
  | 0x26 => fpSqrt a
  | 0x27 => fpTanh a
  | 0x28 => fpSigmoid a
  | _ => fpZero)

/-- What the lanes of a descriptor know besides their operands: the seed, stream and step of the generator. -/
structure GenKey where
  seed   : Word
  stream : Word
  step   : BitVec 48

/-- One lane: the value, poisoned when an operand it uses is. -/
def VecPlan.lane (p : VecPlan) (key : GenKey) (op : Nat) (imm : Word) (hi : List Nat) (i0 : Nat) (a b c : Lane) : Lane :=
  let used := ((vopUse op).map (·.1)).getD 0
  let bad := (decide (0 < used) && a.2) || (decide (1 < used) && b.2) || (decide (2 < used) && c.2)
  if op = 0x30 then
    (rngu key.seed key.stream key.step (imm.toNat % 65536) (p.elemIx hi i0 (if p.cm then 0 else p.ndim - 1)), false)
  else (vopVal op a.1 b.1 c.1 imm i0 (if p.cm then 0 else hi.getD 0 0), bad)

/-! ### Stage words (R143, R144, R146) -/

structure Stage where
  imm  : Word
  op   : Nat
  sa   : Nat
  sb   : Nat
  sc   : Nat
  save : Bool
  resv : Nat
  deriving DecidableEq, Repr

def stageWord (w : Nat) : Stage :=
  ⟨BitVec.ofNat 32 (w / 2 ^ 32), w / 2 ^ 24 % 256, w / 2 ^ 21 % 8, w / 2 ^ 18 % 8, w / 2 ^ 15 % 8, w / 2 ^ 14 % 2 == 1, w % 2 ^ 14⟩

def VecPlan.stageNat (p : VecPlan) (i : Nat) : Nat := recNat p.bs (192 + 8 * i) 8
def VecPlan.stages (p : VecPlan) : List Stage := (List.range p.nst).map (fun i => stageWord (p.stageNat i))

/-- A select of stage i of an operand the op uses; `saved` says an earlier stage saves to H. -/
def VecPlan.selOk (p : VecPlan) (i : Nat) (saved : Bool) (sel : Nat) : Bool :=
  match sel with
  | 0 => i != 0 || p.used 0
  | 1 => p.used 0
  | 2 => p.used 1
  | 3 => p.used 2
  | 4 => true
  | 5 => saved
  | _ => false

/-- The immediate an operation permits (R146, R152). -/
def immOk (op : Nat) (imm : Word) : Bool :=
  if op = 0x0A then decide (-300 ≤ imm.toInt ∧ imm.toInt ≤ 300) else if op = 0x30 then decide (imm.toNat < 65536) else true

def VecPlan.stageOk (p : VecPlan) (i : Nat) (saved : Bool) (g : Stage) : Bool :=
  match vopUse g.op with
  | none => false
  | some (n, _) =>
    g.resv == 0 && immOk g.op g.imm &&
    (if 0 < n then p.selOk i saved g.sa else g.sa == 0) && (if 1 < n then p.selOk i saved g.sb else g.sb == 0) &&
    (if 2 < n then p.selOk i saved g.sc else g.sc == 0)

def VecPlan.tapOk (p : VecPlan) (t : Nat) : Bool := t == 15 || decide (t < p.nst)

def VecPlan.chainOk (p : VecPlan) : Bool :=
  decide (1 ≤ p.nst ∧ p.nst ≤ 8) && (List.range 8).all (fun i => decide (i < p.nst) || p.stageNat i == 0) &&
  (p.stages.zipIdx).all (fun x => p.stageOk x.2 ((p.stages.take x.2).any (·.save)) x.1) &&
  p.tapOk p.d0Tap && p.tapOk p.d1Tap && p.tapOk p.maskTap && p.tapOk p.ruTap &&
  (p.used 3 == (p.d0Tap != 15)) && (p.used 4 == (p.d1Tap != 15)) && ((p.ruOp == 15) == (p.ruTap == 15))

/-! ### Instructions (R153-R155) -/

structure VInstr where
  imm  : Word
  op   : Nat
  vd   : Nat
  va   : Nat
  vb   : Nat
  vc   : Nat
  resv : Nat
  deriving DecidableEq, Repr

def vinstr (w : Nat) : VInstr :=
  ⟨BitVec.ofNat 32 (w / 2 ^ 96), w / 2 ^ 88 % 256, w / 2 ^ 83 % 32, w / 2 ^ 78 % 32, w / 2 ^ 73 % 32, w / 2 ^ 68 % 32,
   w % 2 ^ 68⟩

def VecPlan.prog (p : VecPlan) : List VInstr :=
  (List.range ((p.bs.length - 192) / 16)).map (fun i => vinstr (recNat p.bs (192 + 16 * i) 16))

/-- Whether an instruction uses vd, va, vb and vc. -/
def VInstr.uses (v : VInstr) : Option (Bool × Bool × Bool × Bool) :=
  match v.op with
  | 0x40 => some (true, false, false, false)
  | 0x41 => some (false, true, bit v.imm 3, false)
  | 0x42 => some (true, false, false, false)
  | 0x43 => some (true, true, true, false)
  | 0x44 => some (true, true, true, false)
  | 0x45 => some (true, true, true, false)
  | 0x46 => some (false, true, bit v.imm 0, false)
  | op => (vopUse op).map (fun u => (true, decide (0 < u.1), decide (1 < u.1), decide (2 < u.1)))

def VecPlan.instrOk (p : VecPlan) (v : VInstr) : Bool :=
  match v.uses with
  | none => false
  | some (d, a, b, c) =>
    let i := v.imm.toNat
    v.resv == 0 && (d || v.vd == 0) && (a || v.va == 0) && (b || v.vb == 0) && (c || v.vc == 0) &&
    (match v.op with
     | 0x40 => decide (i < 3) && p.used i
     | 0x41 => decide (i < 16) && (i % 8 == 3 || i % 8 == 4) && p.used (i % 8)
     | 0x42 => true
     | 0x43 => decide (i < 256)
     | 0x44 => true
     | 0x45 => true
     | 0x46 => decide (i < 2)
     | op => immOk op v.imm)

def VecPlan.progOk (p : VecPlan) : Bool :=
  p.nst == 0 && p.prog.all p.instrOk && p.d0Tap == 15 && p.d1Tap == 15 && p.maskTap == 15 && p.ruTap == 15 && !p.maskWr &&
  ((p.prog.filter (fun v => v.op == 0x46)).length == (if p.ruOp = 15 then 0 else 1))

/-- The records of a descriptor are in order (R146, R155). -/
def VecPlan.ok (p : VecPlan) : Bool := p.recOk && (if p.cls = 0x20 then p.chainOk else p.progOk)

/-! ### One strip -/

/-- What a strip leaves: writes of destination strips in order, the values the reduction unit takes, whether poison reached
each of its elements, active or not, the registers, the errors of register lanes not read yet, and those that a read has met (R128). -/
structure StripOut where
  writes : List (Nat × List (Option Lane))
  ru     : List (Option Lane)
  bad    : List Bool
  regs   : List (List Lane)
  errs   : List LaneEcc
  met    : List LaneEcc

/-- The lanes of a register with an uncorrectable error read as poisoned (R128). -/
def spoilLanes (errs : List LaneEcc) (ls : List Lane) : List Lane :=
  errs.foldl (fun ls e => if e.ecc = .uncorrectable then ls.set e.lane ((ls.getD e.lane (fpZero, false)).1, true) else ls) ls

/-- A stage reads H. -/
def Stage.readsH (g : Stage) : Bool := g.sa == 5 || g.sb == 5 || g.sc == 5

/-- The lanes of a strip through the stages (R143, R144, R147). `src` are the strips of S0 to S2; `h` is H, whose lanes beyond a short
strip keep what an earlier strip saved. -/
def VecPlan.chainStrip (p : VecPlan) (key : GenKey) (st : Strip) (src : List (List Lane)) (h : List Lane) (errs : List LaneEcc) :
    StripOut :=
  let z : Lane := (fpZero, false)
  let lanes := List.range st.n
  let (res, h, met) := (p.stages.zipIdx).foldl (fun (y : List (List Lane) × List Lane × Bool) g =>
    let meets := g.1.readsH && !y.2.2
    let x : List (List Lane) × List Lane := (y.1, if meets then spoilLanes errs y.2.1 else y.2.1)
    let prev := if g.2 = 0 then src.getD 0 [] else (x.1.getLast?).getD []
    let pick (sel l : Nat) : Lane :=
      match sel with
      | 0 => prev.getD l z
      | 1 => (src.getD 0 []).getD l z
      | 2 => (src.getD 1 []).getD l z
      | 3 => (src.getD 2 []).getD l z
      | 4 => (g.1.imm, false)
      | _ => x.2.getD l z
    let out := lanes.map (fun l => p.lane key g.1.op g.1.imm st.hi (st.first + l) (pick g.1.sa l) (pick g.1.sb l) (pick g.1.sc l))
    (x.1 ++ [out], if g.1.save then out ++ x.2.drop st.n else x.2, y.2.2 || meets)) ([], h, false)
  let tap (t : Nat) : List Lane := res.getD t []
  let active := lanes.map (fun l => p.maskTap == 15 || fpTrue ((tap p.maskTap).getD l z).1)
  let maskBad := lanes.map (fun l => p.maskTap != 15 && ((tap p.maskTap).getD l z).2)
  let dst (t : Nat) : List (Option Lane) :=
    ((tap t).zip (active.zip maskBad)).map (fun x =>
      if p.maskWr && !x.2.1 then none else some (x.1.1, x.1.2 || (p.maskWr && x.2.2)))
  { writes := (if p.d0Tap = 15 then [] else [(3, dst p.d0Tap)]) ++ (if p.d1Tap = 15 then [] else [(4, dst p.d1Tap)])
    ru := if p.ruTap = 15 then [] else ((tap p.ruTap).zip active).map (fun x => if x.2 then some x.1 else none)
    bad := if p.ruTap = 15 then [] else ((tap p.ruTap).zip maskBad).map (fun x => x.1.2 || x.2)
    regs := [h]
    errs := []
    met := if met then errs else [] }

/-- vd[l] for SCAN: a running sum from vb[255], each sum rounded to FP32. -/
def scanLanes : Lane → List Lane → List Lane
  | _, [] => []
  | acc, x :: xs =>
    let y : Lane := (fpAdd acc.1 x.1, acc.2 || x.2)
    y :: scanLanes y xs

/-- The integer 0 to 255 a lane holds (PERM). -/
def laneIndex (x : Word) : Option Nat :=
  ((List.range 256).find? (fun n => fpEq x (fpOfNat n)))

/-- One instruction on the registers of a strip (R153, R154). -/
def VecPlan.instr (p : VecPlan) (key : GenKey) (st : Strip) (src : List (List Lane)) (x : StripOut) (v : VInstr) : StripOut :=
  let z : Lane := (fpZero, false)
  let row (k : Nat) : List Lane := x.regs.getD k []
  let a := row v.va
  let b := row v.vb
  let set (ls : List Lane) : StripOut := { x with regs := x.regs.set v.vd ls }
  let all := List.range 256
  match v.op with
  | 0x40 => set (all.map (fun l => if l < st.n then (src.getD v.imm.toNat []).getD l z else z))
  | 0x41 =>
    let ls := (List.range st.n).map (fun l =>
      if bit v.imm 3 then
        (if fpTrue (b.getD l z).1 then some ((a.getD l z).1, (a.getD l z).2 || (b.getD l z).2) else none)
      else some (a.getD l z))
    { x with writes := x.writes ++ [(v.imm.toNat % 8, ls)] }
  | 0x42 => set (all.map (fun _ => (v.imm, false)))
  | 0x43 => set (all.map (fun l => if l + v.imm.toNat < 256 then a.getD (l + v.imm.toNat) z else b.getD (l + v.imm.toNat - 256) z))
  | 0x44 => set (all.map (fun l =>
      match laneIndex (b.getD l z).1 with
      | some q => ((a.getD q z).1, (a.getD q z).2 || (b.getD l z).2)
      | none => (fpZero, (b.getD l z).2)))
  | 0x45 => set (scanLanes (b.getD 255 z) a)
  | 0x46 =>
    { x with ru := (List.range st.n).map (fun l =>
        if bit v.imm 0 && !fpTrue (b.getD l z).1 then none else some (a.getD l z))
             bad := (List.range st.n).map (fun l => (a.getD l z).2 || (bit v.imm 0 && (b.getD l z).2)) }
  | op => set (all.map (fun l => p.lane key op v.imm st.hi (st.first + l) (a.getD l z) (b.getD l z) ((row v.vc).getD l z)))

/-- An instruction reads a V register. -/
def VInstr.readsReg (v : VInstr) (k : Nat) : Bool :=
  match v.uses with
  | some (_, a, b, c) => (a && v.va == k) || (b && v.vb == k) || (c && v.vc == k)
  | none => false

/-- Before an instruction runs, the errors of the registers it reads are met. -/
def StripOut.meetErrs (x : StripOut) (v : VInstr) : StripOut :=
  let now := x.errs.filter (fun e => v.readsReg (e.row - 1024))
  { x with regs := now.foldl (fun rs e => rs.set (e.row - 1024) (spoilLanes [e] (rs.getD (e.row - 1024) []))) x.regs
           errs := x.errs.filter (fun e => !v.readsReg (e.row - 1024)), met := x.met ++ now }

def VecPlan.progStrip (p : VecPlan) (key : GenKey) (st : Strip) (src : List (List Lane)) (regs : List (List Lane))
    (errs : List LaneEcc) : StripOut :=
  p.prog.foldl (fun x v => p.instr key st src (x.meetErrs v) v)
    { writes := [], ru := [], bad := [], regs := regs, errs := errs, met := [] }

/-- The lanes' cost of a strip (R156). -/
def VecPlan.cost (p : VecPlan) : Nat :=
  let c := if p.cls = 0x20 then (p.stages.map (fun g => ((vopUse g.op).map (·.2)).getD 0)).sum
    else (p.prog.map (fun v => match v.op with
      | 0x44 => 2
      | 0x45 => 8
      | op => if 0x40 ≤ op then 1 else ((vopUse op).map (·.2)).getD 0)).sum
  c + (if p.ruOp = 6 then 4 else 0)

/-! ### The walk -/

/-- The run of a walk: `seen` a write has met a fault, `halt` no strip enters any more, `left` the strips that enter still after a
fault, `full` some row had an active element. -/
structure VecRun where
  r    : Run
  seen : Bool
  halt : Bool
  left : Option Nat
  acc  : RowAcc
  full : Bool
  regs : List (List Lane)

/-- The engine has met a fault: how many further strips enter before it learns of it is open (R169). -/
def VecRun.noteFault (x : VecRun) : VecRun :=
  if x.r.stop then
    let r := { x.r with stop := false }
    match x.left with
    | some _ => { x with r := r, seen := true }
    | none =>
      let (n, s) := r.s.freeCount
      { x with r := { r with s := s }, seen := true, left := some n }
  else x

/-- The source streams a strip reads: all in use for a chain, those an LD names for a program. -/
def VecPlan.reads (p : VecPlan) (i : Nat) : Bool :=
  p.used i && (p.cls == 0x20 || p.prog.any (fun v => v.op == 0x40 && v.imm.toNat == i))

/-- The strip reads the lane of a tile-buffer row, by a source stream. -/
def VecPlan.readsLane (p : VecPlan) (st : Strip) (e : LaneEcc) : Bool :=
  decide (e.row < 1024) && (List.range 3).any (fun i => p.reads i && p.tb i && (p.tbAt i st).1 == e.row &&
    decide ((p.tbAt i st).2 ≤ e.lane ∧ e.lane < (p.tbAt i st).2 + st.n))

/-- An error the strip finds in a tile-buffer lane it reads (R128). -/
def VecPlan.laneError (p : VecPlan) (x : VecRun) (e : LaneEcc) : VecRun :=
  { x with r := { x.r with s := x.r.s.tbError p.die p.ep x.r.fid e } }

/-- The errors a strip finds in tile buffers, before its lanes run. -/
def VecPlan.laneErrors (p : VecPlan) (errs : List LaneEcc) (ix : Nat) (st : Strip) (x : VecRun) : VecRun :=
  (errs.filter (fun e => e.strip == ix && p.readsLane st e)).foldl p.laneError x

/-- The errors a strip can find in lanes of V0-V31 (a program) or of H (a chain). -/
def VecPlan.regErrs (p : VecPlan) (errs : List LaneEcc) (ix : Nat) (st : Strip) : List LaneEcc :=
  errs.filter (fun e => e.strip == ix && (if p.cls = 0x20 then e.row == 1056 && decide (e.lane < st.n)
    else decide (1024 ≤ e.row ∧ e.row < 1056 ∧ e.lane < 256)))

/-- One strip, and the row it ends. -/
def VecPlan.strip (p : VecPlan) (key : GenKey) (errs : List LaneEcc) (x : VecRun) (st : (Strip × Bool) × Nat) : VecRun :=
  if x.halt || x.left == some 0 then { x with halt := true }
  else
    let ((st, last), ix) := st
    let x := p.laneErrors errs ix st x
    let left := if x.seen then x.left.map (· - 1) else x.left
    let (r, src) := (List.range 3).foldl (fun (y : Run × List (List Lane)) i =>
      if p.reads i then
        let (r, ls) := if y.1.stop then (y.1, []) else p.readStrip i st y.1
        (r, y.2 ++ [ls])
      else (y.1, y.2 ++ [[]])) (x.r, [])
    if r.stop then { x with r := { r with stop := false }, seen := true, halt := true }
    else
      let bad := p.regErrs errs ix st
      let o := if p.cls = 0x20 then p.chainStrip key st src (x.regs.getD 0 []) bad else p.progStrip key st src x.regs bad
      let r := o.met.foldl (Run.laneMet p.ep) r
      let x := { x with r := r, regs := o.regs, left := left }
      let x := { x with r := o.writes.foldl (fun (r : Run) (w : Nat × List (Option Lane)) => p.writeStrip w.1 st w.2 r) x.r }.noteFault
      if p.ruOp = 15 then x
      else
        let lane0 := st.first - p.line.1
        let rdim := if p.cm then 0 else p.rdim
        let acc := (o.ru.zipIdx).foldl (fun (a : RowAcc) v => match v.1 with
          | some w => a.push p.ruOp p.g64 ((lane0 + v.2) % 256) (p.elemIx st.hi (st.first + v.2) rdim) w
          | none => a) (x.acc.taint (o.bad.any id))
        if last then
          { x with r := p.writeRow acc (p.rowNo st.hi) x.r, acc := RowAcc.empty, full := x.full || decide (acc.n ≠ 0) }.noteFault
        else { x with acc := acc }

/-- Strips, each with whether it ends its reduction row. -/
def VecPlan.marked (p : VecPlan) : List Strip → List (Strip × Bool)
  | [] => []
  | [st] => [(st, true)]
  | st :: st' :: sts => (st, p.rowNo st.hi != p.rowNo st'.hi) :: p.marked (st' :: sts)

/-- The V registers and H as the descriptor leaves them (R153, R165). -/
def State.putRegs (s : State) (die ep first : Nat) (regs : List (List Lane)) : State :=
  (regs.zipIdx).foldl (fun s x =>
    let s := s.vrWrite die ep (first + x.2) (x.1.map (·.1))
    (x.1.zipIdx).foldl (fun s v =>
      let k := vrKey die ep (first + x.2) v.2
      { s with vrMarks := if v.1.2 then setInsert s.vrMarks k else setErase s.vrMarks k }) s) s

/-- The whole descriptor. -/
def VecPlan.run (p : VecPlan) (key : GenKey) (errs : List LaneEcc) (r : Run) : Run × Nat :=
  let sts := p.marked p.strips
  let zeros : List (List Lane) := List.replicate 32 (List.replicate 256 (fpZero, false))
  let r := if p.cls = 0x20 then r else { r with s := r.s.vrClear p.die p.ep }
  let x : VecRun :=
    { r := r, seen := false, halt := false, left := none, acc := RowAcc.empty, full := false,
      regs := if p.cls = 0x20 then [[]] else zeros }
  let x := sts.zipIdx.foldl (p.strip key errs) x
  let x := if sts.isEmpty && p.ruOp != 15 then
      { x with r := (List.range (p.rows.2 - p.rows.1)).foldl (fun r k => p.writeRow RowAcc.empty (p.rows.1 + k) r) x.r }.noteFault
    else x
  let r := { x.r with stop := x.seen }
  let r := if sts.isEmpty || (p.ruOp != 15 && !x.full) then r.raise stEmpty 0 else r
  let r := { r with s := (r.s.putRegs p.die p.ep (if p.cls = 0x20 then 32 else 0) x.regs).vePoisonBit p.die p.ep }
  let e := if (List.range 3).any (fun i => p.used i && !p.tb i) then 12 else 2
  (r, e + sts.length * p.cost + (if p.ruOp = 15 then 3 else 11))

def VecPlan.gathers (p : VecPlan) (r : Run) : Run :=
  let r := if p.used 3 then r.gatherInto (p.fmtw 3) else r
  let r := if p.used 4 then r.gatherInto (p.fmtw 4) else r
  if p.aw 5 ≠ 0 then r.gatherInto (p.fmtw 5) else r

/-- A descriptor that runs on the vector engine of an engine pair (R130, R178, R217, R270). -/
def vecUser (die ep : Nat) (g : Flight) : Bool :=
  g.executing && !hGang g.target && hDie g.target == die && hSlot g.target == ep && !matClass (dClass g.desc) && dClass g.desc != 0

def State.veBusy (s : State) (die ep : Nat) : State := s.setFlag (Reg.veStatus die ep) 8 (s.flights.any (vecUser die ep))

/-- The vector engine's end of a descriptor: busy falls, and a fault is recorded (R165, R169). -/
def State.vecEnd (s : State) (f : Flight) : State :=
  match s.flight f.fid with
  | some g =>
    if g.isDone then
      let die := hDie f.target
      let ep := hSlot f.target
      let s := s.veBusy die ep
      if recordsFault g.res.status.toNat then s.veFaultSet die ep f g.res.status.toNat else s
    else s
  | none => s

def State.vectorRun (s : State) (f : Flight) (errs : List LaneEcc) : Run × Nat :=
  let p := vecPlan s.moduleId f
  let (r, cycles) := p.run ⟨f.seed, f.stream, f.step⟩ errs (Run.start s p.die f.fid)
  (p.gathers r, cycles)

def State.vector (s : State) (f : Flight) (errs : List LaneEcc) : State := (Run.ends (s.vectorRun f errs) s f true).vecEnd f

/-- Class 0x20 (R131, R143). -/
def execFusedChain (fid : Nat) (s : State) (errs : List LaneEcc := []) : Host.Outcome State Fault Refusal :=
  .next (match s.flight fid with
    | some f => if s.runs f 0x20 then s.vector f errs else s
    | none => s)

/-- Class 0x21 (R132, R153). -/
def execFallbackProgram (fid : Nat) (s : State) (errs : List LaneEcc := []) : Host.Outcome State Fault Refusal :=
  .next (match s.flight fid with
    | some f => if s.runs f 0x21 then s.vector f errs else s
    | none => s)

/-- Whether a class runs on the vector engine alone. -/
def vecClass (c : Nat) : Bool := c == 0x20 || c == 0x21 || (decide (0x30 ≤ c ∧ c ≤ 0x34))

/-- A vector-engine descriptor that met a fault completes with it (R169). -/
def execVeAccessFault (fid : Nat) (s : State) : Host.Outcome State Fault Refusal :=
  .next (match s.flight fid with
    | some f =>
      match f.phase with
      | .faulted .. => if unitAt (hDie f.target) (hSlot f.target) = some .enginePair ∧ matClass (dClass f.desc) = false then
          (s.setFlight { f with phase := .done }).vecEnd f
        else s
      | _ => s
    | none => s)

end Sys2Proof.Machine
end

