-- ==== Sys2Proof/Machine/Softmax.lean ====
section
/-! DEFINITION. Soft maxima, normalisations and attention on the vector engine: classes 0x30 to 0x34 (R170-R197). -/

namespace Sys2Proof.Machine

/-! ### Rows of work -/

/-- One strip of a row in one pass; `last` marks the last strip of the pass. -/
structure Task where
  row  : Nat
  pass : Nat
  at_  : Nat
  n    : Nat
  last : Bool
  deriving DecidableEq, Repr

/-- Strips of a row of len elements, at least one. -/
def rowStrips (len : Nat) : List (Nat × Nat × Bool) :=
  let k := max 1 ((len + 255) / 256)
  (List.range k).map (fun t => (256 * t, min 256 (len - 256 * t), t + 1 == k))

def rowTasks (first last len : Nat) (passes : List Nat) : List Task :=
  (List.range (last - first)).flatMap (fun r => passes.flatMap (fun p =>
    (rowStrips len).map (fun s => ⟨first + r, p, s.1, s.2.1, s.2.2⟩)))

/-- The run of row work: as for a walk, the work of a strip carries `acc`. -/
structure RowRun (α : Type) where
  r    : Run
  seen : Bool
  halt : Bool
  left : Option Nat
  acc  : α

/-- One strip. `body` answers the run, the carried value and whether a source stopped it; after a destination fault the number of
strips that still enter is open (R169). -/
def RowRun.step {α : Type} (body : Task → Run → α → Run × α × Bool) (x : RowRun α) (t : Task) : RowRun α :=
  if x.halt || x.left == some 0 then { x with halt := true }
  else
    let left := if x.seen then x.left.map (· - 1) else x.left
    let (r, acc, src) := body t x.r x.acc
    if src then { x with r := { r with stop := false }, seen := true, halt := true, acc := acc }
    else if r.stop then
      let r := { r with stop := false }
      match x.left with
      | some _ => { x with r := r, acc := acc, left := left }
      | none =>
        let (n, s) := r.s.freeCount
        { x with r := { r with s := s }, seen := true, left := some n, acc := acc }
    else { x with r := r, acc := acc, left := left }

def runRows {α : Type} (body : Task → Run → α → Run × α × Bool) (ts : List Task) (r : Run) (acc : α) : RowRun α :=
  ts.foldl (RowRun.step body) { r := r, seen := false, halt := false, left := none, acc := acc }

/-- Whether n bytes at `off` of an operand lie on a poisoned line, of this module or as another one delivered it. -/
def Run.operandBad (r : Run) (w : AddrWord) (off n : Nat) : Bool :=
  match w.at r.s.moduleId r.die off with
  | .here a => r.s.anyPoison a n
  | .far m a => n != 0 && (List.range' (a / 64) ((a + n - 1) / 64 + 1 - a / 64)).any (fun l => (r.farLine m l).any (·.poisoned))
  | .nowhere _ => false

/-- The members of a row-split descriptor (R178). -/
def rowPart (d : Desc) (rows : Nat) : Nat × Nat := shardPart rows (dShardN d) (dShardIx d)

/-! ### Checks (R178, R195) -/

/-- A source word: own working memory, aligned. -/
def wmWord (s : State) (die : Nat) (d : Desc) (lo align : Nat) : Option Nat :=
  let w := dAddr d lo
  need lo (w.ok die && w.ownWm s.moduleId die && w.aligned align)

/-- A destination word, which must be in use. -/
def dstWord (die : Nat) (d : Desc) (lo align : Nat) : Option Nat :=
  let w := dAddr d lo
  need lo (dfld d (lo + 63) lo != 0 && w.ok die && w.aligned align)

def zeroWord (d : Desc) (lo : Nat) : Option Nat := need lo (dfld d (lo + 63) lo == 0)

/-- A destination word that may be 0. -/
def optWord (die : Nat) (d : Desc) (lo align : Nat) : Option Nat :=
  if dfld d (lo + 63) lo = 0 then none else dstWord die d lo align

/-- A word in HBM. -/
def hbmWord (s : State) (die : Nat) (d : Desc) (lo align : Nat) : Option Nat :=
  let w := dAddr d lo
  need lo (w.ok die && w.isHbm s.moduleId die && w.aligned align)

/-- Bytes of an element of a format code, 1 when the code names none. -/
def fmtSize (code : Nat) : Nat := max 1 (((Fmt.ofCode code).map Fmt.bits).getD 8 / 8)

def smrowChecks (s : State) (f : Flight) : List (Option Nat) :=
  let d := f.desc
  let die := hDie f.target
  let mode := dfld d 497 496
  let fx := dFmt d 384
  let fy := dFmt d 416
  [resvBits d 511 499, need 496 (mode != 3), wmWord s die d 128 (fmtSize fx.code),
   if mode = 1 then zeroWord d 192 else dstWord die d 192 (fmtSize fy.code),
   if mode = 0 then optWord die d 256 8 else if mode = 1 then dstWord die d 256 8 else wmWord s die d 256 8,
   if dfld d 383 320 = 0 then none else wmWord s die d 320 1,
   need 384 (fx.okSrc die && opFmt fx.code),
   need 416 (if mode = 1 then dfld d 447 416 == 0 else fy.okDst die && opFmt fy.code && (!dbit d 498 || decide (fy.code ≤ 2)))]

def smmergeChecks (s : State) (f : Flight) : List (Option Nat) :=
  let d := f.desc
  let die := hDie f.target
  let dv := dfld d 456 448
  let fin := dbit d 457
  let fo := dFmt d 384
  [resvBits d 511 458, need 448 (decide (dv ≤ 256)), wmWord s die d 128 8,
   if dv = 0 then zeroWord d 192 else wmWord s die d 192 4, optWord die d 256 8,
   if dv = 0 then zeroWord d 320 else dstWord die d 320 (fmtSize fo.code),
   need 384 (if dv = 0 then dfld d 415 384 == 0 else fo.okDst die && opFmt fo.code && (fin || fo.code == 0))]

def normChecks (s : State) (f : Flight) : List (Option Nat) :=
  let d := f.desc
  let die := hDie f.target
  let mode := dfld d 498 497
  let fx := dFmt d 384
  let fy := dFmt d 416
  let acc := dbit d 501
  let eps := sgn8 (dfld d 509 502)
  [resvBits d 511 510, need 497 (mode != 3), wmWord s die d 128 (fmtSize fx.code),
   if mode = 1 then zeroWord d 192 else dstWord die d 192 (fmtSize fy.code),
   if mode = 1 then zeroWord d 256 else wmWord s die d 256 (if dbit d 499 then 2 else 4),
   if mode = 2 then wmWord s die d 320 32
   else if mode = 1 && acc then (if dfld d 383 320 = 0 then some 320 else hbmWord s die d 320 32) else dstWord die d 320 32,
   need 384 (fx.okSrc die && opFmt fx.code),
   need 416 (fy.okDst die && (if mode = 1 then fy.code == 6 else opFmt fy.code)),
   need 496 (!(dbit d 500 && dbit d 496)), need 497 (!acc || mode == 1), need 502 (decide (-126 ≤ eps ∧ eps ≤ 0))]

def xentChecks (s : State) (f : Flight) : List (Option Nat) :=
  let d := f.desc
  let die := hDie f.target
  let fx := dfld d 499 496
  let fg := dfld d 503 500
  let g := dfld d 383 320
  [wmWord s die d 128 (fmtSize fx), wmWord s die d 192 4, optWord die d 256 4, optWord die d 320 (fmtSize fg),
   if dfld d 447 384 = 0 then none else hbmWord s die d 384 8, need 496 (decide (fx ≤ 2)), need 500 (decide (fg ≤ 2)),
   need 320 (g != 0 || fg == 0), need 504 (sgn8 (dfld d 511 504) != -128 && sgn8 (dfld d 511 504) != -127)]

def attstepChecks (s : State) (f : Flight) : List (Option Nat) :=
  let d := f.desc
  let die := hDie f.target
  let fin := dbit d 485
  let fo := dFmt d 320
  let rows := dfld d 466 458
  let nk := dfld d 475 467
  let dv := dfld d 484 476
  let mmode := dfld d 457 456
  [resvBits d 511 487, need 108 (dShardN d == 1), wmWord s die d 128 8, wmWord s die d 192 4,
   if fin then dstWord die d 256 (fmtSize fo.code) else zeroWord d 256,
   need 320 (if fin then fo.okDst die && opFmt fo.code else dfld d 351 320 == 0),
   need 384 (decide (dfld d 407 384 + rows ≤ 16777216)), need 408 (decide (dfld d 431 408 + nk ≤ 16777216)),
   need 432 (decide (mmode < 2) || dfld d 455 432 != 0), need 458 (decide (rows ≤ 256)), need 467 (decide (nk ≤ 256)),
   need 476 (decide (1 ≤ dv ∧ dv ≤ 256))]

/-! ### SMROW (R179-R181) -/

/-- The carried value of a soft maximum: lane states, the row's state, whether poison reaches the row, whether some row has a
state that is not empty. -/
structure SmAcc where
  lanes : List RowState
  st    : RowState
  bad   : Bool
  full  : Bool

def SmAcc.start : SmAcc := ⟨List.replicate 256 rsEmpty, rsEmpty, false, false⟩

/-- Entries of a strip with the mask applied: an inactive one reads as -infinity. -/
def pushStrip (lanes : List RowState) (xs : List (Word × Bool)) : List RowState :=
  lanes.mapIdx (fun l a => match xs[l]? with
    | some (x, true) => rsPush a x
    | _ => a)

def treeState (lanes : List RowState) : RowState :=
  (laneTree (fun x y => (rsMerge x y).1) lanes).headD rsEmpty

/-- An output of the second pass (R180). -/
def smOut (st : RowState) (log : Bool) (x : Word) (active : Bool) : Word :=
  let active := active && x != fpInf true
  let off := if log then fpInf true else fpZero
  if fpIsNaN st.1 then fpNaN
  else if fpIsZero st.2 then off
  else if !active then off
  else if st.1 = fpInf false then
    (if x = fpInf false then (if log then fpFlip (fpLog st.2) else fpRecip st.2) else off)
  else if log then fpSub (fpSub x st.1) (fpLog st.2)
  else fpMul (fpExp (fpSub x st.1)) (fpRecip st.2)

/-- Read a state of 8 bytes. -/
def Run.readState (r : Run) (w : AddrWord) (off : Nat) : Run × RowState × Bool :=
  let (r, m, p) := r.readNat w off 4
  let (r, q, p') := if r.stop then (r, 0, false) else r.readNat w (off + 4) 4
  (r, rsNormal (BitVec.ofNat 32 m, BitVec.ofNat 32 q), p || p')

/-- The strip of entries and its mask. -/
def readEntries (x : Opnd) (mask : Option AddrWord) (r : Run) (ix n : Nat) : Run × List (Word × Bool) :=
  let (r, xs, _) := r.readElems x (ix * (x.fmt.bits / 8)) n
  match mask with
  | none => (r, xs.map (fun v => (v, true)))
  | some w =>
    let (r, ms, _) := if r.stop then (r, [], false) else r.read w ix n
    (r, xs.mapIdx (fun i v => (v, ms.getD i 0 != 0)))

def smrowBody (d : Desc) (x y : Opnd) (len : Nat) (t : Task) (r : Run) (a : SmAcc) : Run × SmAcc × Bool :=
  let mode := dfld d 497 496
  let mask := if dfld d 383 320 = 0 then none else some (dAddr d 320)
  let stw := dAddr d 256
  let ix := t.row * len + t.at_
  let k := x.fmt.bits / 8
  let rowBad := r.operandBad x.w (t.row * len * k) (len * k) ||
    (match mask with | some w => r.operandBad w (t.row * len) len | none => false)
  if t.pass = 0 then
    let a := if t.at_ = 0 then { a with lanes := List.replicate 256 rsEmpty, bad := rowBad } else a
    let (r, es) := readEntries x mask r ix t.n
    if r.stop then (r, a, true)
    else
      let a := { a with lanes := pushStrip a.lanes es }
      if t.last then
        let st := treeState a.lanes
        let r := if dfld d 319 256 = 0 then r else r.writeAll stw (8 * t.row) (rsBytes st) a.bad
        (r, { a with st := st, full := a.full || !fpIsZero st.2 }, false)
      else (r, a, false)
  else
    let (r, a, src) :=
      if t.at_ = 0 ∧ mode = 2 then
        let (r, st, p) := r.readState stw (8 * t.row)
        (r, { a with st := st, bad := rowBad || p, full := a.full || !fpIsZero st.2 }, r.stop)
      else (r, a, false)
    if src then (r, a, true)
    else
      let (r, es) := readEntries x mask r ix t.n
      if r.stop then (r, a, true)
      else
        let ys := es.map (fun e => smOut a.st (dbit d 498) e.1 e.2)
        (r.writeRow y (dFmt d 416).gather (ix * (y.fmt.bits / 8)) ys a.bad, a, false)

/-- The end of a run of this family: EMPTY when nothing was reduced, the merge, and the poisoned bit of the vector engine. -/
def Run.endRows (r : Run) (ep : Nat) (seen empty : Bool) (fw : Option FmtWord) : Run :=
  let r := if empty then r.raise stEmpty 0 else r
  let r := match fw with | some w => r.gatherInto w | none => r
  { r with stop := seen, s := r.s.vePoisonBit r.die ep }

def strips (len : Nat) : Nat := (len + 255) / 256

def State.smrowRun (s : State) (f : Flight) : Run × Nat :=
  let d := f.desc
  let mode := dfld d 497 496
  let len := dfld d 495 472 + 1
  let (a, b) := rowPart d (dfld d 471 448)
  let passes := if mode = 0 then [0, 1] else if mode = 1 then [0] else [1]
  let x := runRows (smrowBody d (f.opnd 128 384) (f.opnd 192 416) len) (rowTasks a b len passes)
    (Run.start s (hDie f.target) f.fid) SmAcc.start
  let out := if dbit d 498 then 2 else 5
  let per := if mode = 0 then strips len * (5 + out) + 14 else if mode = 1 then strips len * 5 + 8 else strips len * out + 4
  (Run.endRows x.r (hSlot f.target) x.seen (!x.acc.full) (if mode = 1 then none else some (dFmt d 416)), (b - a) * per + 12)

def State.smrow (s : State) (f : Flight) : State := (Run.ends (s.smrowRun f) s f true).vecEnd f

def execSmrow (fid : Nat) (s : State) : Host.Outcome State Fault Refusal :=
  .next (match s.flight fid with
    | some f => if s.runs f 0x30 then s.smrow f else s
    | none => s)

/-! ### SMMERGE (R182, R183) -/

/-- Read an input state and its payload. -/
def readPart (d : Desc) (p dv row i : Nat) (r : Run) : Run × RowState × List Word × Bool :=
  let (r, st, b) := r.readState (dAddr d 128) ((row * p + i) * 8)
  if r.stop ∨ dv = 0 then (r, st, [], b)
  else
    let o : Opnd := ⟨dAddr d 192, .fp32, 0⟩
    let (r, xs, b') := r.readElems o ((row * p + i) * dv * 4) dv
    (r, st, xs, b || b')

/-- A normalised payload (R183). -/
def payOut (st : RowState) (x : Word) : Word :=
  if fpIsNaN st.1 then fpNaN else if fpIsZero st.2 then fpZero else fpMul x (fpRecip st.2)

def smmergeBody (d : Desc) (o : Opnd) (t : Task) (r : Run) (full : Bool) : Run × Bool × Bool :=
  let p := dfld d 447 440 + 1
  let dv := dfld d 456 448
  let (r, st, pay, bad) := (List.range (p - 1)).foldl (fun (x : Run × RowState × List Word × Bool) i =>
    let (r, st, pay, bad) := x
    if r.stop then x
    else
      let (r, st', pay', b) := readPart d p dv t.row (i + 1) r
      let (m, f) := rsMerge st st'
      (r, m, List.zipWith f.apply pay pay', bad || b)) (readPart d p dv t.row 0 r)
  if r.stop then (r, full, true)
  else
    let r := if dfld d 319 256 = 0 then r else r.writeAll (dAddr d 256) (8 * t.row) (rsBytes st) bad
    let r := if dv = 0 then r
      else r.writeRow o (dFmt d 384).gather (t.row * dv * (o.fmt.bits / 8)) (if dbit d 457 then pay.map (payOut st) else pay) bad
    (r, full || !fpIsZero st.2, false)

def State.smmergeRun (s : State) (f : Flight) : Run × Nat :=
  let d := f.desc
  let (a, b) := rowPart d (dfld d 439 416)
  let x := runRows (smmergeBody d (f.opnd 320 384)) (rowTasks a b 1 [0]) (Run.start s (hDie f.target) f.fid) false
  let fw := if dfld d 456 448 = 0 then none else some (dFmt d 384)
  (Run.endRows x.r (hSlot f.target) x.seen (!x.acc) fw, (b - a) * (4 * (dfld d 447 440 + 1) + (if dbit d 457 then 5 else 0)) + 12)

def State.smmerge (s : State) (f : Flight) : State := (Run.ends (s.smmergeRun f) s f true).vecEnd f

def execSmmerge (fid : Nat) (s : State) : Host.Outcome State Fault Refusal :=
  .next (match s.flight fid with
    | some f => if s.runs f 0x31 then s.smmerge f else s
    | none => s)

/-! ### NORM (R187-R190) -/

/-- The carried value of a normalisation: lane partials, the two grid sums with their saturations, mean and rstd, and whether a
NaN or an infinity, or poison, reaches the row. -/
structure NormAcc where
  lanes : List Word
  s1    : GSum
  s2    : GSum
  gsat  : Nat
  mean  : Word
  rstd  : Word
  nan   : Bool
  bad   : Bool

def zeros256 : List Word := List.replicate 256 fpZero

def NormAcc.start : NormAcc := ⟨zeros256, GSum.zero, GSum.zero, 0, fpZero, fpZero, false, false⟩

/-- E_ref2 = 2 * E_ref, limited to -126 to 127 (R189). -/
def eref2 (e : Int) : Int := max (-126) (min 127 (2 * e))

/-- Sum of lanes after their strips, in the tree order. -/
def laneSum (lanes : List Word) : Word := (laneTree fpAdd lanes).headD fpZero

/-- RSQRT(v + eps), the addition rounded. -/
def rstdOf (eps : Int) (v : Word) : Word := fpRsqrt (fpAdd v (fpRound (.fin false 1 eps)))

/-- Exact quotients of the totals, each rounded once (R189): the mean and the variance term. -/
def totals (rms : Bool) (w1 w2 : DWord) (n e : Int) : Word × Word :=
  if w1 = gnanCode ∨ w2 = gnanCode then (fpNaN, fpNaN)
  else if n ≤ 0 then (fpZero, fpZero)
  else
    let m := n.toNat
    let a := e - 46
    let b := eref2 e - 46
    let mean := fpRound (quotVal (decide (w1.toInt < 0)) w1.toInt.natAbs m a)
    let c := min b (2 * a)
    let num : Int := w2.toInt * n * 2 ^ (b - c).toNat - (if rms then 0 else w1.toInt ^ 2 * 2 ^ (2 * a - c).toNat)
    let var := if num < 0 then fpZero else fpRound (quotVal false num.natAbs (m * m) c)
    (if rms then fpZero else mean, var)

structure NormCfg where
  d    : Desc
  x    : Opnd
  y    : Opnd
  len  : Nat
  mode : Nat
  rms  : Bool
  eps  : Int

def isNonfinite (x : Word) : Bool := decide (0x7F800000 ≤ fpMag x)

/-- Add a strip to the lanes (R159). -/
def laneAdd (lanes xs : List Word) (f : Word → Word → Word) : List Word :=
  lanes.mapIdx (fun l p => match xs[l]? with
    | some x => f p x
    | none => p)

/-- The end of a row's statistics in mode 1: the record is written, or accumulated into (R188). -/
def NormCfg.record (c : NormCfg) (t : Task) (r : Run) (a : NormAcc) : Run :=
  let nan := a.nan || a.s1.gnan || a.s2.gnan
  let s1 : GSum := if nan then ⟨0, true⟩ else if c.rms then GSum.zero else a.s1
  let s2 : GSum := if nan then ⟨0, true⟩ else a.s2
  let (w1, n1) := s1.word
  let (w2, n2) := s2.word
  let r := r.addSat (n1 + n2 + a.gsat)
  let st := dAddr c.d 320
  let tail : List Byte := [BitVec.ofNat 8 (u8 c.y.v), 0, 0, 0]
  if dbit c.d 501 then
    let r := r.msopAt st (32 * t.row) 0x31 w1.toNat a.bad
    let r := if r.stop then r else r.msopAt st (32 * t.row + 8) 0x31 w2.toNat a.bad
    let r := if r.stop then r else r.msopAt st (32 * t.row + 16) 0x01 c.len a.bad
    if r.stop then r else r.writeAll st (32 * t.row + 20) tail a.bad
  else r.writeAll st (32 * t.row) (leBytes 8 w1.toNat ++ leBytes 8 w2.toNat ++ leBytes 4 c.len ++ tail) a.bad

/-- mean and rstd of a row to its record (R188, R190). -/
def NormCfg.stats (c : NormCfg) (t : Task) (r : Run) (a : NormAcc) : Run :=
  r.writeAll (dAddr c.d 320) (32 * t.row + 24) (leBytes 4 (canon32 a.mean).toNat ++ leBytes 4 (canon32 a.rstd).toNat) a.bad

/-- A row whose statistics are known: NaN where an entry or a statistic is (R190). -/
def NormAcc.settle (a : NormAcc) : NormAcc :=
  if a.nan || fpIsNaN a.mean || fpIsNaN a.rstd then { a with mean := fpNaN, rstd := fpNaN, nan := true } else a

/-- The record of a row in mode 2. -/
def NormCfg.readTotals (c : NormCfg) (t : Task) (r : Run) (a : NormAcc) : Run × NormAcc :=
  let (r, bs, p) := r.read (dAddr c.d 320) (32 * t.row) 24
  if r.stop then (r, a)
  else
    let e := max (-126) (min 127 (sgn8 (recNat bs 20 1)))
    let (mean, var) := totals c.rms (BitVec.ofNat 64 (recNat bs 0 8)) (BitVec.ofNat 64 (recNat bs 8 8)) (sgn32 (recNat bs 16 4)) e
    (r, { a with mean := mean, rstd := rstdOf c.eps var, bad := a.bad || p })

/-- Passes: 0 sums or the scan for NaN and infinity, 1 squares of deviations, 2 outputs. -/
def NormCfg.body (c : NormCfg) (t : Task) (r : Run) (a : NormAcc) : Run × NormAcc × Bool :=
  let k := c.x.fmt.bits / 8
  let ix := t.row * c.len + t.at_
  let a := if t.pass = 0 ∧ t.at_ = 0 then
      { NormAcc.start with bad := r.operandBad c.x.w (t.row * c.len * k) (c.len * k) }
    else a
  let (r, xs, _) := r.readElems c.x (ix * k) t.n
  if r.stop then (r, a, true)
  else if t.pass = 0 then
    let a := { a with nan := a.nan || xs.any isNonfinite }
    if c.mode = 1 then
      let sq := xs.map (fun x => fpMul x x)
      let q1 := if c.rms then [] else xs.map (gAddend c.y.v)
      let q2 := sq.map (gAddend (eref2 c.y.v))
      let a := { a with s1 := q1.foldl (fun g q => g.add q.1) a.s1, s2 := q2.foldl (fun g q => g.add q.1) a.s2
                        gsat := a.gsat + ((q1 ++ q2).map (·.2)).sum }
      let r := if (dFmt c.d 416).gather then r.maxes ((if c.rms then [] else xs) ++ sq) else r
      (if t.last then c.record t r a else r, a, false)
    else if c.mode = 2 then
      if t.last then
        let (r, a) := c.readTotals t r a
        if r.stop then (r, a, true)
        else
          let a := a.settle
          (c.stats t r a, a, false)
      else (r, a, false)
    else
      let a := { a with lanes := laneAdd a.lanes xs (if c.rms then fun p x => fpFma x x p else fpAdd) }
      if t.last then
        let q := fpDiv (laneSum a.lanes) (fpOfNat c.len)
        if c.rms then
          let a := { a with mean := fpZero, rstd := rstdOf c.eps q }.settle
          (c.stats t r a, a, false)
        else (r, { a with mean := q, lanes := zeros256 }, false)
      else (r, a, false)
  else if t.pass = 1 then
    let a := { a with lanes := laneAdd a.lanes (xs.map (fun x => fpSub x a.mean)) (fun p v => fpFma v v p) }
    if t.last then
      let a := { a with rstd := rstdOf c.eps (fpDiv (laneSum a.lanes) (fpOfNat c.len)) }.settle
      (c.stats t r a, a, false)
    else (r, a, false)
  else
    let po : Opnd := ⟨dAddr c.d 256, if dbit c.d 499 then .bf16 else .fp32, 0⟩
    let pk := po.fmt.bits / 8
    let (r, gs, pg) := r.readElems po (t.at_ * pk) t.n
    let (r, bs, pb) := if r.stop || !dbit c.d 500 then (r, [], false) else r.readElems po ((c.len + t.at_) * pk) t.n
    if r.stop then (r, a, true)
    else
      let ys := xs.mapIdx (fun i x =>
        if a.nan then fpNaN
        else if c.rms then fpMul (fpMul x a.rstd) (gs.getD i 0)
        else fpFma (fpMul (fpSub x a.mean) a.rstd) (gs.getD i 0) (bs.getD i fpZero))
      (r.writeRow c.y (dFmt c.d 416).gather (ix * (c.y.fmt.bits / 8)) ys (a.bad || pg || pb), a, false)

def State.normRun (s : State) (f : Flight) : Run × Nat :=
  let d := f.desc
  let mode := dfld d 498 497
  let len := dfld d 495 472 + 1
  let c : NormCfg :=
    { d := d, x := f.opnd 128 384, y := f.opnd 192 416, len := len, mode := mode, rms := dbit d 496, eps := sgn8 (dfld d 509 502) }
  let (a, b) := rowPart d (dfld d 471 448)
  let passes := if mode = 1 then [0] else if mode = 2 ∨ c.rms then [0, 2] else [0, 1, 2]
  let x := runRows c.body (rowTasks a b len passes) (Run.start s (hDie f.target) f.fid) NormAcc.start
  let per := if mode = 0 then strips len * 5 + 20 else if mode = 1 then strips len * 2 + 16 else strips len * 3 + 12
  (Run.endRows x.r (hSlot f.target) x.seen (decide (b ≤ a)) (some (dFmt d 416)), (b - a) * per + 12)

def State.norm (s : State) (f : Flight) : State := (Run.ends (s.normRun f) s f true).vecEnd f

def execNorm (fid : Nat) (s : State) : Host.Outcome State Fault Refusal :=
  .next (match s.flight fid with
    | some f => if s.runs f 0x32 then s.norm f else s
    | none => s)

/-! ### XENT (R184-R186) -/

structure XentAcc where
  sm    : SmAcc
  label : Nat
  sum   : GSum
  gsat  : Nat
  count : Nat

/-- The loss of a row whose label lies in it (R185). -/
def rowLoss (st : RowState) (xlab : Word) : Word :=
  if fpIsNaN st.1 then fpNaN
  else if fpIsZero st.2 then fpInf false
  else
    let inf := fpInf false
    let d := if st.1 = inf then (if xlab = inf then fpZero else inf) else fpSub st.1 xlab
    fpAdd d (fpLog st.2)

def ignored : Nat := 0xFFFFFFFF

def xentBody (d : Desc) (x : Opnd) (g : Option Opnd) (len : Nat) (t : Task) (r : Run) (a : XentAcc) : Run × XentAcc × Bool :=
  let k := x.fmt.bits / 8
  let ix := t.row * len + t.at_
  let eref := sgn8 (dfld d 511 504)
  if t.pass = 0 then
    let (r, a) :=
      if t.at_ = 0 then
        let (r, l, p) := r.readNat (dAddr d 192) (4 * t.row) 4
        let bad := p || (decide (l ≠ ignored) && r.operandBad x.w (t.row * len * k) (len * k))
        (r, { a with label := l, sm := { a.sm with lanes := List.replicate 256 rsEmpty, st := rsEmpty, bad := bad } })
      else (r, a)
    if r.stop then (r, a, true)
    else
      let (r, es) := if a.label = ignored then (r, []) else readEntries x none r ix t.n
      if r.stop then (r, a, true)
      else
        let sm := { a.sm with lanes := pushStrip a.sm.lanes es }
        if !t.last then (r, { a with sm := sm }, false)
        else
          let st := treeState sm.lanes
          let a := { a with sm := { sm with st := st, full := sm.full || !fpIsZero st.2 } }
          let (r, loss) :=
            if a.label = ignored then (r, fpZero)
            else if len ≤ a.label then (r, fpNaN)
            else
              let (r, ls, _) := r.readElems x ((t.row * len + a.label) * k) 1
              (r, rowLoss st (ls.headD 0))
          if r.stop then (r, a, true)
          else
            let r := if dfld d 319 256 = 0 then r
              else r.writeRow ⟨dAddr d 256, .fp32, 0⟩ false (4 * t.row) [loss] a.sm.bad
            if a.label = ignored then (r, a, false)
            else
              let (q, n) := if a.sm.bad then (none, 0) else gAddend eref loss
              (r, { a with sum := a.sum.add q, gsat := a.gsat + n, count := a.count + 1 }, false)
  else
    let (r, es) := if a.label = ignored then (r, List.replicate t.n (fpZero, true)) else readEntries x none r ix t.n
    if r.stop then (r, a, true)
    else
      let gs := es.mapIdx (fun i e =>
        if a.label = ignored then fpZero
        else if len ≤ a.label then fpNaN
        else
          let y := smOut a.sm.st false e.1 e.2
          if t.at_ + i = a.label then fpSub y fpOne else y)
      match g with
      | some o => (r.writeRow o false (ix * (o.fmt.bits / 8)) gs a.sm.bad, a, false)
      | none => (r, a, false)

def State.xentRun (s : State) (f : Flight) : Run × Nat :=
  let d := f.desc
  let len := dfld d 495 472 + 1
  let (a, b) := rowPart d (dfld d 471 448)
  let x : Opnd := ⟨dAddr d 128, (Fmt.ofCode (dfld d 499 496)).getD .fp32, 0⟩
  let g : Option Opnd :=
    if dfld d 383 320 = 0 then none else some ⟨dAddr d 320, (Fmt.ofCode (dfld d 503 500)).getD .fp32, 0⟩
  let tasks := rowTasks a b len (if g.isSome then [0, 1] else [0])
  let y := runRows (xentBody d x g len) tasks (Run.start s (hDie f.target) f.fid) ⟨SmAcc.start, 0, GSum.zero, 0, 0⟩
  let (w, n) := y.acc.sum.word
  let tot := dAddr d 384
  let (r, seen) :=
    if dfld d 447 384 = 0 ∨ y.seen ∨ b ≤ a then (y.r, y.seen)
    else
      let r := (y.r.addSat (n + y.acc.gsat)).msopAt tot 0 0x31 w.toNat false
      let r := if r.stop then r else r.msopAt tot 8 0x11 y.acc.count false
      (r, r.stop)
  let per := strips len * (if g.isSome then 10 else 5) + 24
  (Run.endRows r (hSlot f.target) seen (!y.acc.sm.full) none, (b - a) * per + 12)

def State.xent (s : State) (f : Flight) : State := (Run.ends (s.xentRun f) s f true).vecEnd f

def execXent (fid : Nat) (s : State) : Host.Outcome State Fault Refusal :=
  .next (match s.flight fid with
    | some f => if s.runs f 0x33 then s.xent f else s
    | none => s)

/-! ### ATTSTEP (R191-R193) -/

/-- Key k is masked for query q (R192). -/
def attMasked (mmode mparam q k : Nat) : Bool :=
  match mmode with
  | 1 => decide (q < k)
  | 2 => decide (q < k ∨ mparam ≤ q - k)
  | 3 => decide (q / mparam < k / mparam)
  | _ => false

/-- What a row comes to: the weights, the new state, O and whether state and O are as before (R192 steps 1 to 6). -/
def attRow (old : RowState) (o : List Word) (xs : List (Word × Bool)) : List Word × RowState × List Word × Bool :=
  let act := (xs.filter (·.2)).map (·.1)
  if fpIsNaN old.1 || act.any fpIsNaN then (xs.map (fun _ => fpNaN), rsNaN, o.map (fun _ => fpNaN), false)
  else
    let m := act.foldl fpMaximum old.1
    if m = fpInf true then (xs.map (fun _ => fpZero), old, o, true)
    else
      let inf := fpInf false
      let p := xs.map (fun x =>
        if !x.2 then fpZero
        else if m = inf then fpBool (x.1 == inf)
        else if x.1 = fpInf true then fpZero else fpExp (fpSub x.1 m))
      let e := if m = inf then fpBool (old.1 == inf) else fpExp (fpSub old.1 m)
      let t := laneSum ((List.range 256).map (fun l => p.getD l fpZero))
      (p, (m, fpFma old.2 e t), o.map (fun v => fpMul v e), false)

def attBody (d : Desc) (die ep : Nat) (out : Opnd) (t : Task) (r : Run) (full : Bool) : Run × Bool × Bool :=
  let nk := dfld d 475 467
  let dv := dfld d 484 476
  let fin := dbit d 485
  let first := dbit d 486
  let stw := dAddr d 128
  let o : Opnd := ⟨dAddr d 192, .fp32, 0⟩
  let (r, old, bad) := if first then (r, rsEmpty, false) else r.readState stw (8 * t.row)
  let (r, os, bad') := if first then (r, List.replicate dv fpZero, false)
    else if r.stop then (r, [], false) else r.readElems o (t.row * dv * 4) dv
  if r.stop then (r, full, true)
  else
    let score := r.s.tbRow die ep 0 t.row 0 nk
    let tbBad := r.s.tbBad die ep 0 t.row 0 nk
    let r := if tbBad then r.poisoned (wmBase die) else r
    let q := dfld d 407 384 + t.row
    let xs := score.mapIdx (fun j x =>
      (fpMul x (dword d 352), !attMasked (dfld d 457 456) (dfld d 455 432) q (dfld d 431 408 + j)))
    let (p, st, os', same) := attRow old os xs
    let mark := bad || bad' || tbBad
    let s := r.s.tbWrite die ep 1 t.row 0 ((List.range 256).map (fun l => canon32 (p.getD l fpZero)))
    let s := if mark then s.tbMark die ep 1 t.row 0 255 else s
    let r := { r with s := s }
    let r := if same && !first && !fin && !mark then r
      else (r.writeAll stw (8 * t.row) (rsBytes st) mark).writeRow o false (t.row * dv * 4) os' mark
    let r := if fin then
        r.writeRow out (dFmt d 320).gather (t.row * dv * (out.fmt.bits / 8)) (os'.map (payOut st)) mark
      else r
    (r, full || !fpIsZero st.2, false)

def State.attstepRun (s : State) (f : Flight) (errs : List LaneEcc) : Run × Nat :=
  let d := f.desc
  let die := hDie f.target
  let rows := dfld d 466 458
  let met := errs.filter (fun e => decide (e.row < rows ∧ e.lane < dfld d 475 467))
  let u := met.foldl (fun s e => s.tbError die (hSlot f.target) f.fid e) s
  let x := runRows (attBody d die (hSlot f.target) (f.opnd 256 320)) (rowTasks 0 rows 1 [0]) (Run.start u die f.fid) false
  let c := if dbit d 485 then 7 else 6
  (Run.endRows x.r (hSlot f.target) x.seen (!x.acc) (if dbit d 485 then some (dFmt d 320) else none), 14 + c * rows)

def State.attstep (s : State) (f : Flight) (errs : List LaneEcc) : State := (Run.ends (s.attstepRun f errs) s f true).vecEnd f

def execAttstep (fid : Nat) (s : State) (errs : List LaneEcc := []) : Host.Outcome State Fault Refusal :=
  .next (match s.flight fid with
    | some f => if s.runs f 0x34 then s.attstep f errs else s
    | none => s)

end Sys2Proof.Machine
end

