-- ==== Sys2Proof/Machine/Conv.lean ====
section
/-! DEFINITION. Convolution on the matrix arrays (R199-R210), regrouping (R211-R213), and the sampling of boxes, with the resample
class (R214-R217). -/

namespace Sys2Proof.Machine

/-! ### The geometry record (R202, R203) -/

structure Geo where
  n      : Nat
  cin    : Nat
  cout   : Nat
  groups : Nat
  ins    : List Nat
  k      : List Nat
  st     : List Nat
  dl     : List Nat
  pl     : List Nat
  ph     : List Nat
  pad    : Word
  idl    : List Nat
  resv   : Nat
  deriving DecidableEq, Repr

def geoOf (bs : List Byte) : Geo :=
  let n (off k : Nat) := recNat bs off k
  { n := n 0 4, cin := n 4 4, cout := n 8 4, groups := n 12 4, ins := [n 16 4, n 20 4, n 24 4], k := [n 28 1, n 29 1, n 30 1],
    st := [n 32 2, n 34 2, n 36 2], dl := [n 38 2, n 40 2, n 42 2], pl := [n 44 2, n 48 2, n 52 2], ph := [n 46 2, n 50 2, n 54 2],
    pad := BitVec.ofNat 32 (n 56 4), idl := [n 60 1, n 61 1, n 62 1], resv := n 31 1 + n 63 1 }

def at3 (xs : List Nat) (d : Nat) : Nat := xs.getD d 0

def Geo.e (g : Geo) (d : Nat) : Int := if at3 g.ins d = 0 then 0 else (at3 g.ins d - 1) * at3 g.idl d + 1
/-- The output extent of a dimension: t 0, h 1, w 2. -/
def Geo.o (g : Geo) (d : Nat) : Int :=
  (g.e d + at3 g.pl d + at3 g.ph d - at3 g.dl d * ((at3 g.k d : Int) - 1) - 1) / (at3 g.st d : Int) + 1
def Geo.on (g : Geo) (d : Nat) : Nat := (g.o d).toNat
def Geo.empty (g : Geo) : Bool := g.n == 0 || decide (g.o 0 ≤ 0) || decide (g.o 1 ≤ 0) || decide (g.o 2 ≤ 0)
def Geo.p (g : Geo) : Nat := g.on 0 * g.on 1 * g.on 2
def Geo.cinG (g : Geo) : Nat := g.cin / g.groups
def Geo.coutG (g : Geo) : Nat := g.cout / g.groups
def Geo.kg (g : Geo) : Nat := g.cinG * at3 g.k 0 * at3 g.k 1 * at3 g.k 2

def within (lo hi : Nat) (xs : List Nat) : Bool := xs.all (fun x => decide (lo ≤ x ∧ x ≤ hi))

/-- The ranges of R202 and R209. -/
def Geo.ok (g : Geo) : Bool :=
  g.resv == 0 && within 0 16777215 (g.n :: g.ins) && within 1 65535 [g.cin, g.cout, g.groups] && g.cin % g.groups == 0 &&
  g.cout % g.groups == 0 && within 1 255 (g.k ++ g.idl) && within 1 65535 (g.st ++ g.dl) && fpFinite g.pad &&
  decide (g.kg ≤ 16777215) && (g.empty || decide (g.n * g.p ≤ 4294967295))

/-! ### Taps (R204, R205) -/

/-- What a tap is: padded, a hole, or the input element with an index in the planar tensor. -/
inductive Tap where
  | pad
  | hole
  | elem (ix : Nat)
  deriving DecidableEq, Repr

/-- The tap of output position ρ and reduction index κ in group q. -/
def Geo.tap (g : Geo) (q ρ κ : Nat) : Tap :=
  let kw := at3 g.k 2
  let kh := at3 g.k 1
  let kt := at3 g.k 0
  let ν := ρ / g.p
  let os := [ρ % g.p / (g.on 1 * g.on 2), ρ % (g.on 1 * g.on 2) / g.on 2, ρ % g.on 2]
  let ts := [κ / (kw * kh) % kt, κ / kw % kh, κ % kw]
  let c := κ / (kw * kh * kt)
  let u (d : Nat) : Int := (at3 os d * at3 g.st d : Nat) - (at3 g.pl d : Int) + (at3 ts d * at3 g.dl d : Nat)
  if [0, 1, 2].any (fun d => decide (u d < 0 ∨ g.e d ≤ u d)) then .pad
  else if [0, 1, 2].any (fun d => decide (u d % (at3 g.idl d : Int) ≠ 0)) then .hole
  else
    let x (d : Nat) : Nat := (u d).toNat / at3 g.idl d
    .elem ((((ν * g.cin + q * g.cinG + c) * at3 g.ins 0 + x 0) * at3 g.ins 1 + x 1) * at3 g.ins 2 + x 2)

/-- The element of the weights for W_q(κ, co) (R205). -/
def Geo.weight (g : Geo) (flip : Bool) (q κ co : Nat) : Nat :=
  let kw := at3 g.k 2
  let kh := at3 g.k 1
  let kt := at3 g.k 0
  if flip then
    let d := κ % kw
    let b := κ / kw % kh
    let a := κ / (kw * kh) % kt
    let c := κ / (kw * kh * kt)
    ((((q * g.cinG + c) * g.coutG + co) * kt + (kt - 1 - a)) * kh + (kh - 1 - b)) * kw + (kw - 1 - d)
  else (q * g.coutG + co) * g.kg + κ

/-- The output element of position ρ and channel col (R206). -/
def Geo.outIx (g : Geo) (planar : Bool) (ρ col : Nat) : Nat :=
  if planar then (ρ / g.p * g.cout + col) * g.p + ρ % g.p else ρ * g.cout + col

/-! ### Class 0x40 -/

def convChecks (s : State) (f : Flight) : List (Option Nat) :=
  let d := f.desc
  let die := hDie f.target
  let fi := dFmt d 384
  let fw := dFmt d 416
  let fo := dFmt d 448
  [resvBits d 511 496, need 480 (dfld d 487 480 != 0x80), need 488 (dfld d 489 488 != 3),
   need 490 (s.partOk die (hSlot f.target) (dfld d 491 490) f.ring), srcPlane s die d 128, srcPlane s die d 192,
   srcPlane s die d 320, need 256 ((dAddr d 256).ok die && (dAddr d 256).aligned (fmtSize fo.code)),
   need 384 (fi.okSrc die && opFmt fi.code), need 416 (fw.okSrc die && opFmt fw.code),
   need 384 (!(fi.ok die && fw.ok die) || (pairBeat fi.code fw.code).isSome), need 448 (fo.okDst die && opFmt fo.code)]

/-- The work of a convolution: the array's part, the sources as they stand, and one list of units, groups outermost. -/
structure ConvCfg where
  s     : State
  p     : Product
  g     : Geo
  inp   : Opnd
  wt    : Opnd
  out   : Opnd
  flip  : Bool
  planar : Bool
  gather : Bool
  alpha : Int
  beta  : Nat
  pad   : Word

/-- Units: group, block of positions, tile of the group's channels. -/
def ConvCfg.units (c : ConvCfg) : List (Nat × (Nat × Nat) × (Nat × Nat)) :=
  (List.range c.g.groups).flatMap (fun q =>
    (cut c.p.rows c.p.m).flatMap (fun b => (cut c.p.w c.g.coutG).map (fun t => (q, b, t))))

def ConvCfg.kts (c : ConvCfg) : List (Nat × Nat) := cut 256 c.g.kg

/-- The vectors of every pass in order. -/
def ConvCfg.passes (c : ConvCfg) : List Nat := c.units.flatMap (fun u => List.replicate c.kts.length u.2.1.2)

def ConvCfg.beats (c : ConvCfg) : List (Nat × Nat) := c.p.beatsOf c.passes

/-- The beat at which the drain of unit u begins. -/
def ConvCfg.drainBeat (c : ConvCfg) (u : Nat) : Nat :=
  let (_, b, t) := c.units.getD u (0, (0, 0), (0, 0))
  (c.beats.getD (u * c.kts.length + c.kts.length - 1) (0, 1)).2 + b.2 - 1 + 256 + t.2

/-- The passes of a convolution in order, groups outermost (R205). -/
def ConvCfg.schedule (c : ConvCfg) : List Pass :=
  let tasks := c.units.flatMap (fun u => c.kts.map (fun t => (u, t)))
  (tasks.zip c.beats).map (fun x => ⟨x.1.1.1, x.1.1.2.1, x.1.1.2.2, x.1.2, x.2.1, x.2.2⟩)

def ConvCfg.size (o : Opnd) : Nat := o.fmt.bits / 8

/-- The value of a tap with its saturations. -/
def ConvCfg.tapVal (c : ConvCfg) (q ρ κ : Nat) : Read :=
  match c.g.tap q ρ κ with
  | .pad => (c.pad, 0)
  | .hole => (fpZero, 0)
  | .elem ix => c.s.elemAt c.p.die c.inp (ix * size c.inp)

def ConvCfg.wVal (c : ConvCfg) (q κ co : Nat) : Read :=
  c.s.elemAt c.p.die c.wt (c.g.weight c.flip q κ co * size c.wt)

def ConvCfg.firstFault (c : ConvCfg) : Option SrcFault :=
  earliest (c.schedule.flatMap (fun x =>
    ((List.range x.t.2).filterMap (fun r => (((List.range x.nt.2).filterMap (fun j =>
      c.s.probe c.p.die c.wt.w (c.g.weight c.flip x.q (x.t.1 + r) (x.nt.1 + j) * size c.wt) (size c.wt) true)).head?).map
        (fun e => (x.s + r, e)))) ++
    ((List.range x.b.2).filterMap (fun i => (((List.range x.t.2).filterMap (fun r =>
      match c.g.tap x.q (c.p.first + x.b.1 + i) (x.t.1 + r) with
      | .elem ix => c.s.probe c.p.die c.inp.w (ix * size c.inp) (size c.inp) true
      | _ => none)).head?).map (fun e => (x.f + i, e))))))

/-- The saturations of the taps and weights read before the partition stopped. -/
def ConvCfg.sats (c : ConvCfg) (stop : Option Nat) : Nat :=
  let ps := c.schedule
  ((List.range c.g.groups).map (fun q =>
    ((List.range c.p.m).map (fun i => ((List.range c.g.kg).map (fun κ =>
      if injects ps stop q i κ then (c.tapVal q (c.p.first + i) κ).2 else 0)).sum)).sum +
    ((List.range c.g.kg).map (fun κ => ((List.range c.g.coutG).map (fun j =>
      if loads ps false stop q κ j then (c.wVal q κ j).2 else 0)).sum)).sum)).sum

/-- The runs a drain writes in order: positions in the block with channels in the tile (R206). -/
def ConvCfg.drains (c : ConvCfg) (b nt : Nat × Nat) : List (List (Nat × Nat)) :=
  if c.planar then
    let ρ0 := c.p.first + b.1
    let imgs := (List.range b.2).foldl (fun (acc : List (List Nat)) i =>
      match acc.getLast? with
      | some run =>
        if run.length < 256 ∧ (ρ0 + i) % c.g.p ≠ 0 then acc.dropLast ++ [run ++ [i]] else acc ++ [[i]]
      | none => [[i]]) []
    (List.range nt.2).flatMap (fun j => imgs.map (fun run => run.map (fun i => (i, j))))
  else (List.range b.2).map (fun i => (List.range nt.2).map (fun j => (i, j)))

/-- One run of a drain that began at `beat`, by its number: the drain writes one run in each ACLK cycle. -/
def ConvCfg.drain (c : ConvCfg) (q : Nat) (b nt : Nat × Nat) (ix beat : Nat) (x : MatRun) (run : List (Nat × Nat) × Nat) : MatRun :=
  let beat := beat + run.2 / c.p.cpb
  let run := run.1
  match run with
  | [] => x
  | (i0, j0) :: _ =>
    if x.r.stop then x
    else
      let off := c.g.outIx c.planar (c.p.first + b.1 + i0) (q * c.g.coutG + nt.1 + j0) * size c.out
      let acc := run.map (fun ij => (x.r.s.tbRow c.p.die c.p.ep (ij.1 / 256) (ij.1 % 256) (c.p.col0 + ij.2) 1).headD 0)
      let (r, spoilt) := c.p.drainMeets ix run x.r
      let (r, cs, bad) := if c.beta = 0 then (r, [], false) else r.readElems c.out off run.length
      let bad := bad || spoilt
      let x := if r.stop || bad then x.stopAt beat else x
      if r.stop then { x with r := r }
      else
        let (r, met) := r.meeting (fun r =>
          r.writeElems c.out c.gather off (acc.mapIdx (fun j a => drainValue c.alpha c.beta a (cs.getD j 0))) bad)
        let x := { x with r := r }
        if met then x.stopAt beat else x

def ConvCfg.go (c : ConvCfg) (fault : Option SrcFault) (x : MatRun) : MatRun :=
  (c.units.zipIdx).foldl (fun x u =>
    let ((q, b, nt), ix) := u
    let cutOff := match fault with
      | some e => decide (e.1 < c.drainBeat ix)
      | none => false
    if x.halt.isSome || cutOff then x
    else
      let aVal (i κ : Nat) : Word := (c.tapVal q (c.p.first + i) κ).1
      let wVal (κ j : Nat) : Word := (c.wVal q κ j).1
      let s := (c.p.fill aVal wVal b nt x.r.s).loadWeights (c.p.tiles wVal nt)
      ((c.drains b nt).zipIdx).foldl (c.drain q b nt (c.passes.length + ix) (c.drainBeat ix)) { x with r := { x.r with s := s } }) x

/-- The padding value as the cells see it, with its saturations (R204). -/
def Flight.convPad (f : Flight) : Read := inject (f.opnd 128 384).fmt (f.opnd 128 384).v (geoOf f.recs).pad

/-- The work of a class 0x40 descriptor. -/
def State.convCfg (s : State) (f : Flight) (errs : List LaneEcc := []) : ConvCfg :=
  let d := f.desc
  let die := hDie f.target
  let ep := hSlot f.target
  let g := geoOf f.recs
  let (first, last) := shardPart (g.n * g.p) (dShardN d) (dShardIx d)
  let p : Product :=
    { die := die, ep := ep, part := matPart d, w := s.partWidth die ep, m := last - first, n := g.coutG, k := g.kg, ktile := 256,
      rows := 256 * (dfld d 493 492 + 1), cpb := (pairBeat (dFmt d 384).code (dFmt d 416).code).getD 1,
      fp32 := (dFmt d 384).code == 0, add := false, keep := false, first := first, begin_ := s.beginBeats f,
      errs := errs }
  { s := s, p := p, g := g, inp := f.opnd 128 384, wt := f.opnd 192 416, out := f.opnd 256 448, flip := dbit d 495,
    planar := dbit d 494, gather := (dFmt d 448).gather, alpha := dSigned8 d 480, beta := dfld d 489 488, pad := f.convPad.1 }

def ConvCfg.empty (c : ConvCfg) : Bool := c.g.empty || c.p.m == 0

def State.convRun (s : State) (f : Flight) (parity : Option Nat := none) (errs : List LaneEcc := []) : Run × Nat :=
  let fo := dFmt f.desc 448
  let c := s.convCfg f errs
  let r0 := Run.start s c.p.die f.fid
  if c.empty then ((r0.gatherInto fo).raise stEmpty 0, 0)
  else
    let fault := withParity parity (c.p.laneFaults c.schedule) c.firstFault
    let x := c.go fault ⟨(r0.addSat f.convPad.2).wmWait, none⟩
    let stop := stopBeat fault x.halt
    let r := x.r.addSat (c.sats stop)
    let r := if stop.isSome then { r with s := c.p.scramble r.s } else r
    let r := { r with s := c.p.lanesMet c.schedule stop r.s r.fid }
    let r := match metFault fault x.halt with
      | some e => r.source c.p.ep e.2
      | none => r
    let r := if stop.isSome then { r with stop := true } else r
    (r.gatherInto fo, (c.drainBeat (c.units.length - 1) - c.p.begin_.1) * c.p.cpb)

def State.conv (s : State) (f : Flight) (errs : List LaneEcc) : State := Run.ends (s.convRun f none errs) s f true

/-- A descriptor of a matrix class meets a parity error of its partition's weight registers at a beat (R126). Nothing happens at a beat
at which it uses no weights. -/
def State.parityFault (s : State) (f : Flight) (beat : Nat) : State :=
  let c := dClass f.desc
  let x := if c = 0x10 then s.matmulRun f (some beat) else if c = 0x11 then s.matmulMxRun f (some beat)
    else if c = 0x12 then s.elementwiseRun f (some beat) else s.convRun f (some beat)
  if x.1.stop then ((Run.ends x s f true).matEnd f).partitionActs f.fid else s

/-- A partition acts on the fault its descriptor met; while the descriptor only runs, the fault is a parity error, at the beat the
command gives. -/
def execPartitionFault (fid : Nat) (s : State) (beat : Nat := 1) : Host.Outcome State Fault Refusal :=
  .next (match s.flight fid with
    | some f =>
      if matClass (dClass f.desc) && !hGang f.target then
        match f.phase with
        | .started => if s.held f then s else s.parityFault f beat
        | _ => s.partitionActs fid
      else s
    | none => s)

def execConv (fid : Nat) (s : State) (errs : List LaneEcc := []) : Host.Outcome State Fault Refusal :=
  .next (match s.flight fid with
    | some f =>
      let c := s.convCfg f
      if s.runs f 0x40 then ((s.conv f errs).passOn f (if c.empty then [] else c.beats.zip c.passes)).matEnd f else s
    | none => s)

/-! ### Class 0x42 (R211-R213) -/

structure Regroup where
  c : Nat
  n : Nat
  dims : List Nat
  patch : List Nat
  back : Bool

def regroupOf (d : Desc) : Regroup :=
  { c := dfld d 335 320, n := dfld d 451 436, dims := [dfld d 387 364, dfld d 411 388, dfld d 435 412],
    patch := [dfld d 347 340, dfld d 355 348, dfld d 363 356], back := dbit d 336 }

def Regroup.k (g : Regroup) : Nat := g.c * at3 g.patch 0 * at3 g.patch 1 * at3 g.patch 2
def Regroup.tok (g : Regroup) (d : Nat) : Nat := at3 g.dims d / at3 g.patch d
/-- Token rows. -/
def Regroup.rows (g : Regroup) : Nat := g.n * g.tok 0 * g.tok 1 * g.tok 2

/-- The planar index of token element (ρ, κ) (R212). -/
def Regroup.planar (g : Regroup) (ρ κ : Nat) : Nat :=
  let x' := ρ % g.tok 2
  let y' := ρ / g.tok 2 % g.tok 1
  let t' := ρ / (g.tok 2 * g.tok 1) % g.tok 0
  let ν := ρ / (g.tok 2 * g.tok 1 * g.tok 0)
  let dx := κ % at3 g.patch 2
  let dy := κ / at3 g.patch 2 % at3 g.patch 1
  let dt := κ / (at3 g.patch 2 * at3 g.patch 1) % at3 g.patch 0
  let ci := κ / (at3 g.patch 2 * at3 g.patch 1 * at3 g.patch 0)
  (((ν * g.c + ci) * at3 g.dims 0 + at3 g.patch 0 * t' + dt) * at3 g.dims 1 + at3 g.patch 1 * y' + dy) * at3 g.dims 2 +
    at3 g.patch 2 * x' + dx

def regroupChecks (s : State) (f : Flight) : List (Option Nat) :=
  let d := f.desc
  let die := hDie f.target
  let g := regroupOf d
  let fs := dFmt d 256
  let fd := dFmt d 288
  let mult (i lo : Nat) : Option Nat := need lo (at3 g.patch i == 0 || at3 g.dims i % at3 g.patch i == 0)
  [resvBits d 511 452, resvBits d 339 337, wmWord s die d 128 1, need 192 ((dAddr d 192).ok die),
   need 256 (fs.okSrc die && opFmt fs.code),
   need 288 (fd.okCopyDst die (dfld d 287 256) (dfld d 319 288) && opFmt fd.code), need 320 (g.c != 0),
   need 340 (at3 g.patch 0 != 0), need 348 (at3 g.patch 1 != 0), need 356 (at3 g.patch 2 != 0), mult 0 340, mult 1 348, mult 2 356,
   need 320 (decide (g.k ≤ 16777215))]

/-- Elements moved one by one: a bit copy, or a conversion (R212, R248). -/
def Run.moveElem (r : Run) (src dst : Opnd) (copy gather : Bool) (from_ to_ : Nat) : Run × Option (Int × Lane × List Byte) :=
  let k := src.fmt.bits / 8
  if copy then
    let (r, bs, p) := r.read src.w (from_ * k) k
    (r, if r.stop then none else some ((to_ * k : Nat), (0, p), bs))
  else
    let (r, xs, p) := r.readElems src (from_ * k) 1
    let x := xs.headD 0
    if r.stop then (r, none)
    else match r.refuses dst.w (to_ * (dst.fmt.bits / 8)) with
      | some _ => (r, some ((to_ * (dst.fmt.bits / 8) : Nat), (x, p), []))
      | none =>
        let (c, n) := writeCode dst.fmt dst.v x
        let r := r.addSat n
        ((if gather then r.max x else r), some ((to_ * (dst.fmt.bits / 8) : Nat), (x, p), leBytes (dst.fmt.bits / 8) c))

def regroupBody (g : Regroup) (src dst : Opnd) (copy gather : Bool) (t : Task) (r : Run) (u : Unit) : Run × Unit × Bool :=
  let (r, ws) := (List.range t.n).foldl (fun (x : Run × List (Int × List (Byte × Bool))) i =>
    if x.1.stop then x
    else
      let a := g.planar t.row (t.at_ + i)
      let b := t.row * g.k + t.at_ + i
      let (r, w) := x.1.moveElem src dst copy gather (if g.back then b else a) (if g.back then a else b)
      match w with
      | some (off, v, bs) => (r, x.2 ++ [(off, bs.map (fun y => (y, v.2)))])
      | none => (r, x.2)) (r, [])
  if r.stop then (r, u, true)
  else
    let k := dst.fmt.bits / 8
    let bad := ws.filterMap (fun w => r.refuses (dst.w.move w.1) 0)
    let r := (r.missEach bad).writeRuns dst.w (ws.filter (fun w => w.2.length == k && (r.refuses (dst.w.move w.1) 0).isNone))
    (r, u, false)

def State.regroupRun (s : State) (f : Flight) : Run × Nat :=
  let d := f.desc
  let g := regroupOf d
  let src := f.opnd 128 256
  let dst := f.opnd 192 288
  let copy := bitCopy (dfld d 287 256) (dfld d 319 288)
  let fd := dFmt d 288
  let (a, b) := shardPart g.rows (dShardN d) (dShardIx d)
  let zero := g.n == 0 || g.dims.any (· == 0)
  let x := runRows (regroupBody g src dst copy (fd.gather && !copy)) (if zero then [] else rowTasks a b g.k [0])
    (Run.start s (hDie f.target) f.fid) Unit.dieController
  let rate := max 1 (256 * min 16 (at3 g.patch 2 * max (src.fmt.bits / 8) (dst.fmt.bits / 8)) / 16)
  (Run.endRows x.r (hSlot f.target) x.seen (zero || decide (b ≤ a)) (if copy then none else some fd), ((b - a) * g.k + rate - 1) / rate + 12)

def State.regroup (s : State) (f : Flight) : State := (Run.ends (s.regroupRun f) s f true).vecEnd f

def execRegroup (fid : Nat) (s : State) : Host.Outcome State Fault Refusal :=
  .next (match s.flight fid with
    | some f => if s.runs f 0x42 then s.regroup f else s
    | none => s)

/-! ### Boxes and sampling (R214-R216) -/

structure Box where
  y0    : Word
  x0    : Word
  y1    : Word
  x1    : Word
  frame : Nat
  t     : Nat
  obj   : Nat
  resv  : Nat
  deriving DecidableEq, Repr

def boxOf (bs : List Byte) (i : Nat) : Box :=
  let n (off k : Nat) := recNat bs (32 * i + off) k
  { y0 := BitVec.ofNat 32 (n 0 4), x0 := BitVec.ofNat 32 (n 4 4), y1 := BitVec.ofNat 32 (n 8 4), x1 := BitVec.ofNat 32 (n 12 4),
    frame := n 16 2, t := n 18 2, obj := n 20 4, resv := n 24 8 }

structure Sampling where
  oh   : Nat
  ow   : Nat
  nt   : Nat
  nbox : Nat
  mode : Nat
  ext  : Word
  resv : Nat
  deriving DecidableEq, Repr

def samplingOf (bs : List Byte) : Sampling :=
  let n (off k : Nat) := recNat bs off k
  { oh := n 0 2, ow := n 2 2, nt := n 4 2, nbox := n 6 2, mode := n 8 1, ext := BitVec.ofNat 32 (n 12 4), resv := n 9 3 + n 16 16 }

def Sampling.nearest (q : Sampling) : Bool := q.mode % 2 == 1
def Sampling.clampEdge (q : Sampling) : Bool := q.mode / 2 % 2 == 1

def Sampling.ok (q : Sampling) : Bool :=
  within 1 8192 [q.oh, q.ow] && within 1 65535 [q.nt] && decide (q.mode < 4) && q.resv == 0 && fpFinite q.ext

def half : Word := 0x3F000000#32

/-- (hi - lo) / n, the exact difference divided and rounded once (R216). -/
def boxScale (lo hi : Word) (n : Nat) : Word :=
  match (fpVal hi).add (fpVal (fpFlip lo)) with
  | .fin neg m e => if m = 0 then fpSigned neg 0 else fpRound (quotVal neg m n e)
  | x => fpRound x

/-- The coordinate of output i of n along one axis (R216). -/
def boxCoord (lo hi : Word) (n i : Nat) : Word :=
  fpFma (fpAdd (fpOfNat i) half) (boxScale lo hi n) (fpSub lo half)

/-- A floor as a coordinate: none for a NaN. -/
def coordOf (x : Word) : Option Int :=
  match fpVal (fpFloor x) with
  | .fin n m e => let v : Int := if 0 ≤ e then m * 2 ^ e.toNat else (m / 2 ^ (-e).toNat : Nat); some (if n then -v else v)
  | .inf n => some (if n then -(2 ^ 200) else 2 ^ 200)
  | .nan => none

/-- The source sample that stands for coordinate r of n: none for the extrapolation value. -/
def Sampling.axis (q : Sampling) (r : Option Int) (n : Nat) : Option Nat :=
  match r with
  | some i =>
    if 0 ≤ i ∧ i < n then some i.toNat else if q.clampEdge then some (max 0 (min ((n : Int) - 1) i)).toNat else none
  | none => if q.clampEdge then some (Config.clampNaN n % n) else none

/-- The samples an output takes: the four of the bilinear filter or the one of nearest, with the weights fy, fx. -/
structure Taps where
  at_ : List (Option (Nat × Nat))
  fy  : Word
  fx  : Word

def inc (r : Option Int) : Option Int := r.map (· + 1)

def Sampling.pos (q : Sampling) (h w : Nat) (r s : Option Int) : Option (Nat × Nat) :=
  let inside (x : Option Int) (n : Nat) : Bool := match x with | some i => decide (0 ≤ i ∧ i < n) | none => false
  if !q.clampEdge && !(inside r h && inside s w) then none
  else match q.axis r h, q.axis s w with
    | some a, some b => some (a, b)
    | _, _ => none

def Sampling.taps (q : Sampling) (b : Box) (h w i j : Nat) : Taps :=
  let y := boxCoord b.y0 b.y1 q.oh i
  let x := boxCoord b.x0 b.x1 q.ow j
  if q.nearest then
    ⟨[q.pos h w (coordOf (fpAdd y half)) (coordOf (fpAdd x half))], 0, 0⟩
  else
    let r := coordOf y
    let s := coordOf x
    ⟨[q.pos h w r s, q.pos h w r (inc s), q.pos h w (inc r) s, q.pos h w (inc r) (inc s)], fpSub y (fpFloor y), fpSub x (fpFloor x)⟩

/-- The output from the samples' values. -/
def Taps.out (t : Taps) (vs : List Word) : Word :=
  match vs with
  | [a, b, c, d] =>
    let top := fpFma t.fx (fpSub b a) a
    let bot := fpFma t.fx (fpSub d c) c
    canonNaN (fpFma t.fy (fpSub bot top) top)
  | a :: _ => canonNaN a
  | [] => fpNaN

def Box.finite (b : Box) : Bool := fpFinite b.y0 && fpFinite b.x0 && fpFinite b.y1 && fpFinite b.x1

/-- Output element (c, i, j) of a box among c channels (R214). -/
def Sampling.outIx (q : Sampling) (chans : Nat) (b : Box) (c i j : Nat) : Nat :=
  (((b.obj * chans + c) * q.nt + b.t) * q.oh + i) * q.ow + j

/-! ### Class 0x41 (R217) -/

def resampleChecks (s : State) (f : Flight) : List (Option Nat) :=
  let d := f.desc
  let die := hDie f.target
  let fs := dFmt d 384
  let fo := dFmt d 416
  [resvBits d 511 508, wmWord s die d 128 1, need 256 ((dAddr d 256).ok die), wmWord s die d 320 1,
   need 384 (fs.okSrc die && opFmt fs.code), need 416 (fo.okDst die && opFmt fo.code), need 448 (dfld d 463 448 != 0),
   need 464 (decide (dfld d 477 464 < 16384)), need 478 (decide (dfld d 491 478 < 16384))]

/-- The box list's word: 0 when the sampling record gives no boxes, in own working memory otherwise. -/
def resampleRecChecks (s : State) (f : Flight) : List (Option Nat) :=
  let q := samplingOf f.recs
  [if q.nbox = 0 then zeroWord f.desc 192 else wmWord s (hDie f.target) f.desc 192 1]

def resampleRecOk (f : Flight) : Bool :=
  let q := samplingOf f.recs
  let bs := f.recs.drop 32
  q.ok && (List.range q.nbox).all (fun i =>
    let b := boxOf bs i
    b.resv == 0 && decide (b.frame < dfld f.desc 507 492) && decide (b.t < q.nt))

/-- The implied box of image ν. -/
def implied (h w ν t obj : Nat) : Box :=
  { y0 := fpZero, x0 := fpZero, y1 := fpOfNat h, x1 := fpOfNat w, frame := ν, t := t, obj := obj, resv := 0 }

structure ResampleCfg where
  q     : Sampling
  boxes : List Box
  chans : Nat
  h     : Nat
  w     : Nat
  src   : Opnd
  out   : Opnd
  gather : Bool

/-- The sample of channel c of image ν at (r, s). -/
def ResampleCfg.fetch (k : ResampleCfg) (r : Run) (ν c : Nat) (at_ : Option (Nat × Nat)) : Run × Word × Bool :=
  match at_ with
  | none => (r, k.q.ext, false)
  | some (y, x) =>
    let (r, xs, p) := r.readElems k.src ((((ν * k.chans + c) * k.h + y) * k.w + x) * (k.src.fmt.bits / 8)) 1
    (r, xs.headD 0, p)

/-- One strip: up to 256 outputs of a row of a channel of a box. `row` counts boxes, channels and output rows. -/
def ResampleCfg.body (k : ResampleCfg) (t : Task) (r : Run) (u : Unit) : Run × Unit × Bool :=
  let b := k.boxes.getD (t.row / (k.chans * k.q.oh)) (implied 0 0 0 0 0)
  let c := t.row / k.q.oh % k.chans
  let i := t.row % k.q.oh
  let (r, vs) := (List.range t.n).foldl (fun (x : Run × List Lane) l =>
    if x.1.stop then x
    else if !b.finite then (x.1, x.2 ++ [(fpNaN, false)])
    else
      let tp := k.q.taps b k.h k.w i (t.at_ + l)
      let (r, ws) := tp.at_.foldl (fun (y : Run × List Lane) a =>
        if y.1.stop then y
        else
          let (r, v, p) := k.fetch y.1 b.frame c a
          (r, y.2 ++ [(v, p)])) (x.1, [])
      (r, x.2 ++ [(tp.out (ws.map (·.1)), ws.any (·.2))])) (r, [])
  if r.stop then (r, u, true)
  else
    let sz := k.out.fmt.bits / 8
    let base := k.q.outIx k.chans b c i t.at_
    (r.writeLanes k.out k.gather ((vs.zipIdx).map (fun v => ((((base + v.2) * sz : Nat) : Int), v.1))), u, false)

def State.resampleRun (s : State) (f : Flight) : Run × Nat :=
  let d := f.desc
  let q := samplingOf f.recs
  let h := dfld d 477 464 + 1
  let w := dfld d 491 478 + 1
  let nimg := dfld d 507 492
  let all := if q.nbox = 0 then (List.range nimg).map (fun ν => implied h w ν 0 ν)
    else (List.range q.nbox).map (boxOf (f.recs.drop 32))
  let (a, b) := shardPart all.length (dShardN d) (dShardIx d)
  let boxes := (all.drop a).take (b - a)
  let chans := dfld d 463 448
  let fo := dFmt d 416
  let k : ResampleCfg :=
    { q := q, boxes := boxes, chans := chans, h := h, w := w, src := f.opnd 128 384, out := f.opnd 256 416, gather := fo.gather }
  let ts := rowTasks 0 (boxes.length * chans * q.oh) q.ow [0]
  let x := runRows k.body ts (Run.start s (hDie f.target) f.fid) Unit.dieController
  (Run.endRows x.r (hSlot f.target) x.seen boxes.isEmpty (some fo), ts.length * (if q.nearest then 3 else 8) + 15)

def State.resample (s : State) (f : Flight) : State := (Run.ends (s.resampleRun f) s f true).vecEnd f

def execResample (fid : Nat) (s : State) : Host.Outcome State Fault Refusal :=
  .next (match s.flight fid with
    | some f => if s.runs f 0x41 then s.resample f else s
    | none => s)

end Sys2Proof.Machine
end

