-- ==== Sys2Proof/Machine/Crypto.lean ====
section
/-! DEFINITION. The cryptography that R427-R434 name: SHA-384 and SHA-256 (FIPS 180-4), HMAC (RFC 2104), HKDF (RFC 5869) and ECDSA on
brainpoolP384r1 (RFC 5639, FIPS 186-5). -/

namespace Sys2Proof.Machine

/-! ### SHA-2 -/

/-- A SHA-2 function: the rotations of its two large and two small sigma functions, the last of a small one a shift, its constants and
its initial value. -/
structure Sha (w : Nat) where
  big0  : Nat × Nat × Nat
  big1  : Nat × Nat × Nat
  low0  : Nat × Nat × Nat
  low1  : Nat × Nat × Nat
  k     : List (BitVec w)
  init  : List (BitVec w)

variable {w : Nat}

def bigSigma (r : Nat × Nat × Nat) (x : BitVec w) : BitVec w := x.rotateRight r.1 ^^^ x.rotateRight r.2.1 ^^^ x.rotateRight r.2.2
def lowSigma (r : Nat × Nat × Nat) (x : BitVec w) : BitVec w := x.rotateRight r.1 ^^^ x.rotateRight r.2.1 ^^^ x >>> r.2.2

/-- One more word of the message schedule, which is held latest first. -/
def Sha.more (h : Sha w) (ws : List (BitVec w)) : List (BitVec w) :=
  (lowSigma h.low1 (ws.getD 1 0) + ws.getD 6 0 + lowSigma h.low0 (ws.getD 14 0) + ws.getD 15 0) :: ws

/-- The message schedule of a block of sixteen words. -/
def Sha.schedule (h : Sha w) (block : List (BitVec w)) : List (BitVec w) :=
  ((List.range (h.k.length - 16)).foldl (fun ws _ => h.more ws) block.reverse).reverse

/-- One round on the eight working variables, with its constant and its word of the schedule added. -/
def Sha.round (h : Sha w) (v : List (BitVec w)) (kw : BitVec w) : List (BitVec w) :=
  match v with
  | [a, b, c, d, e, f, g, x] =>
    let t1 := x + bigSigma h.big1 e + (e &&& f ^^^ ~~~e &&& g) + kw
    let t2 := bigSigma h.big0 a + (a &&& b ^^^ a &&& c ^^^ b &&& c)
    [t1 + t2, a, b, c, d + t1, e, f, g]
  | _ => v

/-- The hash value after a block. -/
def Sha.block (h : Sha w) (v block : List (BitVec w)) : List (BitVec w) :=
  List.zipWith (· + ·) v ((List.zipWith (· + ·) h.k (h.schedule block)).foldl h.round v)

/-- A list in pieces of n. -/
def piecesOf {α : Type} (n : Nat) : Nat → List α → List (List α)
  | 0, _ => []
  | fuel + 1, xs => if xs.isEmpty then [] else xs.take n :: piecesOf n fuel (xs.drop n)

/-- A number from bytes, the first the most significant. -/
def beNat (bs : List Byte) : Nat := bs.foldl (fun n b => 256 * n + b.toNat) 0
def beBytes (n v : Nat) : List Byte := (List.range n).map (fun i => BitVec.ofNat 8 (v / 256 ^ (n - 1 - i)))

/-- The padded message: a one bit, zeros, and the length in bits, to blocks of sixteen words. -/
def Sha.pad (_ : Sha w) (msg : List Byte) : List Byte :=
  let blk := 2 * w
  let len := w / 4
  let zeros := (2 * blk - 1 - len - msg.length % blk) % blk
  msg ++ 0x80#8 :: List.replicate zeros 0 ++ beBytes len (8 * msg.length)

/-- The digest, its first n bytes. -/
def Sha.digest (h : Sha w) (n : Nat) (msg : List Byte) : List Byte :=
  let bytes := h.pad msg
  let words := (piecesOf (w / 8) bytes.length bytes).map (fun b => BitVec.ofNat w (beNat b))
  (((piecesOf 16 words.length words).foldl h.block h.init).flatMap (fun x => beBytes (w / 8) x.toNat)).take n

/-- The round constants of SHA-384 (FIPS 180-4). -/
def sha512KA : List (BitVec 64) :=
  [0x428A2F98D728AE22, 0x7137449123EF65CD, 0xB5C0FBCFEC4D3B2F, 0xE9B5DBA58189DBBC, 0x3956C25BF348B538, 0x59F111F1B605D019,
   0x923F82A4AF194F9B, 0xAB1C5ED5DA6D8118, 0xD807AA98A3030242, 0x12835B0145706FBE, 0x243185BE4EE4B28C, 0x550C7DC3D5FFB4E2,
   0x72BE5D74F27B896F, 0x80DEB1FE3B1696B1, 0x9BDC06A725C71235, 0xC19BF174CF692694]
def sha512KB : List (BitVec 64) :=
  [0xE49B69C19EF14AD2, 0xEFBE4786384F25E3, 0x0FC19DC68B8CD5B5, 0x240CA1CC77AC9C65, 0x2DE92C6F592B0275, 0x4A7484AA6EA6E483,
   0x5CB0A9DCBD41FBD4, 0x76F988DA831153B5, 0x983E5152EE66DFAB, 0xA831C66D2DB43210, 0xB00327C898FB213F, 0xBF597FC7BEEF0EE4,
   0xC6E00BF33DA88FC2, 0xD5A79147930AA725, 0x06CA6351E003826F, 0x142929670A0E6E70]
def sha512KC : List (BitVec 64) :=
  [0x27B70A8546D22FFC, 0x2E1B21385C26C926, 0x4D2C6DFC5AC42AED, 0x53380D139D95B3DF, 0x650A73548BAF63DE, 0x766A0ABB3C77B2A8,
   0x81C2C92E47EDAEE6, 0x92722C851482353B, 0xA2BFE8A14CF10364, 0xA81A664BBC423001, 0xC24B8B70D0F89791, 0xC76C51A30654BE30,
   0xD192E819D6EF5218, 0xD69906245565A910, 0xF40E35855771202A, 0x106AA07032BBD1B8]
def sha512KD : List (BitVec 64) :=
  [0x19A4C116B8D2D0C8, 0x1E376C085141AB53, 0x2748774CDF8EEB99, 0x34B0BCB5E19B48A8, 0x391C0CB3C5C95A63, 0x4ED8AA4AE3418ACB,
   0x5B9CCA4F7763E373, 0x682E6FF3D6B2B8A3, 0x748F82EE5DEFB2FC, 0x78A5636F43172F60, 0x84C87814A1F0AB72, 0x8CC702081A6439EC,
   0x90BEFFFA23631E28, 0xA4506CEBDE82BDE9, 0xBEF9A3F7B2C67915, 0xC67178F2E372532B]
def sha512KE : List (BitVec 64) :=
  [0xCA273ECEEA26619C, 0xD186B8C721C0C207, 0xEADA7DD6CDE0EB1E, 0xF57D4F7FEE6ED178, 0x06F067AA72176FBA, 0x0A637DC5A2C898A6,
   0x113F9804BEF90DAE, 0x1B710B35131C471B, 0x28DB77F523047D84, 0x32CAAB7B40C72493, 0x3C9EBE0A15C9BEBC, 0x431D67C49C100D4C,
   0x4CC5D4BECB3E42B6, 0x597F299CFC657E2A, 0x5FCB6FAB3AD6FAEC, 0x6C44198C4A475817]

/-- The initial hash value of SHA-384. -/
def sha384Init : List (BitVec 64) :=
  [0xCBBB9D5DC1059ED8, 0x629A292A367CD507, 0x9159015A3070DD17, 0x152FECD8F70E5939, 0x67332667FFC00B31, 0x8EB44A8768581511,
   0xDB0C2E0D64F98FA7, 0x47B5481DBEFA4FA4]

/-- The round constants of SHA-256 (FIPS 180-4). -/
def sha256KA : List (BitVec 32) :=
  [0x428A2F98, 0x71374491, 0xB5C0FBCF, 0xE9B5DBA5, 0x3956C25B, 0x59F111F1, 0x923F82A4, 0xAB1C5ED5, 0xD807AA98, 0x12835B01,
   0x243185BE, 0x550C7DC3, 0x72BE5D74, 0x80DEB1FE, 0x9BDC06A7, 0xC19BF174]
def sha256KB : List (BitVec 32) :=
  [0xE49B69C1, 0xEFBE4786, 0x0FC19DC6, 0x240CA1CC, 0x2DE92C6F, 0x4A7484AA, 0x5CB0A9DC, 0x76F988DA, 0x983E5152, 0xA831C66D,
   0xB00327C8, 0xBF597FC7, 0xC6E00BF3, 0xD5A79147, 0x06CA6351, 0x14292967]
def sha256KC : List (BitVec 32) :=
  [0x27B70A85, 0x2E1B2138, 0x4D2C6DFC, 0x53380D13, 0x650A7354, 0x766A0ABB, 0x81C2C92E, 0x92722C85, 0xA2BFE8A1, 0xA81A664B,
   0xC24B8B70, 0xC76C51A3, 0xD192E819, 0xD6990624, 0xF40E3585, 0x106AA070]
def sha256KD : List (BitVec 32) :=
  [0x19A4C116, 0x1E376C08, 0x2748774C, 0x34B0BCB5, 0x391C0CB3, 0x4ED8AA4A, 0x5B9CCA4F, 0x682E6FF3, 0x748F82EE, 0x78A5636F,
   0x84C87814, 0x8CC70208, 0x90BEFFFA, 0xA4506CEB, 0xBEF9A3F7, 0xC67178F2]

/-- The initial hash value of SHA-256. -/
def sha256Init : List (BitVec 32) :=
  [0x6A09E667, 0xBB67AE85, 0x3C6EF372, 0xA54FF53A, 0x510E527F, 0x9B05688C, 0x1F83D9AB, 0x5BE0CD19]

def sha512 : Sha 64 :=
  { big0 := (28, 34, 39), big1 := (14, 18, 41), low0 := (1, 8, 7), low1 := (19, 61, 6),
    k := sha512KA ++ sha512KB ++ sha512KC ++ sha512KD ++ sha512KE, init := sha384Init }

def sha2 : Sha 32 :=
  { big0 := (2, 13, 22), big1 := (6, 11, 25), low0 := (7, 18, 3), low1 := (17, 19, 10),
    k := sha256KA ++ sha256KB ++ sha256KC ++ sha256KD, init := sha256Init }

def sha384 (msg : List Byte) : List Byte := sha512.digest 48 msg
def sha256 (msg : List Byte) : List Byte := sha2.digest 32 msg

/-! ### HMAC and HKDF -/

/-- HMAC over a hash with the given block size; the keys of R427 are no longer than a block. -/
def hmacOver (hash : List Byte → List Byte) (blk : Nat) (key msg : List Byte) : List Byte :=
  let k := key ++ List.replicate (blk - key.length) 0
  hash (k.map (· ^^^ 0x5C#8) ++ hash (k.map (· ^^^ 0x36#8) ++ msg))

def hmac384 (key msg : List Byte) : List Byte := hmacOver sha384 128 key msg
def hmac256 (key msg : List Byte) : List Byte := hmacOver sha256 64 key msg

/-- HKDF-SHA-384 without salt, for up to 48 bytes. -/
def hkdf384 (ikm info : List Byte) (n : Nat) : List Byte :=
  (hmac384 (hmac384 (List.replicate 48 0) ikm) (info ++ [1])).take n

/-! ### brainpoolP384r1 -/

/-- The prime of the field, the coefficients of y^2 = x^3 + a x + b, the base point and its order (RFC 5639). -/
def bpPrime : Nat := 0x8CB91E82A3386D280F5D6F7E50E641DF152F7109ED5456B412B1DA197FB71123ACD3A729901D1A71874700133107EC53
def bpA : Nat := 0x7BC382C63D8C150C3C72080ACE05AFA0C2BEA28E4FB22787139165EFBA91F90F8AA5814A503AD4EB04A8C7DD22CE2826
def bpB : Nat := 0x04A8C7DD22CE28268B39B55416F0447C2FB77DE107DCD2A62E880EA53EEB62D57CB4390295DBC9943AB78696FA504C11
def bpX : Nat := 0x1D1C64F068CF45FFA2A63A81B7C13F6B8847A3E77EF14FE3DB7FCAFE0CBD10E8E826E03436D646AAEF87B2E247D4AF1E
def bpY : Nat := 0x8ABE1D7520F9C2A45CB1EB8E95CFD55262B70B29FEEC5864E19C054FF99129280E4646217791811142820341263C5315
def bpOrder : Nat := 0x8CB91E82A3386D280F5D6F7E50E641DF152F7109ED5456B31F166E6CAC0425A7CF3AB6AF6B7FC3103B883202E9046565

/-- A point by its Jacobian coordinates, x / z^2 and y / z^3; z = 0 is the point at infinity. -/
structure Point where
  x : Nat
  y : Nat
  z : Nat
  deriving DecidableEq, Repr

def Point.inf : Point := ⟨1, 1, 0⟩
def Point.base : Point := ⟨bpX, bpY, 1⟩

/-- Arithmetic in the field. -/
def fMul (a b : Nat) : Nat := a * b % bpPrime
def fSub (a b : Nat) : Nat := (a + (bpPrime - b % bpPrime)) % bpPrime

def Point.double (p : Point) : Point :=
  let yy := fMul p.y p.y
  let s := 4 * fMul p.x yy
  let zz := fMul p.z p.z
  let m := (3 * fMul p.x p.x + bpA * fMul zz zz) % bpPrime
  let x := fSub (fMul m m) (2 * s)
  ⟨x, fSub (m * fSub s x) (8 * fMul yy yy), fMul (2 * p.y) p.z⟩

def Point.add (p q : Point) : Point :=
  if p.z = 0 then q
  else if q.z = 0 then p
  else
    let pz := fMul p.z p.z
    let qz := fMul q.z q.z
    let u := fMul p.x qz
    let s := fMul p.y (fMul qz q.z)
    let h := fSub (fMul q.x pz) u
    let r := fSub (fMul q.y (fMul pz p.z)) s
    if h = 0 then (if r = 0 then p.double else Point.inf)
    else
      let hh := fMul h h
      let v := fMul u hh
      let x := fSub (fMul r r) (fMul h hh + 2 * v)
      ⟨x, fSub (r * fSub v x) (s * fMul h hh), fMul (fMul p.z q.z) h⟩

/-- k p, by doubling and adding, from bit n - 1 of k down. -/
def Point.times (p : Point) (k : Nat) : Nat → Point
  | 0 => Point.inf
  | n + 1 =>
    let q := (p.times (k / 2) n).double
    if k % 2 = 1 then q.add p else q

/-- a^e modulo m. -/
def powMod (a m e : Nat) : Nat → Nat
  | 0 => 1 % m
  | n + 1 =>
    let r := powMod a m (e / 2) n
    if e % 2 = 1 then r * r % m * a % m else r * r % m

/-- The inverse modulo a prime of 384 bits. -/
def invMod (a m : Nat) : Nat := powMod a m (m - 2) 384

/-- The affine coordinates of a point other than infinity. -/
def Point.affine (p : Point) : Nat × Nat :=
  let i := invMod p.z bpPrime
  let ii := fMul i i
  (fMul p.x ii, fMul p.y (fMul ii i))

/-- The public key of a private scalar: x then y, 48 bytes each (R428). -/
def publicKey (d : Nat) : List Byte :=
  let q := (Point.base.times d 384).affine
  beBytes 48 q.1 ++ beBytes 48 q.2

/-- A public key names a point of the curve. -/
def onCurve (x y : Nat) : Bool :=
  decide (x < bpPrime ∧ y < bpPrime) && y * y % bpPrime == ((x * x + bpA) % bpPrime * x + bpB) % bpPrime

/-- The check of a signature, r then s, under a public key over a digest. -/
def ecdsaVerify (pub digest sig : List Byte) : Bool :=
  let r := beNat (sig.take 48)
  let s := beNat (sig.drop 48)
  let x := beNat (pub.take 48)
  let y := beNat (pub.drop 48)
  decide (1 ≤ r ∧ r < bpOrder ∧ 1 ≤ s ∧ s < bpOrder) && onCurve x y &&
    (let w := invMod s bpOrder
     let q := (Point.base.times (beNat digest * w % bpOrder) 384).add ((⟨x, y, 1⟩ : Point).times (r * w % bpOrder) 384)
     decide (q.z ≠ 0) && q.affine.1 % bpOrder == r)

/-- The signature of a digest by a private scalar, with a nonce. -/
def ecdsaSign (d nonce : Nat) (digest : List Byte) : List Byte :=
  let r := (Point.base.times nonce 384).affine.1 % bpOrder
  beBytes 48 r ++ beBytes 48 (invMod nonce bpOrder * ((beNat digest + r * d) % bpOrder) % bpOrder)

end Sys2Proof.Machine
end

