-- ==== Sys2Proof/Machine/Journal.lean ====
section
/-! DEFINITION. The configuration journal on SM's flash: records, regions, mounting, appending and compaction (R423, R437-R441). -/

namespace Sys2Proof.Machine

/-- Record slots of a region. -/
def jrSlots : Nat := 524288

/-- A slot that reads all 0xFF is erased. -/
def jrErased : Nat → BitVec 512 := fun _ => BitVec.allOnes 512

def rSeq (r : BitVec 512) : Nat := r.toNat % 2 ^ 32
def rType (r : BitVec 512) : Nat := r.toNat / 2 ^ 32 % 2 ^ 16
def rDelete (r : BitVec 512) : Bool := r.getLsbD 56
def rKey (r : BitVec 512) : Nat := r.toNat / 2 ^ 64 % 2 ^ 32
/-- Bytes 12-59. -/
def rData (r : BitVec 512) : Nat := r.toNat / 2 ^ 96 % 2 ^ 384
/-- A slot is a record when its crc matches. -/
def recOk (r : BitVec 512) : Bool := crc32c (leBytes 60 r.toNat) == BitVec.ofNat 32 (r.toNat / 2 ^ 480)

def mkRecord (seq type len : Nat) (del : Bool) (key data : Nat) : BitVec 512 :=
  let n := seq % 2 ^ 32 + 2 ^ 32 * (type % 2 ^ 16) + 2 ^ 48 * (len % 2 ^ 8) + (if del then 2 ^ 56 else 0) +
    2 ^ 64 * (key % 2 ^ 32) + 2 ^ 96 * (data % 2 ^ 384)
  BitVec.ofNat 512 (n + 2 ^ 480 * (crc32c (leBytes 60 n)).toNat)

/-- The slots of a region that are not erased, in order. -/
def State.regionSlots (s : State) (r : Nat) : List (Nat × BitVec 512) :=
  s.sm.journal.filter (fun p => decide (jrSlots * r ≤ p.1 ∧ p.1 < jrSlots * (r + 1)))

/-- The records after OPEN up to CLOSE: the generation when CLOSE states their count. -/
def scanSnapshot (base gen : Nat) : Nat → List (Nat × BitVec 512) → Option Nat
  | _, [] => none
  | i, (k, x) :: t =>
    if k ≠ base + i ∨ recOk x = false then none
    else if rType x = 2 then
      (if rData x % 2 ^ 32 = gen ∧ rData x / 2 ^ 32 % 2 ^ 32 = i - 1 then some gen else none)
    else scanSnapshot base gen (i + 1) t

/-- The generation of a valid region (R439). -/
def State.regionGen (s : State) (r : Nat) : Option Nat :=
  match s.regionSlots r with
  | [] => none
  | (k, o) :: rest =>
    if k = jrSlots * r ∧ recOk o = true ∧ rType o = 1 then scanSnapshot (jrSlots * r) (rData o % 2 ^ 32) 1 rest else none

/-- The winning region and its generation: the higher one, modulo 2^32, when both are valid. -/
def State.winner (s : State) : Option (Nat × Nat) :=
  match s.regionGen 0, s.regionGen 1 with
  | none, none => none
  | some g, none => some (0, g)
  | none, some g => some (1, g)
  | some g, some h => if (h + 2 ^ 32 - g) % 2 ^ 32 ≠ 0 ∧ (h + 2 ^ 32 - g) % 2 ^ 32 < 2 ^ 31 then some (1, h) else some (0, g)

def State.jrRegion (s : State) : Nat := s.fld Reg.jrStatus 28 28

/-- The slots from slot k on up to the first erased one. -/
def upToErased : Nat → List (Nat × BitVec 512) → List (Nat × BitVec 512)
  | _, [] => []
  | k, p :: t => if p.1 = k then p :: upToErased (k + 1) t else []

/-- The slots of a region up to its first erased one, as the mount reads them (R439). -/
def State.liveSlots (s : State) (r : Nat) : List (Nat × BitVec 512) := upToErased (jrSlots * r) (s.regionSlots r)

/-- The first erased slot of a region, where records are appended. -/
def State.nextSlot (s : State) (r : Nat) : Nat := jrSlots * r + (s.liveSlots r).length

/-- Records that pass crc in the winning region, OPEN and CLOSE apart. -/
def State.jrRecords (s : State) : List (BitVec 512) :=
  ((s.liveSlots s.jrRegion).map (·.2)).filter (fun r => recOk r && rType r != 1 && rType r != 2)

/-- The record of the highest seq for a type and key, standing unless it carries delete (R437). -/
def State.standing (s : State) (type key : Nat) : Option (BitVec 512) :=
  let mine := s.jrRecords.filter (fun r => rType r == type && rKey r == key)
  match mine.foldl (fun (b : Option (BitVec 512)) r => match b with
      | none => some r
      | some x => if rSeq x < rSeq r then some r else some x) none with
  | none => none
  | some r => if rDelete r then none else some r

/-- Every standing record, in ascending order of type and key. -/
def State.allStanding (s : State) : List (BitVec 512) :=
  let keys := s.jrRecords.foldl (fun ks r => setInsert ks (2 ^ 32 * rType r + rKey r)) []
  keys.filterMap (fun k => s.standing (k / 2 ^ 32) (k % 2 ^ 32))

def State.putSlot (s : State) (slot : Nat) (r : BitVec 512) : State :=
  { s with sm := { s.sm with journal := store jrErased s.sm.journal slot r } }

/-- JR_STATUS.fill: slots used in percent. -/
def State.setFill (s : State) : State :=
  s.putFld Reg.jrStatus 15 8 (100 * (s.nextSlot s.jrRegion - jrSlots * s.jrRegion) / jrSlots)

/-- Compaction begins at 75%, once the other region is erased; a safe state ends it, and none begins there (R440, R441). -/
def State.maybeCompact (s : State) : State :=
  if 393216 ≤ s.nextSlot s.jrRegion - jrSlots * s.jrRegion ∧ s.sm.compact = false ∧ s.sm.erase = false ∧
      s.regionSlots (1 - s.jrRegion) = [] ∧ s.isSafe = false then
    ({ s with sm := { s.sm with compact := true } } : State).setFlag Reg.jrStatus 30 true
  else s

/-- The next record written at a slot, with the next seq. -/
def State.writeRecord (s : State) (slot type len : Nat) (del : Bool) (key data : Nat) : State :=
  let seq := (s.reg Reg.jrSeq).toNat + 1
  (s.putSlot slot (mkRecord seq type len del key data)).setReg Reg.jrSeq (BitVec.ofNat 32 seq)

/-- A full region takes no record; its appends wait. -/
def State.regionFull (s : State) : Bool := decide (jrSlots * (s.jrRegion + 1) ≤ s.nextSlot s.jrRegion)

/-- A record at the first erased slot of the winning region. -/
def State.appendRecord (s : State) (type len : Nat) (del : Bool) (key data : Nat) : State :=
  (s.writeRecord (s.nextSlot s.jrRegion) type len del key data).setFill

def State.jrAppend (s : State) (type len : Nat) (del : Bool) (key data : Nat) : State :=
  (s.appendRecord type len del key data).maybeCompact

/-- SM's firmware runs (R424). -/
def State.firmwareRuns (s : State) : Bool := decide (3 ≤ s.fld Reg.smBoot 31 28 ∧ s.fld Reg.smBoot 31 28 ≤ 5)

/-- An append by firmware; it waits during compaction and while the region is full. -/
def State.fwAppend (s : State) (type key data : Nat) : State :=
  if !s.firmwareRuns then s
  else if s.sm.compact || s.regionFull then
    { s with sm := { s.sm with jwait := s.sm.jwait ++ [⟨1, BitVec.ofNat 16 type, BitVec.ofNat 32 key, BitVec.ofNat 384 data⟩] } }
  else s.jrAppend type 52 false key data

/-- The snapshot in the other region: OPEN, the standing records, CLOSE; that region then wins and the old one is cullet. -/
def State.compactNow (s : State) : State :=
  let r := 1 - s.jrRegion
  let gen := ((s.reg Reg.jrGen).toNat + 1) % 2 ^ 32
  let recs := s.allStanding
  let base := jrSlots * r
  let s := s.writeRecord base 1 8 false 0 gen
  let s := (recs.foldl (fun (x : State × Nat) rec_ =>
    (x.1.writeRecord (base + x.2) (rType rec_) (rec_.toNat / 2 ^ 48 % 2 ^ 8) false (rKey rec_) (rData rec_), x.2 + 1)) (s, 1)).1
  let s := s.writeRecord (base + recs.length + 1) 2 12 false 0 (gen + 2 ^ 32 * recs.length)
  let s := ((s.setReg Reg.jrGen (BitVec.ofNat 32 gen)).putFld Reg.jrStatus 28 28 r).setFlag Reg.jrStatus 30 false
  (({ s with sm := { s.sm with compact := false, erase := true } } : State).setFlag Reg.jrStatus 29 true).setFill

/-- The first m slots of a compaction's snapshot stand in the other region, without CLOSE (R441), each with its seq. -/
def State.partSnapshot (s : State) (m : Nat) : State :=
  let base := jrSlots * (1 - s.jrRegion)
  let full := s.compactNow
  let n := min m (s.allStanding.length + 1)
  let s : State := { s with sm := { s.sm with journal := eraseRange full.sm.journal (base + n) (base + jrSlots) } }
  s.setReg Reg.jrSeq (s.reg Reg.jrSeq + BitVec.ofNat 32 n)

/-- A compaction in progress ends: how much of its snapshot is written is open (entry 1). -/
def State.endCompaction (s : State) : State :=
  if s.sm.compact then
    let (n, s) := s.freeCount
    let s := s.partSnapshot n
    ({ s with sm := { s.sm with compact := false } } : State).setFlag Reg.jrStatus 30 false
  else s

/-- An append in progress ends: it completes, leaves a slot that fails its crc, or leaves its slot erased, which is open (entry 1);
one that waits for the region does not begin (R441, R444). -/
def State.endAppend (s : State) : State :=
  match s.sm.jop with
  | none => s
  | some o =>
    let s := ({ s with sm := { s.sm with jop := none } } : State).setFlag Reg.jrStatus 31 false
    if o.op = 2 ∨ s.sm.compact ∨ s.regionFull then s
    else
      let (n, s) := s.freeCount
      let len := if o.op = 3 then 4 else 52
      let data := if o.op = 3 then 0 else o.data.toNat
      if n % 3 = 0 then s
      else if n % 3 = 1 then s.appendRecord o.type.toNat len (o.op == 3) o.key.toNat data
      else
        let slot := s.nextSlot s.jrRegion
        let whole := mkRecord ((s.reg Reg.jrSeq).toNat + 1) o.type.toNat len (o.op == 3) o.key.toNat data
        (s.putSlot slot (whole ^^^ BitVec.ofNat 512 (2 ^ 480))).setFill

/-- The erase of the cullet is cut: how much of it is done, if any of it, is open (entry 1). -/
def State.cutErase (s : State) : State :=
  if s.sm.erase then
    let (n, s) := s.freeCount
    let base := jrSlots * (1 - s.jrRegion)
    { s with sm := { s.sm with journal := eraseRange s.sm.journal base (base + n % (jrSlots + 1)) } }
  else s

/-- Appends that waited are made. -/
def State.drainWaits (s : State) : State :=
  let ws := s.sm.jwait
  ws.foldl (fun s w => s.fwAppend w.type.toNat w.key.toNat w.data.toNat) { s with sm := { s.sm with jwait := [] } }

def execCompactionDone (s : State) : Host.Outcome State Fault Refusal :=
  .next (if s.sm.compact && s.firmwareRuns then s.compactNow.drainWaits else s)

/-- The cullet is erased; a compaction that waited for it begins. -/
def State.culletErased (s : State) : State :=
  let r := 1 - s.jrRegion
  let s : State := { s with sm := { s.sm with
    journal := eraseRange s.sm.journal (jrSlots * r) (jrSlots * (r + 1)), erase := false } }
  (s.setFlag Reg.jrStatus 29 false).maybeCompact

def execCulletEraseDone (s : State) : Host.Outcome State Fault Refusal :=
  .next (if s.sm.erase && s.firmwareRuns then s.culletErased else s)

/-- The journal is mounted: the winning region, its generation, the highest seq, and the erase of a cullet that holds anything
(R439, R441). -/
def State.mount (s : State) (r gen : Nat) : State :=
  let seqs := (s.sm.journal.map (·.2)).filter recOk
  let top := seqs.foldl (fun m x => Nat.max m (rSeq x)) 0
  let dirty := !(s.regionSlots (1 - r)).isEmpty
  let s := (s.setReg Reg.jrGen (BitVec.ofNat 32 gen)).setReg Reg.jrSeq (BitVec.ofNat 32 top)
  let s := (s.setReg Reg.jrStatus 0).putFld Reg.jrStatus 28 28 r
  let s := s.setFlag Reg.jrStatus 29 dirty
  ({ s with sm := { s.sm with jop := none, jwait := [], compact := false, erase := dirty } } : State).setFill

/-! ### Operator settings and the counter (R430, R438 note 2) -/

/-- The first data word of a setting. -/
def State.setting (s : State) (n : Nat) : Option Nat := (s.standing 0x60 n).map (fun r => rData r % 2 ^ 32)

def State.stage (s : State) : Nat := s.fld Reg.smBoot 31 28

/-- An exchange with the counter is authenticated by HMAC-SHA-256: the derived key answers as the one installed does (R430). -/
def State.counterOpens (s : State) (k : SmKeys) : Bool :=
  let msg := leBytes 4 s.sm.counter.toNat
  hmac256 k.counter msg == hmac256 s.sm.counterKey msg

/-- The counter is raised to the running image's svn, through an authenticated exchange (R430). -/
def State.beginCommit (s : State) : State :=
  let v := s.reg Reg.smFwSvn
  if s.sm.counter.toNat < v.toNat ∧ s.sm.cwrite = none ∧ s.sm.keys.any s.counterOpens = true then
    ({ s with sm := { s.sm with cwrite := some v } } : State).setFlag Reg.smRbCtrl 1 true
  else s

/-- The operator setting auto_commit holds 1, its default. -/
def State.autoCommits (s : State) : Bool := (s.setting 1).getD 1 % 2 == 1

/-- With auto_commit the image that reached stage 5 raises the counter. -/
def State.autoCommit (s : State) : State := if s.stage = 5 ∧ s.autoCommits = true then s.beginCommit else s

/-! ### Operations through JR_CTRL (R438 note 1, R443) -/

/-- Software may write operator settings 0-255 only. -/
def State.typeRefused (s : State) : Bool :=
  s.fld Reg.jrType 15 0 != 0x60 || decide (255 < (s.reg Reg.jrKey).toNat)

/-- Bytes 12-59 of JR_BUF. -/
def State.bufData (s : State) : Nat :=
  (List.range 12).foldl (fun n i => n + 2 ^ (32 * i) * (s.reg (Reg.jrBuf (i + 3))).toNat) 0

def State.jrBusy (s : State) : Bool := s.flag Reg.jrStatus 31

/-- An operation begins: the values standing now are used. -/
def State.jrBegin (s : State) (op : Nat) : State :=
  ({ s with sm := { s.sm with jop := some ⟨op, BitVec.ofNat 16 (s.fld Reg.jrType 15 0), s.reg Reg.jrKey,
      BitVec.ofNat 384 s.bufData⟩ } } : State).setFlag Reg.jrStatus 31 true

def State.jrOp (s : State) (op : Nat) : State :=
  if !s.firmwareRuns || s.jrBusy then s
  else if op ≠ 2 ∧ s.typeRefused = true then s.putFld Reg.jrStatus 7 0 2
  else s.jrBegin op

def execJrWrite (s : State) : Host.Outcome State Fault Refusal := .next (s.jrOp 1)
def execJrRead (s : State) : Host.Outcome State Fault Refusal := .next (s.jrOp 2)
def execJrDelete (s : State) : Host.Outcome State Fault Refusal := .next (s.jrOp 3)

/-- The end of an operation with an error code. -/
def State.jrEnd (s : State) (err : Nat) : State :=
  (({ s with sm := { s.sm with jop := none } } : State).setFlag Reg.jrStatus 31 false).putFld Reg.jrStatus 7 0 err

/-- A record into JR_BUF. -/
def State.jrFill (s : State) (r : BitVec 512) : State :=
  (List.range 16).foldl (fun s i => s.setReg (Reg.jrBuf i) (BitVec.ofNat 32 (r.toNat / 2 ^ (32 * i)))) s

/-- An operation ends when its record has been read back; a setting takes effect with its record. A write waits for a
compaction in progress and while the region is full. -/
def State.jrOpDone (s : State) (o : JournalOp) (flashOk : Bool) : State :=
  if o.op = 2 then
    (match s.standing o.type.toNat o.key.toNat with
     | none => s.jrEnd 1
     | some r => if flashOk then (s.jrFill r).jrEnd 0 else s.jrEnd 3)
  else if s.sm.compact || s.regionFull then s
  else if !flashOk then s.jrEnd 3
  else (s.jrAppend o.type.toNat (if o.op = 3 then 4 else 52) (o.op == 3) o.key.toNat
    (if o.op = 3 then 0 else o.data.toNat)).autoCommit.jrEnd 0

def execJrOpDone (flashOk : Bool) (s : State) : Host.Outcome State Fault Refusal :=
  .next (match s.sm.jop with
    | some o => if s.firmwareRuns then s.jrOpDone o flashOk else s
    | none => s)

end Sys2Proof.Machine
end

