-- ==== Sys2Proof/Machine/Memory.lean ====
section
/-! DEFINITION. The memory controllers and working memory: requests, errors, scrubbing, maintenance, the IEEE 1500 port,
post-package repair and initialisation (R232-R245, R252, R349). -/

namespace Sys2Proof.Machine

/-! ### Errors (R235, R244, R349) -/

/-- The counters of a home: a stack's controller or a host die's. -/
def ceCount (home : Nat) : Nat := if isHd home then Reg.hxCeCount home else Reg.hcCeCount home
def ueCount (home : Nat) : Nat := if isHd home then Reg.hxUeCount home else Reg.hcUeCount home

/-- The last uncorrectable line of a home, by its offset in the window. -/
def State.lastUe (s : State) (home off : Nat) : State :=
  let lo := if isHd home then Reg.hxLastUeLo home else Reg.hcLastUeLo home
  let hi := if isHd home then Reg.hxLastUeHi home else Reg.hcLastUeHi home
  (s.setReg lo (BitVec.ofNat 32 off)).setReg hi (BitVec.ofNat 32 (off / 2 ^ 32))

def homeBase (home : Nat) : Nat := if isHd home then hostBase (home - 80) else hbmBase home
def homeSize (home : Nat) : Nat := if isHd home then hostSize else hbmSize

/-- What the code of a controller finds when it reads a line that is not poisoned, for a requester (R235). -/
def State.eccLine (s : State) (home line : Nat) (who : LogBy) (ecc : Ecc) : State :=
  if s.linePoisoned line then s
  else match ecc with
    | .clean => s
    | .corrected => (s.count (ceCount home)).log home .corrected (64 * line) 0 who .read
    | .uncorrectable =>
      let s := (s.count (ueCount home)).lastUe home (64 * line - homeBase home)
      (s.markPoison line).log home .uncorrectable (64 * line) 0 who .read

/-- The same for working memory, whose corrections are counted only (R244). -/
def State.eccWm (s : State) (die line : Nat) (who : LogBy) (ecc : Ecc) : State :=
  if s.linePoisoned line then s
  else match ecc with
    | .clean => s
    | .corrected => s.count (Reg.wmCeCount die)
    | .uncorrectable =>
      let s := (s.count (Reg.wmUeCount die)).setReg (Reg.wmLastUe die) (BitVec.ofNat 32 (64 * line - wmBase die))
      (s.markPoison line).log die .uncorrectable (64 * line) 0 who .read

def State.ecc (s : State) (a : Nat) (who : LogBy) (ecc : Ecc) : State :=
  if isWorkMem a then s.eccWm (ownerDie a) (a / 64) who ecc else s.eccLine (ownerDie a) (a / 64) who ecc

/-! ### Requests (R234, R252) -/

/-- The access type of a request. -/
def busAcc : BusAccess → LogAcc
  | .read _ => .read
  | .write _ => .write

/-- Answer a request the controller refuses; the entry names the die whose request it is. -/
def State.refuse (s : State) (m : Miss) (a : Nat) (acc : LogAcc) : State :=
  match m with
  | .addr d k => (s.log d k a 0 (.controller (ownerDie a)) acc).emit (.memFault (BitVec.ofNat 8 stAddrFault))
  | .bias h => (s.log h .bias a 0 (.controller (ownerDie a)) acc).emit (.memFault (BitVec.ofNat 8 stBiasFault))
  | .course => s.emit (.memFault (BitVec.ofNat 8 stCourseLost))
  | .lost _ => s.emit (.memFault (BitVec.ofNat 8 stDieLost))
  | .flow _ => s.emit (.memFault (BitVec.ofNat 8 stFlowTimeout))
  | .remote c _ _ => s.emit (.memFault (BitVec.ofNat 8 c))

/-- The stored lines that an access reads: those it touches, but for the lines that a write merges nothing into. The code covers a line
of HBM or host memory (R234), a word of 64 bits in working memory (R244). -/
def storedRead (a : Nat) (acc : BusAccess) : List Nat :=
  let touched (n : Nat) : List Nat := if n = 0 then [] else List.range' (a / 64) ((a + n - 1) / 64 + 1 - a / 64)
  match acc with
  | .read n => touched n
  | .write bs =>
    let unit := if isWorkMem a then 8 else 64
    let e := a + bs.length
    (touched bs.length).filter (fun l => (a / 64 == l && a % unit != 0) || ((e - 1) / 64 == l && e % unit != 0))

/-- A read or write, served: each stored line that it reads meets what its code finds, by the place of the line in the access. -/
def State.access (s : State) (a : Nat) (acc : BusAccess) (poisoned : Bool) (eccs : List Ecc) : State :=
  let s := (storedRead a acc).foldl (fun s l => s.ecc (64 * l) (.controller (ownerDie a)) (eccs.getD (l - a / 64) .clean)) s
  match acc with
  | .read n =>
    let s := s.shareCopies (a / 64)
    s.emit (.memData (s.bytes a n) (s.anyPoison a n))
  | .write bs =>
    let (s, bad) := s.write a bs poisoned
    s.emit (.memAck bad)

/-- A request to a memory controller. -/
def State.hbmRequest (s : State) (a : Nat) (acc : BusAccess) (poisoned : Bool) (ecc : Ecc) : State :=
  let who := Waiter.home (ownerDie a)
  match s.meets (ownerDie a) a (some who) with
  | some m => (s.refuse m a (busAcc acc)).unwait who (a / 64)
  | none => match s.extHolder (a / 64) (some who) with
    | some h => s.holdFor (a / 64) h (some who)
    | none => (s.access a acc poisoned [ecc]).unwait who (a / 64)

def execHbmRequest (addr : Nat) (access : BusAccess) (poisoned : Bool) (ecc : Ecc) (s : State) :
    Host.Outcome State Fault Refusal :=
  .next (s.hbmRequest addr access poisoned ecc)

/-- A memory-side operation at a stack's controller (R250, R252); one with a reserved code changes nothing and is acknowledged. -/
def State.msopRequest (s : State) (a op mask : Nat) (data : List Byte) (poisoned : Bool) (ecc : Ecc) : State :=
  if !isHbm a then s.refuse (.addr (ownerDie a) .address) a .atomic
  else
    let who := Waiter.home (ownerDie a)
    match s.meets (ownerDie a) a (some who) with
    | some m => (s.refuse m a .atomic).unwait who (a / 64)
    | none => match s.extHolder (a / 64) (some who) with
      | some h => s.holdFor (a / 64) h (some who)
      | none =>
        let s := if poisoned || (msopSize op).isNone then s else s.ecc a (.controller (ownerDie a)) ecc
        let (s, bad) := s.msop a op mask data poisoned
        (s.emit (.memAck bad)).unwait who (a / 64)

def execMsopRequest (addr : Nat) (op : BitVec 8) (mask : BitVec 32) (data : List Byte) (poisoned : Bool) (ecc : Ecc) (s : State) :
    Host.Outcome State Fault Refusal :=
  .next (s.msopRequest addr op.toNat mask.toNat data poisoned ecc)

/-- Refresh keeps what the memory holds: no state changes (R232, R349). -/
def execHbmRefresh (_home : Nat) (s : State) : Host.Outcome State Fault Refusal := .next s

/-! ### Scrubbing (R237) -/

def State.scrubAt (s : State) (home : Nat) : Nat := ((s.scrubPos.find? (fun p => decide (p.1 = home))).map (·.2)).getD 0

def State.scrubStep (s : State) (home : Nat) (ecc : Ecc) : State :=
  let hours := s.fld (if isHd home then Reg.hxScrub home else Reg.hcScrub home) 15 0
  let out := !isHd home && s.flag (Reg.hcCtrl home) 0
  if hours = 0 ∨ out ∨ s.dieDown home then s
  else
    let n := s.scrubAt home
    let s := s.eccLine home (homeBase home / 64 + n) .scrub ecc
    { s with scrubPos := (home, (n + 1) % (homeSize home / 64)) :: s.scrubPos.filter (fun p => decide (p.1 ≠ home)) }

def execHbmScrubStep (home : Nat) (ecc : Ecc) (s : State) : Host.Outcome State Fault Refusal := .next (s.scrubStep home ecc)

/-! ### Maintenance (R238) -/

def execHbmMaintEnter (stack : Nat) (s : State) : Host.Outcome State Fault Refusal :=
  .next (if s.dieDown stack then s else s.setFlag (Reg.hcCtrl stack) 0 true)

/-- The write queue is drained and the accepted requests are complete. -/
def execHbmMaintDrained (stack : Nat) (s : State) : Host.Outcome State Fault Refusal :=
  .next (if s.flag (Reg.hcCtrl stack) 0 && !s.dieDown stack then s.setFlag (Reg.hcCtrl stack) 1 true else s)

def State.maintExit (s : State) (stack : Nat) : State :=
  (s.setFlag (Reg.hcCtrl stack) 0 false).setFlag (Reg.hcCtrl stack) 1 false

def execHbmMaintExit (stack : Nat) (s : State) : Host.Outcome State Fault Refusal :=
  .next (if s.dieDown stack then s else s.maintExit stack)

/-- The stack is out of service. -/
def State.maintained (s : State) (stack : Nat) : Bool := s.flag (Reg.hcCtrl stack) 1

/-! ### The IEEE 1500 port (R239): its registers lie in the stack's window (R27) -/

def State.w1500Go (s : State) (stack : Nat) : State :=
  let ctrl := Reg.hcW1500Ctrl (stack + 40)
  if !s.maintained stack || s.flag ctrl 16 then s.setFlag ctrl 17 true
  else
    let ir := BitVec.ofNat 16 (s.fld (Reg.hcW1500Ir (stack + 40)) 15 0)
    { s.setFlag ctrl 16 true with wir := (stack, ir) :: s.wir.filter (fun p => decide (p.1 ≠ stack)) }

def execW1500Go (stack : Nat) (s : State) : Host.Outcome State Fault Refusal :=
  .next (if s.dieDown stack then s else s.w1500Go stack)

/-- Data-register bits a shift takes: values outside 1 to 1,024 act as 1,024. -/
def drLen (ctrl : Word) : Nat :=
  let n := wfld ctrl 10 0
  if 1 ≤ n ∧ n ≤ 1024 then n else 1024

/-- The captured bits replace those shifted out. -/
def State.w1500Shift (s : State) (stack : Nat) (captured : BitVec 1024) : State :=
  let len := drLen (s.reg (Reg.hcW1500Ctrl (stack + 40)))
  let s := (List.range 32).foldl (fun s n =>
    let old := (s.reg (Reg.hcW1500Dr (stack + 40) n)).toNat
    let k := min 32 (len - 32 * n)
    let new := captured.toNat / 2 ^ (32 * n) % 2 ^ k
    s.setReg (Reg.hcW1500Dr (stack + 40) n) (BitVec.ofNat 32 (old / 2 ^ k * 2 ^ k + new))) s
  s.setFlag (Reg.hcW1500Ctrl (stack + 40)) 16 false

def execW1500ShiftDone (stack : Nat) (captured : BitVec 1024) (s : State) : Host.Outcome State Fault Refusal :=
  .next (if s.flag (Reg.hcW1500Ctrl (stack + 40)) 16 && !s.dieDown stack then s.w1500Shift stack captured else s)

/-! ### Post-package repair (R240) -/

/-- The lines of the row that serves the line at stack offset o (R233). -/
def rowLines (stack o : Nat) : List Nat :=
  let base := o / 0x10000 * 0x10000 + o % 0x2000 - o % 64 - o / 0x80 % 2 * 0x80
  (List.range 8).flatMap (fun j => [(hbmBase stack + base + j * 0x2000) / 64, (hbmBase stack + base + j * 0x2000 + 0x80) / 64])

/-- What the code finds on a line the repair itself reads is open (entry 1): clean, corrected or uncorrectable. -/
def readEcc (n : Nat) : Ecc := if n = 0 then .clean else if n = 1 then .corrected else .uncorrectable

/-- go: the lines of the row are read into the buffer, each under R235, and the repair begins. -/
def State.pprGo (s : State) (stack : Nat) (hard : Bool) : State :=
  let ctrl := Reg.hcPprCtrl stack
  let s := s.setFlag ctrl 0 hard
  let o := 2 ^ 32 * s.fld (Reg.hcPprAddrHi stack) 4 0 + (s.fld (Reg.hcPprAddrLo stack) 31 6) * 64
  if !s.maintained stack || s.flag ctrl 30 || decide (hbmSize ≤ o) then s.putFld ctrl 29 28 3
  else
    let lines := rowLines stack o
    let (n, s) := s.freeCount
    let s := lines.zipIdx.foldl (fun s l => s.eccLine stack l.1 (.controller stack) (readEcc (n / 3 ^ l.2 % 3))) s
    let buf := lines.map (fun l => (l, (List.range 64).map (fun i => s.memByte (l * 64 + i)), s.linePoisoned l))
    { (s.setFlag ctrl 30 true).putFld ctrl 29 28 0 with
      ppr := s.ppr.filter (fun r => decide (r.stack ≠ stack)) ++ [⟨stack, hard, buf⟩] }

def execPprGo (stack : Nat) (hard : Bool) (s : State) : Host.Outcome State Fault Refusal :=
  .next (if s.dieDown stack then s else s.pprGo stack hard)

/-- Firmware records a hard repair in the journal: the stack offset of the line and the result (R240, R438). -/
def State.journalRepair (s : State) (stack result : Nat) : State :=
  let o := 2 ^ 32 * s.fld (Reg.hcPprAddrHi stack) 4 0 + (s.fld (Reg.hcPprAddrLo stack) 31 6) * 64
  let n := (s.jrRecords.filter (fun r => rType r == 0x30 && rKey r / 2 ^ 24 == stack)).length +
    (s.sm.jwait.filter (fun w => w.type == 0x30 && w.key.toNat / 2 ^ 24 == stack)).length
  s.fwAppend 0x30 (2 ^ 24 * stack + n) (o + 2 ^ 64 * result)

/-- The lines go back: those read correctly as they were, the others marked poisoned. -/
def State.pprDone (s : State) (r : Repair) (result : Nat) : State :=
  let s := r.buffer.foldl (fun s l =>
    let (line, bs, bad) := l
    if bad then s.markPoison line else (s.putMem (64 * line) bs).clearPoison line) s
  let s := (s.setFlag (Reg.hcPprCtrl r.stack) 30 false).putFld (Reg.hcPprCtrl r.stack) 29 28 result
  let o := 2 ^ 32 * s.fld (Reg.hcPprAddrHi r.stack) 4 0 + (s.fld (Reg.hcPprAddrLo r.stack) 31 6) * 64
  let s := ({ s with ppr := s.ppr.filter (fun x => decide (x.stack ≠ r.stack)) } : State).log r.stack .ppr (hbmBase r.stack + o)
    (2 * result + (if r.hard then 1 else 0)) (.controller r.stack)
  if r.hard then s.journalRepair r.stack result else s

def execPprDone (stack : Nat) (result : BitVec 2) (s : State) : Host.Outcome State Fault Refusal :=
  .next (match s.ppr.find? (fun r => decide (r.stack = stack)) with
    | some r => if s.dieDown stack then s else s.pprDone r result.toNat
    | none => s)

/-! ### Working memory (R242-R245) -/

def State.wmBusy (s : State) (die : Nat) : Bool := s.flag (Reg.wmCtrl die) 1

/-- A bank access reaches two lines at most; `next` is what the code finds on the second. -/
def execWmAccess (die offset : Nat) (access : BusAccess) (poisoned : Bool) (ecc : Ecc) (s : State) (next : Ecc := .clean) :
    Host.Outcome State Fault Refusal :=
  .next (
    if wmSize ≤ offset then s.refuse (.addr die .address) (wmBase die + offset) (busAcc access)
    else if s.dieDown die then s.refuse (.addr die .lost) (wmBase die + offset) (busAcc access)
    else if s.wmBusy die then { s with wmQ := s.wmQ ++ [⟨die, offset, access, poisoned, [ecc, next]⟩] }
    else s.access (wmBase die + offset) access poisoned [ecc, next])

def State.wmInit (s : State) (die : Nat) : State := s.setFlag (Reg.wmCtrl die) 1 true

def execWmInit (die : Nat) (s : State) : Host.Outcome State Fault Refusal :=
  .next (if s.dieDown die then s else s.wmInit die)

/-- Every byte is 0 and no line is poisoned; the accesses that waited are then served in order. -/
def State.wmInitDone (s : State) (die : Nat) : State :=
  let s := { s with mem := eraseRange s.mem (wmBase die) (wmBase die + wmSize)
                    poison := setEraseRange s.poison (wmBase die / 64) ((wmBase die + wmSize) / 64) }
  let s := s.setFlag (Reg.wmCtrl die) 1 false
  let mine := s.wmQ.filter (fun w => decide (w.die = die))
  let s := { s with wmQ := s.wmQ.filter (fun w => decide (w.die ≠ die)) }
  mine.foldl (fun s w => s.access (wmBase die + w.offset) w.access w.poisoned w.eccs) s

def execWmInitDone (die : Nat) (s : State) : Host.Outcome State Fault Refusal :=
  .next (if s.wmBusy die && !s.dieDown die then s.wmInitDone die else s)

end Sys2Proof.Machine
end

