-- ==== Sys2Proof/Machine/Mover.lean ====
section
/-! DEFINITION. The movers: copying, converting, gathering and filling (R247, R248), memory-side operations from lists (R253, R254),
faults (R249), and enabling and disabling. -/

namespace Sys2Proof.Machine

/-! ### Conversions (R248) -/

/-- How a row's units become bytes: `size` bytes of source each, to `dsize` of destination. -/
structure Conv where
  copy   : Bool
  src    : Fmt
  dst    : Fmt
  vs     : Int
  vd     : Int
  gather : Bool
  deriving DecidableEq, Repr

/-- Bytes of a unit; elements of MXFP4 are counted in bytes of the element plane. -/
def unitBytes (f : Fmt) : Nat := max 1 (f.bits / 8)

def Conv.ss (c : Conv) : Nat := unitBytes c.src
def Conv.ds (c : Conv) : Nat := unitBytes c.dst

/-- A bit copy of single bytes. -/
def Conv.bytes : Conv := { copy := true, src := .e4m3, dst := .e4m3, vs := 0, vd := 0, gather := false }

/-- A G64 word on another grid: its exact value rounded once, saturated and counted (R248). -/
def regrid (vs vd : Int) (w : DWord) : Nat × Nat :=
  if w = gnanCode then (gnanCode.toNat, 0)
  else
    let q := rneShift w.toInt.natAbs (vs - vd)
    let cap := 2 ^ 63 - 1
    let m := min q cap
    ((BitVec.ofInt 64 (if w.toInt < 0 then -(m : Int) else m)).toNat, if cap < q then 1 else 0)

/-- One element converted: the code, the saturations, and the value that enters the conversion. -/
def Conv.elem (c : Conv) (code : Nat) : Nat × Nat × Word :=
  match c.src, c.dst with
  | .g64, .g64 =>
    let w := BitVec.ofNat 64 code
    let (q, n) := regrid c.vs c.vd w
    (q, n, (satFP32 (gVal c.vs w)).1)
  | .g64, f =>
    let w := BitVec.ofNat 64 code
    let (q, n) := gFinal f c.vd c.vs w
    (q, n, (satFP32 (gVal c.vs w)).1)
  | f, g =>
    let (x, n) := readCode f c.vs code
    let (q, m) := writeCode g c.vd x
    (q, n + m, x)

/-- Whole units of source bytes converted, each byte with its mark. -/
def Conv.units (c : Conv) (bs : List (Byte × Bool)) : List (Byte × Bool) × Nat × List Word :=
  if c.copy then (bs, 0, [])
  else
    let n := bs.length / c.ss
    let es := (List.range n).map (fun i =>
      let u := (bs.drop (i * c.ss)).take c.ss
      (c.elem (leNat (u.map (·.1))), u.any (·.2)))
    (es.flatMap (fun e => (leBytes c.ds e.1.1).map (fun b => (b, e.2))), (es.map (·.1.2.1)).sum, es.map (·.1.2.2))

/-! ### Rows (R248, R249) -/

/-- Source bytes with their marks up to the first source fault. -/
def Run.readMarks (r : Run) (w : AddrWord) (off n : Nat) : Nat → Run × List (Byte × Bool)
  | 0 => (r, [])
  | fuel + 1 =>
    if n = 0 || r.stop then (r, [])
    else
      let k := min n (chunk w off)
      let (r, bs, p) := r.readLine (w.at r.s.moduleId r.die off) k
      if r.stop then (r, [])
      else
        let (r, rest) := r.readMarks w (off + k) (n - k) fuel
        (r, bs.map (fun b => (b, p)) ++ rest)

/-- Destination bytes in ascending order. After a destination fault, whether the lines of the row issued before its answer land is
open (R249). -/
def Run.writeMover (r : Run) (w : AddrWord) (off : Nat) (bs : List (Byte × Bool)) (seen : Bool) : Nat → Run × Bool
  | 0 => (r, seen)
  | fuel + 1 =>
    if bs.isEmpty then (r, seen)
    else
      let k := chunk w off
      let c := bs.take k
      let (skip, r) := if seen then
          let (n, s) := r.s.freeCount
          (decide (n % 2 = 0), { r with s := s })
        else (false, r)
      let r := if skip then r
        else Run.writeLine { r with stop := false } (w.at r.s.moduleId r.die off) (c.map (·.1)) (c.any (·.2))
      r.writeMover w (off + k) (bs.drop k) (seen || r.stop) fuel

/-- One row: what was read is written, then a source fault counts. -/
def Run.moveRow (r : Run) (c : Conv) (src : AddrWord) (soff n : Nat) (dst : AddrWord) (doff : Nat) : Run :=
  let (r, bs) := r.readMarks src soff (n * c.ss) (n * c.ss / 64 + 2)
  let srcFault := r.stop
  let bs := if c.copy then bs else bs.take (bs.length / c.ss * c.ss)
  let (out, sat, xs) := c.units bs
  let r := r.addSat sat
  let r := if c.gather then r.maxes xs else r
  let (r, seen) := { r with stop := false }.writeMover dst doff out false (out.length / 64 + 2)
  { r with stop := srcFault || seen }

/-- The rows of a move. `entry` is the list's address word. -/
structure MoveCfg where
  c      : Conv
  src    : AddrWord
  dst    : AddrWord
  entry  : Option AddrWord
  fill   : Option Nat
  len    : Nat
  spitch : Nat
  dpitch : Nat
  deriving DecidableEq, Repr

/-- The pattern of a fill, repeated. -/
def fillBytes (pat n : Nat) : List (Byte × Bool) := (List.range n).map (fun i => (BitVec.ofNat 8 (pat / 256 ^ (i % 8)), false))

def MoveCfg.row (m : MoveCfg) (r : Run) (ix : Nat) : Run :=
  if r.stop then r
  else match m.fill with
    | some pat =>
      let (r, seen) := r.writeMover m.dst (ix * m.dpitch) (fillBytes pat m.len) false (m.len / 64 + 2)
      { r with stop := seen }
    | none =>
      match m.entry with
      | none => r.moveRow m.c m.src (ix * m.spitch) m.len m.dst (ix * m.dpitch)
      | some w =>
        let (r, e, p) := r.readNat w (4 * ix) 4
        if r.stop then r
        else if p then { r with stop := true }
        else r.moveRow m.c m.src (e * m.spitch) m.len m.dst (ix * m.dpitch)

/-- Rows first to last - 1 in order. -/
def MoveCfg.go (m : MoveCfg) (first last : Nat) (r : Run) : Run :=
  (List.range (last - first)).foldl (fun r i => m.row r (first + i)) r

/-! ### The mover's end of a descriptor -/

def State.movEnd (s : State) (f : Flight) : State :=
  match s.flight f.fid with
  | some g =>
    if g.isDone ∧ recordsFault g.res.status.toNat then s.mvFaultSet (hDie f.target) f.mover.toNat f g.res.status.toNat else s
  | none => s

/-! ### Class 0x50 (R247, R248) -/

/-- A list lies in the die's own working memory or HBM. -/
def listWord (s : State) (die : Nat) (d : Desc) (lo : Nat) : Option Nat :=
  let w := dAddr d lo
  need lo (dfld d (lo + 63) lo == 0 || (w.ok die && w.ownMem s.moduleId die))

def moveChecks (s : State) (f : Flight) : List (Option Nat) :=
  let d := f.desc
  let die := hDie f.target
  let raw := dbit d 496
  let fill := dbit d 497
  let ws := dfld d 351 320
  let wd := dfld d 383 352
  let fs := dFmt d 320
  let fd := dFmt d 352
  let len := dfld d 407 384
  let same := bitCopy ws wd
  let list := dfld d 319 256 != 0
  let size (w : FmtWord) : Nat := if raw then 1 else unitBytes w.fmt
  let fits (lo : Nat) (w : FmtWord) : Bool := dfld d (lo + 23) lo == 0 || decide (len * size w ≤ dfld d (lo + 23) lo * 64)
  [resvBits d 511 498, need 480 (hintOk (dfld d 495 480)), if fill then none else need 128 ((dAddr d 128).ok die),
   need 192 ((dAddr d 192).ok die), listWord s die d 256, need 256 (!fill || !list), need 496 (!fill || raw),
   need 384 (!fill || len % 8 == 0), need 256 (!list || dfld d 455 432 != 0),
   need 320 (if raw then ws == 0 else fs.okSrc die && decide (fs.code ≤ 6)),
   need 352 (if raw then wd == 0 else fd.okCopyDst die ws wd && decide (fd.code ≤ 6)),
   need 320 (raw || same || (fs.code != 5 && fd.code != 5)),
   need (if raw then 384 else 320) (fill || fits 432 fs), need (if raw then 384 else 352) (fits 456 fd)]

/-- A status that stops a mover (R249). -/
def stopsMover (st : Nat) : Bool :=
  st == stAddrFault || st == stBiasFault || st == stCourseLost || st == stDieLost || st == stFlowTimeout

/-- A run that goes on from what the descriptor has come to so far. -/
def Run.again (s : State) (f : Flight) (hint : Nat) : Run :=
  { Run.start s (hDie f.target) f.fid hint with
    code := f.res.status.toNat, detail := f.res.detail, sat := f.res.sat, rm := f.res.runMax, uses := f.res.uses, pairs := f.res.pairs }

/-- A row sent to another module: the descriptor stays started, and its next row follows the answers to this one. -/
def Run.rowSent (r : Run) (s0 : State) (f : Flight) : State :=
  if r.far ≠ [] ∨ r.ext ≠ [] then s0.askFor f.fid r.far r.ext
  else
    let s := (r.s.sendAll f.fid r.sends).unwaitDesc f.fid
    ({ s with flights := s0.flights } : State).setFlight
      { f with rows := f.rows + 1, res := { r.result 0 with status := BitVec.ofNat 8 r.code } }

/-- The rows a MOVE copies, from the first up to the last, and what its end adds. -/
structure MovePlan where
  m      : MoveCfg
  first  : Nat
  last   : Nat
  gather : Option FmtWord
  hint   : Nat

def movePlan (f : Flight) : MovePlan :=
  let d := f.desc
  let raw := dbit d 496
  let fs := dFmt d 320
  let fd := dFmt d 352
  let c : Conv :=
    if raw then Conv.bytes
    else { copy := bitCopy (dfld d 351 320) (dfld d 383 352), src := fs.fmt, dst := fd.fmt, vs := f.val 320, vd := f.val 352,
           gather := fd.gather }
  let len := dfld d 407 384
  let part := shardPart (dfld d 431 408) (dShardN d) (dShardIx d)
  let pitch (lo size : Nat) : Nat := if dfld d (lo + 23) lo = 0 then len * size else dfld d (lo + 23) lo * 64
  { m := { c := c, src := dAddr d 128, dst := dAddr d 192, entry := if dfld d 319 256 = 0 then none else some (dAddr d 256),
           fill := if dbit d 497 then some (dfld d 191 128) else none, len := len, spitch := pitch 432 c.ss, dpitch := pitch 456 c.ds }
    first := part.1, last := part.2, gather := if c.gather && !c.copy then some fd else none, hint := dfld d 495 480 }

def MovePlan.empty (p : MovePlan) : Bool := p.m.len == 0 || decide (p.last ≤ p.first)
def MovePlan.cycles (p : MovePlan) : Nat := (p.last - p.first) * ((p.m.len * max p.m.c.ss p.m.c.ds + 383) / 384)
def MovePlan.fin (p : MovePlan) (r : Run) : Run := match p.gather with
  | some fd => r.gatherInto fd
  | none => r

/-- The destination of an address word lies in another module. -/
def AddrWord.leaves (w : AddrWord) (own die : Nat) : Bool := match w.at own die 0 with
  | .far _ _ => true
  | _ => false

/-- A MOVE whose destination is another module. -/
def State.movesFar (s : State) (f : Flight) : Bool :=
  !(movePlan f).empty && (movePlan f).m.dst.leaves s.moduleId (hDie f.target)

/-- A MOVE within the module. -/
def State.moveRun (s : State) (f : Flight) : Run × Nat :=
  let p := movePlan f
  let r0 := Run.start s (hDie f.target) f.fid p.hint
  if p.empty then ((p.fin r0).raise stEmpty 0, 0) else (p.fin (p.m.go p.first p.last r0), p.cycles)

/-- The row that comes next of a MOVE to another module. -/
def State.moveFarRow (s : State) (f : Flight) : Run :=
  let p := movePlan f
  p.m.row (Run.again s f p.hint) (p.first + f.rows)

/-- The row is the last. -/
def lastFarRow (f : Flight) : Bool := decide ((movePlan f).last ≤ (movePlan f).first + f.rows + 1)

/-- A mover sends each row of a MOVE to another module once the one before is acknowledged, so that no row after a faulting one is
written (R249). -/
def State.moveFar (s : State) (f : Flight) : State :=
  if s.awaitsAck f.fid then s
  else if stopsMover f.res.status.toNat then
    Run.ends ((movePlan f).fin { Run.again s f (movePlan f).hint with stop := true }, (movePlan f).cycles) s f true
  else
    let r := s.moveFarRow f
    if r.stop || lastFarRow f then Run.ends ((movePlan f).fin r, (movePlan f).cycles) s f true else r.rowSent s f

def State.move (s : State) (f : Flight) : State := if s.movesFar f then s.moveFar f else Run.ends (s.moveRun f) s f true

def execMove (fid : Nat) (s : State) : Host.Outcome State Fault Refusal :=
  .next (match s.flight fid with
    | some f => if s.runs f 0x50 then (s.move f).movEnd f else s
    | none => s)

/-! ### Class 0x51 (R253, R254) -/

def msopChecks (s : State) (f : Flight) : List (Option Nat) :=
  let d := f.desc
  let die := hDie f.target
  let op := dfld d 415 408
  let fs := dFmt d 320
  let fa := dFmt d 352
  let ws := dfld d 351 320
  let wa := dfld d 383 352
  let dst := dAddr d 192
  let isF := op == 0x21 || op == 0x22 || op == 0x31
  [resvBits d 511 416, need 408 (msopSize op).isSome, need 128 ((dAddr d 128).ok die),
   need 192 (dst.ok die && dst.isHbm s.moduleId die && dst.aligned ((msopSize op).getD 1)), listWord s die d 256,
   need 320 (if isF then fs.okSrc die && (opFmt fs.code || (op == 0x31 && fs.code == 6)) else ws == 0),
   need 352 (if op == 0x31 && fs.code != 6 then fa.okSrc die && fa.code == 6 else wa == 0)]

/-- An operand as the mover sends it (R254), with its saturations. -/
def msopOperand (op : Nat) (fs : Fmt) (vs eref : Int) (code : Nat) : Nat × Nat :=
  if op = 0x21 then
    let (x, n) := readElem fs vs code
    (x.toNat, n)
  else if op = 0x22 then
    let (x, n) := readElem fs vs code
    let (c, m) := writeElem .bf16 0 x
    (c, n + m)
  else if op = 0x31 ∧ fs ≠ .g64 then
    let (x, n) := readElem fs vs code
    let (q, m) := writeCode .g64 eref x
    (q, n + m)
  else (code, 0)

/-- A request being packed: the line's offset from the destination word's line 0, the mask, the operands and the mark. -/
structure Packed where
  off  : Nat
  mask : Nat
  data : List Byte
  mark : Bool
  deriving DecidableEq, Repr

/-- Put an operand into a request. -/
def Packed.add (q : Packed) (size lane v : Nat) (mark : Bool) : Packed :=
  { q with mask := q.mask + 2 ^ lane, mark := q.mark || mark
           data := q.data.take (lane * size) ++ leBytes size v ++ q.data.drop ((lane + 1) * size) }

/-- Send a request for the line that holds byte `off` of the destination. -/
def Run.sendPacked (r : Run) (dst : AddrWord) (op : Nat) (q : Packed) : Run :=
  r.msop (dst.at r.s.moduleId r.die q.off) op q.mask q.data q.mark

/-- The run of an MSOP with the request it is packing. -/
structure MsopRun where
  r   : Run
  cur : Option Packed

structure MsopCfg where
  op    : Nat
  size  : Nat
  src   : AddrWord
  dst   : AddrWord
  entry : Option AddrWord
  fs    : Fmt
  ssize : Nat
  vs    : Int
  eref  : Int

/-- Send what is packed. -/
def MsopCfg.flush (m : MsopCfg) (x : MsopRun) : MsopRun :=
  match x.cur with
  | some q => ⟨x.r.sendPacked m.dst m.op q, none⟩
  | none => x

/-- The mover stops: what it has packed goes out, and nothing after it. -/
def MsopCfg.halt (m : MsopCfg) (x : MsopRun) (r : Run) : MsopRun :=
  let y := m.flush { x with r := { r with stop := false } }
  { y with r := { y.r with stop := true } }

/-- One operand: a list's requests go out one by one, consecutive elements of one line together. -/
def MsopCfg.step (m : MsopCfg) (x : MsopRun) (i : Nat) : MsopRun :=
  if x.r.stop then x
  else
    let (r, code, p) := x.r.readNat m.src (i * m.ssize) m.ssize
    if r.stop then m.halt x r
    else
      let (r, ix, bad) := match m.entry with
        | some w =>
          let (r, e, p) := r.readNat w (4 * i) 4
          (r, e, p || r.stop)
        | none => (r, i, false)
      if bad then m.halt x r
      else
        let off := ix * m.size
        let at_ := m.dst.addr + off
        let (v, n) := msopOperand m.op m.fs m.vs m.eref code
        let same := match x.cur with
          | some q => m.entry.isNone && decide ((m.dst.addr + q.off) / 64 = at_ / 64)
          | none => false
        let x := if same then { x with r := r } else m.flush { x with r := r }
        if x.r.stop then x
        else
          let q := x.cur.getD ⟨off, 0, List.replicate 64 0, false⟩
          ⟨x.r.addSat n, some (q.add m.size (at_ % 64 / m.size) v p)⟩

def State.msopDescRun (s : State) (f : Flight) : Run × Nat :=
  let d := f.desc
  let op := dfld d 415 408
  let size := (msopSize op).getD 4
  let isF := op == 0x21 || op == 0x22 || op == 0x31
  let fs := (dFmt d 320).fmt
  let (a, b) := shardPart (dfld d 407 384) (dShardN d) (dShardIx d)
  let m : MsopCfg :=
    { op := op, size := size, src := dAddr d 128, dst := dAddr d 192,
      entry := if dfld d 319 256 = 0 then none else some (dAddr d 256), fs := if isF then fs else .g64,
      ssize := if isF then fs.bits / 8 else size, vs := f.val 320, eref := f.val 352 }
  let r0 := Run.start s (hDie f.target) f.fid
  if b ≤ a then (r0.raise stEmpty 0, 0)
  else
    let x := (List.range (b - a)).foldl (fun x i => m.step x (a + i)) ⟨r0, none⟩
    let x := if x.r.stop then x else m.flush x
    (x.r, b - a)

def State.msopDesc (s : State) (f : Flight) : State := Run.ends (s.msopDescRun f) s f true

def execMsop (fid : Nat) (s : State) : Host.Outcome State Fault Refusal :=
  .next (match s.flight fid with
    | some f => if s.runs f 0x51 then (s.msopDesc f).movEnd f else s
    | none => s)

/-! ### Faults (R249) -/

/-- The classes a mover executes: 0x50, 0x51, 0x54 and 0x55 (R246, R296). -/
def moverClass (c : Nat) : Bool := c == 0x50 || c == 0x51 || c == 0x54 || c == 0x55

/-- A mover that issues nothing further completes its descriptor with the fault. -/
def execMoverFault (fid : Nat) (s : State) : Host.Outcome State Fault Refusal :=
  .next (match s.flight fid with
    | some f =>
      match f.phase with
      | .faulted .. => if moverClass (dClass f.desc) then (s.setFlight { f with phase := .done }).movEnd f else s
      | _ => s
    | none => s)

/-! ### Enabling and disabling -/

def onMover (die n : Nat) (f : Flight) : Bool :=
  !hGang f.target && hDie f.target == die && hSlot f.target == 6 && f.mover.toNat == n

def execMoverEnable (die mover : Nat) (s : State) : Host.Outcome State Fault Refusal :=
  .next (if s.dieDown die then s else s.enableReq (Reg.mvCtrl die mover))

def execMoverEnablingDone (die mover : Nat) (s : State) : Host.Outcome State Fault Refusal :=
  .next (if s.fnState (Reg.mvCtrl die mover) = 1 ∧ s.dieDown die = false then s.enablingEnd (Reg.mvCtrl die mover) true else s)

def State.moverDisable (s : State) (die n : Nat) : State :=
  let s := s.disableReq (Reg.mvCtrl die n)
  if s.fnState (Reg.mvCtrl die n) = 3 then s.abortAll (s.queuedAt (fun f => onMover die n f && s.ready f)) else s

def execMoverDisable (die mover : Nat) (s : State) : Host.Outcome State Fault Refusal :=
  .next (if s.dieDown die then s else s.moverDisable die mover)

def execMoverDisablingDone (die mover : Nat) (s : State) : Host.Outcome State Fault Refusal :=
  .next (
    if s.fnState (Reg.mvCtrl die mover) = 3 ∧ s.flights.any (fun f => onMover die mover f && f.inWork) = false ∧
        s.dieDown die = false then
      s.disablingEnd (Reg.mvCtrl die mover)
    else s)

end Sys2Proof.Machine
end

