-- ==== Sys2Proof/Machine/Update.lean ====
section
/-! DEFINITION. The parameter update: groups (R266-R268), GNORM (R270-R273), UPDATE (R264, R274-R280), WCOPY (R281) and SLOTLOAD
(R282), with their edges and faults (R286-R289). -/

namespace Sys2Proof.Machine

/-! ### Parameter groups (R266-R268) -/

/-- A value register as it is used: -0 as +0. -/
def plusZero (w : Word) : Word := if fpIsZero w then fpZero else w

/-- Not negative and finite. -/
def nonNegFinite (w : Word) : Bool := decide (fpMag w < 0x7F800000) && (!fpNeg w || fpIsZero w)

/-- In [0, 1). -/
def betaOk (w : Word) : Bool := nonNegFinite w && fpLt (plusZero w) fpOne

/-- The refusals of an entry with the control word being written. -/
def State.pgErrs (s : State) (die slot : Nat) (v : Word) : List (Option Nat) :=
  let eps := sgn8 (wfld v 7 0)
  [if betaOk (s.reg (Reg.dcPgBeta1 die slot)) && betaOk (s.reg (Reg.dcPgBeta2 die slot)) then none else some 1,
   if nonNegFinite (s.reg (Reg.dcPgLr die slot)) && nonNegFinite (s.reg (Reg.dcPgDecay die slot)) &&
      nonNegFinite (s.reg (Reg.dcPgClip die slot)) then none else some 2,
   if -126 ≤ eps ∧ eps ≤ -1 then none else some 3]

/-- A write to DC_PG_CTRL. -/
def State.pgCtrlWrite (s : State) (die slot : Nat) (v : Word) : State :=
  let a := Reg.dcPgCtrl die slot
  let base := ((((0 : Word) |> (wset · 30 30 (wfld v 30 30))) |> (wset · 27 16 (wfld v 27 16))) |> (wset · 7 0 (wfld v 7 0)))
  let keep := wset base 13 8 (s.fld a 13 8)
  if bit v 31 then
    match lowest (s.pgErrs die slot v) with
    | some e => s.setReg a (wset base 13 8 e)
    | none => s.setReg a (wset base 31 31 1)
  else s.setReg a keep

def execParamGroupValidate (die slot : Nat) (value : Word) (s : State) : Host.Outcome State Fault Refusal :=
  .next (if slot < gangSlotsOn die ∧ s.dieDown die = false then s.pgCtrlWrite die slot value else s)

/-- The six words of a group as a descriptor reads them at its start. -/
def State.groupWords (s : State) (p : Nat) : List Byte :=
  let die := p % 40
  let k := p / 40
  [Reg.dcPgCtrl, Reg.dcPgLr, Reg.dcPgBeta1, Reg.dcPgBeta2, Reg.dcPgDecay, Reg.dcPgClip].flatMap
    (fun f => leBytes 4 (s.reg (f die k)).toNat)

structure Group where
  bias   : Bool
  clipIx : Nat
  eps    : Int
  lr     : Word
  beta1  : Word
  beta2  : Word
  decay  : Word
  clip   : Word
  deriving DecidableEq, Repr

/-- The group a descriptor read, from its words. -/
def groupOf (bs : List Byte) : Group :=
  let w (k : Nat) : Word := BitVec.ofNat 32 (recNat bs (4 * k) 4)
  let c := w 0
  { bias := bit c 30, clipIx := wfld c 27 16, eps := sgn8 (wfld c 7 0), lr := plusZero (w 1), beta1 := plusZero (w 2),
    beta2 := plusZero (w 3), decay := plusZero (w 4), clip := plusZero (w 5) }

def groupValid (bs : List Byte) : Bool := recNat bs 0 4 / 2 ^ 31 == 1

/-! ### Operands -/

/-- A word in the executing die's own HBM or working memory. -/
def ownWord (s : State) (die : Nat) (w : AddrWord) (align : Nat := 1) : Bool := w.ok die && w.ownMem s.moduleId die && w.aligned align

/-- A word in HBM of this module; with `own`, of the executing die. A word with rel = 1 is, at every offset (R42). -/
def hbmHere (s : State) (die : Nat) (w : AddrWord) (align : Nat) (own : Bool) : Bool :=
  w.ok die && w.aligned align && (w.rel == 1 || match w.at s.moduleId die 0 with
    | .here a => isHbm a && (!own || ownerDie a == die)
    | _ => false)

/-- Formats of gradients and of working copies (R262). -/
def gradFmt (code : Nat) : Bool := decide (code ≤ 2) || code == 6
def copyFmt (code : Nat) : Bool := decide (1 ≤ code ∧ code ≤ 5)

/-- n consecutive elements, each with its mark. -/
def Run.readLanes (r : Run) (o : Opnd) (off n : Nat) : Run × List Lane :=
  let k := o.fmt.bits / 8
  let (r, xs, _) := r.readElems o off n
  (r, xs.mapIdx (fun i x => (x, r.operandBad o.w (off + i * k) k)))

def Run.writeLanesAt (r : Run) (o : Opnd) (gather : Bool) (off : Nat) (xs : List Lane) : Run :=
  r.writeLanes o gather ((xs.zipIdx).map (fun x => (((off + x.2 * (o.fmt.bits / 8) : Nat) : Int), x.1)))

/-- TB0-TB3 hold values the rules do not give (R269). -/
def State.tbScatter (s : State) (die ep : Nat) : State :=
  let n := 4 * 256 * 256
  { s.tbClear die ep with
    tb := storeRun word0 (s.tbClear die ep).tb (tbKey die ep 0 0 0) ((List.range n).map (fun i => Config.freeWord (s.free + i)))
    free := s.free + n }

/-- The strips of a row. -/
def cutRow (cols : Nat) : List (Nat × Nat) := (List.range (strips cols)).map (fun t => (256 * t, min 256 (cols - 256 * t)))

/-- Memory-side GACCs of consecutive words from byte `off` on, eight to a line (R251, R271). -/
def Run.gaccRun (r : Run) (w : AddrWord) (off : Nat) (xs : List (DWord × Bool)) : Nat → Run
  | 0 => r
  | fuel + 1 =>
    if xs.isEmpty || r.stop then r
    else
      let at_ := (w.addr + off) % 64
      let k := (64 - at_) / 8
      let here := xs.take k
      let n := here.length
      let data := List.replicate at_ (0 : Byte) ++ here.flatMap (fun x => leBytes 8 x.1.toNat) ++ List.replicate (64 - at_ - 8 * n) 0
      let r := r.msop (w.at r.s.moduleId r.die off) 0x31 ((2 ^ n - 1) * 2 ^ (at_ / 8)) data (here.any (·.2))
      r.gaccRun w (off + 8 * n) (xs.drop k) fuel

/-! ### GNORM (R270, R271, R287) -/

def gnormChecks (s : State) (f : Flight) : List (Option Nat) :=
  let d := f.desc
  let die := hDie f.target
  let vec := dbit d 464
  let fg := dFmt d 384
  let neref := sgn8 (dfld d 472 465)
  [resvBits d 511 485, need 128 ((dAddr d 128).ok die),
   if vec then zeroWord d 192 else need 192 (hbmHere s die (dAddr d 192) 8 true),
   need 256 (hbmHere s die (dAddr d 256) 8 false),
   if dfld d 383 320 = 0 then none else need 320 ((dAddr d 320).ok die),
   need 384 (fg.okSrc die && gradFmt fg.code), need 440 (vec || decide (dfld d 463 440 ≤ 65535)), need 465 (decide (-126 ≤ neref)),
   need 473 (groupValid (s.groupWords (dfld d 484 473)))]

/-- The carried values of the first pass: row, column and total sums with their marks, and the saturations. -/
structure GnormAcc where
  row  : GSum × Bool
  cols : List (GSum × Bool)
  tot  : GSum × Bool
  rows : Nat

/-- One strip of squares (R271 steps 1 to 3). -/
def gnormStrip (d : Desc) (g : Opnd) (cols i : Nat) (x : Run × GnormAcc) (st : Nat × Nat) : Run × GnormAcc :=
  let (r, a) := x
  if r.stop then x
  else
    let k := g.fmt.bits / 8
    let (r, xs) := r.readLanes g ((i * cols + st.1) * k) st.2
    if r.stop then (r, a)
    else
      let qs := xs.map (fun v => (gAddend (sgn8 (dfld d 472 465)) (fpMul v.1 v.1), v.2))
      let r := r.addSat (qs.map (·.1.2)).sum
      let add (t : GSum × Bool) (q : (Option Int × Nat) × Bool) : GSum × Bool := (t.1.add q.1.1, t.2 || q.2)
      let cs := if dbit d 464 then a.cols
        else a.cols.mapIdx (fun j c => if st.1 ≤ j then (match qs[j - st.1]? with | some q => add c q | none => c) else c)
      (r, { a with row := qs.foldl add a.row, cols := cs })

/-- One row, with its word (step 4). -/
def gnormRow (d : Desc) (g : Opnd) (cols : Nat) (x : Run × GnormAcc) (i : Nat) : Run × GnormAcc :=
  if x.1.stop then x
  else
    let (r, a) := (cutRow cols).foldl (gnormStrip d g cols i) (x.1, { x.2 with row := (GSum.zero, false) })
    if r.stop then (r, a)
    else
      let r := if dbit d 464 then r
        else
          let (w, n) := a.row.1.word
          (r.addSat n).writeAll (dAddr d 192) (8 * i) (leBytes 8 w.toNat) a.row.2
      (r, { a with tot := (a.tot.1.join a.row.1, a.tot.2 || a.row.2), rows := a.rows + 1 })

/-- The additions to the column words, the tensor word and the norm table (steps 5 and 6). -/
def gnormAdds (d : Desc) (rows cols clipIx : Nat) (r : Run) (a : GnormAcc) : Run :=
  let sq := dAddr d 192
  let nt := dAddr d 256
  let (w, n) := a.tot.1.word
  let one (r : Run) (t : AddrWord) (off : Nat) : Run := if r.stop then r else r.msopAt t off 0x31 w.toNat a.tot.2
  let r := if dbit d 464 then r
    else
      let cs := a.cols.map (fun c => (c.1.word, c.2))
      let r := (r.addSat (cs.map (·.1.2)).sum).gaccRun sq (8 * rows) (cs.map (fun c => (c.1.1, c.2))) (cols + 1)
      one r sq (8 * (rows + cols))
  let r := one (r.addSat n) nt 0
  if clipIx = 0 then r else one r nt (8 * clipIx)

/-- The guard (step 7); what a poisoned guard decides is marked poisoned. -/
def gnormGuard (d : Desc) (r : Run) : Run :=
  if dfld d 383 320 = 0 || r.stop then r
  else
    let (r, v, p) := r.readNat (dAddr d 320) 0 8
    if r.stop then r
    else if p then r.msopAt (dAddr d 256) 0 0x31 gnanCode.toNat true
    else if v = gnanCode.toNat then r.msopAt (dAddr d 256) 0 0x31 gnanCode.toNat false
    else r

def State.gnormRun (s : State) (f : Flight) : Run × Nat :=
  let d := f.desc
  let die := hDie f.target
  let rows := dfld d 439 416
  let cols := dfld d 463 440
  let (a, b) := rowPart d rows
  let g := groupOf f.recs
  let r0 := Run.start (s.tbScatter die (hSlot f.target)) die f.fid
  let (r, done, empty) :=
    if cols = 0 ∨ b ≤ a then (r0, 0, true)
    else
      let (r, acc) := ((List.range (b - a)).map (· + a)).foldl (gnormRow d (f.opnd 128 384) cols)
        (r0, { row := (GSum.zero, false), cols := if dbit d 464 then [] else List.replicate cols (GSum.zero, false),
               tot := (GSum.zero, false), rows := 0 })
      (if r.stop then r else gnormAdds d rows cols g.clipIx r acc, acc.rows, false)
  let r := gnormGuard d r
  let per := 2 * strips cols
  let cycles := if dbit d 464 then 14 + done * per else 12 + done * (per + 2) + (cols + 7) / 8 + 2
  (Run.endRows r (hSlot f.target) r.stop empty none, cycles)

def State.gnorm (s : State) (f : Flight) : State := (Run.ends (s.gnormRun f) s f true).vecEnd f

def execGnorm (fid : Nat) (s : State) : Host.Outcome State Fault Refusal :=
  .next (match s.flight fid with
    | some f => if s.runs f 0x60 then s.gnorm f else s
    | none => s)

/-! ### UPDATE: the checks (R274-R276, R286) -/

def updateChecks (s : State) (f : Flight) : List (Option Nat) :=
  let d := f.desc
  let die := hDie f.target
  [resvBits d 511 315, recPlace s die d 128, need 192 (dfld d 223 192 != 0),
   need 248 (dbit d 284 || decide (dfld d 271 248 ≤ 65535)), need 272 (groupValid (s.groupWords (dfld d 283 272))),
   need 285 (decide (-126 ≤ sgn8 (dfld d 292 285))), need 294 (decide (dfld d 303 294 + dfld d 314 304 ≤ 1024))]

/-- An update record with the words of its group behind it. -/
structure UpdRec where
  bs : List Byte

def UpdRec.word (u : UpdRec) (i : Nat) : Nat := recNat u.bs (8 * i) 8
def UpdRec.aw (u : UpdRec) (i : Nat) : AddrWord := addrWord (u.word i)
def UpdRec.grp (u : UpdRec) : Group := groupOf (u.bs.drop 128)
def UpdRec.fg (u : UpdRec) : FmtWord := fmtWord (recNat u.bs 72 4)
def UpdRec.fcp (u : UpdRec) : FmtWord := fmtWord (recNat u.bs 76 4)

/-- The checks of the record (R275, R276, R286); words: 0 w, 1 g, 2 m, 3 v, 4 sq, 5 cs, 6 nt, 7 cp, 8 cpsc. -/
def UpdRec.ok (u : UpdRec) (s : State) (die : Nat) (vec : Bool) : Bool :=
  let own (i : Nat) := ownWord s die (u.aw i)
  let cp := u.word 7 != 0
  let mx := u.fcp.code == 5
  recNat u.bs 80 48 == 0 && own 0 && own 1 &&
  (if fpIsZero u.grp.beta1 then u.word 2 == 0 else u.word 2 != 0 && own 2) && own 3 &&
  (if vec then u.word 4 == 0 && u.word 5 == 0 else hbmHere s die (u.aw 4) 1 true && own 5) && own 6 &&
  u.fg.okSrc die && gradFmt u.fg.code &&
  (if cp then
     (u.aw 7).ok die && u.fcp.okDst die && copyFmt u.fcp.code &&
     (if mx then u.word 8 != 0 && own 8 else u.word 8 == 0)
   else recNat u.bs 76 4 == 0 && u.word 8 == 0)

/-- The format words of the record whose values the start reads (R87). -/
def UpdRec.vals (u : UpdRec) (s : State) (die : Nat) : List (Nat × Int) :=
  [(recKey 72, s.slotVal die u.fg), (recKey 76, s.slotVal die u.fcp)]

/-! ### UPDATE: the rule (R264) -/

structure UpdCfg where
  d     : Desc
  u     : UpdRec
  die   : Nat
  vec   : Bool
  rows  : Nat
  cols  : Nat
  t     : Nat
  neref : Int
  grad  : Opnd
  copy  : Option Opnd
  cn    : List Lane
  rbar  : Lane
  c     : Word

def UpdCfg.grp (k : UpdCfg) : Group := k.u.grp
def UpdCfg.eps (k : UpdCfg) : Word := fpRound (.fin false 1 k.grp.eps)
def UpdCfg.a1 (k : UpdCfg) : Word := fpSub fpOne k.grp.beta2

/-- The bias factor of a coefficient. -/
def biasFactor (on : Bool) (t : Nat) (beta : Word) : Word :=
  if on then fpRecip (fpSub fpOne (fpExp2 (fpMul (fpOfNat t) (fpLog2 beta)))) else fpOne

/-- The clip factor. -/
def clipFactor (clip nsq : Word) : Word :=
  if fpLt fpZero clip then fpMinimum fpOne (fpMul clip (fpRsqrt nsq)) else fpOne

/-- A statistic: fma(beta2, old, a1 * fma(c2, sum * recip(n), eps)). -/
def UpdCfg.stat (k : UpdCfg) (old sum : Word) (n : Nat) : Word :=
  fpFma k.grp.beta2 old (fpMul k.a1 (fpFma (fpMul k.c k.c) (fpMul sum (fpRecip (fpOfNat n))) k.eps))

/-- Bank b of the column statistics (R279). -/
def UpdCfg.bank (k : UpdCfg) (b : Nat) : AddrWord :=
  { k.u.aw 5 with addr := (k.u.aw 5).addr + b * 64 * (1 + (k.cols + 15) / 16) }

def UpdCfg.bankW (k : UpdCfg) : Nat := dStepLo k.d % 2

def fp32At (w : AddrWord) : Opnd := ⟨w, .fp32, 0⟩

/-- A finalised G64 word of the square sums. -/
def UpdCfg.sum (k : UpdCfg) (r : Run) (ix : Nat) : Run × Lane :=
  let (r, xs) := r.readLanes ⟨k.u.aw 4, .g64, k.neref⟩ (8 * ix) 1
  (r, xs.headD (0, false))

/-- rbar and cn of the matrix kind, in every member. -/
def UpdCfg.columns (k : UpdCfg) (r : Run) : Run × UpdCfg :=
  let old := k.bank (1 - k.bankW)
  let (r, rb) := r.readLanes (fp32At old) 0 1
  let (r, cs) := if r.stop then (r, []) else r.readLanes (fp32At old) 64 k.cols
  let (r, tot) := if r.stop then (r, (0, false)) else k.sum r (k.rows + k.cols)
  let (r, sums) := if r.stop then (r, []) else r.readLanes ⟨k.u.aw 4, .g64, k.neref⟩ (8 * k.rows) k.cols
  let b := rb.headD (0, false)
  (r, { k with
    rbar := (k.stat b.1 tot.1 (k.rows * k.cols), b.2 || tot.2)
    cn := List.zipWith (fun (c : Lane) (q : Lane) => (k.stat c.1 q.1 k.rows, c.2 || q.2)) cs sums })

/-- The new values of one element. -/
structure Elem where
  w : Word
  m : Word
  v : Word

/-- One element from its gradient, old state and, for the matrix kind, k * cn. -/
def UpdCfg.elem (k : UpdCfg) (ib1 ib2 : Word) (g w m v kc : Word) : Elem :=
  let g' := fpMul k.c g
  let m' := fpFma k.grp.beta1 m (fpMul (fpSub fpOne k.grp.beta1) g')
  let v' := fpFma k.grp.beta2 v (fpMul k.a1 (fpFma g' g' k.eps))
  let vb := fpMul (if k.vec then v' else kc) ib2
  let u := fpMul (fpMul m' ib1) (fpRsqrt vb)
  ⟨fpFma (fpFlip k.grp.lr) (fpFma k.grp.decay w u) w, m', v'⟩

/-- Write a strip of the working copy (R280). -/
def Run.writeCopy (r : Run) (o : Opnd) (sc : AddrWord) (gather : Bool) (cols i j : Nat) (xs : List Lane) : Run :=
  if o.fmt = .mxfp4 then
    let nb := (cols + 31) / 32
    ((blocksOf 8 (xs.map some)).zipIdx).foldl (fun r b =>
      let stop := r.stop
      let r := Run.writeBlock { r with stop := false } o.w sc gather (i * nb + j / 32 + b.2) (b.1.filterMap id)
      { r with stop := r.stop || stop }) r
  else r.writeLanesAt o gather ((i * cols + j) * (o.fmt.bits / 8)) xs

/-- One strip of the second pass: reads, then w, m, v and the copy (R278). -/
def UpdCfg.strip (k : UpdCfg) (ib1 ib2 : Word) (row : Lane) (i : Nat) (r : Run) (st : Nat × Nat) : Run :=
  if r.stop then r
  else
    let ix := i * k.cols + st.1
    let n := st.2
    let zero : List Lane := List.replicate n (fpZero, false)
    let has := !fpIsZero k.grp.beta1
    let (r, gs) := r.readLanes k.grad (ix * (k.grad.fmt.bits / 8)) n
    let (r, ws) := if r.stop then (r, []) else r.readLanes (fp32At (k.u.aw 0)) (4 * ix) n
    let (r, ms) := if r.stop then (r, []) else if has then r.readLanes (fp32At (k.u.aw 2)) (4 * ix) n else (r, zero)
    let (r, vs) := if r.stop then (r, []) else if k.vec then r.readLanes (fp32At (k.u.aw 3)) (4 * ix) n else (r, zero)
    if r.stop then r
    else
      let es : List (Elem × Bool) := (List.range n).map (fun l =>
        let at_ (xs : List Lane) : Lane := xs.getD l (fpZero, false)
        let c : Lane := if k.vec then (fpZero, false) else k.cn.getD (st.1 + l) (fpZero, false)
        (k.elem ib1 ib2 (at_ gs).1 (at_ ws).1 (at_ ms).1 (at_ vs).1 (fpMul row.1 c.1),
         (at_ gs).2 || (at_ ws).2 || (at_ ms).2 || (at_ vs).2 || c.2 || row.2))
      let nw : List Lane := es.map (fun e => (e.1.w, e.2))
      let r := r.writeLanesAt (fp32At (k.u.aw 0)) false (4 * ix) nw
      let r := if has then r.writeLanesAt (fp32At (k.u.aw 2)) false (4 * ix) (es.map (fun e => (e.1.m, e.2))) else r
      let r := if k.vec then r.writeLanesAt (fp32At (k.u.aw 3)) false (4 * ix) (es.map (fun e => (e.1.v, e.2))) else r
      match k.copy with
      | some o => r.writeCopy o (k.u.aw 8) k.u.fcp.gather k.cols i st.1 nw
      | none => r

/-- One row: rn first, then its strips (R278). -/
def UpdCfg.row (k : UpdCfg) (ib1 ib2 : Word) (r : Run) (i : Nat) : Run :=
  if r.stop then r
  else if k.vec then (cutRow k.cols).foldl (k.strip ib1 ib2 (fpZero, false) i) r
  else
    let (r, q) := k.sum r i
    let (r, old) := if r.stop then (r, []) else r.readLanes (fp32At (k.u.aw 3)) (4 * i) 1
    if r.stop then r
    else
      let o := old.headD (0, false)
      let rn : Lane := (k.stat o.1 q.1 k.cols, o.2 || q.2)
      let r := r.writeLanesAt (fp32At (k.u.aw 3)) false (4 * i) [rn]
      (cutRow k.cols).foldl (k.strip ib1 ib2 (fpMul rn.1 (fpRecip k.rbar.1), rn.2 || k.rbar.2) i) r

/-- Bank w at the end of the member that writes it. -/
def UpdCfg.writeBank (k : UpdCfg) (r : Run) : Run :=
  if r.stop then r
  else (r.writeLanesAt (fp32At (k.bank k.bankW)) false 0 [k.rbar]).writeLanesAt (fp32At (k.bank k.bankW)) false 64 k.cn

/-- Bank r to bank w, unchanged (R277 step 2). -/
def UpdCfg.copyBank (k : UpdCfg) (r : Run) : Run :=
  let src := k.bank (1 - k.bankW)
  let dst := k.bank k.bankW
  let part (r : Run) (off n : Nat) : Run :=
    if r.stop then r
    else
      let (r, bs) := r.readMarks src off n (n / 64 + 2)
      if r.stop then r else r.writeMarks dst off bs (bs.length / 64 + 2)
  part (part r 0 4) 64 (4 * k.cols)

/-- The reverts of a skipped step (R277 step 3). -/
def UpdCfg.reverts (k : UpdCfg) (r : Run) : Run :=
  if dbit k.d 293 then
    { r with s := ((List.range (dfld k.d 314 304)).map (· + dfld k.d 303 294)).foldl (fun s i => s.rmRevertSlot k.die i) r.s }
  else r

/-- A norm entry: GNaN or negative skips the step, and so does a poisoned one. -/
def skips (v : Nat) (bad : Bool) : Bool := bad || decide (2 ^ 63 ≤ v)

/-- The second pass of a member (R277, R278, R287). -/
def UpdCfg.go (k : UpdCfg) (a b : Nat) (r : Run) : Run :=
  let nt := k.u.aw 6
  let (r, n0, p0) := r.readNat nt 0 8
  let (r, n1, p1) := if r.stop then (r, 0, false) else r.readNat nt (8 * k.grp.clipIx) 8
  let none_ := k.rows == 0 || k.cols == 0
  let lead := !k.vec && dShardIx k.d == 0
  if r.stop then r
  else if skips n0 p0 || skips n1 p1 then
    let r := if lead && !none_ then k.copyBank r else r
    (k.reverts r).raise stStepSkipped 0
  else if none_ || (decide (b ≤ a) && !lead) then r.raise stEmpty 0
  else
    let (nsq, n) := gRead k.neref (BitVec.ofNat 64 n1)
    let k := { k with c := clipFactor k.grp.clip nsq }
    let r := r.addSat n
    let (r, k) := if k.vec then (r, k) else k.columns r
    let ib1 := biasFactor k.grp.bias k.t k.grp.beta1
    let ib2 := biasFactor k.grp.bias k.t k.grp.beta2
    let r := ((List.range (b - a)).map (· + a)).foldl (k.row ib1 ib2) r
    if lead then k.writeBank r else r

def State.updateRun (s : State) (f : Flight) : Run × Nat :=
  let d := f.desc
  let die := hDie f.target
  let u : UpdRec := ⟨f.recs⟩
  let rows := dfld d 247 224
  let cols := dfld d 271 248
  let vec := dbit d 284
  let val (off : Nat) (w : FmtWord) : Int := ((f.vals.find? (fun x => decide (x.1 = recKey off))).map (·.2)).getD w.val
  let k : UpdCfg :=
    { d := d, u := u, die := die, vec := vec, rows := rows, cols := cols, t := dfld d 223 192, neref := sgn8 (dfld d 292 285),
      grad := ⟨u.aw 1, u.fg.fmt, val 72 u.fg⟩, copy := if u.word 7 = 0 then none else some ⟨u.aw 7, u.fcp.fmt, val 76 u.fcp⟩,
      cn := [], rbar := (0, false), c := fpOne }
  let (a, b) := rowPart d rows
  let r := k.go a b (Run.start (s.tbScatter die (hSlot f.target)) die f.fid)
  let lane := if fpIsZero u.grp.beta1 then (if vec then 12 else 10) else if vec then 15 else 13
  let cycles := if vec then 52 + (b - a) * strips cols * lane else 52 + 5 * strips cols + (b - a) * (8 + strips cols * lane)
  (Run.endRows r (hSlot f.target) r.stop false (if u.word 7 = 0 then none else some u.fcp), cycles)

def State.update (s : State) (f : Flight) : State := (Run.ends (s.updateRun f) s f true).vecEnd f

def execUpdate (fid : Nat) (s : State) : Host.Outcome State Fault Refusal :=
  .next (match s.flight fid with
    | some f => if s.runs f 0x61 then s.update f else s
    | none => s)

/-! ### WCOPY (R281) -/

def wcopyChecks (s : State) (f : Flight) : List (Option Nat) :=
  let d := f.desc
  let die := hDie f.target
  let fd := dFmt d 320
  let fresh := dbit d 400
  let dsc := dAddr d 256
  let named := fresh || dfld d 319 256 != 0
  [resvBits d 511 404, need 108 (!fresh || dShardN d == 1), need 128 (ownWord s die (dAddr d 128)),
   need 192 ((dAddr d 192).ok die), need 256 (!named || dsc.ok die),
   need 256 (fresh || (fd.code == 5) == named), need 320 (fd.okDst die && copyFmt fd.code),
   need 320 (!fresh || ((fd.code == 3 || fd.code == 4) && fd.val == 0 && !fd.auto))]

/-- The largest finite |x| (R281 step 1). -/
def finiteMax (a : Word) (xs : List Lane) : Word :=
  xs.foldl (fun a x => if isNonfinite x.1 then a else rmStep a x.1) a

/-- The first sweep: the maximum, and whether poison reached it. -/
def wcopyMax (src : Opnd) (cols : Nat) (x : Run × Word × Bool) (i : Nat) : Run × Word × Bool :=
  (cutRow cols).foldl (fun (x : Run × Word × Bool) st =>
    if x.1.stop then x
    else
      let (r, xs) := x.1.readLanes src (4 * (i * cols + st.1)) st.2
      (r, finiteMax x.2.1 xs, x.2.2 || xs.any (·.2))) x

/-- One row of the copy; `taint` says that poison reached the scale it is converted with. -/
def wcopyRow (src dst : Opnd) (sc : AddrWord) (gather taint : Bool) (cols : Nat) (r : Run) (i : Nat) : Run :=
  (cutRow cols).foldl (fun (r : Run) st =>
    if r.stop then r
    else
      let (r, xs) := r.readLanes src (4 * (i * cols + st.1)) st.2
      if r.stop then r else r.writeCopy dst sc gather cols i st.1 (xs.map (fun x => (x.1, x.2 || taint)))) r

def State.wcopyRun (s : State) (f : Flight) : Run × Nat :=
  let d := f.desc
  let die := hDie f.target
  let fd := dFmt d 320
  let cols := dfld d 399 376
  let (a, b) := rowPart d (dfld d 375 352)
  let ixs := (List.range (b - a)).map (· + a)
  let src : Opnd := fp32At (dAddr d 128)
  let dst := f.opnd 192 320
  let sc := dAddr d 256
  let r0 := Run.start s die f.fid
  let n := (b - a) * strips cols
  if cols = 0 ∨ b ≤ a then (Run.endRows r0 (hSlot f.target) false true (some fd), 12)
  else if dbit d 400 then
    let (r, m, bad) := ixs.foldl (wcopyMax src cols) (r0, (0 : Word), false)
    let (e, g) := if fpMag m = 0 then ((0 : Int), (0 : Int)) else rmScale fd.code (dfld d 403 401) (fpMag m)
    let r := if r.stop then r else ixs.foldl (wcopyRow src { dst with v := e } sc fd.gather bad cols) r
    let r := if r.stop then r else r.writeAll sc 0 [BitVec.ofNat 8 (u8 e), BitVec.ofNat 8 (u8 g), 0, 0] bad
    let r := r.gatherInto fd
    (Run.endRows (if r.stop then r else { r with rm := some m }) (hSlot f.target) r.stop false none, 20 + 2 * n)
  else
    let r := ixs.foldl (wcopyRow src dst sc fd.gather false cols) r0
    (Run.endRows r (hSlot f.target) r.stop false (some fd), 12 + n)

def State.wcopy (s : State) (f : Flight) : State := (Run.ends (s.wcopyRun f) s f true).vecEnd f

def execWcopy (fid : Nat) (s : State) : Host.Outcome State Fault Refusal :=
  .next (match s.flight fid with
    | some f => if s.runs f 0x62 then s.wcopy f else s
    | none => s)

/-! ### SLOTLOAD (R282) -/

/-- The source: own HBM or working memory; an I/O die, which has none, reads any of its module's. -/
def slotSrcOk (s : State) (die : Nat) (w : AddrWord) : Bool :=
  w.ok die && (if isCd die then w.ownMem s.moduleId die
    else match w.at s.moduleId die 0 with
      | .here a => isHbm a || isWorkMem a
      | _ => false)

def slotloadChecks (s : State) (f : Flight) : List (Option Nat) :=
  let d := f.desc
  let die := hDie f.target
  [resvBits d 511 213, need 128 (slotSrcOk s die (dAddr d 128)), need 192 (decide (dfld d 201 192 + dfld d 212 202 ≤ rmSlotsOn die))]

/-- Set exp and eref of a slot, limited to the ranges of R85. -/
def State.slotSet (s : State) (die slot e g : Nat) : State :=
  let a := Reg.ruRmCtrl die slot
  (s.putFld a 15 8 (u8 (clampInt (-127) 127 (sgn8 e)))).putFld a 7 0 (u8 (clampInt (-126) 127 (sgn8 g)))

/-- One record; a poisoned one sets nothing. -/
def slotStep (d : Desc) (r : Run) (i : Nat) : Run :=
  if r.stop then r
  else
    let (r, v, p) := r.readNat (dAddr d 128) (4 * i) 4
    if r.stop || p then r else { r with s := r.s.slotSet r.die (dfld d 201 192 + i) (v % 256) (v / 256 % 256) }

def State.slotloadRun (s : State) (f : Flight) : Run × Nat :=
  let d := f.desc
  let n := dfld d 212 202
  let r0 := Run.start s (hDie f.target) f.fid
  let r := if n = 0 then r0.raise stEmpty 0 else (List.range n).foldl (slotStep d) r0
  (r, 12 + n)

def State.slotload (s : State) (f : Flight) : State := Run.ends (s.slotloadRun f) s f false

def execSlotload (fid : Nat) (s : State) : Host.Outcome State Fault Refusal :=
  .next (match s.flight fid with
    | some f => if s.runs f 0x63 then s.slotload f else s
    | none => s)

end Sys2Proof.Machine
end

