-- ==== Sys2Proof/Machine/Lifecycle.lean ====
section
/-! DEFINITION. The training step: abort (R292, R293), spill and recall (R296-R302), the commit barrier (R305-R307, R341) and slot
images (R311), with their checks (R314). -/

namespace Sys2Proof.Machine

/-! ### Step abort (R292, R293) -/

/-- A waiting descriptor of the step that the die aborts: fetched on it, or a member copy for one of its units. -/
def abortsHere (die stepLo : Nat) (f : Flight) : Bool :=
  f.waits && dStepLo f.desc == stepLo &&
  (if f.parent.isSome then !hGang f.target && hDie f.target == die else f.remote.isNone && ringDie f.ring == die)

/-- DC_ABORT written. -/
def State.abortWrite (s : State) (die : Nat) (v : Word) : State :=
  let s := s.setReg (Reg.dcAbort die) (v &&& 0x8000FFFF)
  if bit v 31 then s.abortAll (s.flights.filter (abortsHere die (wfld v 15 0))) else s

def execDcAbortWrite (die : Nat) (value : Word) (s : State) : Host.Outcome State Fault Refusal :=
  .next (if ringBearing die && !s.dieDown die then s.abortWrite die value else s)

/-! ### SPILL (R297-R299) -/

/-- A word in host memory of this module, aligned to 64 bytes. -/
def hostWord (s : State) (die : Nat) (d : Desc) (lo : Nat) : Option Nat :=
  let w := dAddr d lo
  need lo (w.ok die && w.aligned 64 && (match w.at s.moduleId die 0 with
    | .here a => isHostMem a
    | _ => false))

/-- G64 goes with an equal word only, MXFP4 not at all. -/
def spillPair (ws wd : Nat) : Bool := ws / 2 ^ 28 != 5 && wd / 2 ^ 28 != 5 && ((ws / 2 ^ 28 != 6 && wd / 2 ^ 28 != 6) || ws == wd)

def spillChecks (s : State) (f : Flight) : List (Option Nat) :=
  let d := f.desc
  let die := hDie f.target
  let ws := dfld d 287 256
  let wd := dfld d 319 288
  let fs := dFmt d 256
  let pitch := dfld d 391 368
  [resvBits d 511 409, need 108 (dShardN d == 1), need 128 (ownWord s die (dAddr d 128) (unitBytes fs.fmt)), hostWord s die d 192,
   need 256 (fs.okSrc die && fs.code != 5), need 288 ((dFmt d 288).okCopyDst die ws wd && (dFmt d 288).code != 5),
   need 256 ((ws / 2 ^ 28 != 6 && wd / 2 ^ 28 != 6) || ws == wd),
   need 256 (pitch == 0 || decide (dfld d 343 320 * unitBytes fs.fmt ≤ pitch * 64))]

/-- The format word of the stored data: gather, close and auto clear, val as used. -/
def storedWord (w : Nat) (v : Int) : Nat := 2 ^ 28 * (w / 2 ^ 28) + 2 ^ 8 * (w / 2 ^ 8 % 2 ^ 17) + u8 v

/-- The 64-byte header of a spill record (R297). -/
def spillHeader (step : BitVec 48) (tensor len rows fmt : Nat) (crc : Option Word) : List Byte :=
  leBytes 6 step.toNat ++ leBytes 2 tensor ++ leBytes 4 len ++ leBytes 4 rows ++ leBytes 4 fmt ++
  leBytes 4 (crc.getD 0).toNat ++ [if crc.isSome then (1 : Byte) else 0] ++ List.replicate 39 0

/-- Rows of a transfer in order. -/
def Run.moveRows (r : Run) (c : Conv) (src : AddrWord) (soff spitch : Nat) (dst : AddrWord) (doff dpitch len rows : Nat) : Run :=
  (List.range rows).foldl (fun r i => if r.stop then r else r.moveRow c src (soff + i * spitch) len dst (doff + i * dpitch)) r

/-- The bytes of this module from an address word on. -/
def Run.ownBytes (r : Run) (w : AddrWord) (off n : Nat) : List Byte :=
  match w.at r.s.moduleId r.die off with
  | .here a => r.s.bytes a n
  | _ => []

def State.spillRun (s : State) (f : Flight) : Run × Nat :=
  let d := f.desc
  let fs := dFmt d 256
  let fd := dFmt d 288
  let c : Conv := { copy := bitCopy (dfld d 287 256) (dfld d 319 288), src := fs.fmt, dst := fd.fmt, vs := f.val 256, vd := f.val 288,
                    gather := fd.gather }
  let len := dfld d 343 320
  let rows := dfld d 367 344
  let pitch := if dfld d 391 368 = 0 then len * c.ss else dfld d 391 368 * 64
  let dst := dAddr d 192
  let r := Run.start s (hDie f.target) f.fid
  let r := if len = 0 then r else r.moveRows c (dAddr d 128) 0 pitch dst 64 (len * c.ds) len rows
  let r := if r.stop then r
    else
      let crc := if dbit d 408 then some (crc32c (r.ownBytes dst 64 (rows * len * c.ds))) else none
      r.write dst 0 (spillHeader f.step (dfld d 407 392) len rows (storedWord (dfld d 319 288) (f.val 288)) crc)
  let r := if len = 0 ∨ rows = 0 then r.raise stEmpty 0 else r
  let r := if c.gather && !c.copy then r.gatherInto fd else r
  (r, rows * ((len * max c.ss c.ds + 383) / 384))

def State.spill (s : State) (f : Flight) : State := Run.ends (s.spillRun f) s f true

def execSpill (fid : Nat) (s : State) : Host.Outcome State Fault Refusal :=
  .next (match s.flight fid with
    | some f => if s.runs f 0x54 then (s.spill f).movEnd f else s
    | none => s)

/-! ### RECALL (R300, R301) -/

/-- Whether a stored word is legal: R86, with gather, close and auto clear (R297). -/
def storedOk (die w : Nat) : Bool :=
  let f := fmtWord w
  f.okSrc die && !f.auto

/-- Whether a stored word goes with the destination's: no MXFP4, G64 with an equal word only (R314), and a gather where the rows are
converted into E5M2 or E4M3 (R86). -/
def recallPair (die ws wd : Nat) : Bool := spillPair ws wd && (fmtWord wd).okCopyDst die ws wd

def recallChecks (s : State) (f : Flight) : List (Option Nat) :=
  let d := f.desc
  let die := hDie f.target
  let fd := dFmt d 256
  let pitch := dfld d 359 336
  [resvBits d 511 377, need 108 (dShardN d == 1), hostWord s die d 128, need 192 (ownWord s die (dAddr d 192) (unitBytes fd.fmt)),
   need 256 (fd.ok die && fd.code != 5 && (!fd.auto || fd.okDst die)),
   need 256 (pitch == 0 || decide (dfld d 311 288 * unitBytes fd.fmt ≤ pitch * 64))]

/-- Why a header does not match; none when it does. -/
def recallReason (d : Desc) (step : BitVec 48) (die : Nat) (h : List Byte) (bad : Bool) : Option Nat :=
  let w := recNat h 16 4
  if bad then some 3
  else if !dbit d 376 && recNat h 0 6 != step.toNat then some 1
  else if recNat h 6 2 != dfld d 375 360 then some 2
  else if recNat h 8 4 != dfld d 311 288 || recNat h 12 4 != dfld d 335 312 || !storedOk die w then some 3
  else none

/-- Undefined contents, marked poisoned, for every row of the destination. -/
def Run.spoil (r : Run) (dst : AddrWord) (pitch row rows : Nat) : Run :=
  (List.range rows).foldl (fun r i =>
    if r.stop then r
    else
      let (bs, s) := r.s.freeBytes row
      let (r, seen) := Run.writeMover { r with s := s } dst (i * pitch) (bs.map (fun b => (b, true))) false (row / 64 + 2)
      { r with stop := seen }) r

/-- A refused or corrupt record is logged at the mover's die. -/
def Run.badSpill (r : Run) (reason : Nat) : Run := r.raiseLog stPoison r.die (.spillHeader reason) r.fid

/-- Lines written so far, marked poisoned. -/
def Run.spoilLines (r : Run) : Run :=
  { r with s := r.lines.foldl (fun s l => s.markPoison (l % 2 ^ 42)) r.s }

def State.recallRun (s : State) (f : Flight) : Run × Nat :=
  let d := f.desc
  let die := hDie f.target
  let src := dAddr d 128
  let dst := dAddr d 192
  let fd := dFmt d 256
  let len := dfld d 311 288
  let rows := if len = 0 then 0 else dfld d 335 312
  let (r, h, bad) := (Run.start s die f.fid).read src 0 64
  let end_ (r : Run) : Run × Nat := (if fd.gather then r.gatherInto fd else r, rows * ((len * 8 + 383) / 384))
  if r.stop then end_ r
  else
    let ds := unitBytes fd.fmt
    let pitch := if dfld d 359 336 = 0 then len * ds else dfld d 359 336 * 64
    match recallReason d f.step die h bad with
    | some reason => end_ ((r.badSpill reason).spoil dst pitch (len * ds) rows)
    | none =>
      let w := recNat h 16 4
      if !recallPair die w (dfld d 287 256) then (r.raise stDescInvalid 256, 0)
      else
      let fs := fmtWord w
      let c : Conv := { copy := bitCopy w (dfld d 287 256), src := fs.fmt, dst := fd.fmt, vs := fs.val, vd := f.val 256,
                        gather := fd.gather }
      let r := r.moveRows c src 64 (len * c.ss) dst 0 pitch len rows
      let wrong := recNat h 24 1 % 2 == 1 && crc32c (s.bytes (src.addr + 64) (rows * len * c.ss)) != BitVec.ofNat 32 (recNat h 20 4)
      let r := if !r.stop && wrong then (r.badSpill 4).spoilLines else r
      end_ (if rows = 0 then r.raise stEmpty 0 else r)

def State.recall (s : State) (f : Flight) : State := Run.ends (s.recallRun f) s f true

def execRecall (fid : Nat) (s : State) : Host.Outcome State Fault Refusal :=
  .next (match s.flight fid with
    | some f => if s.runs f 0x55 then (s.recall f).movEnd f else s
    | none => s)

/-! ### The commit barrier (R305, R306, R341) -/

/-- Participants of a COMMIT. -/
def participants (d : Desc) : List Nat := (List.range (dfld d 159 148)).map (fun i => dfld d 138 128 + i * dfld d 147 139)

def commitChecks (s : State) (f : Flight) : List (Option Nat) :=
  let d := f.desc
  let n := dfld d 159 148
  [resvBits d 511 201, need 108 (dShardN d == 1), need 148 (decide (1 ≤ n ∧ n ≤ 2048)), need 139 (dfld d 147 139 != 0),
   need 128 (n == 0 || decide (dfld d 138 128 + (n - 1) * dfld d 147 139 < 2048)), need 128 ((participants d).contains s.moduleId),
   need 160 (dfld d 175 160 != 0)]

/-- The I/O die whose fabric engine holds the records of a barrier. -/
def barrierIo (cid : Nat) : Nat := 88 + cid % 10

/-- An arrival reaches the engine: recorded, or ignored below the lowest step held, or not acknowledged for want of a record. -/
def State.barrierArrive (s : State) (cid : Nat) (step : BitVec 48) (m : Nat) : State × Bool :=
  let io := barrierIo cid
  let here := s.fab.barriers.filter (fun b => decide (b.io = io))
  let mine := here.filter (fun b => decide (b.cid = cid))
  if s.dieDown io then (s, false)
  else if mine.any (fun b => decide (b.step = step)) then
    ({ s with fab := { s.fab with barriers := s.fab.barriers.map (fun b =>
        if b.cid = cid ∧ b.step = step then { b with arrived := setInsert b.arrived m } else b) } }, true)
  else if !mine.isEmpty && mine.all (fun b => decide (step.toNat < b.step.toNat)) then (s, true)
  else if 2 ≤ mine.length ∨ 64 ≤ here.length then (s, false)
  else ({ s with fab := { s.fab with barriers := s.fab.barriers ++ [⟨io, cid, step, [m]⟩] } }, true)

/-- Who has arrived for a COMMIT. -/
def State.arrivedFor (s : State) (f : Flight) : List Nat :=
  ((s.fab.barriers.find? (fun b => decide (b.cid = dfld f.desc 191 176 ∧ b.step = f.step))).map (·.arrived)).getD []

def State.known (s : State) (f : Flight) : Nat := ((participants f.desc).filter (fun m => (s.arrivedFor f).contains m)).length

/-- One count of a fence counter. -/
def State.fenceInc (s : State) (die ctr : Nat) : State :=
  if s.dieDown die then s else s.setReg (Reg.dcFence die ctr) (s.reg (Reg.dcFence die ctr) + 1)

def ringDies : List Nat := (List.range 40) ++ (List.range 18).map (· + 80)

/-- The barrier passes. -/
def State.commitPass (s : State) (f : Flight) : State :=
  let s := s.putFld (Reg.dcCommitState (hDie f.target)) 31 30 2
  let s := if dbit f.desc 200 then ringDies.foldl (fun s d => s.fenceInc d (dfld f.desc 199 192)) s else s
  ({ s with commits := s.commits.filter (fun x => x != f.fid) } : State).finishWith f stOK 0

/-- What is known of a waiting COMMIT's arrivals; it passes when all are. -/
def State.commitCheck (s : State) (f : Flight) : State :=
  let n := s.known f
  let s := s.putFld (Reg.dcCommitState (hDie f.target)) 27 16 n
  if n = dfld f.desc 159 148 then s.commitPass f else s

/-- The COMMITs that wait. -/
def State.commitsWaiting (s : State) : List Flight :=
  s.flights.filter (fun f =>
    f.running && !hGang f.target && dClass f.desc == 0x68 && s.commits.contains f.fid && !s.dieDown (hDie f.target))

def State.commitScan (s : State) (cid : Nat) (step : BitVec 48) : State :=
  (s.commitsWaiting.filter (fun f => decide (dfld f.desc 191 176 = cid ∧ f.step = step))).foldl (fun s f => s.commitCheck f) s

/-- The ARRIVE of a COMMIT to one participant, on the flow of its die's table; without a usable flow none leaves. -/
def State.sendArrive (s : State) (f : Flight) (m : Nat) : State :=
  match s.fdest (hDie f.target) m with
  | none => s
  | some fl =>
    if s.flowOn fl && s.flowPeer fl == m then
      s.sendSeq fl { type := 0x18, payload := leBytes 6 f.step.toNat ++ leBytes 2 (dfld f.desc 191 176) ++ List.replicate 56 0,
                     last := true } none
    else s

/-- The barrier of a COMMIT starts (R306 step 1, R341). -/
def State.commitStart (s : State) (f : Flight) : State :=
  let cid := dfld f.desc 191 176
  let a := Reg.dcCommitState (hDie f.target)
  let s := s.setReg a (BitVec.ofNat 32 (2 ^ 30 + dStepLo f.desc))
  let s := { s with commits := s.commits ++ [f.fid]
                    fab := { s.fab with barriers := s.fab.barriers.filter (fun b => decide (b.cid ≠ cid ∨ f.step.toNat ≤ b.step.toNat)) } }
  ((participants f.desc).filter (fun m => m != s.moduleId)).foldl (fun s m => s.sendArrive f m) s

/-- A COMMIT: its barrier starts, and its own arrival is recorded as soon as a record is free. -/
def State.commit (s : State) (f : Flight) : State :=
  let s := if s.commits.contains f.fid then s else s.commitStart f
  let s := (s.barrierArrive (dfld f.desc 191 176) f.step s.moduleId).1
  s.commitScan (dfld f.desc 191 176) f.step

def execCommit (fid : Nat) (s : State) : Host.Outcome State Fault Refusal :=
  .next (match s.flight fid with
    | some f => if f.running && !hGang f.target && dClass f.desc == 0x68 && !s.dieDown (hDie f.target) then s.commit f else s
    | none => s)

/-- The lowest participant whose arrival is missing. -/
def State.firstMissing (s : State) (f : Flight) : Nat :=
  let ms := (participants f.desc).filter (fun m => !(s.arrivedFor f).contains m)
  ms.foldl min 2048

/-- The barrier fails (R306 step 3). -/
def State.commitFail (s : State) (f : Flight) : State :=
  let die := hDie f.target
  let miss := s.firstMissing f
  let s := s.putFld (Reg.dcCommitState die) 31 30 3
  let s := s.setReg (Reg.dcCommitMiss die) (BitVec.ofNat 32 miss)
  let s := { s with commits := s.commits.filter (fun x => x != f.fid) }
  let s := (ringDies.filter (fun d => !s.dieDown d)).foldl
    (fun s d => s.abortWrite d (BitVec.ofNat 32 (2 ^ 31 + dStepLo f.desc))) s
  s.finishWith f stFlowTimeout (BitVec.ofNat 32 (s.fld (Reg.dcFdest die miss) 15 0))

def execCommitTimeout (fid : Nat) (s : State) : Host.Outcome State Fault Refusal :=
  .next (match s.commitsWaiting.find? (fun f => decide (f.fid = fid)) with
    | some f => if s.known f = dfld f.desc 159 148 then s.commitPass f else s.commitFail f
    | none => s)

/-! ### SLOTIMG (R311) -/

def slotimgChecks (s : State) (f : Flight) : List (Option Nat) :=
  let d := f.desc
  let die := hDie f.target
  let w := dAddr d 128
  [resvBits d 511 214, need 128 (if dbit d 213 then slotSrcOk s die w else w.ok die && w.aligned 64),
   need 192 (decide (dfld d 201 192 + dfld d 212 202 ≤ rmSlotsOn die))]

/-- A magnitude as a slot holds it: no sign, +0 for a NaN (R89 note 2). -/
def slotMag (w : Word) : Word := if fpIsNaN w then 0 else fpAbs w

/-- The limits of R89 notes 1 and 2 on the depth, exp and eref fields of a word. -/
def slotScale (w : Word) : Word :=
  wset (wset w 15 8 (u8 (clampInt (-127) 127 (sgn8 (wfld w 15 8))))) 7 0 (u8 (clampInt (-126) 127 (sgn8 (wfld w 7 0))))

/-- A slot's image (R311): its registers at offsets 0x00 to 0x7F. -/
def State.slotImage (s : State) (die k : Nat) : List Byte :=
  let ws := [s.reg (Reg.ruRmCur die k), s.reg (Reg.ruRmCtrl die k), s.reg (Reg.ruRmDepth die k), s.reg (Reg.ruRmPrev die k),
             s.reg (Reg.ruRmShadow die k)] ++ List.replicate 11 0 ++ (List.range 16).map (fun h => s.reg (Reg.ruRmHist die k h))
  ws.flatMap (fun w => leBytes 4 w.toNat)

/-- Every field of a slot set from an image. -/
def State.slotRestore (s : State) (die k : Nat) (bs : List Byte) : State :=
  let w (off : Nat) : Word := BitVec.ofNat 32 (recNat bs off 4)
  let s := s.setReg (Reg.ruRmCur die k) (slotMag (w 0))
  let s := s.setReg (Reg.ruRmCtrl die k) (slotScale (w 4 &&& 0x9FFFFFFF))
  let s := s.setReg (Reg.ruRmDepth die k) (BitVec.ofNat 32 (min 16 (wfld (w 8) 4 0)))
  let s := s.setReg (Reg.ruRmPrev die k) (wset (slotScale (w 12 &&& 0x1FFFFF)) 20 16 (min 16 (wfld (w 12) 20 16)))
  let s := s.setReg (Reg.ruRmShadow die k) (slotMag (w 16))
  (List.range 16).foldl (fun s h => s.setReg (Reg.ruRmHist die k h) (slotMag (w (64 + 4 * h)))) s

/-- One slot saved, or restored unless its image is poisoned. -/
def slotimgStep (d : Desc) (r : Run) (i : Nat) : Run :=
  let k := dfld d 201 192 + i
  if r.stop then r
  else if dbit d 213 then
    let (r, bs, p) := r.read (dAddr d 128) (128 * i) 128
    if r.stop || p then r else { r with s := r.s.slotRestore r.die k bs }
  else r.write (dAddr d 128) (128 * i) (r.s.slotImage r.die k)

def State.slotimgRun (s : State) (f : Flight) : Run × Nat :=
  let d := f.desc
  let (a, b) := rowPart d (dfld d 212 202)
  let r0 := Run.start s (hDie f.target) f.fid
  let r := if b ≤ a then r0.raise stEmpty 0 else ((List.range (b - a)).map (· + a)).foldl (slotimgStep d) r0
  (r, 12 + (b - a))

def State.slotimg (s : State) (f : Flight) : State := Run.ends (s.slotimgRun f) s f false

def execSlotimg (fid : Nat) (s : State) : Host.Outcome State Fault Refusal :=
  .next (match s.flight fid with
    | some f => if s.runs f 0x69 then s.slotimg f else s
    | none => s)

end Sys2Proof.Machine
end

