-- ==== Sys2Proof/Machine/Video.lean ====
section
/-! DEFINITION. The video decode engines: class 0x48 (R218-R231), from decoded samples to outputs. -/

namespace Sys2Proof.Machine

/-! ### The parameter record (R221, R224) -/

structure VideoPrm where
  bsLen  : Nat
  scrLen : Nat
  maxW   : Nat
  maxH   : Nat
  f0     : Nat
  nf     : Nat
  codec  : Nat
  colour : Nat
  siting : Nat
  scale  : List Word
  off    : List Word
  resv   : Nat
  smp    : Sampling
  deriving DecidableEq, Repr

def videoPrm (bs : List Byte) : VideoPrm :=
  let n (o k : Nat) := recNat bs o k
  let ws (o : Nat) := (List.range 3).map (fun c => BitVec.ofNat 32 (n (o + 4 * c) 4))
  { bsLen := n 0 8, scrLen := n 8 8, maxW := n 16 2, maxH := n 18 2, f0 := n 20 2, nf := n 22 2, codec := n 24 1, colour := n 25 1,
    siting := n 26 1, scale := ws 32, off := ws 44, resv := n 27 5 + n 56 8 + n 96 32, smp := samplingOf (bs.drop 64) }

def VideoPrm.deep (p : VideoPrm) : Nat := p.codec / 16 % 2
def VideoPrm.av1 (p : VideoPrm) : Bool := p.codec % 4 == 1
def VideoPrm.out (p : VideoPrm) : Nat := p.colour % 4
/-- Output channels: 1 for Y, 3 otherwise. -/
def VideoPrm.chans (p : VideoPrm) : Nat := if p.out = 1 then 1 else 3

def up64 (n : Nat) : Nat := (n + 63) / 64 * 64

/-- The scratch bytes the engine needs (R224). -/
def VideoPrm.scratch (p : VideoPrm) : Nat :=
  (if p.av1 then 10 else 17) * 2 * up64 p.maxW * up64 p.maxH * (1 + p.deep)

def VideoPrm.ok (p : VideoPrm) : Bool :=
  within 1 4294967295 [p.bsLen] && within 16 8192 [p.maxW, p.maxH] && decide (p.maxW * p.maxH ≤ 35651584) &&
  decide (p.codec % 4 < 2) && (p.av1 || p.codec / 4 % 4 == 0) && decide (p.codec < 32) && p.out != 3 &&
  decide (p.colour / 16 % 4 < 3) && decide (p.colour < 128) && decide (p.siting < 4) &&
  (p.chans == 3 || ((p.scale.drop 1) ++ (p.off.drop 1)).all (· == 0)) && p.resv == 0 && p.smp.ok && decide (p.scratch ≤ p.scrLen) &&
  (p.smp.nbox != 0 || decide (p.nf ≤ p.smp.nt))

/-- Boxes in non-decreasing frame order, with frames and times in range (R228). -/
def boxesOk (nf nt : Nat) : Nat → List Box → Bool
  | _, [] => true
  | f, b :: bs => b.resv == 0 && decide (b.frame < nf) && decide (b.t < nt) && decide (f ≤ b.frame) && boxesOk nf nt b.frame bs

/-! ### Checks (R224, R228) -/

/-- A word of the engine's own module, in memory; the records' alignment is taken as 64 bytes (entry 19). -/
def ownModule (s : State) (die : Nat) (d : Desc) (lo : Nat) (align : Nat := 1) : Option Nat :=
  let w := dAddr d lo
  need lo (w.ok die && w.aligned align && (match w.at s.moduleId die 0 with
    | .here a => isHbm a || isHostMem a || isWorkMem a
    | _ => false))

def decodeChecks (s : State) (f : Flight) : List (Option Nat) :=
  let d := f.desc
  let die := hDie f.target
  let fo := dFmt d 448
  [resvBits d 511 496, need 108 (dShardN d == 1), ownModule s die d 128, ownModule s die d 192, need 256 ((dAddr d 256).ok die),
   ownModule s die d 384 64, need 448 (fo.okDst die && opFmt fo.code),
   need 480 (hintOk (dfld d 495 480))]

def decodeRecChecks (s : State) (f : Flight) : List (Option Nat) :=
  let p := videoPrm f.recs
  [if p.smp.nbox = 0 then zeroWord f.desc 320 else ownModule s (hDie f.target) f.desc 320 64]

def decodeRecOk (f : Flight) : Bool :=
  let p := videoPrm f.recs
  p.ok && boxesOk p.nf p.smp.nt 0 ((List.range p.smp.nbox).map (boxOf (f.recs.drop 128)))

/-! ### The frame that is sampled (R219) -/

/-- A window of a plane of rows of `stride` samples. -/
def windowOf (plane : List Nat) (stride top left h w : Nat) : List Nat :=
  (List.range h).flatMap (fun y => ((plane.drop ((top + y) * stride + left)).take w))

/-- The frame cut to its window: the chroma planes have half the luma grid's samples each way. -/
def frameWindow (f : VideoFrame) : VideoFrame :=
  let c (plane : List Nat) := windowOf plane ((f.picW + 1) / 2) (f.top / 2) (f.left / 2) ((f.h + 1) / 2) ((f.w + 1) / 2)
  { f with luma := windowOf f.luma f.picW f.top f.left f.h f.w, cb := c f.cb, cr := c f.cr, picH := f.h, picW := f.w,
           top := 0, left := 0 }

/-! ### From samples to values (R222, R223) -/

/-- The FP32 rounding of n / m. -/
def ratio (neg : Bool) (n m : Nat) : Word := fpRound (quotVal neg n m 0)

/-- Four times the chroma coordinate of luma coordinate x: `half` says the samples lie half a luma step on. -/
def chroma4 (half : Bool) (x : Nat) : Int := 2 * x - (if half then 1 else 0)

/-- Samples and weights (in quarters) along one axis of n chroma samples, edges clamped. -/
def chromaAxis (half : Bool) (n x : Nat) : List (Nat × Nat) :=
  let q := chroma4 half x
  let i := q / 4
  let w := (q % 4).toNat
  let c (j : Int) : Nat := (max 0 (min ((n : Int) - 1) j)).toNat
  [(c i, 4 - w), (c (i + 1), w)]

/-- A chroma sample at luma position (y, x), exact (R222 step 1). Siting 1 is left, 2 centre, 3 top-left. -/
def chromaAt (siting h w : Nat) (plane : List Nat) (y x : Nat) : Word :=
  let ch := (h + 1) / 2
  let cw := (w + 1) / 2
  let ys := chromaAxis (siting != 3) ch y
  let xs := chromaAxis (siting == 2) cw x
  let v := (ys.map (fun a => (xs.map (fun b => a.2 * b.2 * plane.getD (a.1 * cw + b.1) 0)).sum)).sum
  fpRound (.fin false v (-4))

def VideoPrm.sitingOf (p : VideoPrm) (f : VideoFrame) : Nat :=
  if p.siting ≠ 0 then p.siting else match f.loc with
    | some 1 => if p.av1 then 1 else 2
    | some 2 => 3
    | _ => 1

def VideoPrm.matrixOf (p : VideoPrm) (f : VideoFrame) : Nat :=
  let m := p.colour / 4 % 4
  if m ≠ 0 then m else match f.matrix with
    | some 5 => 1
    | some 6 => 1
    | some 9 => 3
    | _ => 2

def VideoPrm.fullOf (p : VideoPrm) (f : VideoFrame) : Bool :=
  let r := p.colour / 16 % 4
  if r = 0 then f.full.getD false else r == 2

/-- Kr and Kb in ten-thousandths. -/
def matrixK (m : Nat) : Nat × Nat := if m = 1 then (2990, 1140) else if m = 3 then (2627, 593) else (2126, 722)

/-- y', cb' and cr' (R223). -/
def normSample (full : Bool) (b : Nat) (y cb cr : Word) : Word × Word × Word :=
  let u := 2 ^ (b - 8)
  let oy := if full then 0 else 16 * u
  let sy := if full then ratio false 1 (2 ^ b - 1) else ratio false 1 (219 * u)
  let oc := if full then 2 ^ (b - 1) else 128 * u
  let sc := if full then ratio false 1 (2 ^ b - 1) else ratio false 1 (224 * u)
  (fpMul (fpSub y (fpOfNat oy)) sy, fpMul (fpSub cb (fpOfNat oc)) sc, fpMul (fpSub cr (fpOfNat oc)) sc)

/-- R, G and B. -/
def rgb (m : Nat) (y cb cr : Word) : List Word :=
  let (r, b) := matrixK m
  let g := 10000 - r - b
  let kR := ratio false (2 * (10000 - r)) 10000
  let kB := ratio false (2 * (10000 - b)) 10000
  let kGb := ratio true (2 * b * (10000 - b)) (10000 * g)
  let kGr := ratio true (2 * r * (10000 - r)) (10000 * g)
  [fpFma kR cr y, fpFma kGr cr (fpFma kGb cb y), fpFma kB cb y]

def limit (lo hi x : Word) : Word := fpMinimum (fpMaximum x lo) hi

/-- The channel values of a frame at (y, x), after steps 1 to 4 of R222. -/
def VideoPrm.pixel (p : VideoPrm) (f : VideoFrame) (y x : Nat) : List Word :=
  let sit := p.sitingOf f
  let mid := fpOfNat (2 ^ (f.bits - 1))
  let cb := if f.mono then mid else chromaAt sit f.h f.w f.cb y x
  let cr := if f.mono then mid else chromaAt sit f.h f.w f.cr y x
  let (y', cb', cr') := normSample (p.fullOf f) f.bits (fpOfNat (f.luma.getD (y * f.w + x) 0)) cb cr
  let vs := if p.out = 0 then rgb (p.matrixOf f) y' cb' cr' else if p.out = 1 then [y'] else [y', cb', cr']
  let clamp := p.colour / 64 % 2 == 1
  let neg := ratio true 1 2
  vs.mapIdx (fun c v =>
    let v := if !clamp then v else if p.out = 2 ∧ c ≠ 0 then limit neg half v else limit fpZero fpOne v
    fpFma v (p.scale.getD c 0) (p.off.getD c 0))

/-! ### The units of a byte stream (R218) -/

/-- Zero bytes at the end of a NAL unit belong to the byte stream. -/
def noTrail (bs : List Byte) : List Byte := (bs.reverse.dropWhile (· == 0)).reverse

/-- The NAL units of an Annex B byte stream, by byte offset: what lies between start codes. `cur` is the unit being read, last byte
first. -/
def nalSplit : Nat → Option (Nat × List Byte) → List Byte → List (Nat × List Byte)
  | _, cur, [] => (cur.map (fun u => (u.1, noTrail u.2.reverse))).toList
  | k, cur, b :: rest =>
    let here := match cur with
      | some (at_, got) => some (at_, b :: got)
      | none => none
    match here, b, rest with
    | some (at_, x :: 0 :: 0 :: got), _, _ =>
      if x = 1 then (at_, noTrail got.reverse) :: nalSplit (k + 1) (some (k + 1, [])) rest else nalSplit (k + 1) here rest
    | some u, _, _ => nalSplit (k + 1) (some u) rest
    | none, 0, 0 :: 1 :: _ => nalSplit (k + 1) (some (k, [0])) rest
    | none, _, _ => nalSplit (k + 1) none rest

/-- nal_unit_type and nuh_layer_id of a NAL unit's header (H.265 clause 7.3.1.2). -/
def nalType (u : List Byte) : Nat := (u.getD 0 0).toNat / 2 % 64
def nalLayer (u : List Byte) : Nat := (u.getD 0 0).toNat % 2 * 32 + (u.getD 1 0).toNat / 8

/-- The NAL units decoded: those of other layers are skipped, and SEI is ignored. -/
def nalUnits (bs : List Byte) : List (Nat × List Byte) :=
  (nalSplit 0 none bs).filter (fun u => 2 ≤ u.2.length && nalLayer u.2 == 0 && nalType u.2 != 39 && nalType u.2 != 40)

/-- leb128 of AV1: the value and how many bytes it takes. -/
def leb128 : Nat → List Byte → Nat × Nat
  | 0, _ => (0, 0)
  | _, [] => (0, 0)
  | fuel + 1, b :: rest =>
    if b.toNat < 128 then (b.toNat, 1)
    else
      let x := leb128 fuel rest
      (b.toNat % 128 + 128 * x.1, x.2 + 1)

/-- The bytes of an OBU's header, and whether it carries its size. -/
def obuHeader (bs : List Byte) : Nat := if (bs.getD 0 0).getLsbD 2 then 2 else 1
def obuSized (bs : List Byte) : Bool := (bs.getD 0 0).getLsbD 1

/-- The OBUs of the low-overhead format, by byte offset. -/
def obuSplit : Nat → Nat → List Byte → List (Nat × List Byte)
  | 0, _, _ => []
  | _, _, [] => []
  | fuel + 1, k, b :: rest =>
    let bs := b :: rest
    let h := obuHeader bs
    let x := leb128 8 (bs.drop h)
    let n := if obuSized bs then h + x.2 + x.1 else bs.length
    (k, bs.take n) :: obuSplit fuel (k + n) (bs.drop n)

/-- Pieces of AV1's Annex B, each behind its length, by byte offset. -/
def lengthSplit : Nat → Nat → List Byte → List (Nat × List Byte)
  | 0, _, _ => []
  | _, _, [] => []
  | fuel + 1, k, b :: rest =>
    let bs := b :: rest
    let x := leb128 8 bs
    (k + x.2, (bs.drop x.2).take x.1) :: lengthSplit fuel (k + x.2 + x.1) (bs.drop (x.2 + x.1))

/-- The OBUs of temporal units of frame units of AV1's Annex B. -/
def obuAnnexB (bs : List Byte) : List (Nat × List Byte) :=
  let inner (u : Nat × List Byte) := lengthSplit u.2.length u.1 u.2
  ((lengthSplit bs.length 0 bs).flatMap inner).flatMap inner

/-- The units of a segment in order, by the codec and format of the parameter record. -/
def VideoPrm.units (p : VideoPrm) (bs : List Byte) : List (Nat × List Byte) :=
  if !p.av1 then nalUnits bs else if p.codec / 4 % 2 = 0 then obuSplit bs.length 0 bs else obuAnnexB bs

/-! ### Class 0x48 -/

/-- Why the bitstream's bytes end before bs_len: a fault or a poisoned line, or a line an answer must bring first. -/
inductive BitsEnd where
  | all
  | bad (e : SrcBad)
  | hold (io line : Nat)

/-- What the read of the k-th line of the bitstream meets, if it is not served. -/
def Run.bitsBad (r : Run) (w : AddrWord) (off n : Nat) : Option BitsEnd :=
  match w.at r.s.moduleId r.die off with
  | .here a =>
    match r.meets a, r.holder a with
    | some m, _ => some (.bad (.miss m a))
    | none, some io => some (.hold io (a / 64))
    | none, none => if r.s.linePoisoned (a / 64) then some (.bad (.poison a)) else none
  | _ => (r.s.probe r.die w off n).map .bad

/-- The places where the lines of the bitstream begin. -/
def bitsLines (w : AddrWord) (n : Nat) : List Nat :=
  ((List.range (n / 64 + 2)).map (fun k => if k = 0 then 0 else k * 64 - w.addr % 64)).filter (fun off => decide (off < n))

/-- The bytes of the bitstream up to the first that cannot be read, each line as a snoop of its holder would bring it (R353). -/
def Run.bitstream (r : Run) (w : AddrWord) (n : Nat) : List Byte × BitsEnd :=
  let s := r.s
  let bad := ((bitsLines w n).filterMap (fun off =>
    (r.bitsBad w off (min (chunk w off) (n - off))).map (fun e => (off, e)))).head?
  let len := match bad with | some (off, _) => off | none => n
  ((bitsLines w len).flatMap (fun off => match w.at s.moduleId r.die off with
    | .here a => (s.shareCopies (a / 64)).bytes a (min (chunk w off) (len - off))
    | _ => []), (bad.map (·.2)).getD .all)

/-- The engine reads the first n bytes of its bitstream: the line of each is shared, and its I/O die's cache holds it (R351,
R353). -/
def Run.readBits (r : Run) (w : AddrWord) (n : Nat) : Run :=
  (bitsLines w n).foldl (fun r off => match w.at r.s.moduleId r.die off with
    | .here a =>
      if r.stop then r
      else
        let s := r.s.shareCopies (a / 64)
        let s := if s.cacheable a (some (.desc r.fid)) then s.placeShared (r.die - 80) (a / 64) else s
        ({ r with s := s } : Run).answered a .read
    | _ => r) r

/-- The outcome of a segment: what ends it before frame f0 + nf - 1 is output. -/
inductive Ending where
  | fine
  | error (reason : Nat) (pos : Nat)
  | short

/-- The decoding of a segment so far: the frames put out, whether a random access point has been met and another after it, what
ended it, the bytes it has read, the offset of the last unit met, 0xFFFFFFFF before the first, and the number of the next. -/
structure VideoWalk where
  frames : List VideoFrame
  points : Nat
  ending : Ending
  used   : Nat
  last   : Nat
  ix     : Nat

/-- Profile, level, chroma format, bit depth and tools within R218. -/
def unitSupported (av1 : Bool) (u : VideoUnit) : Bool :=
  (if av1 then u.profile == 0 && decide (u.level ≤ 63) && decide (u.chroma ≤ 1)
   else decide (1 ≤ u.profile ∧ u.profile ≤ 3) && decide (u.level ≤ 62) && u.chroma == 1) &&
  (u.bits == 8 || u.bits == 10) && !u.oddTool && decide (16 ≤ u.w ∧ 16 ≤ u.h)

/-- The reason a unit stops the engine, the lowest that applies (R229); `scratch` says its decoding met an uncorrectable scratch
read. -/
def VideoPrm.unitError (p : VideoPrm) (u : VideoUnit) (scratch : Bool) : Option Nat :=
  if !u.syntaxOk then some 1
  else if !unitSupported p.av1 u then some 2
  else if p.maxW < u.w ∨ p.maxH < u.h ∨ (u.bits = 10 ∧ p.deep = 0) then some 3
  else if !u.refsOk then some 4
  else if scratch then some 7
  else none

/-- One unit of the segment (R218, R219), of which `len` bytes can be read. -/
def VideoPrm.unit (p : VideoPrm) (len : Nat) (scratch : Option Nat) (x : VideoWalk) (u : VideoUnit) : VideoWalk :=
  match x.ending with
  | .fine =>
    if p.f0 + p.nf ≤ x.frames.length then x
    else if len < u.fin then { x with ending := .short, used := len, last := u.pos }
    else
      let x := { x with used := u.fin, last := u.pos, ix := x.ix + 1 }
      if u.layer ≠ 0 then x
      else if x.points = 0 ∧ u.entry = false then { x with ending := .error 6 u.pos }
      else if x.points = 1 ∧ u.rasl = true then x
      else
        let x := { x with points := if u.entry then min 2 (x.points + 1) else x.points }
        match p.unitError u (scratch == some (x.ix - 1)) with
        | some r => { x with ending := .error r u.pos }
        | none => { x with frames := x.frames ++ (u.outs.filter (·.shown)).map frameWindow }
  | _ => x

/-- Decode a segment from the bytes that can be read. -/
def VideoPrm.walk (p : VideoPrm) (bs : List Byte) (scratch : Option Nat) : VideoWalk :=
  let x := (Config.video (p.codec % 16) (p.units bs)).foldl (p.unit bs.length scratch) ⟨[], 0, .fine, 0, 0xFFFFFFFF, 0⟩
  match x.ending with
  | .fine => if p.f0 + p.nf ≤ x.frames.length then x else { x with ending := .short, used := bs.length }
  | _ => x

/-- The boxes with their frames: those of the list, or the implied box of each frame. -/
def VideoPrm.boxes (p : VideoPrm) (fs : List VideoFrame) (recs : List Byte) : List Box :=
  if p.smp.nbox = 0 then
    (List.range p.nf).map (fun u =>
      let f := fs.getD u default
      implied f.h f.w u u 0)
  else (List.range p.smp.nbox).map (boxOf (recs.drop 128))

/-- Write one row of one channel of a box from a frame. -/
def VideoPrm.row (p : VideoPrm) (f : VideoFrame) (b : Box) (out : Opnd) (gather : Bool) (c i : Nat) (r : Run) : Run :=
  if r.stop then r
  else
    let vs := (List.range p.smp.ow).map (fun j =>
      if !b.finite then fpNaN
      else
        let t := p.smp.taps b f.h f.w i j
        t.out (t.at_.map (fun q => match q with
          | some (y, x) => (p.pixel f y x).getD c 0
          | none => p.smp.ext)))
    r.writeElems out gather (p.smp.outIx p.chans b c i 0 * (out.fmt.bits / 8)) vs false

/-- Every row of a box, channel by channel. -/
def VideoPrm.rows (p : VideoPrm) : List (Nat × Nat) :=
  (List.range p.chans).flatMap (fun c => (List.range p.smp.oh).map (fun i => (c, i)))

/-- A row of a box that an error left unwritten: each line not yet written is written marked poisoned; its bytes are open
(R229). -/
def VideoPrm.spoil (p : VideoPrm) (b : Box) (out : Opnd) (c i : Nat) (r : Run) : Run :=
  let k := out.fmt.bits / 8
  let off := p.smp.outIx p.chans b c i 0 * k
  (List.range (p.smp.ow * k / 64 + 2)).foldl (fun r n =>
    let o := if n = 0 then off else off + chunk out.w off + 64 * (n - 1)
    let len := min (chunk out.w o) (off + p.smp.ow * k - o)
    let line := match out.w.at r.s.moduleId r.die o with
      | .here a => (2 ^ 48 * r.s.moduleId + a) / 64
      | .far m a => (2 ^ 48 * m + a) / 64
      | .nowhere _ => 0
    if r.stop || decide (off + p.smp.ow * k ≤ o) || r.lines.contains line then r
    else
      let (bs, s) := r.s.freeBytes len
      Run.write { r with s := s } out.w o bs true) r

/-- The scratch area's bytes after a descriptor are open (R224). -/
def Run.scribble (r : Run) (w : AddrWord) (n : Nat) : Run :=
  let (bs, s) := r.s.freeBytes n
  let q := Run.write { r with s := s, hint := 0, stop := false } w 0 bs
  { q with hint := r.hint, stop := q.stop || r.stop }

/-- An error of R229 stops the engine: it is logged with its reason and offset, and every line not yet written is written marked
poisoned. -/
def VideoPrm.fails (p : VideoPrm) (e reason pos : Nat) (later : List Box) (out : Opnd) (r : Run) : Run :=
  let q := r.s.nextSeq r.die
  let s := r.s.log r.die (.decodeError reason) pos 0 (.desc r.fid) .read
  let s := s.putFld (Reg.vdFault r.die e) 27 24 reason
  let s := s.setReg (Reg.vdFaultPos r.die e) (BitVec.ofNat 32 pos)
  let r := later.foldl (fun r b => p.rows.foldl (fun r ci => p.spoil b out ci.1 ci.2 r) r) { r with s := s }
  r.raise stPoison q

def State.decodeRun (s : State) (f : Flight) (scratch : Option Nat) : Run × Nat :=
  let d := f.desc
  let die := hDie f.target
  let e := hSlot f.target
  let p := videoPrm f.recs
  let fo := dFmt d 448
  let r0 := Run.start s die f.fid (dfld d 495 480)
  if p.nf = 0 then ((r0.gatherInto fo).raise stEmpty 0, 0)
  else
    let (bs, bad) := r0.bitstream (dAddr d 128) p.bsLen
    let x := p.walk bs scratch
    let fs := (x.frames.drop p.f0).take p.nf
    let out := f.opnd 256 448
    let boxes := p.boxes fs f.recs
    let (now, later) := (boxes.filter (fun b => decide (b.frame < fs.length)), boxes.filter (fun b => !decide (b.frame < fs.length)))
    let r := r0.readBits (dAddr d 128) x.used
    let r := now.foldl (fun r b => p.rows.foldl (fun r ci => p.row (fs.getD b.frame default) b out fo.gather ci.1 ci.2 r) r) r
    let r := if r.stop then r else match x.ending, bad with
      | .fine, _ => r
      | .error reason pos, _ => p.fails e reason pos later out r
      | .short, .bad (.miss m a) => r.miss m a
      | .short, .bad _ => p.fails e 7 x.last later out r
      | .short, .hold io line => { r with ext := r.ext ++ [(io, line)] }
      | .short, .all => p.fails e 5 x.last later out r
    let r := r.scribble (dAddr d 192) p.scrLen
    (r.gatherInto fo, 0)

def State.decode (s : State) (f : Flight) (scratch : Option Nat) : State := Run.ends (s.decodeRun f scratch) s f false

/-- A DECODE is executing on the engine (R231). -/
def State.vdBusy (s : State) (die e : Nat) : State :=
  s.setFlag (Reg.vdStatus die e) 8 (s.flights.any (fun g => g.executing && !hGang g.target && hDie g.target == die &&
    hSlot g.target == e && dClass g.desc == 0x48))

/-- The end of a DECODE: busy falls, and a fault is recorded with its reason (R231). -/
def State.decEnd (s : State) (f : Flight) : State :=
  match s.flight f.fid with
  | some g =>
    if g.isDone then
      let die := hDie f.target
      let e := hSlot f.target
      let s := s.vdBusy die e
      if recordsFault g.res.status.toNat then
        let reason := s.fld (Reg.vdFault die e) 27 24
        let old := s.reg (Reg.vdFaultPos die e)
        let byError := reason != 0
        let s := s.vdFaultSet die e f g.res.status.toNat
        let s := s.putFld (Reg.vdFault die e) 27 24 (if byError then reason else 0)
        s.setReg (Reg.vdFaultPos die e) (if byError then old else 0xFFFFFFFF#32)
      else s
    else s
  | none => s

/-- Class 0x48; `scratch` names the unit, if any, whose decoding meets an uncorrectable scratch read. The engine's reason
field is clear while it decodes; the end of the descriptor sets it. -/
def execDecode (fid : Nat) (s : State) (scratch : Option Nat := none) : Host.Outcome State Fault Refusal :=
  .next (match s.flight fid with
    | some f =>
      if s.runs f 0x48 then
        let old := s.reg (Reg.vdFault (hDie f.target) (hSlot f.target))
        let s' := (s.putFld (Reg.vdFault (hDie f.target) (hSlot f.target)) 27 24 0).decode f scratch
        match s'.flight fid with
        | some g =>
          if g.isDone then
            let t := s'.decEnd f
            if recordsFault g.res.status.toNat then t else t.setReg (Reg.vdFault (hDie f.target) (hSlot f.target)) old
          else s'.setReg (Reg.vdFault (hDie f.target) (hSlot f.target)) old
        | none => s'
      else s
    | none => s)

end Sys2Proof.Machine
end

