-- ==== Sys2Proof/Machine/Fabric.lean ====
section
/-! DEFINITION. The Saelil fabric: ports (R316, R317, R322-R324), receiving and forwarding (R321, R326), flows (R328-R332), requests
(R333, R336, R341) and the fabric engines' PUT (R336) and GRED (R337-R340). -/

namespace Sys2Proof.Machine

/-! ### Unit fault registers -/

/-- The unit of a descriptor reports a fault status that reached it after its execution. -/
def State.unitFaultSet (s : State) (f : Flight) (st : Nat) : State :=
  let die := hDie f.target
  let k := hSlot f.target
  match unitAt die k with
  | some .enginePair =>
    if dClass f.desc / 16 = 1 ∨ dClass f.desc = 0x40 then s.maFaultSet die k (matPart f.desc) st f.index else s.veFaultSet die k f st
  | some .moverGroup => s.mvFaultSet die f.mover.toNat f st
  | some .decodeEngine => (s.vdFaultSet die k f st).setReg (Reg.vdFaultPos die k) 0xFFFFFFFF
  | _ => s

/-- The writes that follow frames of a descriptor that are not delivered do not happen either (R84). -/
def State.dropGuards (s : State) (fid : Nat) (ixs : List Nat) : State :=
  { s with fab := { s.fab with guards := s.fab.guards.filter (fun g => decide (g.fid ≠ fid) || !g.after.any ixs.contains) } }

/-- What a descriptor has formed and its flows have not sent yet is not sent. -/
def State.haltSends (s : State) (fid : Nat) : State :=
  let mine (u : Sent) : Bool := decide (u.fid = some fid ∧ u.sends = 0)
  let ixs := (s.fab.unacked.filter mine).map (·.ix)
  let s := { s with fab := { s.fab with unacked := s.fab.unacked.filter (fun u => !mine u) } }
  s.dropGuards fid ixs

/-- A status that stops a partition (R126). -/
def stopsPartition (code : Nat) : Bool := stopsMover code || code == stPoison || code == stFabricPoison

/-- The partition's drain ends at once: what it has not sent is not sent, and the lines of those frames are not among those already
written (R126). What a partition sends after it has acted on a fault is no drain's. -/
def State.haltDrain (s : State) (f : Flight) : State :=
  let acted : Bool := decide (f.phase = .done) && stopsPartition f.res.status.toNat
  if !acted then
    let gone := (s.fab.unacked.filter (fun u => decide (u.fid = some f.fid ∧ u.sends = 0 ∧ u.frame.type = 0x10))).map
      (fun u => (2 ^ 48 * s.flowPeer u.flow + u.frame.addr) / 64)
    let phase := match f.phase with
      | .faulted st d lines => .faulted st d (lines.diff gone)
      | p => p
    (s.haltSends f.fid).setFlight { f with phase := phase, res := { f.res with lines := f.res.lines.diff gone } }
  else s

/-- The unit of a descriptor whose record takes a higher status acts on it: one that still runs takes it at its end, a partition
that has written its lines acts as R126 lays down, and any other reports it. -/
def State.unitMeets (s : State) (f : Flight) (code : Nat) (detail : Word) : State :=
  match f.phase with
  | .started => s
  | .faulted _ _ lines => s.setFlight { f with phase := .faulted (BitVec.ofNat 8 code) detail lines }
  | _ =>
    if matClass (dClass f.desc) && stopsPartition code then
      ((s.setFlight { f with phase := .faulted (BitVec.ofNat 8 code) detail f.res.lines }).matEnd f).maBusy f
    else s.unitFaultSet f code

/-- A mover, or a drain, that meets such a fault issues nothing further (R126, R249). -/
def State.haltUnit (s : State) (fid code : Nat) : State :=
  match s.flight fid with
  | some f =>
    if stopsMover code then
      if moverClass (dClass f.desc) then s.haltSends fid
      else if matClass (dClass f.desc) && !hGang f.target then s.haltDrain f else s
    else s
  | none => s

/-- A descriptor meets a fault of one of its frames: the record carries the highest status (R53 note 2). -/
def State.raiseFlight (s : State) (fid code : Nat) (detail : Word) : State :=
  let s := s.haltUnit fid code
  match s.flight fid with
  | some f =>
    if f.res.status.toNat < code then
      let g := { f with res := { f.res with status := BitVec.ofNat 8 code, detail := detail } }
      let s := s.setFlight g
      if hGang f.target then s else s.unitMeets g code detail
    else s
  | none => s

/-! ### Ports (R316, R317, R322, R323, R345) -/

def pStat (p : Nat) : Nat := portReg Reg.fbPortStat p
def pCtrl (p : Nat) : Nat := portReg Reg.fbPortCtrl p

def portHere (s : State) (p : Nat) : Bool := decide (p < 40) && !s.dieDown (portDie p)

/-- The link state and width of a port change: evt, and an entry in the log when any part of FB_PORT_STAT changes. -/
def State.portChange (s : State) (p link width : Nat) (lanes : BitVec 4) (reversed : Bool) : State :=
  let a := pStat p
  let old := s.reg a
  let new := wset (wset (wset (wset old 15 12 lanes.toNat) 9 8 width) 4 4 (if reversed then 1 else 0)) 1 0 link
  let moved := wfld old 1 0 != link || wfld old 9 8 != width
  let s := s.setReg a (if moved then wset new 3 3 1 else new)
  if new = old then s else s.log (portDie p) .portChanged p link

/-- A port that goes down: what was in flight on it is lost, and the peer is no longer known. -/
def State.portFall (s : State) (p link : Nat) : State :=
  let s := s.portChange p link 0 0 false
  let s := s.setFlag (portReg Reg.fbPortPeer p) 31 false
  let gone := s.fab.txq.filter (fun x => decide (x.port = p))
  let s := { s with fab := { s.fab with txq := s.fab.txq.filter (fun x => decide (x.port ≠ p))
                                        credits := s.fab.credits.filter (fun x => decide (x.1 ≠ p)) } }
  gone.foldl (fun s x => s.payBack x.owed) s

def State.portLink (s : State) (p : Nat) : Nat := s.fld (pStat p) 1 0

def State.portEnable (s : State) (p : Nat) : State :=
  let s := s.setFlag (pCtrl p) 0 true
  if s.portLink p = 0 then s.portFall p 1 else s

def execPortEnable (port : Nat) (s : State) : Host.Outcome State Fault Refusal :=
  .next (if portHere s port then s.portEnable port else s)

def State.portDisable (s : State) (p : Nat) : State :=
  let s := s.setFlag (pCtrl p) 0 false
  if s.portLink p = 0 then s else s.portFall p 0

def execPortDisable (port : Nat) (s : State) : Host.Outcome State Fault Refusal :=
  .next (if portHere s port then s.portDisable port else s)

def State.portRetrain (s : State) (p : Nat) : State := if s.flag (pCtrl p) 0 then s.portFall p 1 else s

def execPortRetrain (port : Nat) (s : State) : Host.Outcome State Fault Refusal :=
  .next (if portHere s port then s.portRetrain port else s)

/-- The width a port runs at for the lanes that trained; none when it stays down (R317). -/
def widthOf (lanes : BitVec 4) : Option Nat :=
  let a := lanes.getLsbD 0 && lanes.getLsbD 1
  let b := lanes.getLsbD 2 && lanes.getLsbD 3
  if a && b then some 1 else if a then some 2 else if b then some 3 else none

/-- Blocks the module advertises for each pool (R324). -/
def ownCredits : List Nat := [4096, 4096, 2048, 2048, 64, 64]

def creditField (v : List Nat) : Nat := (v.zipIdx).foldl (fun n x => n + 2 ^ (16 * x.2) * (x.1 % 65536)) 0

/-- The LINK frame of a port (R320). -/
def State.sendLinkFrame (s : State) (p : Nat) : State :=
  s.sendLink p (mkLinkFrame 0x01 (s.moduleId + 2 ^ 16 * p + 2 ^ 32 * creditField ownCredits))

def State.portTrained (s : State) (p : Nat) (lanes : BitVec 4) (reversed : Bool) : State :=
  match widthOf lanes with
  | some w => (s.portChange p 2 w lanes reversed).sendLinkFrame p
  | none => s.portChange p 1 0 lanes reversed

def execPortTrained (port : Nat) (lanes : BitVec 4) (reversed : Bool) (s : State) : Host.Outcome State Fault Refusal :=
  .next (if portHere s port && s.portLink port == 1 then s.portTrained port lanes reversed else s)

def execLinkRepeat (port : Nat) (s : State) : Host.Outcome State Fault Refusal :=
  .next (if portHere s port && s.portLink port == 2 then s.sendLinkFrame port else s)

/-- A port that is up loses its link of itself; with en = 1 it trains again. -/
def execPortLinkDown (port : Nat) (s : State) : Host.Outcome State Fault Refusal :=
  .next (if portHere s port && decide (2 ≤ s.portLink port) then s.portFall port 1 else s)

/-! ### Receiving (R320, R321, R326) -/

/-- A frame dropped at a port. -/
def State.dropFrame (s : State) (p : Nat) (f : Frame) : State :=
  (s.count (portReg Reg.fbPortDrop p)).log (portDie p) .frameDropped f.type f.seq

def frameGood (f : Frame) : Bool := !f.fecBad && f.crcOk && f.fieldsOk

/-- The six credit fields of a LINK frame (from bit 160) or a CREDIT frame (from bit 128). -/
def creditsAt (f : Frame) (lo : Nat) : List Nat := (List.range 6).map (fun i => f.fld (lo + 16 * i + 15) (lo + 16 * i))

/-- The peer's LINK brings the port up. -/
def State.linkUp (s : State) (p : Nat) (f : Frame) : State :=
  let s := s.portChange p 3 (s.fld (pStat p) 9 8) (BitVec.ofNat 4 (s.fld (pStat p) 15 12)) (s.flag (pStat p) 4)
  let s := s.setReg (portReg Reg.fbPortPeer p) (BitVec.ofNat 32 (2 ^ 31 + 2 ^ 16 * f.fld 149 144 + f.fld 143 128))
  s.setPools p (creditsAt f 160)

def execLink (port : Nat) (f : Frame) (s : State) : Host.Outcome State Fault Refusal :=
  .next (
    if portHere s port && decide (2 ≤ s.portLink port) && f.type == 0x01 then
      if !frameGood f then s.dropFrame port f
      else if s.portLink port = 2 then s.linkUp port f else s
    else s)

def execCredit (port : Nat) (f : Frame) (s : State) : Host.Outcome State Fault Refusal :=
  .next (
    if s.portUp port && f.type == 0x02 then
      if !frameGood f then s.dropFrame port f
      else (s.setPools port (addPools (s.pools port) (creditsAt f 128))).drainPort port
    else s)

/-- A frame in transit goes to the port its hop names, over the mesh when that lies on another I/O die. -/
def State.forward (s : State) (p : Nat) (f : Frame) (owed : Owed) : State :=
  let h := f.hop f.hp
  let q := h % 64
  if 15 ≤ f.hp ∨ !s.portUp q ∨ (s.path (portDie p) (portDie q)).miss.isSome then (s.payBack (some owed)).dropFrame p f
  else s.sendPort (portDie q) q (h / 64) (f.setHp (f.hp + 1)) (some owed)

/-- What every routed frame meets at a port: checks, forwarding, or the return of its credits and delivery. -/
def State.receive (s : State) (p t : Nat) (f : Frame) (act : State → State) : State :=
  if !s.portUp p || f.type != t then s
  else
    let owed : Owed := ⟨p, poolIx f.cls (if f.hp = 0 then 0 else f.hop (f.hp - 1) / 64), f.blocks⟩
    if !frameGood f then (s.payBack (some owed)).dropFrame p f
    else if f.hop f.hp ≠ 63 then s.forward p f owed
    else if f.dst ≠ s.moduleId then (s.payBack (some owed)).dropFrame p f
    else act (s.payBack (some owed))

/-- A frame that is not for this module, or not fit for it. -/
def execFrameForward (port : Nat) (f : Frame) (s : State) : Host.Outcome State Fault Refusal :=
  .next (if linkLocal f.type then s else s.receive port f.type f id)

/-! ### Flows: enabling, synchronising, failing (R330, R332) -/

def fCtrl (f : Nat) : Nat := flowReg Reg.fbFlowCtrl f
def flowHere (s : State) (f : Nat) : Bool := decide (f < 65536) && !s.dieDown (flowDie f)

/-- Retransmissions before timeout. -/
def State.flowRetries (s : State) (f : Nat) : Nat := s.fld (fCtrl f) 15 12

/-- The set-up of a flow lets it enable. -/
def State.flowSetupOk (s : State) (f : Nat) : Bool :=
  let r := s.flowRoute f
  s.flowPeer f != s.moduleId && decide (routeHop r 0 < 63 ∧ routeHop r 0 ≤ 39) &&
  (List.range 15).any (fun h => routeHop r (h + 1) == 63)

def State.syncCount (s : State) (f : Nat) : Nat := ((s.fab.syncSends.find? (fun x => decide (x.1 = f))).map (·.2)).getD 0
def State.setSync (s : State) (f n : Nat) : State :=
  { s with fab := { s.fab with syncSends := (f, n) :: s.fab.syncSends.filter (fun x => decide (x.1 ≠ f)) } }
def State.endSync (s : State) (f : Nat) : State :=
  { s with fab := { s.fab with syncSends := s.fab.syncSends.filter (fun x => decide (x.1 ≠ f)) } }

/-- One more SYNC. -/
def State.sendSync (s : State) (f : Nat) : State := (s.setSync f (s.syncCount f + 1)).sendPlain f 0 { type := 0x14 }

/-- The oldest number not acknowledged, as FB_FLOW_TXACK shows it. -/
def State.setTxAck (s : State) (f : Nat) : State :=
  let v := match s.fab.unacked.find? (fun u => decide (u.flow = f ∧ u.sends ≠ 0)) with
    | some u => u.seq.toNat
    | none => s.fld (flowReg Reg.fbFlowTx f) 23 0
  s.setReg (flowReg Reg.fbFlowTxack f) (BitVec.ofNat 32 v)

/-- A READ of a descriptor is answered with a status. -/
def State.readFails (s : State) (u : Sent) (code : Nat) (detail : Word) : State :=
  match u.fid with
  | some fid =>
    let s := s.haltUnit fid code
    { s with fab := { s.fab with
        remoteRd := s.fab.remoteRd ++ [⟨fid, u.flow, 2 ^ 48 * s.flowPeer u.flow + u.frame.addr, [], false, code, some detail⟩] } }
  | none => s

/-- A sent frame fails: its descriptor meets the status. -/
def State.frameFails (s : State) (u : Sent) (code : Nat) (detail : Word) : State :=
  if u.frame.type = 0x12 then s.readFails u code detail
  else match u.fid with
    | some fid => (s.dropGuards fid [u.ix]).raiseFlight fid code detail
    | none => s

/-- A run over a GRED that is under way: what earlier results brought stands in the flight. -/
def Run.ofFlight (s : State) (f : Flight) : Run :=
  { Run.start s (hDie f.target) f.fid with
    code := f.res.status.toNat, detail := f.res.detail, sat := f.res.sat, rm := f.res.runMax, uses := f.res.uses, pairs := f.res.pairs }

/-- The format words that a started descriptor converts into, of those in its body and its records. -/
def targetWords (own : Nat) (f : Flight) : List FmtWord :=
  let d := f.desc
  let c := dClass d
  let on (b : Bool) (lo : Nat) : List FmtWord := if b then [dFmt d lo] else []
  let copies (a b : Nat) : Bool := bitCopy (dfld d (a + 31) a) (dfld d (b + 31) b)
  if c = 0x10 then on (dbit d 488) 320 ++ on (dfld d 487 486 == 0) 384
  else if c = 0x12 then on true 384
  else if c = 0x20 ∨ c = 0x21 then
    let p := vecPlan own f
    (if p.used 3 then [p.fmtw 3] else []) ++ (if p.used 4 then [p.fmtw 4] else []) ++ if p.aw 5 ≠ 0 then [p.fmtw 5] else []
  else if c = 0x30 then on (dfld d 497 496 != 1) 416
  else if c = 0x31 then on (dfld d 456 448 != 0) 384
  else if c = 0x34 then on (dbit d 485) 320
  else if c = 0x32 ∨ c = 0x41 ∨ c = 0x71 then on true 416
  else if c = 0x40 ∨ c = 0x48 then on true 448
  else if c = 0x42 then on (!copies 256 288) 288
  else if c = 0x50 then (movePlan f).gather.toList
  else if c = 0x54 then on (!copies 256 288) 288
  else if c = 0x55 then on true 256
  else if c = 0x61 then (if (UpdRec.mk f.recs).word 7 = 0 then [] else [(UpdRec.mk f.recs).fcp])
  else if c = 0x62 then on true 320
  else []

/-- What a descriptor that is stopped as it executes comes to: a started one has its maximum so far, merged into the slots its words
name (R88, R90); one that its unit has ended keeps what that gave. -/
def State.halted (s : State) (f : Flight) (status : Nat) (detail : Word) : Result :=
  if f.running && !hGang f.target then
    ((targetWords s.moduleId f).foldl Run.gatherInto { Run.ofFlight s f with code := status, detail := detail }).result 0
  else { f.res with status := BitVec.ofNat 8 status, detail := detail }

/-- A GRED is done, with the highest status met, its saturations and its maximum, gathered as its destination's word says (R53, R88,
R90). -/
def Run.gredDone (r : Run) (f : Flight) : State :=
  r.s.setFlight { f with phase := .done, res := (r.gatherInto (dFmt f.desc 416)).result 0 }

/-- A GRED ends with a fault. -/
def State.gredFail (s : State) (g : Gred) (code : Nat) (detail : Word) : State :=
  let s := { s with fab := { s.fab with greds := s.fab.greds.filter (fun x => decide (x.fid ≠ g.fid)) } }
  match s.flight g.fid with
  | some f => if f.running then ((Run.ofFlight s f).raise code detail).gredDone f else s
  | none => s

/-- The plan record of a GRED (R338). -/
structure Plan where
  bs : List Byte

def Plan.cid (p : Plan) : Nat := recNat p.bs 0 2
def Plan.nin (p : Plan) : Nat := recNat p.bs 2 1
def Plan.nbc (p : Plan) : Nat := recNat p.bs 3 1
def Plan.up (p : Plan) : Nat := recNat p.bs 4 2
def Plan.root (p : Plan) : Bool := p.up == 0xFFFF
def Plan.inFlows (p : Plan) : List Nat := (List.range p.nin).map (fun i => recNat p.bs (8 + 2 * i) 2)
def Plan.bcFlows (p : Plan) : List Nat := (List.range p.nbc).map (fun i => recNat p.bs (40 + 2 * i) 2)
/-- Every flow a plan names. -/
def Plan.flows (p : Plan) : List Nat := (if p.root then [] else [p.up]) ++ p.inFlows ++ p.bcFlows

def State.gredPlan (s : State) (g : Gred) : Plan := ⟨((s.flight g.fid).map (·.recs)).getD []⟩

/-- Copies of a gang's descriptor sent over flow f, of gangs under way. -/
def State.gangOuts (s : State) (f : Nat) : List GangOut :=
  s.fab.gangOut.filter (fun x => x.flow == f && s.flights.any (fun g => g.fid == x.fid && g.running))

/-- The members of a span's module still to report when flow f to it fails report FLOW_TIMEOUT (R63, R332). -/
def State.silentModule (s : State) (f : Nat) : State :=
  ((s.gangOuts f).foldl (fun s x => match s.flight x.fid with
    | some g => s.reportSilent g (fun m => m == x.module) (BitVec.ofNat 32 f)
    | none => s) s).dropGangOut (fun x => x.flow == f)

/-- Those of them that no member of their module has answered. -/
def State.unanswered (s : State) (f : Nat) : List GangOut := (s.gangOuts f).filter (fun x => decide (x.sends ≠ 0))

/-- A copy that stays unanswered is sent again; after retries + 1 sends the flow times out (R332). -/
def State.resendGangs (s : State) (f : Nat) : State :=
  (s.unanswered f).foldl (fun s x => match s.flight x.fid with
    | some g => s.emit (.gangSend x.module (s.gangCopyOf g (hGangNo g.target)))
    | none => s)
    { s with fab := { s.fab with
        gangOut := s.fab.gangOut.map (fun x => if x.flow = f ∧ x.sends ≠ 0 then { x with sends := x.sends + 1 } else x) } }

/-- Every descriptor that waits on a flow completes with FLOW_TIMEOUT. -/
def State.flowFail (s : State) (f : Nat) : State :=
  let mine := s.fab.unacked.filter (fun u => decide (u.flow = f))
  let s := { s with fab := { s.fab with unacked := s.fab.unacked.filter (fun u => decide (u.flow ≠ f)) } }
  let s := mine.foldl (fun s u => s.frameFails u stFlowTimeout (BitVec.ofNat 32 f)) s
  let s := s.silentModule f
  (s.fab.greds.filter (fun g => (s.gredPlan g).flows.contains f)).foldl
    (fun s g => s.gredFail g stFlowTimeout (BitVec.ofNat 32 f)) s

/-- Sequence numbers 0, nothing visible unacknowledged. -/
def State.flowZero (s : State) (f : Nat) : State :=
  let s := ((s.setReg (flowReg Reg.fbFlowTx f) 0).setReg (flowReg Reg.fbFlowTxack f) 0).setReg (flowReg Reg.fbFlowRx f) 0
  { s with fab := { s.fab with rxVis := s.fab.rxVis.filter (fun x => decide (x.1 ≠ f))
                               nakGap := s.fab.nakGap.filter (fun x => decide (x.1 ≠ f)) } }

/-- A flow times out (R332). -/
def State.flowTimeout (s : State) (f : Nat) : State :=
  let s := (s.setFlag (fCtrl f) 11 true).flowFail f
  (s.putFld (fCtrl f) 6 4 3).setTxAck f

def State.flowEnable (s : State) (f : Nat) : State :=
  let s := s.enableReq (fCtrl f)
  if s.fnState (fCtrl f) = 1 ∧ s.syncCount f = 0 then
    if s.flowSetupOk f then s.sendSync f else s.enablingEnd (fCtrl f) false
  else s

def execFlowEnable (flow : Nat) (s : State) : Host.Outcome State Fault Refusal :=
  .next (if flowHere s flow then s.flowEnable flow else s)

/-- rto has passed without SYNC_ACK. -/
def execFlowSyncRetry (flow : Nat) (s : State) : Host.Outcome State Fault Refusal :=
  .next (
    if flowHere s flow && s.fnState (fCtrl flow) == 1 then
      if s.syncCount flow < s.flowRetries flow + 1 then s.sendSync flow
      else (s.endSync flow).enablingEnd (fCtrl flow) false
    else s)

def execFlowDisable (flow : Nat) (s : State) : Host.Outcome State Fault Refusal :=
  .next (if flowHere s flow then (s.disableReq (fCtrl flow)).endSync flow else s)

/-- Every sent frame is acknowledged or timed out. -/
def execFlowDisablingDone (flow : Nat) (s : State) : Host.Outcome State Fault Refusal :=
  .next (
    if flowHere s flow && s.fnState (fCtrl flow) == 3 && !s.fab.unacked.any (fun u => decide (u.flow = flow ∧ u.sends ≠ 0)) then
      (s.flowFail flow).disablingEnd (fCtrl flow)
    else s)

/-! ### PUT (R336) -/

/-- Flow f is held by the die. -/
def heldBy (die f : Nat) : Bool := flowDie f == die

def putChecks (s : State) (f : Flight) : List (Option Nat) :=
  let d := f.desc
  let die := hDie f.target
  let src := dAddr d 128
  let dst := dAddr d 192
  let fl := dfld d 303 288
  let own := src.mod == s.moduleId
  [resvBits d 511 320, need 108 (dShardN d == 1 || !dbit d 304), need 128 (src.ok die && src.rel == 0 && own && src.aligned 64),
   need 192 (dst.ok die && dst.rel == 0 && dst.aligned 64), need 192 (!heldBy die fl || dst.mod == s.flowPeer fl),
   need 288 (heldBy die fl)]

/-- WRITE frames of a PUT from byte a up to byte b, 512 bytes at most; `sig` says that a SIGNAL follows. -/
def putStep (d : Desc) (a b n : Nat) (r : Run) (k : Nat) : Run :=
  if r.stop then r
  else
    let off := a + 512 * k
    let len := min 512 (b - off)
    let (r, bs, bad) := r.read (dAddr d 128) off len
    let fl := dfld d 303 288
    let ok := bs.length
    if ok = 0 then r
    else
      let r := if bad then r.raise stFabricPoison (BitVec.ofNat 32 fl) else r
      let pad := List.replicate ((64 - ok % 64) % 64) (0 : Byte)
      { r with sends := r.sends ++ [(fl, { type := 0x10, addr := (dAddr d 192).addr + off, aux := ok % 64, payload := bs ++ pad,
                                           last := k + 1 == n && !dbit d 304 && !r.stop, poison := bad })] }

def putSignal (d : Desc) : FrameBody :=
  { type := 0x13, addr := dfld d 311 305 + 2 ^ 7 * dfld d 319 312, last := true }

def State.putRun (s : State) (f : Flight) : Run × Nat :=
  let d := f.desc
  let fl := dfld d 303 288
  let len := dfld d 287 256
  let (ua, ub) := shardPart ((len + 63) / 64) (dShardN d) (dShardIx d)
  let a := 64 * ua
  let b := min len (64 * ub)
  let n := (b - a + 511) / 512
  let r0 := Run.start s (hDie f.target) f.fid
  if !s.flowOn fl then (r0.raise stFlowTimeout (BitVec.ofNat 32 fl), 0)
  else if b ≤ a ∧ !dbit d 304 then (r0.raise stEmpty 0, 0)
  else
    let r := (List.range n).foldl (putStep d a b n) r0
    let r := if dbit d 304 && !r.stop then { r with sends := r.sends ++ [(fl, putSignal d)] } else r
    (r, 0)

/-! ### The sending end (R331, R332) -/

/-- Sequence number a lies before b. -/
def seqLt (a b : Nat) : Bool := !seqGe a b

/-- The frames that a write follows are all acknowledged. -/
def State.guardDue (s : State) (g : Guard) : Bool :=
  !s.fab.unacked.any (fun u => decide (u.fid = some g.fid ∧ u.frame.type ≠ 0x12) && g.after.contains u.ix)

/-- A write that followed others takes place: its frame goes out, or its bytes are written; one that waits stays. Bytes here
were checked as the descriptor formed them, and are written whatever it has met since: the other plane stands. -/
def State.guardWrite (s : State) (g : Guard) : State :=
  match g.frame with
  | some (fl, b) => s.sendSeq fl b (some g.fid) g.ix
  | none =>
    if (s.extHolder (g.addr / 64) (some (.desc g.fid))).isSome then { s with fab := { s.fab with guards := s.fab.guards ++ [g] } }
    else
      let (s, bad) := s.writeLine g.addr g.bytes g.mark
      if bad then
        let r := (Run.start s (ownerDie g.addr) g.fid).poisoned g.addr .write
        r.s.raiseFlight g.fid r.code r.detail
      else s

/-- The second planes of blocks whose first plane is acknowledged are written (R84). -/
def State.releaseGuards (s : State) : State :=
  let due := s.fab.guards.filter s.guardDue
  due.foldl State.guardWrite { s with fab := { s.fab with guards := s.fab.guards.filter (fun g => !s.guardDue g) } }

/-- Send what the window allows, while the flow is ON. -/
def State.resume (s : State) (f : Nat) : State :=
  let s := s.releaseGuards
  let s := if s.fnState (fCtrl f) = 2 then s.openWindow f s.fab.unacked.length else s
  s.setTxAck f

/-- The peer expects number n next: earlier frames are acknowledged, but for READs, which their answers acknowledge. -/
def State.acked (s : State) (f n : Nat) : State :=
  ({ s with fab := { s.fab with unacked := s.fab.unacked.filter (fun u =>
      !(decide (u.flow = f ∧ u.sends ≠ 0 ∧ u.frame.type ≠ 0x12) && seqLt u.seq.toNat n)) } } : State).resume f

/-- The frames that a descriptor of a copying class forms from its sources as they stand: of a MOVE's last row sent, an MSOP, a
REGROUP, a SPILL, a RECALL, a WCOPY, a SLOTIMG or a PUT, by number; the second planes of blocks have their own numbers. None is
formed where a source must be asked for, which a descriptor does only as it runs. -/
def State.formed (s : State) (f : Flight) : List (Nat × Nat × FrameBody) :=
  let c := dClass f.desc
  let r : Run :=
    if c = 0x50 then
      let p := movePlan f
      if s.movesFar f then p.m.row (Run.again s f p.hint) (p.first + (if f.running then f.rows - 1 else f.rows)) else (s.moveRun f).1
    else if c = 0x51 then (s.msopDescRun f).1
    else if c = 0x42 then (s.regroupRun f).1
    else if c = 0x54 then (s.spillRun f).1
    else if c = 0x55 then (s.recallRun f).1
    else if c = 0x62 then (s.wcopyRun f).1
    else if c = 0x69 then (s.slotimgRun f).1
    else if c = 0x70 then (s.putRun f).1
    else Run.start s (hDie f.target) f.fid
  if r.far ≠ [] ∨ r.ext ≠ [] then []
  else (r.sends.zipIdx).map (fun x => (x.2, x.1.1, x.1.2)) ++ r.guards.filterMap (fun g => g.frame.map (fun b => (g.ix, b.1, b.2)))

/-- The content of a sent WRITE or MSOP whose source is memory, formed again from it (R332). Other frames carry results that their
unit holds. -/
def State.sourceOf (s : State) (u : Sent) : Option FrameBody :=
  match u.fid.bind s.flight with
  | some f =>
    if u.frame.type = 0x10 ∨ u.frame.type = 0x11 then
      ((s.formed f).find? (fun x => decide (x.1 = u.ix ∧ x.2.1 = u.flow ∧ x.2.2.type = u.frame.type ∧
        x.2.2.addr = u.frame.addr))).map (·.2.2)
    else none
  | none => none

/-- A frame as it is sent again: formed from its source, on the flow's route. -/
def State.reform (s : State) (u : Sent) : Sent :=
  match s.sourceOf u with
  | some b => { u with frame := mkFrame b s.moduleId (s.flowPeer u.flow) u.flow u.seq.toNat (s.flowRoute u.flow) }
  | none => u

/-- Send one frame again; a source that has become poisoned counts for its descriptor (R333). -/
def State.sendAgain (s : State) (u : Sent) : State :=
  let v := s.reform u
  let s := { s with fab := { s.fab with unacked := s.fab.unacked.map (fun x => if x = u then v else x) } }
  let s := s.sendRouted (flowDie u.flow) v.frame
  match u.fid with
  | some fid => if v.frame.poison && !u.frame.poison then s.raiseFlight fid stFabricPoison (BitVec.ofNat 32 u.flow) else s
  | none => s

/-- Send the frames of a flow again from number n on. -/
def State.resendFrom (s : State) (f n : Nat) : State :=
  let due (u : Sent) : Bool := decide (u.flow = f ∧ u.sends ≠ 0) && seqGe u.seq.toNat n
  let lim := s.flowRetries f + 1
  if s.fab.unacked.any (fun u => due u && decide (lim ≤ u.sends)) then s.flowTimeout f
  else
    let s := { s with fab := { s.fab with unacked := s.fab.unacked.map (fun u => if due u then { u with sends := u.sends + 1 } else u) } }
    (s.fab.unacked.filter due).foldl State.sendAgain s

/-- The flow takes answers: ON or DISABLING. -/
def State.flowLive (s : State) (f : Nat) : Bool :=
  flowHere s f && (s.fnState (fCtrl f) == 2 || s.fnState (fCtrl f) == 3)

/-- A frame of a flow that is OFF is dropped and logged (R330); other frames that the flow's state does not take have no effect. -/
def State.flowDeaf (s : State) (f : Frame) : State :=
  if !flowHere s f.flow then s
  else if s.fnState (fCtrl f.flow) = 0 then s.log (flowDie f.flow) .flowOff f.flow f.type
  else s

/-- Deliver an unsequenced frame to a live flow. -/
def State.toFlow (s : State) (p t : Nat) (f : Frame) (act : State → State) : State :=
  s.receive p t f (fun s => if s.flowLive f.flow then act s else s.flowDeaf f)

def execAck (port : Nat) (f : Frame) (s : State) : Host.Outcome State Fault Refusal :=
  .next (s.toFlow port 0x20 f (fun s => s.acked f.flow f.seq))

def execNak (port : Nat) (f : Frame) (s : State) : Host.Outcome State Fault Refusal :=
  .next (s.toFlow port 0x21 f (fun s => (s.acked f.flow f.seq).resendFrom f.flow f.seq))

/-- A frame has stayed unacknowledged for rto; with none, a gang's copy that no module has answered (entry 157). -/
def execRetransmitTimeout (flow : Nat) (s : State) : Host.Outcome State Fault Refusal :=
  .next (
    if s.flowLive flow then
      match s.fab.unacked.find? (fun u => decide (u.flow = flow ∧ u.sends ≠ 0)) with
      | some u => s.resendFrom flow u.seq.toNat
      | none =>
        if (s.unanswered flow).isEmpty then s
        else if (s.unanswered flow).any (fun x => decide (s.flowRetries flow + 1 ≤ x.sends)) then s.flowTimeout flow
        else s.resendGangs flow
    else s)

/-- The sent frame of a number. -/
def State.sentFrame (s : State) (f n : Nat) : Option Sent :=
  s.fab.unacked.find? (fun u => decide (u.flow = f ∧ u.sends ≠ 0 ∧ u.seq.toNat = n))

def State.dropSent (s : State) (f n : Nat) : State :=
  { s with fab := { s.fab with unacked := s.fab.unacked.filter (fun u => !decide (u.flow = f ∧ u.sends ≠ 0 ∧ u.seq.toNat = n)) } }

/-- The lines of a READ_RSP (R331, R333). -/
def readLines (fid base : Nat) (f : Frame) : List RemoteLine :=
  (List.range f.plen).map (fun k => ⟨fid, f.flow, base + f.addr + 64 * k, (f.payload.drop (64 * k)).take 64, f.poison, 0, none⟩)

def execReadRsp (port : Nat) (f : Frame) (s : State) : Host.Outcome State Fault Refusal :=
  .next (s.toFlow port 0x22 f (fun s =>
    match s.sentFrame f.flow f.seq with
    | some u =>
      if u.frame.type = 0x12 then
        let s := s.dropSent f.flow f.seq
        let s := match u.fid with
          | some fid => { s with fab := { s.fab with remoteRd := s.fab.remoteRd ++ readLines fid (2 ^ 48 * s.flowPeer f.flow) f } }
          | none => s
        s.resume f.flow
      else s
    | none => s))

/-- A FAULT acknowledges a frame and its descriptor meets the status. The detail is the flow's number where the status asks for a
flow; otherwise the frame does not carry it, and it is free. -/
def execFault (port : Nat) (f : Frame) (s : State) : Host.Outcome State Fault Refusal :=
  .next (s.toFlow port 0x23 f (fun s =>
    match s.sentFrame f.flow f.seq with
    | some u =>
      let s := s.dropSent f.flow f.seq
      let (v, s) := if f.aux = stFlowTimeout ∨ f.aux = stFabricPoison then (BitVec.ofNat 32 f.flow, s) else s.freeWord
      (s.frameFails u f.aux v).resume f.flow
    | none => s))

/-! ### The receiving end (R331, R333) -/

/-- What performing a sequenced frame comes to: it is taken, answered with FAULT, or left unacknowledged. -/
inductive Performed where
  | taken (s : State)
  | fails (s : State) (code : Nat)
  | later (s : State)

/-- The next number expected advances. -/
def State.advance (s : State) (f : Nat) : State :=
  let a := flowReg Reg.fbFlowRx f
  let s := s.setReg a (BitVec.ofNat 32 ((s.fld a 23 0 + 1) % 2 ^ 24))
  { s with fab := { s.fab with nakGap := s.fab.nakGap.filter (fun x => decide (x.1 ≠ f)) } }

/-- A frame beyond the next number: a NAK, once for each gap. -/
def State.nakOnce (s : State) (f : Nat) : State :=
  let n := s.fld (flowReg Reg.fbFlowRx f) 23 0
  if s.fab.nakGap.any (fun x => decide (x.1 = f)) then s
  else ({ s with fab := { s.fab with nakGap := s.fab.nakGap ++ [(f, BitVec.ofNat 24 n)] } } : State).sendPlain f n { type := 0x21 }

/-- A sequenced frame of a live flow. `quiet` frames are answered by something else than an ACK. -/
def State.inSequence (s : State) (f : Frame) (quiet : Bool) (perform : State → Performed) (again : State → State) : State :=
  let fl := f.flow
  let want := s.fld (flowReg Reg.fbFlowRx fl) 23 0
  if f.seq = want then
    match perform s with
    | .taken s => if quiet && !f.last then s.advance fl else (s.advance fl).visible fl f.last
    | .fails s c => (s.advance fl).sendPlain fl f.seq { type := 0x23, aux := c }
    | .later s => s
  else if seqLt f.seq want then again s
  else s.nakOnce fl

/-- A sequenced frame received on a port; a duplicate is acknowledged again. -/
def State.sequenced (s : State) (p t : Nat) (f : Frame) (perform : State → Performed) : State :=
  s.toFlow p t f (fun s => s.inSequence f false perform (fun s => s.sendAck f.flow))

def missCode : Miss → Nat
  | .addr .. => stAddrFault
  | .bias _ => stBiasFault
  | .course => stCourseLost
  | .lost _ => stDieLost
  | .flow _ => stFlowTimeout
  | .remote c _ _ => c

/-- A refused request of module `src` at an I/O die is logged where R24 note 1 places it. -/
def State.missLog (s : State) (io : Nat) (m : Miss) (a src : Nat) (acc : LogAcc) : State :=
  match m with
  | .addr d k => s.log d k a 0 (.module src) acc
  | .bias h => s.log h .bias a 0 (.module src) acc
  | .course => s.log io (.courseFault 0) a 0 (.module src) acc
  | _ => s

/-- The lines of a run of bytes, by address. -/
def linesOf (a n : Nat) : List Nat := (List.range ((a % 64 + n + 63) / 64)).map (fun k => a / 64 * 64 + 64 * k)

/-- What a request of the I/O die meets on one of its lines. -/
def State.firstMiss (s : State) (io : Nat) (as : List Nat) (who : Option Waiter := none) : Option (Miss × Nat) :=
  as.findSome? (fun a => (s.meets io a who).map (fun m => (m, a)))

/-- What the answer of a performed request meets on its way from a line to the I/O die (R376, R388). -/
def State.answerFails (s : State) (io : Nat) (as : List Nat) : Option (Miss × Nat) :=
  as.findSome? (fun a => (s.answerMiss io a).map (fun m => (m, a)))

/-- A request of module `src` has been performed and is answered, with FAULT where the answer does not reach the I/O die (R333). -/
def Performed.answer (s : State) (io : Nat) (as : List Nat) (src : Nat) (acc : LogAcc) (act : State → State) : Performed :=
  match s.answerFails io as with
  | some (m, a) => .fails (s.missLog io m a src acc) (missCode m)
  | none => .taken (act s)

/-- The frames of a flow wait for these lines no longer. -/
def State.unwaitFrame (s : State) (flow : Nat) (as : List Nat) : State :=
  as.foldl (fun s a => s.unwait (.frame flow) (a / 64)) s

/-- The first line of a request that waits for an external host or an initialisation. -/
def State.firstHeld (s : State) (as : List Nat) (who : Waiter) : Option (Nat × Nat) :=
  as.findSome? (fun a => (s.extHolder (a / 64) (some who)).map (fun h => (a / 64, h)))

/-- The bytes of a WRITE. -/
def writeBytes (f : Frame) : List Byte :=
  f.payload.take (64 * f.plen - (if f.fld 253 248 = 0 then 0 else 64 - f.fld 253 248))

/-- A WRITE (R333): all of it, or FAULT in its place. -/
def performWrite (f : Frame) (s : State) : Performed :=
  let io := flowDie f.flow
  let bs := writeBytes f
  let ls := linesOf f.addr bs.length
  match s.firstMiss io ls (some (.frame f.flow)) with
  | some (m, a) => .fails ((s.missLog io m a f.src .write).unwaitFrame f.flow ls) (missCode m)
  | none => match s.firstHeld ls (.frame f.flow) with
    | some (l, h) => .later (s.holdFor l h (some (.frame f.flow)))
    | none =>
      let s := s.unwaitFrame f.flow ls
      if bs.length % 64 ≠ 0 ∧ s.linePoisoned ((f.addr + bs.length) / 64) then .fails s stFabricPoison
      else Performed.answer (s.write f.addr bs f.poison).1 io ls f.src .write id

def execWrite (port : Nat) (f : Frame) (s : State) : Host.Outcome State Fault Refusal :=
  .next (s.sequenced port 0x10 f (performWrite f))

/-- An MSOP (R333); one with a reserved code changes nothing and is acknowledged. -/
def performMsop (f : Frame) (s : State) : Performed :=
  let io := flowDie f.flow
  if !isHbm f.addr then .fails (s.log io .address f.addr 0 (.module f.src) .atomic) stAddrFault
  else match s.meets io f.addr (some (.frame f.flow)) with
    | some m => .fails ((s.missLog io m f.addr f.src .atomic).unwait (.frame f.flow) (f.addr / 64)) (missCode m)
    | none => match s.extHolder (f.addr / 64) (some (.frame f.flow)) with
      | some h => .later (s.holdFor (f.addr / 64) h (some (.frame f.flow)))
      | none =>
        let s := s.unwait (.frame f.flow) (f.addr / 64)
        if (msopSize f.aux).isSome && s.linePoisoned (f.addr / 64) then .fails s stFabricPoison
        else Performed.answer (s.msop f.addr f.aux f.mask.toNat f.payload f.poison).1 io [f.addr] f.src .atomic id

def execMsopFrame (port : Nat) (f : Frame) (s : State) : Host.Outcome State Fault Refusal :=
  .next (s.sequenced port 0x11 f (performMsop f))

/-- A READ: its lines answered, or FAULT. -/
def performRead (f : Frame) (s : State) : Performed :=
  let io := flowDie f.flow
  let n := 64 * f.aux
  let ls := linesOf f.addr n
  match s.firstMiss io ls (some (.frame f.flow)) with
  | some (m, a) => .fails ((s.missLog io m a f.src .read).unwaitFrame f.flow ls) (missCode m)
  | none => match s.firstHeld ls (.frame f.flow) with
    | some (l, h) => .later (s.holdFor l h (some (.frame f.flow)))
    | none =>
      let s := ls.foldl (fun s a => s.shareCopies (a / 64)) (s.unwaitFrame f.flow ls)
      Performed.answer s io ls f.src .read (fun s => s.sendPlain f.flow f.seq
        { type := 0x22, addr := f.addr, payload := s.bytes f.addr n, poison := s.anyPoison f.addr n })

/-- A READ again is read and answered afresh. -/
def execRead (port : Nat) (f : Frame) (s : State) : Host.Outcome State Fault Refusal :=
  .next (s.toFlow port 0x12 f (fun s => s.inSequence f true (performRead f) (fun s =>
    match performRead f s with
    | .taken s => s
    | .fails s c => s.sendPlain f.flow f.seq { type := 0x23, aux := c }
    | .later s => s)))

/-- A SIGNAL raises its counter; the frames before it are visible (R336, R343). -/
def performSignal (f : Frame) (s : State) : Performed :=
  let die := f.fld 206 200
  .taken (if ringBearing die then s.fenceInc die (f.fld 214 207) else s)

def execSignal (port : Nat) (f : Frame) (s : State) : Host.Outcome State Fault Refusal :=
  .next (s.sequenced port 0x13 f (performSignal f))

/-- An ARRIVE (R341): recorded or ignored, or not acknowledged. -/
def performArrive (f : Frame) (s : State) : Performed :=
  let step := BitVec.ofNat 48 (recNat f.payload 0 6)
  let cid := recNat f.payload 6 2
  let (t, ok) := s.barrierArrive cid step f.src
  if ok then .taken (t.commitScan cid step) else .later s

def execArrive (port : Nat) (f : Frame) (s : State) : Host.Outcome State Fault Refusal :=
  .next (s.sequenced port 0x18 f (performArrive f))

/-- SYNC (R330): answered in ENABLING and in ON, where the flow starts afresh. -/
def State.takeSync (s : State) (f : Frame) : State :=
  let fl := f.flow
  if !flowHere s fl then s
  else match s.fnState (fCtrl fl) with
    | 0 => s.log (flowDie fl) .flowOff fl f.type
    | 1 => s.sendPlain fl 0 { type := 0x25 }
    | 2 => ((s.flowFail fl).flowZero fl).sendPlain fl 0 { type := 0x25 }
    | _ => s

def execSync (port : Nat) (f : Frame) (s : State) : Host.Outcome State Fault Refusal :=
  .next (s.receive port 0x14 f (fun s => s.takeSync f))

def State.takeSyncAck (s : State) (f : Frame) : State :=
  let fl := f.flow
  if !flowHere s fl then s
  else match s.fnState (fCtrl fl) with
    | 0 => s.log (flowDie fl) .flowOff fl f.type
    | 1 => ((s.endSync fl).flowZero fl).enablingEnd (fCtrl fl) true
    | _ => s

def execSyncAck (port : Nat) (f : Frame) (s : State) : Host.Outcome State Fault Refusal :=
  .next (s.receive port 0x25 f (fun s => s.takeSyncAck f))

/-- 2 µs after the oldest visible frame not acknowledged. -/
def execAckTimer (flow : Nat) (s : State) : Host.Outcome State Fault Refusal :=
  .next (if s.flowLive flow && s.fab.rxVis.any (fun x => decide (x.1 = flow)) then s.sendAck flow else s)

/-! ### PUT: execution (R336) -/

def State.put (s : State) (f : Flight) : State := Run.ends (s.putRun f) s f false

def execPut (fid : Nat) (s : State) : Host.Outcome State Fault Refusal :=
  .next (match s.flight fid with
    | some f => if s.runs f 0x70 then s.put f else s
    | none => s)

/-! ### GRED (R337-R340) -/

def gredChecks (s : State) (f : Flight) : List (Option Nat) :=
  let d := f.desc
  let die := hDie f.target
  let fs := dFmt d 384
  let fd := dFmt d 416
  let fa := dFmt d 448
  let same (x : FmtWord) : Bool := x.code != 6 || (x.val == fa.val && x.auto == fa.auto && (!x.auto || x.slot == fa.slot))
  let here (w : AddrWord) : Bool := match w.at s.moduleId die 0 with | .here _ => true | _ => false
  let src := dAddr d 128
  let dst := dAddr d 192
  let dst2 := dAddr d 256
  let plan := dAddr d 320
  [resvBits d 511 504, need 108 (dShardN d == 1), need 128 (src.ok die && here src && src.aligned (fmtSize fs.code)),
   need 192 (dst.ok die && dst.aligned (fmtSize fd.code)),
   need 256 (dfld d 319 256 == 0 || (dst2.ok die && dst2.aligned (fmtSize fd.code))),
   need 320 (slotSrcOk s die plan && plan.aligned 64), need 384 (fs.okSrc die && gradFmt fs.code), need 384 (same fs),
   need 416 (fd.okDst die && (fd.code == 0 || fd.code == 1 || fd.code == 6)), need 416 (same fd),
   need 448 (fa.okSrc die && fa.code == 6)]

/-- The checks of the plan record. -/
def Plan.ok (p : Plan) (die : Nat) : Bool :=
  decide (p.nin ≤ 16) && decide (p.nbc ≤ 16) && recNat p.bs 6 2 == 0 && recNat p.bs 72 56 == 0 && p.flows.all (heldBy die)

/-- A RED unit: six partials with their GNaN flags (R340). -/
def redUnit (ps : List Partial) : List Byte :=
  let part (i : Nat) : Partial := ps.getD i ⟨0, false, false⟩
  (List.range 6).flatMap (fun i => leBytes 10 (part i).sum.toNat) ++
  [BitVec.ofNat 8 ((List.range 6).foldl (fun n i => n + (if (part i).gnan then 2 ^ i else 0)) 0), 0, 0, 0]

def redPartial (unit : List Byte) (i : Nat) (poison : Bool) : Partial :=
  ⟨BitVec.ofNat 80 (recNat unit (10 * i) 10), recNat unit 60 1 / 2 ^ i % 2 == 1, poison⟩

def Partial.add (a b : Partial) : Partial := ⟨a.sum + b.sum, a.gnan || b.gnan, a.poison || b.poison⟩

def Partial.gsum (p : Partial) : GSum := ⟨p.sum.toInt, p.gnan⟩

/-- Units up to 8 in a frame: the first unit and the number of units. -/
def frameCuts (first n : Nat) : List (Nat × Nat) := (List.range ((n + 7) / 8)).map (fun k => (first + 8 * k, min 8 (n - 8 * k)))

def State.setGred (s : State) (g : Gred) : State :=
  { s with fab := { s.fab with greds := s.fab.greds.map (fun x => if x.fid = g.fid then g else x) } }

def State.gredOf (s : State) (fid : Nat) : Option Gred := s.fab.greds.find? (fun g => decide (g.fid = fid))

/-- The GRED that a frame of a flow belongs to. -/
def State.gredAt (s : State) (fl cid : Nat) : Option Gred := s.fab.greds.find? (fun g => decide (g.die = flowDie fl ∧ g.cid = cid))

def pairGet (m : List (Nat × Nat)) (k : Nat) : Nat := ((m.find? (fun x => decide (x.1 = k))).map (·.2)).getD 0
def pairSet (m : List (Nat × Nat)) (k v : Nat) : List (Nat × Nat) := (k, v) :: m.filter (fun x => decide (x.1 ≠ k))

/-- Units every child has delivered. -/
def Gred.units (g : Gred) (p : Plan) : Nat :=
  let all := (g.parts.length + 5) / 6
  p.inFlows.foldl (fun n f => min n (pairGet g.recv f)) all

/-- Elements whose sum is whole. -/
def Gred.ready (g : Gred) (p : Plan) : Nat := min g.parts.length (6 * g.units p)

/-- The GRANT of an in-flow: what it has received and 1,024 units more. -/
def State.sendGrant (s : State) (g : Gred) (fl : Nat) : State :=
  s.sendPlain fl 0 { type := 0x24, addr := pairGet g.granted fl + 2 ^ 32 * g.cid }

/-- The partials of a GRED that its parent allows go up (R339 step 3). -/
def State.gredUp (s : State) (g : Gred) (p : Plan) : State :=
  let n := min (g.units p) g.upGrant
  if p.root || decide (n ≤ g.sentUp) then s
  else
    let total := (g.parts.length + 5) / 6
    let s := (frameCuts g.sentUp (n - g.sentUp)).foldl (fun s c =>
      let ps := (g.parts.drop (6 * c.1)).take (6 * c.2)
      let pay := (List.range c.2).flatMap (fun k => redUnit ((ps.drop (6 * k)).take 6))
      s.sendSeq p.up { type := 0x1A, addr := 6 * c.1 + 2 ^ 32 * g.cid, payload := pay, last := c.1 + c.2 == total,
                       poison := ps.any (·.poison) } (some g.fid)) s
    s.setGred { g with sentUp := n }

/-- Result words with their marks, sent on every broadcast flow (R339 step 5). -/
def State.gredCast (s : State) (g : Gred) (p : Plan) (first : Nat) (ws : List (DWord × Bool)) : State :=
  p.bcFlows.foldl (fun s fl =>
    (frameCuts 0 ((ws.length + 7) / 8)).foldl (fun s c =>
      let xs := (ws.drop (8 * c.1)).take (8 * c.2)
      let bs := xs.flatMap (fun x => leBytes 8 x.1.toNat)
      s.sendSeq fl { type := 0x1B, addr := first + 8 * c.1 + 2 ^ 32 * g.cid, payload := bs ++ List.replicate (64 * c.2 - bs.length) 0,
                     last := first + 8 * c.1 + xs.length == g.parts.length, poison := xs.any (·.2) } (some g.fid)) s) s

/-- One result word as fmt_dst stores it: the code, the saturations, the value that entered the conversion. -/
def gredOut (fd : FmtWord) (eref : Int) (w : DWord) : Nat × Nat × Word :=
  if fd.code = 6 then (w.toNat, 0, 0)
  else
    let (c, n) := gFinal fd.fmt 0 eref w
    (c, n, (satFP32 (gVal eref w)).1)

/-- Write result words from element `first` on to a destination. -/
def Run.gredWrite (r : Run) (w : AddrWord) (fd : FmtWord) (eref : Int) (first : Nat) (ws : List (DWord × Bool)) : Run :=
  let k := Nat.max 1 (fd.fmt.bits / 8)
  let bs := ws.flatMap (fun x => (leBytes k (gredOut fd eref x.1).1).map (fun b => (b, x.2)))
  r.writeMarks w (first * k) bs (bs.length / 64 + 2)

/-- The writes of some results: to dst, and to dst2 where one is named, with their saturations and maxima. -/
def Run.gredStore (r : Run) (f : Flight) (first : Nat) (ws : List (DWord × Bool)) : Run :=
  let d := f.desc
  let fd := dFmt d 416
  let eref := f.val 448
  let os := ws.map (fun x => gredOut fd eref x.1)
  let r := r.addSat (os.map (·.2.1)).sum
  let r := if fd.gather && fd.code != 6 then r.maxes (os.map (·.2.2)) else r
  let r := r.gredWrite (dAddr d 192) fd eref first ws
  if dfld d 319 256 = 0 then r else r.gredWrite (dAddr d 256) fd eref first ws

/-- Keep what a run brought in the flight, which goes on. -/
def Run.keep (r : Run) (f : Flight) : State :=
  let s := (r.s.sendAll f.fid r.sends).unwaitDesc f.fid
  s.setFlight { f with res := { f.res with status := BitVec.ofNat 8 r.code, detail := r.detail, sat := r.sat, runMax := r.rm,
                                           uses := r.uses.dedup, pairs := r.pairs.dedup } }

/-- The member is done: its results are written and its partials sent (R339 step 6). -/
def State.gredEnd (s : State) (fid : Nat) : State :=
  match s.flight fid, s.gredOf fid with
  | some f, some g =>
    let p : Plan := ⟨f.recs⟩
    if f.running && g.resDone == g.parts.length && (p.root || g.sentUp == (g.parts.length + 5) / 6) then
      let s := { s with fab := { s.fab with greds := s.fab.greds.filter (fun x => decide (x.fid ≠ fid)) } }
      (Run.ofFlight s f).gredDone f
    else s
  | _, _ => s

/-- Results from element `first` on reach the member: they are written and passed on. `later` when a write waits. -/
def State.gredResults (s : State) (f : Flight) (g : Gred) (first : Nat) (ws : List (DWord × Bool)) (sat : Nat) (flow : Option Nat) :
    Performed :=
  let p : Plan := ⟨f.recs⟩
  let r := ((Run.ofFlight s f).addSat sat).gredStore f first ws
  if r.far ≠ [] ∨ r.ext ≠ [] then .later (s.askFor f.fid r.far r.ext)
  else
    let r := match flow with
      | some fl => if ws.any (·.2) then r.raise stFabricPoison (BitVec.ofNat 32 fl) else r
      | none => r
    let s := r.keep f
    let s := s.setGred { g with resDone := first + ws.length }
    .taken ((s.gredCast g p first ws).gredEnd f.fid)

/-- The root finishes the elements whose sums are whole, eight at a time but at the end. -/
def State.gredRoot (s : State) (f : Flight) (g : Gred) : State :=
  let p : Plan := ⟨f.recs⟩
  let n := g.ready p
  let n := if n = g.parts.length then n else n / 8 * 8
  if !p.root || decide (n ≤ g.resDone) then s
  else
    let ps := (g.parts.drop g.resDone).take (n - g.resDone)
    let ws := ps.map (fun q => (q.gsum.word, q.poison))
    match s.gredResults f g g.resDone (ws.map (fun x => (x.1.1, x.2))) (ws.map (·.1.2)).sum none with
    | .taken s => s
    | .fails s _ => s
    | .later s => s

/-- Send and finish what a GRED can. -/
def State.gredGo (s : State) (fid : Nat) : State :=
  match s.flight fid, s.gredOf fid with
  | some f, some g => ((s.gredUp g ⟨f.recs⟩).gredRoot f g).gredEnd fid
  | _, _ => s

/-- The own contribution (R339 step 1). -/
def Run.gredParts (r : Run) (f : Flight) (n : Nat) : Run × List Partial :=
  let d := f.desc
  let fs := dFmt d 384
  let o := f.opnd 128 384
  if fs.code = 6 then
    let (r, bs, _) := r.read o.w 0 (8 * n)
    let ws := numsOf 8 (bs.length / 8) bs
    (r, ws.mapIdx (fun i w =>
      let g := gWord (BitVec.ofNat 64 w)
      ⟨BitVec.ofInt 80 g.sum, g.gnan, r.operandBad o.w (8 * i) 8⟩))
  else
    let (r, xs) := r.readLanes o 0 n
    let qs := xs.map (fun x => (gAddend (f.val 448) x.1, x.2))
    (r.addSat (qs.map (·.1.2)).sum, qs.map (fun q => ⟨BitVec.ofInt 80 (q.1.1.getD 0), q.1.1.isNone, q.2⟩))

/-- A GRED starts: its contribution is read, and 1,024 units are granted to each in-flow. -/
def State.gredStart (s : State) (f : Flight) : State :=
  let d := f.desc
  let p : Plan := ⟨f.recs⟩
  let n := dfld d 503 480
  match p.flows.find? (fun fl => !s.flowOn fl) with
  | some fl => ((Run.start s (hDie f.target) f.fid).raise stFlowTimeout (BitVec.ofNat 32 fl)).gredDone f
  | none =>
    if n = 0 then ((Run.start s (hDie f.target) f.fid).raise stEmpty 0).gredDone f
    else
      let (r, parts) := (Run.start s (hDie f.target) f.fid).gredParts f n
      if r.far ≠ [] ∨ r.ext ≠ [] ∨ r.stop then (r.gatherInto (dFmt d 416)).finish s f 0 false
      else
        let (v, s1) := r.s.freeWord
        let r := if parts.any (·.poison) then ({ r with s := s1 } : Run).raise stFabricPoison v else r
        let s := r.keep f
        let g : Gred := { fid := f.fid, die := hDie f.target, cid := p.cid, parts := parts, recv := [],
                          granted := p.inFlows.map (fun fl => (fl, 1024)), upGrant := 0, sentUp := 0, resDone := 0 }
        let s := { s with fab := { s.fab with greds := s.fab.greds ++ [g] } }
        (p.inFlows.foldl (fun s fl => s.sendGrant g fl) s).gredGo f.fid

def execGred (fid : Nat) (s : State) : Host.Outcome State Fault Refusal :=
  .next (match s.flight fid with
    | some f =>
      if s.runs f 0x71 then (if (s.gredOf fid).isSome then s.gredGo fid else s.gredStart f) else s
    | none => s)

/-- The units of a RED added to the partials (R339 step 2). -/
def addUnits (parts : List Partial) (first : Nat) (f : Frame) : List Partial :=
  parts.mapIdx (fun e a =>
    if first ≤ e ∧ e < first + 6 * f.plen then
      let k := e - first
      a.add (redPartial ((f.payload.drop (64 * (k / 6))).take 64) (k % 6) f.poison)
    else a)

/-- A RED: taken within the grant of a GRED that has started. -/
def performRed (f : Frame) (s : State) : Performed :=
  match s.gredAt f.flow (f.fld 247 232) with
  | none => .later s
  | some g =>
    let p := s.gredPlan g
    let got := pairGet g.recv f.flow
    let n := got + f.plen
    if !p.inFlows.contains f.flow || f.fld 223 200 != 6 * got || decide (pairGet g.granted f.flow < n) then .later s
    else
      let g := { g with parts := addUnits g.parts (6 * got) f, recv := pairSet g.recv f.flow n,
                        granted := pairSet g.granted f.flow (n + 1024) }
      let s := s.setGred g
      let s := if f.poison then s.raiseFlight g.fid stFabricPoison (BitVec.ofNat 32 f.flow) else s
      .taken ((s.sendGrant g f.flow).gredGo g.fid)

def execRed (port : Nat) (f : Frame) (s : State) : Host.Outcome State Fault Refusal :=
  .next (s.sequenced port 0x1A f (performRed f))

/-- A RES: the next results of a member that is not the root (R339 step 4). -/
def performRes (f : Frame) (s : State) : Performed :=
  match s.gredAt f.flow (f.fld 247 232) with
  | none => .later s
  | some g =>
    let p := s.gredPlan g
    match s.flight g.fid with
    | none => .later s
    | some fl =>
      if p.root || p.up != f.flow || f.fld 223 200 != g.resDone then .later s
      else
        let n := min (8 * f.plen) (g.parts.length - g.resDone)
        let ws := (numsOf 8 n f.payload).map (fun w => (BitVec.ofNat 64 w, f.poison))
        s.gredResults fl g g.resDone ws 0 (some f.flow)

def execRes (port : Nat) (f : Frame) (s : State) : Host.Outcome State Fault Refusal :=
  .next (s.sequenced port 0x1B f (performRes f))

/-- A GRANT raises the allowance of the child (R340). -/
def execGrant (port : Nat) (f : Frame) (s : State) : Host.Outcome State Fault Refusal :=
  .next (s.toFlow port 0x24 f (fun s =>
    match s.gredAt f.flow (f.fld 247 232) with
    | some g =>
      if (s.gredPlan g).up == f.flow then (s.setGred { g with upGrant := max g.upGrant (f.fld 223 200) }).gredGo g.fid else s
    | none => s))

/-- Every 10 µs while a GRED waits. -/
def execGrantRepeat (fid : Nat) (s : State) : Host.Outcome State Fault Refusal :=
  .next (match s.gredOf fid with
    | some g =>
      if s.dieDown g.die then s
      else ((s.gredPlan g).inFlows.filter (fun fl => s.flowLive fl)).foldl (fun s fl => s.sendGrant g fl) s
    | none => s)

end Sys2Proof.Machine
end

