-- ==== Sys2Proof/Machine/Coherence.lean ====
section
/-! DEFINITION. The snoop ring, the homes and the caching agents (R351-R354), interrupt files and timers (R348, R350, R370),
granule bias and its classes (R355-R359, R369), and what a host core's accesses and atomics do in memory (R256, R347, R357,
R467). -/

namespace Sys2Proof.Machine

/-! ### Snoops (R351, R352) -/

/-- The die of a caching agent in ring order: HD0-HD7, IO0-IO9, then the controllers of CD0-CD39. -/
def agentDie (agent : Nat) : Nat := if agent < 18 then 80 + agent else agent - 18

def State.copyOf (s : State) (agent line : Nat) : Option Copy :=
  s.host.copies.find? (fun c => decide (c.agent = agent ∧ c.line = line))

/-- What a snoop meets: a lost die answers RSP_LOST, an agent outside the ring nothing. -/
def State.snoop (s : State) (agent line : Nat) (act : State → Option Copy → State) : State :=
  if 58 ≤ agent then s
  else if s.dieDown (agentDie agent) then s.emit (.snoopLost agent line)
  else act s (s.copyOf agent line)

/-- SNP_SHR: a modified or exclusive copy becomes shared and its data is supplied. -/
def execSnpShr (agent line : Nat) (s : State) : Host.Outcome State Fault Refusal :=
  .next (s.snoop agent line (fun s c => match c with
    | none => s.emit (.snoopInvalid agent line)
    | some c =>
      if c.state = .shared then s.emit (.snoopInvalid agent line)
      else
        let data := s.bytes (64 * line) 64
        let s := ((s.writeBack c).dropCopy agent line).setOwner agent line [⟨line, none⟩]
        ({ s with host := { s.host with copies := s.host.copies ++ [⟨agent, line, .shared, []⟩] } } : State).emit
          (.snoopData agent line data)))

/-- An agent gives up its copy, with the grant and the reservations that rest on it, and supplies modified data. -/
def State.giveUp (s : State) (agent line : Nat) (c : Option Copy) : State :=
  match c with
  | none => s.emit (.snoopInvalid agent line)
  | some c =>
    let s := s.releaseCopy c
    if c.state = .modified then s.emit (.snoopData agent line c.data) else s.emit (.snoopInvalid agent line)

def execSnpInv (agent line : Nat) (s : State) : Host.Outcome State Fault Refusal :=
  .next (s.snoop agent line (fun s c => s.giveUp agent line c))

/-- SNP_OWN does at an agent what SNP_INV does. -/
def execSnpOwn (agent line : Nat) (s : State) : Host.Outcome State Fault Refusal :=
  .next (s.snoop agent line (fun s c => s.giveUp agent line c))

/-- SNP_GFL at one agent: every line of a granule, counted in 64 KiB from address 0. -/
def State.giveUpGranule (s : State) (agent granule : Nat) : State :=
  let mine := s.host.copies.filter (fun c => decide (c.agent = agent ∧ c.line / 1024 = granule))
  let s := mine.foldl (fun s c =>
    let s := (((s.writeBack c).dropCopy agent c.line).dropCores agent c.line).setOwner agent c.line []
    { s with host := { s.host with
      grants := s.host.grants.filter (fun g => decide (¬ (g.line = c.line ∧ g.hostDie = agent)))
      resv := s.host.resv.filter (fun p => decide (p.2 ≠ c.line)) } }) s
  s.emit (.snoopInvalid agent (1024 * granule))

def execSnpGfl (agent granule : Nat) (s : State) : Host.Outcome State Fault Refusal :=
  .next (s.snoop agent (1024 * granule) (fun s _ => s.giveUpGranule agent granule))

/-- SNP_GFL at every agent. -/
def State.flushGranule (s : State) (granule : Nat) : State :=
  let mine := s.host.copies.filter (fun c => decide (c.line / 1024 = granule))
  let s := mine.foldl (fun s c => s.invalidate c.line) s
  { s with host := { s.host with filter := s.host.filter.filter (fun e => decide (e.line / 1024 ≠ granule)) } }

/-! ### Interrupt files and timers (R348, R350, R370) -/

/-- A hart's identity as a key of the interrupt files. -/
def imsicKey (hart identity : Nat) : Nat := 2048 * hart + identity

def State.deliver (s : State) (src : Nat) (target : BitVec 24) : State :=
  let t := target.toNat
  let hd := t / 2 ^ 21
  let hart := t / 2 ^ 16 % 32
  let id := t % 2 ^ 16
  if id = 0 ∨ 2047 < id ∨ 23 < hart ∨ s.dieDown (80 + hd) then s.log src .interruptLost t 0 (.controller src) .write
  else { s with host := { s.host with imsicPend := setInsert s.host.imsicPend (imsicKey (24 * hd + hart) id) } }

/-- A message that has been sent arrives. -/
def execInterruptMessage (srcDie : Nat) (target : BitVec 24) (s : State) : Host.Outcome State Fault Refusal :=
  .next (if s.irqQ.contains (srcDie, target) then
      ({ s with irqQ := s.irqQ.erase (srcDie, target) } : State).deliver srcDie target
    else s)

/-- A 32-bit store to an offset of the HX_ sub-window that lies on a setipnum page. -/
def State.imsicWrite (s : State) (hd offset : Nat) (v : Word) : State :=
  let id := v.toNat
  if offset % 0x1000 ≠ 0 ∨ id = 0 ∨ 2047 < id then s
  else if 0x40000 ≤ offset ∧ offset < 0x58000 then
    { s with host := { s.host with
        imsicPend := setInsert s.host.imsicPend (imsicKey (24 * (hd - 80) + (offset - 0x40000) / 0x1000) id) } }
  else if 0x60000 ≤ offset ∧ offset < 0x78000 then
    { s with host := { s.host with
        imsicM := setInsert s.host.imsicM (imsicKey (24 * (hd - 80) + (offset - 0x60000) / 0x1000) id) } }
  else s

def hartDie (hart : Nat) : Nat := 80 + hart / 24

/-- The timer of a host die. -/
def State.mtime (s : State) (hd : Nat) : Nat :=
  (s.reg (Reg.hxMtimeLo hd)).toNat + 2 ^ 32 * (s.reg (Reg.hxMtimeHi hd)).toNat

def State.stimecmp (s : State) (hart : Nat) : DWord :=
  ((s.host.stimecmp.find? (fun p => decide (p.1 = hart))).map (·.2)).getD 0

/-- Sstc: a hart's stimecmp holds `cmp`, and its supervisor timer interrupt is pending while the timer has reached it. -/
def State.timerCompare (s : State) (hart : Nat) (cmp : DWord) : State :=
  { s with host := { s.host with
      stimecmp := (hart, cmp) :: s.host.stimecmp.filter (fun p => decide (p.1 ≠ hart))
      stip := if cmp.toNat ≤ s.mtime (hartDie hart) then setInsert s.host.stip hart else setErase s.host.stip hart } }

/-- The timer is compared with the hart's stimecmp, which the hart writes first when `cmp` gives a value (R348). -/
def execStimecmpExpiry (hart : Nat) (s : State) (cmp : Option DWord := none) : Host.Outcome State Fault Refusal :=
  .next (if hart < 192 ∧ s.dieState (hartDie hart) = 2 then s.timerCompare hart (cmp.getD (s.stimecmp hart)) else s)

/-! ### The bias table (R356, R369) -/

def biasCtrl (home : Nat) : Nat := if isHd home then Reg.hxBiasCtrl home else Reg.hcBiasCtrl home
def biasTableSize (home : Nat) : Nat := if isHd home then 0x200000 else 0x60000

/-- The home exists and answers. -/
def State.homeUp (s : State) (home : Nat) : Bool := (isCd home || isHd home) && !s.dieDown home

def execBiasInit (home : Nat) (s : State) : Host.Outcome State Fault Refusal :=
  .next (if s.homeUp home then s.setFlag (biasCtrl home) 31 true else s)

/-- Every entry holds init_code. -/
def State.biasInitDone (s : State) (home : Nat) : State :=
  let b := s.biasBase home
  let n := biasTableSize home
  let code := BitVec.ofNat 8 (s.fld (biasCtrl home) 3 2 * 0x55)
  let s := if code = 0 then { s with mem := eraseRange s.mem b (b + n) } else s.putMem b (List.replicate n code)
  ({ s with poison := setEraseRange s.poison (b / 64) ((b + n) / 64) } : State).setFlag (biasCtrl home) 31 false

def execBiasInitDone (home : Nat) (s : State) : Host.Outcome State Fault Refusal :=
  .next (if s.homeUp home && s.flag (biasCtrl home) 31 then s.biasInitDone home else s)

/-- The byte of the home's table that holds the code of a granule. -/
def State.codeAddr (s : State) (home granule : Nat) : Nat := s.biasBase home + granule / 4

def State.setCode (s : State) (home granule code : Nat) : State :=
  let b := s.codeAddr home granule
  let v := (s.memByte b).toNat
  let k := 4 ^ (granule % 4)
  s.putMem b [BitVec.ofNat 8 (v - v / k % 4 * k + code % 4 * k)]

/-- The address lies in the CXL window of a port in mode 2 (R359, R365). -/
def State.inCxlWindow (s : State) (a : Nat) : Bool :=
  [88, 89].any (fun io => s.fld (Reg.hxPcieCtrl io) 1 0 == 2 &&
    decide (2 ^ 28 * s.fld (Reg.hxCxlWinBase io) 19 0 ≤ a ∧
      a < 2 ^ 28 * (s.fld (Reg.hxCxlWinBase io) 19 0 + s.fld (Reg.hxCxlWinSize io) 14 0)))

/-! ### BIASFLIP (R358, R359) -/

/-- The word resolves to the executing die's own HBM or host memory, and n bytes from there stay in its populated part. -/
def ownHome (s : State) (die : Nat) (w : AddrWord) : Bool :=
  w.ok die && (match w.at s.moduleId die 0 with
    | .here a => (isHbm a || isHostMem a) && ownerDie a == die && populated a
    | _ => false)

def ownHomeFits (s : State) (die : Nat) (w : AddrWord) (n : Nat) : Bool :=
  match w.at s.moduleId die 0 with
  | .here a => decide (a + n ≤ homeBase die + homeSize die)
  | _ => true

def biasflipChecks (s : State) (f : Flight) : List (Option Nat) :=
  let d := f.desc
  let die := hDie f.target
  let w := dAddr d 128
  [resvBits d 511 219, need 108 (dShardN d == 1), need 128 (ownHome s die w && w.aligned 0x10000),
   need 128 (ownHomeFits s die w (0x10000 * dfld d 215 192))]

/-- The external host holds lines of a granule that the home must take back first (R359, R366). -/
def State.heldLines (s : State) (a : Nat) : List (Nat × Nat) :=
  if s.extUp || !s.pcie.walk.isEmpty then
    (s.pcie.ext.filter (fun e => decide (e.line / 1024 = a / 0x10000))).map (fun e => (e.io, e.line))
  else []

/-- Where the range of a BIASFLIP begins. -/
def State.flipBase (s : State) (f : Flight) : Nat :=
  match (dAddr f.desc 128).at s.moduleId (hDie f.target) 0 with
  | .here a => a
  | _ => 0

/-- A flip that its home accepted earlier has the granule still before it: the flips of a granule take their turns (R372). -/
def State.otherFlip (s : State) (fid a : Nat) : Bool :=
  (s.flight fid).any (fun f => s.flights.any (fun g => decide (g.phase = .started ∧ dClass g.desc = 0x80 ∧
    hDie g.target = hDie f.target ∧ g.start < f.start) && !hGang g.target &&
    decide (s.flipBase g + 0x10000 * g.rows ≤ a ∧ a < s.flipBase g + 0x10000 * dfld g.desc 215 192)))

/-- A flip to a code of the granule at address `a`; granules are taken in ascending order, and one that must wait holds those
after it. -/
def flipOne (code : Nat) (onlyExt : Bool) (r : Run) (a : Nat) : Run :=
  let s := r.s
  let home := r.die
  let g := granuleOf a
  let old := s.biasCode a
  if r.stop || !r.ext.isEmpty then r
  else if s.otherFlip r.fid a then { r with ext := [(101, a / 64)] }
  else if onlyExt && old != 2 then r
  else if s.inMaint (s.codeAddr home g) then
    r.miss (.addr (ownerDie (s.codeAddr home g)) .maintenance) (s.codeAddr home g)
  else if code = 2 && (!s.extUp || !s.inCxlWindow a) then
    if r.code < stBiasFault then r.raiseLog stBiasFault home .bias a else r
  else if old = code then r
  else if s.linePoisoned (s.codeAddr home g / 64) then r.poisoned (s.codeAddr home g)
  else if old = 2 && s.heldLines a != [] then { r with ext := s.heldLines a }
  else
    let s := if (old = 1 && (code = 0 || code = 3)) || (old = 2 && s.extUp) then s.flushGranule (a / 0x10000) else s
    { r with s := s.setCode home g code }

/-- The granules of a BIASFLIP from number `i` on, in order; the number of the one that must wait, or of all, comes back. -/
def flipFrom (code : Nat) (onlyExt : Bool) (a : Nat) : Nat → Nat → Run → Run × Nat
  | 0, i, r => (r, i)
  | n + 1, i, r =>
    let r' := flipOne code onlyExt r (a + 0x10000 * i)
    if r'.ext.isEmpty then flipFrom code onlyExt a n (i + 1) r' else (r', i)

/-- The run of a BIASFLIP from the granules whose codes are already in force on, the number reached, and the table lines in all. -/
def State.biasflipRun (s : State) (f : Flight) : (Run × Nat) × Nat :=
  let d := f.desc
  let die := hDie f.target
  let n := dfld d 215 192
  let a := s.flipBase f
  let r0 : Run := { Run.start s die f.fid with code := f.res.status.toNat, detail := f.res.detail }
  if n = 0 then ((r0.raise stEmpty 0, 0), 0)
  else (flipFrom (dfld d 217 216) (dbit d 218) a (n - f.rows) f.rows r0, (granuleOf a + n + 255) / 256 - granuleOf a / 256)

/-- The granules a flip holds while it waits for an external host, beside those of other flips (R359). -/
def holdFlips (fid : Nat) (flips ext : List (Nat × Nat)) : List (Nat × Nat) :=
  flips.filter (fun g => decide (g.1 ≠ fid)) ++ ((ext.filter (fun x => decide (x.1 < 100))).map (fun x => (fid, x.2 / 1024))).dedup

/-- A BIASFLIP waits for an initialisation of its home's table. While a granule waits for an external host, accesses to it wait too;
the codes of the granules before it are in force (R359, R372). -/
def State.biasflip (s : State) (f : Flight) : State :=
  if dfld f.desc 215 192 ≠ 0 ∧ s.flag (biasCtrl (hDie f.target)) 31 = true then s
  else
    let ((r, i), lines) := s.biasflipRun f
    let t := if r.ext.isEmpty then Run.ends (r, lines) s f false
      else
        let g := { f with rows := i, res := { f.res with status := BitVec.ofNat 8 r.code, detail := r.detail } }
        (({ r.s with flights := s.flights } : State).setFlight g).askFor f.fid [] r.ext
    { t with host := { t.host with flips := holdFlips f.fid t.host.flips r.ext } }

def execBiasflip (fid : Nat) (s : State) : Host.Outcome State Fault Refusal :=
  .next (match s.flight fid with
    | some f => if s.runs f 0x80 then s.biasflip f else s
    | none => s)

/-! ### HFILL (R358) -/

def hfillChecks (s : State) (f : Flight) : List (Option Nat) :=
  let d := f.desc
  let die := hDie f.target
  let w := dAddr d 128
  [resvBits d 511 288, need 108 (dShardN d == 1), need 128 (ownHome s die w && w.aligned 64),
   need 128 (ownHomeFits s die w (dfld d 287 256 * 64))]

def State.hfillRun (s : State) (f : Flight) : Run × Nat :=
  let d := f.desc
  let n := dfld d 287 256
  let r0 := Run.start s (hDie f.target) f.fid
  let bs := (List.replicate 8 (leBytes 8 (dfld d 255 192))).flatten
  let r := if n = 0 then r0.raise stEmpty 0
    else (List.range n).foldl (fun r i => if r.stop then r else r.write (dAddr d 128) (64 * i) bs) r0
  (r, n)

def State.hfill (s : State) (f : Flight) : State := Run.ends (s.hfillRun f) s f false

def execHfill (fid : Nat) (s : State) : Host.Outcome State Fault Refusal :=
  .next (match s.flight fid with
    | some f => if s.runs f 0x81 then s.hfill f else s
    | none => s)

/-! ### Lines in a host die's caches (R351, R353) -/

/-- An agent's copy of a host-memory line is the module's one modified copy. -/
def State.ownsModified (s : State) (agent line : Nat) : Bool :=
  s.host.copies.any (fun c => decide (c.agent = agent ∧ c.line = line ∧ c.state = .modified))

/-- The agent takes a host-memory line exclusive, in `state` with the line's data `d`; every other copy is given up and the home
records an O entry. Reservations on the line end. -/
def State.takeOwn (s : State) (agent line : Nat) (state : CopyState) (d : List Byte) : State :=
  let s := if s.ownsModified agent line then
      { s with host := { s.host with
          copies := s.host.copies.filter (fun c => decide (c.line ≠ line))
          cores := s.host.cores.filter (fun c => decide (c.line ≠ line ∨ c.cache = .l1i))
          filter := s.host.filter.filter (fun e => decide (e.line ≠ line))
          resv := s.host.resv.filter (fun p => decide (p.2 ≠ line)) } }
    else s.invalidate line
  let s := (s.filterRoom (ownerDie (64 * line))).cacheRoom agent
  { s with host := { s.host with
      copies := s.host.copies ++ [⟨agent, line, state, d⟩]
      filter := s.host.filter ++ [⟨line, some agent⟩] } }

/-- Bytes laid over a line from byte k on. -/
def patch (line : List Byte) (k : Nat) (bs : List Byte) : List Byte := line.take k ++ bs ++ line.drop (k + bs.length)

/-! ### Host-core accesses to memory (R347, R357, R467) -/

/-- Where an access to memory is logged and refused, what it waits for, or that its home serves it. -/
inductive CoreMeet where
  | fault (die : Nat) (kind : LogKind)
  | wait (holder line : Nat)
  | ok
  deriving DecidableEq, Repr

/-- The exception of an access (R24): 5 load, 1 fetch, 7 store. -/
def coreCause (acc : CoreAccess) : Nat :=
  match acc with
  | .load => 5
  | .fetch => 1
  | .store _ => 7
  | .cboZero => 7

/-- The access type a host core's access is logged with. -/
def coreAcc (acc : CoreAccess) : LogAcc :=
  match acc with
  | .load => .read
  | .fetch => .fetch
  | .store _ => .write
  | .cboZero => .write

/-- The dies and codes an access or atomic of a hart meets on its way to the home. -/
def State.coreReach (s : State) (hart a : Nat) : CoreMeet :=
  match s.meetsBoth (hartDie hart) a (some (.hart hart)) with
  | some (.addr d k) => .fault d k
  | some (.bias h) => .fault h .bias
  | some .course => .fault (hartDie hart) (.courseFault 0)
  | some (.lost _) => .fault (hartDie hart) .lost
  | some (.flow _) => .fault (hartDie hart) .address
  | some (.remote _ _ _) => .fault (hartDie hart) .address
  | none =>
    match s.extHolder (a / 64) (some (.hart hart)) with
    | some h => .wait h (a / 64)
    | none => .ok

def State.coreMeet (s : State) (hart : Nat) (acc : CoreAccess) (a : Nat) : CoreMeet :=
  match s.coreReach hart a with
  | .ok =>
    if acc = .fetch && isWorkMem a then .fault (hartDie hart) .address
    else if acc = .fetch && !s.cacheable a (some (.hart hart)) then .fault (ownerDie a) .bias
    else .ok
  | m => m

/-- The parts of an access, split at line boundaries: address and length. -/
def coreParts (acc : CoreAccess) (a size : Nat) : List (Nat × Nat) :=
  match acc with
  | .cboZero => [(a / 64 * 64, 64)]
  | .store bs => if a % 64 + bs.length ≤ 64 then [(a, bs.length)] else [(a, 64 - a % 64), (a + (64 - a % 64), bs.length - (64 - a % 64))]
  | _ => if a % 64 + size ≤ 64 then [(a, size)] else [(a, 64 - a % 64), (a + (64 - a % 64), size - (64 - a % 64))]

/-- The access goes through the caches of the hart's host die. -/
def State.cachedFor (s : State) (hart : Nat) (uncached : Bool) (a : Nat) : Bool := !uncached && s.cacheable a (some (.hart hart))

/-- What the home holds of a line is poisoned, and no cache holds it modified, which stands before it. -/
def State.storedPoison (s : State) (line : Nat) : Bool := s.linePoisoned line && (s.modifiedCopy line).isNone

/-- The part reads the stored line: neither a copy serves it nor does it write the whole line. -/
def State.readsLine (s : State) (hart : Nat) (uncached : Bool) (acc : CoreAccess) (a n : Nat) : Bool :=
  let hit := (s.cachedFor hart uncached a && (s.copyOf (hart / 24) (a / 64)).isSome) || (s.modifiedCopy (a / 64)).isSome
  match acc with
  | .cboZero => false
  | .store _ => !hit && n != 64
  | _ => !hit

/-- The exception a part raises at a poisoned line, which the log of the home's die records (R467). A store of part of a cacheable
line raises it whether or not the die holds a clean copy: its caches acquire the line, or its home finds the mark. -/
def State.corePoison (s : State) (hart : Nat) (uncached : Bool) (acc : CoreAccess) (a n : Nat) : Option Nat :=
  if s.storedPoison (a / 64) then
    match acc with
    | .store _ => if s.cachedFor hart uncached a && n != 64 then some 7 else none
    | _ => if s.readsLine hart uncached acc a n then some (coreCause acc) else none
  else none

/-- A store of a part: into the die's caches for host memory, written through otherwise, an EXT line too, which only an external
host holds modified (R366). -/
def State.coreStore (s : State) (hart : Nat) (uncached : Bool) (a : Nat) (bs : List Byte) : State :=
  let line := a / 64
  if s.cachedFor hart uncached a && isHostMem a && s.biasFor (some (.hart hart)) a != 2 then
    let d := patch (s.bytes (64 * line) 64) (a % 64) bs
    (s.clearPoison line).takeOwn (hart / 24) line .modified d
  else
    let cached := s.cachedFor hart uncached a
    let (s, bad) := s.writeLine a bs false
    if bad then s.log (ownerDie a) .poisonedStore a 0 (.hart hart) .write
    else if cached then s.placeShared (hart / 24) line else s

/-- The bytes of a part that is read, and the caches after it. -/
def State.coreLoad (s : State) (hart : Nat) (uncached : Bool) (a n : Nat) : List Byte × State :=
  if s.cachedFor hart uncached a && (s.copyOf (hart / 24) (a / 64)).isSome then (s.bytes a n, s)
  else
    let s := s.shareCopies (a / 64)
    (s.bytes a n, if s.cachedFor hart uncached a then s.placeShared (hart / 24) (a / 64) else s)

/-- The first exception among the parts, up to one that must wait: the cause and the state with its log entry. -/
def State.coreFault (s : State) (hart : Nat) (uncached : Bool) (acc : CoreAccess) : List (Nat × Nat) → Option (Nat × State)
  | [] => none
  | (a, n) :: ps =>
    match s.coreMeet hart acc a with
    | .fault d k => some (coreCause acc, s.log d k a 0 (.hart hart) (coreAcc acc))
    | .wait _ _ => none
    | .ok => match s.corePoison hart uncached acc a n with
      | some c => some (c, s.log (ownerDie a) .poisonRead a 0 (.hart hart) (coreAcc acc))
      | none => s.coreFault hart uncached acc ps

/-- What the first part that must wait waits for. -/
def State.coreWait (s : State) (hart : Nat) (acc : CoreAccess) : List (Nat × Nat) → Option (Nat × Nat)
  | [] => none
  | (a, _) :: ps =>
    match s.coreMeet hart acc a with
    | .wait h l => some (h, l)
    | _ => s.coreWait hart acc ps

/-- The private caches of a hart take a line that an access of it through the caches has used (R346). -/
def State.coreFills (s : State) (hart : Nat) (uncached : Bool) (acc : CoreAccess) (a : Nat) : State :=
  if s.cachedFor hart uncached a then
    (s.coreFill (if acc = .fetch then .l1i else .l1d) hart (a / 64)).coreFill .l2 hart (a / 64)
  else s

/-- The lines of a fetch that the core serves from its L1I, which no snoop reaches (R346, R351). Whether it has given up since what it
took there is open (entry 176). -/
def State.l1iServes (s : State) (hart : Nat) (uncached : Bool) (acc : CoreAccess) (ps : List (Nat × Nat)) : List CoreLine × State :=
  let held := s.host.cores.filter (fun c => decide (c.cache = .l1i ∧ c.hart = hart) && ps.any (fun p => p.1 / 64 == c.line))
  if acc = .fetch && !uncached && !held.isEmpty then
    let (k, s) := s.freeCount
    (if k % 2 = 0 then held else [], s)
  else ([], s)

/-- The bytes of a part of a fetch: those of its L1I line, or those a fill brings. -/
def State.coreFetch (s : State) (hart : Nat) (uncached : Bool) (held : List CoreLine) (a n : Nat) : List Byte × State :=
  match held.find? (fun c => decide (c.line = a / 64)) with
  | some c => ((c.data.drop (a % 64)).take n, s)
  | none =>
    let (bs, s) := s.coreLoad hart uncached a n
    (bs, s.coreFills hart uncached .fetch a)

/-- The parts performed in ascending order. -/
def State.corePerform (s : State) (hart : Nat) (uncached : Bool) (acc : CoreAccess) (held : List CoreLine) (data got : List Byte) :
    List (Nat × Nat) → State
  | [] => (match acc with
    | .load => s.emit (.coreData hart got)
    | .fetch => s.emit (.coreData hart got)
    | _ => s.emit (.coreDone hart))
  | (a, n) :: ps =>
    match acc with
    | .load =>
      let (bs, s) := s.coreLoad hart uncached a n
      (s.coreFills hart uncached acc a).corePerform hart uncached acc held data (got ++ bs) ps
    | .fetch =>
      let (bs, s) := s.coreFetch hart uncached held a n
      s.corePerform hart uncached acc held data (got ++ bs) ps
    | .store _ =>
      ((s.coreStore hart uncached a (data.take n)).coreFills hart uncached acc a).corePerform hart uncached acc held (data.drop n) got ps
    | .cboZero =>
      ((s.coreStore hart uncached a (List.replicate 64 0)).coreFills hart uncached acc a).corePerform hart uncached acc held data got ps

/-- A host-core access to memory; its exceptions are precise, so nothing of it is performed when one is raised. `ecc` is what the
code finds on the first line it reads. Lines that the core's L1I serves go nowhere. -/
def State.coreMemory (s : State) (hart : Nat) (uncached : Bool) (a size : Nat) (acc : CoreAccess) (ecc : Ecc) : State :=
  let all := coreParts acc a size
  let (held, s) := s.l1iServes hart uncached acc all
  let ps := all.filter (fun p => !held.any (fun c => c.line == p.1 / 64))
  let t := match (ps.takeWhile (fun p => s.coreMeet hart acc p.1 == .ok)).find? (fun p => s.readsLine hart uncached acc p.1 p.2) with
    | some p => s.ecc p.1 (.hart hart) ecc
    | none => s
  let ended (s : State) : State := all.foldl (fun s p => s.unwait (.hart hart) (p.1 / 64)) s
  match t.coreFault hart uncached acc ps with
  | some (c, u) => ended (u.emit (.coreFault hart c))
  | none => match s.coreWait hart acc ps with
    | some (h, l) => s.holdFor l h (some (.hart hart))
    | none => ended (t.corePerform hart uncached acc held (match acc with | .store bs => bs | _ => []) [] all)

/-! ### Host atomics (R256, R354, R357) -/

/-- A number of `b` bits as a signed one. -/
def signed (b n : Nat) : Int := if n % 2 ^ b < 2 ^ (b - 1) then (n % 2 ^ b : Nat) else ((n % 2 ^ b : Nat) : Int) - 2 ^ b

/-- What an AMO stores: from the stored value and the operand, b bits each. -/
def amoResult (op : AtomicOp) (b old v : Nat) : Nat :=
  match op with
  | .amoswap => v
  | .amoadd => (old + v) % 2 ^ b
  | .amoxor => old ^^^ v
  | .amoand => old &&& v
  | .amoor => old ||| v
  | .amomin => if signed b old ≤ signed b v then old else v
  | .amomax => if signed b v ≤ signed b old then old else v
  | .amominu => min old v
  | .amomaxu => Nat.max old v
  | .lr => old
  | .sc => v
  | .cas e => if old = e % 2 ^ b then v else old

def grantsOf (s : State) (home : Nat) : List Grant := s.host.grants.filter (fun g => decide (g.home = home))
def grantTable : Nat := 64

/-- The exception of an atomic that is not performed. -/
def atomicCause (op : AtomicOp) : Nat := if op = .lr then 5 else 7

def State.reserve (s : State) (hart line : Nat) : State :=
  { s with host := { s.host with resv := (hart, line) :: s.host.resv.filter (fun p => decide (p.1 ≠ hart)) } }

def State.unreserve (s : State) (hart : Nat) : State :=
  { s with host := { s.host with resv := s.host.resv.filter (fun p => decide (p.1 ≠ hart)) } }

/-- LR on host memory takes the line exclusive into its home die's L3; on a shared HBM granule into the requester's, under a
grant. -/
def State.lrTake (s : State) (hart a : Nat) : State :=
  let line := a / 64
  if isHostMem a then
    if s.ownsModified (ownerDie a - 80) line then s.reserve hart line
    else (s.takeOwn (ownerDie a - 80) line .exclusive []).reserve hart line
  else
    let s := (s.invalidate line).cacheRoom (hart / 24)
    ({ s with host := { s.host with
        copies := s.host.copies ++ [⟨hart / 24, line, .exclusive, []⟩]
        grants := s.host.grants ++ [⟨ownerDie a, line, hart / 24, hart⟩] } } : State).reserve hart line

/-- An AMO, or an SC that succeeds, stores: the line of host memory stays modified in its home die's L3; a line of HBM is written
back, kept clean and its grant released; so is an EXT line, which only an external host holds modified (R366). -/
def State.atomicStore (s : State) (hart a : Nat) (bs : List Byte) : State :=
  let line := a / 64
  if isHostMem a && s.biasFor (some (.hart hart)) a != 2 then
    s.takeOwn (ownerDie a - 80) line .modified (patch (s.bytes (64 * line) 64) (a % 64) bs)
  else ((s.writeLine a bs false).1).placeShared (hart / 24) line

/-- A grant a hart holds on a line is released, and its copy stays, clean. -/
def State.releaseGrant (s : State) (g : Grant) : State :=
  { s with host := { s.host with
      grants := s.host.grants.erase g
      copies := s.host.copies.map (fun c =>
        if c.agent = g.hostDie ∧ c.line = g.line ∧ c.state = .exclusive then { c with state := .shared } else c) } }

def State.atomicServe (s : State) (hart a size : Nat) (op : AtomicOp) (value : DWord) : State :=
  let line := a / 64
  let full := !isHostMem a && decide (grantTable ≤ (grantsOf s (ownerDie a)).length) &&
    s.host.grants.all (fun g => decide (g.line ≠ line))
  let old := leNat (s.bytes a size)
  let new := amoResult op (8 * size) old (value.toNat % 2 ^ (8 * size))
  match op with
  | .sc =>
    if s.host.resv.contains (hart, line) then
      ((s.atomicStore hart a (leBytes size new)).unreserve hart).emit (.coreData hart [0])
    else
      let s := match s.host.grants.find? (fun g => decide (g.hart = hart ∧ g.line = line)) with
        | some g => s.releaseGrant g
        | none => s
      (s.unreserve hart).emit (.coreData hart [1])
  | .lr => if full then s else (s.lrTake hart a).emit (.coreData hart (leBytes size old))
  | _ => if full then s else (s.atomicStore hart a (leBytes size new)).emit (.coreData hart (leBytes size old))

/-- A host atomic: refused on set-up space, working memory and granules that are not shared, and at a poisoned line. -/
def State.hostAtomic (s : State) (hart a size : Nat) (op : AtomicOp) (value : DWord) (ecc : Ecc) : State :=
  let fail (s : State) (c die : Nat) (k : LogKind) :=
    ((s.log die k a 0 (.hart hart) .atomic).emit (.coreFault hart c)).unwait (.hart hart) (a / 64)
  match regionOf a with
  | .setup _ _ => fail s (atomicCause op) (hartDie hart) .address
  | _ =>
    if a % size ≠ 0 then s.emit (.coreFault hart (if op = .lr then 4 else 6))
    else match s.coreReach hart a with
      | .fault d k => fail s (atomicCause op) d k
      | .wait h l => s.holdFor l h (some (.hart hart))
      | .ok =>
        if !s.cacheable a (some (.hart hart)) then fail s (atomicCause op) (ownerDie a) .bias
        else
          let s := if (s.modifiedCopy (a / 64)).isSome then s else s.ecc a (.hart hart) ecc
          if s.storedPoison (a / 64) then fail s (atomicCause op) (ownerDie a) .poisonRead
          else (s.atomicServe hart a size op value).unwait (.hart hart) (a / 64)

def execHostAtomic (hart addr size : Nat) (op : AtomicOp) (value : DWord) (ecc : Ecc) (s : State) :
    Host.Outcome State Fault Refusal :=
  .next (if hart < 192 ∧ s.dieState (hartDie hart) = 2 then s.hostAtomic hart addr size op value ecc else s)

/-- The window of an LR ends: its grant is released and its reservation with it (R354). -/
def execLrGrantExpiry (hart : Nat) (s : State) : Host.Outcome State Fault Refusal :=
  .next (match s.host.grants.find? (fun g => decide (g.hart = hart)) with
    | some g =>
      let s := s.releaseGrant g
      { s with host := { s.host with resv := s.host.resv.filter (fun p => decide (p ≠ (hart, g.line))) } }
    | none => s)

end Sys2Proof.Machine
end

