-- ==== Sys2Proof/Machine/Rights.lean ====
section
/-! DEFINITION. Who may reach set-up space, and how an access that may not ends (R24, R27, R393, R435). -/

namespace Sys2Proof.Machine

/-- The die an access of a requester comes from; SM for its own firmware. -/
def reqDie (req : Requester) : Nat :=
  match req with
  | .smFirmware => 99
  | .hostMachine h => hartDie h
  | .hostUser h => hartDie h
  | .dieCore d => d
  | .extHost io => 88 + io

/-- The sub-windows R27 lists for a die, as numbers of 1 MiB. -/
def subWindows (die : Nat) : Nat :=
  if isCd die then 12 else if isStack die then 1 else if isHd die then 3 else if isIo die then 6
  else if die = 98 then 1 else 4

/-- The protected sub-windows of R435, without the exceptions it names. -/
def protectedReg (a : Nat) : Bool :=
  match regionOf a with
  | .setup i off =>
    if i = 98 then true
    else if i = 99 then
      (decide (off < 0x100000) && !(decide (0x30 ≤ off ∧ off < 0x40) || off / 4 == 4)) ||
      (decide (0x200000 ≤ off ∧ off < 0x300000) &&
        !(decide (0x20000C ≤ off ∧ off < 0x200018) || decide (0x200100 ≤ off ∧ off < 0x200140)))
    else false
  | _ => false

/-- R435. -/
def State.setupRight (s : State) (req : Requester) (write : Bool) (a : Nat) : Bool :=
  let die := match regionOf a with
    | .setup i _ => if isStack i then i - 40 else i
    | _ => 0
  match req with
  | .smFirmware => true
  | .hostMachine _ => !protectedReg a || !write
  | .hostUser _ => !protectedReg a && s.flag Reg.smSetupAcl 0
  | .dieCore d => if protectedReg a then !write else d == die || s.flag Reg.smSetupAcl 1
  | .extHost _ => !protectedReg a && s.flag Reg.smSetupAcl 2

/-- The die that serves the set-up window of die i: a stack's compute die, and SM for TD while CD16 is lost (R24, R393). -/
def State.windowDie (s : State) (i : Nat) : Nat :=
  if isStack i then i - 40 else if i = 98 ∧ s.dieDown 16 then 99 else i

/-- Where a set-up access is refused and logged. SM's own firmware reaches every die that is not off or lost. -/
def State.setupMeets (s : State) (req : Requester) (write : Bool) (a : Nat) : Option (Nat × LogKind) :=
  let src := reqDie req
  match regionOf a with
  | .setup i off =>
    if subWindows i ≤ off / 0x100000 then some (src, .address)
    else if !s.setupRight req write a then some (99, .setupRights)
    else
      let w := s.windowDie i
      if req = .smFirmware then
        (let d := if isStack i then i - 40 else i
         if s.dieState d = 0 ∨ s.dieState d = 3 then some ((s.path src w a).answerer src, .lost) else none)
      else if s.dieDown w || (w = 99 && s.dieDown 23) then some ((s.path src w a).answerer src, .lost)
      else match s.path src w a, s.back src w with
        | .ok _ _, .ok _ _ => none
        | .courseLost _, _ => some (src, .courseFault 0)
        | .ok _ _, .courseLost _ => some (src, .courseFault 0)
        | _, _ => some (src, .lost)
  | _ => some (src, .address)

/-- An access of a requester other than a host core that is refused ends as R24 gives for it. -/
def State.refuseSetup (s : State) (req : Requester) (write : Bool) (die : Nat) (kind : LogKind) (a : Nat) : State :=
  (s.log die kind a 0 (.setup req) (if write then .write else .read)).emit (.accessFault req write)

end Sys2Proof.Machine
end

