-- ==== Sys2Proof/Machine/Pcie.lean ====
section
/-! DEFINITION. The PCIe ports, root port and CXL endpoint, and the external host's filter (R362-R368, R371, R446). -/

namespace Sys2Proof.Machine

def ioDie (io : Nat) : Nat := 88 + io

def State.pcieMode (s : State) (io : Nat) : Nat := s.fld (Reg.hxPcieCtrl (ioDie io)) 1 0
/-- 0 DOWN, 1 UP, 2 LOST. -/
def State.cxlState (s : State) (io : Nat) : Nat := s.fld (Reg.hxPcieStat (ioDie io)) 4 3
def State.pcieUp (s : State) (io : Nat) : Bool := s.flag (Reg.hxPcieStat (ioDie io)) 0

/-- down_evt is set and the port interrupt is sent when en = 1 (R371). -/
def State.downEvt (s : State) (io : Nat) : State :=
  let s := s.setFlag (Reg.hxPcieStat (ioDie io)) 1 true
  let q := Reg.hxPcieIrq (ioDie io)
  if s.flag q 24 then s.interrupt (ioDie io) (s.fld q 23 0) else s

/-- The link is down: link_up, width and speed read 0. -/
def State.dropLink (s : State) (io : Nat) : State :=
  let st := Reg.hxPcieStat (ioDie io)
  ((s.setFlag st 0 false).putFld st 10 8 0).putFld st 7 5 0

def State.linkFall (s : State) (io : Nat) : State := if s.pcieUp io then (s.dropLink io).downEvt io else s

/-- Training begins in the port's mode; a port in LOST does not train (R367). -/
def State.trainPort (s : State) (io : Nat) : State :=
  if s.pcieMode io = 0 ∨ s.cxlState io = 2 then s else s.emit (.linkTraining io (s.pcieMode io))

/-! ### The external filter (R366) -/

def State.setXf (s : State) (io : Nat) : State :=
  s.putFld (Reg.hxCxlXf (ioDie io)) 22 0 (s.pcie.ext.filter (fun e => decide (e.io = io))).length

def State.dropExt (s : State) (io line : Nat) : State :=
  ({ s with pcie := { s.pcie with ext := s.pcie.ext.filter (fun e => decide (¬ (e.io = io ∧ e.line = line))) } } : State).setXf io

def State.addExt (s : State) (io line : Nat) (excl : Bool) : State :=
  let rest := s.pcie.ext.filter (fun e => decide (¬ (e.io = io ∧ e.line = line)))
  ({ s with pcie := { s.pcie with ext := rest ++ [⟨io, line, excl⟩] } } : State).setXf io

def extSize : Nat := 4194304

def State.holdsExt (s : State) (io line : Nat) : Bool := s.pcie.ext.any (fun e => decide (e.io = io ∧ e.line = line))

/-! ### Losses (R367) -/

/-- Step 1 of a loss: the state becomes LOST and the walk of the filter begins; the accesses that wait on a BISnp of this host are
served under EXT once it has ended. -/
def State.cxlLoss (s : State) (io : Nat) : State :=
  if s.pcieMode io = 2 ∧ s.cxlState io ≠ 2 then
    let s := (s.dropLink io).putFld (Reg.hxPcieStat (ioDie io)) 4 3 2
    { s with pcie := { s.pcie with hdm := setErase s.pcie.hdm io, walk := setInsert s.pcie.walk io
                                   exempt := s.pcie.exempt ++
                                     (s.pcie.waiters.filter (fun w => s.pcie.waits.contains (io, w.line))).map (fun w => (w.who, w.line)) } }
  else s

def execCxlLoss (io : Nat) (s : State) : Host.Outcome State Fault Refusal :=
  .next (if s.dieDown (ioDie io) then s else s.cxlLoss io)

/-- Step 2 for one line: an exclusive one is written poisoned to its home; what it then holds is open (entry 1). -/
def walkLine (s : State) (e : ExtLine) : State :=
  if e.excl && !s.dieDown (ownerDie (64 * e.line)) then
    let (bs, s) := s.freeBytes 64
    (s.putMem (64 * e.line) bs).markPoison e.line
  else s

/-- Steps 2 and 3: the walk has ended. -/
def State.cxlWalkDone (s : State) (io : Nat) : State :=
  let mine := s.pcie.ext.filter (fun e => decide (e.io = io))
  let s := mine.foldl walkLine s
  let s : State := { s with pcie := { s.pcie with
    ext := s.pcie.ext.filter (fun e => decide (e.io ≠ io)), walk := setErase s.pcie.walk io
    waits := s.pcie.waits.filter (fun w => decide (w.1 ≠ io)) } }
  ((s.setXf io).log (ioDie io) .cxlLost io).downEvt io

def execCxlWalkDone (io : Nat) (s : State) : Host.Outcome State Fault Refusal :=
  .next (if s.pcie.walk.contains io && !s.dieDown (ioDie io) then s.cxlWalkDone io else s)

/-- rearm takes a port whose walk has ended from LOST to DOWN. -/
def State.cxlRearm (s : State) (io : Nat) : State :=
  if s.cxlState io = 2 ∧ ¬ s.pcie.walk.contains io then
    let s := s.putFld (Reg.hxPcieStat (ioDie io)) 4 3 0
    s.trainPort io
  else s

def execCxlRearm (io : Nat) (s : State) : Host.Outcome State Fault Refusal :=
  .next (if s.dieDown (ioDie io) then s else s.cxlRearm io)

/-- PERST# of a port as the module drives it, none where it receives it, and whether the port's 100 MHz clock pair is on: in mode 1
both are driven, PERST# released for the training; in mode 0 PERST# is low and the clock off; in mode 2 neither (R446, entry 167). -/
def State.portPins (s : State) (io : Nat) : Option Bool × Bool :=
  match s.pcieMode io with
  | 0 => (some false, false)
  | 1 => (some true, true)
  | _ => (none, false)

/-- PERST# counts as a loss in mode 2; the port drives it in mode 1 and holds it low in mode 0. -/
def execPerst (io : Nat) (s : State) : Host.Outcome State Fault Refusal :=
  .next (if s.dieDown (ioDie io) then s else s.cxlLoss io)

/-! ### Mode and link (R362, R363, R371) -/

/-- Mode 2 is allowed on IO0 or IO1 while the other is not in it. -/
def State.modeAllowed (s : State) (io mode : Nat) : Bool :=
  decide (mode < 2) || (mode == 2 && decide (io < 2) && s.pcieMode (1 - io) != 2)

def State.pcieModeWrite (s : State) (io mode : Nat) : State :=
  let s := if s.pcieMode io = 2 ∧ s.pcieUp io then s.cxlLoss io else s.linkFall io
  let ctrl := Reg.hxPcieCtrl (ioDie io)
  if s.modeAllowed io mode then
    let s := s.putFld ctrl 1 0 mode
    (s.emit (.portPins io (s.portPins io).1 (s.portPins io).2)).trainPort io
  else ((s.putFld ctrl 1 0 0).setFlag ctrl 3 true).emit (.portPins io (some false) false)

def execPcieModeWrite (io : Nat) (mode : BitVec 2) (s : State) : Host.Outcome State Fault Refusal :=
  .next (if s.dieDown (ioDie io) then s else s.pcieModeWrite io mode.toNat)

def State.pcieLinkUp (s : State) (io width speed : Nat) : State :=
  let st := Reg.hxPcieStat (ioDie io)
  if s.pcieMode io = 0 ∨ s.cxlState io = 2 then s
  else ((s.setFlag st 0 true).putFld st 10 8 width).putFld st 7 5 speed

def execPcieLinkUp (io : Nat) (width speed : BitVec 3) (s : State) : Host.Outcome State Fault Refusal :=
  .next (if s.dieDown (ioDie io) then s else s.pcieLinkUp io width.toNat speed.toNat)

/-- In mode 2 a link that goes down is a loss (R367). -/
def execPcieLinkDown (io : Nat) (s : State) : Host.Outcome State Fault Refusal :=
  .next (if s.dieDown (ioDie io) || !s.pcieUp io then s
    else if s.pcieMode io = 2 then s.cxlLoss io else s.linkFall io)

/-! ### Requests to the device (R363) -/

/-- What an offset of the die-controller sub-window names: configuration space of bus 1 in ECAM layout, or an address of one of
the four memory windows. -/
def State.outboundTarget (s : State) (io off : Nat) : Option (Bool × Nat) :=
  if 0xA0000 ≤ off ∧ off < 0xA8000 then some (true, 0x100000 + (off - 0xA0000))
  else if 0xC0000 ≤ off ∧ off < 0x100000 then
    let k := (off - 0xC0000) / 0x10000
    some (false, 2 ^ 32 * (s.reg (Reg.hxPcieWinHi (ioDie io) k)).toNat + 0x10000 * s.fld (Reg.hxPcieWinLo (ioDie io) k) 31 16 +
      off % 0x10000)
  else none

def accSize (a : BusAccess) : Nat :=
  match a with
  | .read n => n
  | .write bs => bs.length

def accWrites (a : BusAccess) : Bool :=
  match a with
  | .read _ => false
  | .write _ => true

/-- A request goes to the device: a read and a configuration write wait for a completion, a memory write is posted. Nothing is
sent while the link is down; a request that waits then ends by its time-out. -/
def State.outbound (s : State) (req : Requester) (io off : Nat) (acc : BusAccess) : State :=
  match s.outboundTarget io off with
  | none => if accWrites acc then s else s.emit (.setupData req 0)
  | some (config, addr) =>
    if s.pcieMode io ≠ 1 then (if accWrites acc then s else s.emit (.setupData req 0))
    else
      let tag := s.pcie.nextTag
      let send (s : State) : State := if s.pcieUp io then s.emit (.pcieRequest io tag config addr acc) else s
      if config || !(accWrites acc) then
        send { s with pcie := { s.pcie with np := s.pcie.np ++ [⟨io, tag, req⟩], nextTag := tag + 1 } }
      else send { s with pcie := { s.pcie with nextTag := tag + 1 } }

def State.pcieOutbound (s : State) (req : Requester) (io off : Nat) (acc : BusAccess) : State :=
  let a := Reg.setupBase (ioDie io) + off
  if ¬ ((accSize acc = 4 ∨ accSize acc = 8) ∧ off % accSize acc = 0) then s.refuseSetup req (accWrites acc) (reqDie req) .address a
  else match s.setupMeets req (accWrites acc) a with
    | some (d, k) => s.refuseSetup req (accWrites acc) d k a
    | none => s.outbound req io off acc

def execPcieOutboundAccess (req : Requester) (io offset : Nat) (access : BusAccess) (s : State) :
    Host.Outcome State Fault Refusal :=
  .next (s.pcieOutbound req io offset access)

def State.takeNp (s : State) (io tag : Nat) : State :=
  { s with pcie := { s.pcie with np := s.pcie.np.filter (fun n => decide (¬ (n.io = io ∧ n.tag = tag))) } }

def State.npWaits (s : State) (io tag : Nat) : Bool := s.pcie.np.any (fun n => decide (n.io = io ∧ n.tag = tag))

def execPcieCompletion (io tag : Nat) (data : List Byte) (s : State) : Host.Outcome State Fault Refusal :=
  .next (if s.npWaits io tag && !s.dieDown (ioDie io) then (s.takeNp io tag).emit (.outboundData io tag data) else s)

/-- No completion within 10 ms: all ones, and a log entry. -/
def execPcieCompletionTimeout (io tag : Nat) (s : State) : Host.Outcome State Fault Refusal :=
  .next (if s.npWaits io tag && !s.dieDown (ioDie io) then
      (((s.takeNp io tag).log (ioDie io) .pcieTimeout tag 0 (.device io) .read).emit (.pcieOnes io tag))
    else s)

/-! ### Requests of the device (R364) -/

/-- The bytes lie inside IN0 or IN1 of the port; a window with base > limit is off. -/
def State.inWindow (s : State) (io a n : Nat) : Bool :=
  (List.range 2).any (fun k =>
    let b := (s.reg (Reg.hxPcieInBase (ioDie io) k)).toNat
    let l := (s.reg (Reg.hxPcieInLimit (ioDie io) k)).toNat
    decide (b ≤ l ∧ 0x10000 * b ≤ a ∧ a + n ≤ 0x10000 * (l + 1)))

/-- The address in HX_PCIE_MSI. -/
def State.msiAddr (s : State) (io : Nat) : Nat :=
  2 ^ 32 * (s.reg (Reg.hxPcieMsiHi (ioDie io))).toNat + 4 * s.fld (Reg.hxPcieMsiLo (ioDie io)) 31 2

/-- An interrupt write: identity in [10:0], hart in [15:11], host die in [18:16]; any other form is dropped and logged. -/
def State.msi (s : State) (io : Nat) (d : Nat) : State :=
  if d / 2 ^ 19 ≠ 0 then s.log (ioDie io) .msiDropped d 0 (.device io) .write
  else s.interrupt (ioDie io) (2 ^ 21 * (d / 2 ^ 16 % 8) + 2 ^ 16 * (d / 2 ^ 11 % 32) + d % 2 ^ 11)

/-- A device's access ends as the PCIe row of R24 gives: Unsupported Request, or the posted write discarded. -/
def State.refuseDevice (s : State) (io : Nat) (acc : BusAccess) (die : Nat) (kind : LogKind) (a : Nat) : State :=
  let s := s.log die kind a 0 (.device io) (busAcc acc)
  if accWrites acc then s else s.emit (.deviceUnsupported io)

/-- The hint of a write with TPH; a tag that breaks R360 is no hint. -/
def tphHint (tph : Option (BitVec 16)) : Nat :=
  match tph with
  | some t => if hintOk t.toNat then t.toNat else 0
  | none => 0

/-- A served access, within one line. -/
def State.deviceServe (s : State) (io a : Nat) (acc : BusAccess) (tph : Option (BitVec 16)) : State :=
  match acc with
  | .read n =>
    let s := s.shareCopies (a / 64)
    let s := if s.cacheable a (some (.device io)) then s.placeShared (8 + io) (a / 64) else s
    s.emit (.deviceData io (s.bytes a n) (s.anyPoison a n))
  | .write bs =>
    let (s, bad) := s.writeLine a bs false
    let s := if bad then s.log (ownerDie a) .poisonedStore a 0 (.device io) .write else s
    if bs.length = 64 ∧ tphHint tph ≠ 0 then s.hintPlace (tphHint tph) (a / 64) else s

def State.inbound (s : State) (io a : Nat) (acc : BusAccess) (tph : Option (BitVec 16)) : State :=
  let die := ioDie io
  match acc with
  | .write bs => if bs.length = 4 ∧ a = s.msiAddr io then s.msi io (leNat bs) else serve s die
  | .read _ => serve s die
where
  serve (s : State) (die : Nat) : State :=
    if !s.inWindow io a (accSize acc) || !populated a then s.refuseDevice io acc die .address a
    else
      let fails (d : Nat) (k : LogKind) : State := (s.refuseDevice io acc d k a).unwait (.device io) (a / 64)
      match s.meetsBoth die a (some (.device io)) with
      | some (.addr d k) => fails d k
      | some (.bias h) => fails h .bias
      | some .course => fails die (.courseFault 0)
      | some _ => fails die .lost
      | none => match s.extHolder (a / 64) (some (.device io)) with
        | some h => s.holdFor (a / 64) h (some (.device io))
        | none => (s.deviceServe io a acc tph).unwait (.device io) (a / 64)

/-- The port is a root port with its link up. -/
def State.rootUp (s : State) (io : Nat) : Bool := s.pcieMode io == 1 && s.pcieUp io && !s.dieDown (ioDie io)

def execPcieInboundRequest (io addr : Nat) (access : BusAccess) (tph : Option (BitVec 16)) (s : State) :
    Host.Outcome State Fault Refusal :=
  .next (if s.rootUp io then s.inbound io addr access tph else s)

def execPcieMsiWrite (io addr : Nat) (data : Word) (s : State) : Host.Outcome State Fault Refusal :=
  .next (if s.rootUp io then s.inbound io addr (.write (leBytes 4 data.toNat)) none else s)

/-! ### CXL.mem (R355, R357, R365, R366) -/

/-- The host has committed its decoder: DOWN becomes UP. -/
def execCxlDecoderCommit (io : Nat) (s : State) : Host.Outcome State Fault Refusal :=
  .next (if s.pcieMode io = 2 ∧ s.pcieUp io ∧ s.cxlState io = 0 ∧ s.dieDown (ioDie io) = false then
      let s := s.putFld (Reg.hxPcieStat (ioDie io)) 4 3 1
      { s with pcie := { s.pcie with hdm := setInsert s.pcie.hdm io } }
    else s)

/-- A read the module answers with poisoned data, a write it discards. -/
def State.cxlRefuse (s : State) (io : Nat) (acc : BusAccess) : State :=
  match acc with
  | .read n =>
    let (bs, s) := s.freeBytes n
    s.emit (.cxlData io bs true)
  | .write _ => s

/-- Room for a line in the external filter: a full one recalls an entry, which the spec does not choose (entry 1). -/
def State.cxlRoom (s : State) (io line : Nat) : Option State :=
  let mine := s.pcie.ext.filter (fun e => decide (e.io = io))
  if s.holdsExt io line || decide (mine.length < extSize) then none
  else
    let (n, s) := s.freeCount
    some (s.holdFor (mine.getD (n % mine.length) ⟨io, 0, false⟩).line io)

/-- An access to a line of an EXT granule. -/
def State.cxlServe (s : State) (io a : Nat) (acc : BusAccess) (excl : Bool) : State :=
  match acc with
  | .read n =>
    let s := if excl then s.invalidate (a / 64) else s.shareCopies (a / 64)
    (s.emit (.cxlData io (s.bytes a n) (s.anyPoison a n))).addExt io (a / 64) excl
  | .write bs =>
    let (s, bad) := s.writeLine a bs false
    let s := if bad then s.log (ownerDie a) .poisonedStore a 0 (.device io) .write else s
    if excl then s.addExt io (a / 64) true else s.dropExt io (a / 64)

/-- An access to CXL.mem: an unpopulated part of the window is answered with poisoned data (R365), a granule that is not EXT as
R357 gives, and every other refusal with Unsupported Request (R24). -/
def State.cxlMem (s : State) (io a : Nat) (acc : BusAccess) (excl : Bool) : State :=
  let die := ioDie io
  if !s.inCxlWindow a then s.refuseDevice io acc die .address a
  else if !populated a then (s.log die .address a 0 (.device io) (busAcc acc)).cxlRefuse io acc
  else match s.meetsBoth die a with
    | some (.addr d k) => s.refuseDevice io acc d k a
    | some (.bias h) => (s.log h .bias a 0 (.device io) (busAcc acc)).cxlRefuse io acc
    | some .course => s.refuseDevice io acc die (.courseFault 0) a
    | some _ => s.refuseDevice io acc die .lost a
    | none =>
      if s.initBusy a || s.flipping a then s
      else if s.bias a ≠ 2 then (s.log (ownerDie a) .bias a 0 (.device io) (busAcc acc)).cxlRefuse io acc
      else match s.cxlRoom io (a / 64) with
        | some s => s
        | none => s.cxlServe io a acc excl

def State.cxlUp (s : State) (io : Nat) : Bool := s.pcieMode io == 2 && s.cxlState io == 1 && !s.dieDown (ioDie io)

def execCxlMemRequest (io addr : Nat) (access : BusAccess) (exclusive : Bool) (s : State) : Host.Outcome State Fault Refusal :=
  .next (if s.cxlUp io then s.cxlMem io addr access exclusive else s)

/-- A home asks the external host for a line it holds. -/
def execBisnp (io line : Nat) (s : State) : Host.Outcome State Fault Refusal :=
  .next (if s.cxlUp io && s.holdsExt io line then s.holdFor line io else s)

/-- The external host gives the line up, with its data when it has changed it. The accesses that waited, which the home accepted under
EXT, are served under it; a flip is none of them (R359). -/
def State.bisnpResponse (s : State) (io line : Nat) (data : Option (List Byte)) : State :=
  let s := match data with
    | some d => if s.dieDown (ownerDie (64 * line)) then s else (s.putMem (64 * line) d).clearPoison line
    | none => s
  let flips (w : Waiter) : Bool := match w with
    | .desc fid => (s.flight fid).any (fun f => dClass f.desc == 0x80)
    | _ => false
  let s : State := { s with pcie := { s.pcie with
    waits := s.pcie.waits.filter (fun w => decide (w ≠ (io, line)))
    waiters := s.pcie.waiters.filter (fun w => decide (w.line ≠ line))
    exempt := s.pcie.exempt ++
      (s.pcie.waiters.filter (fun w => decide (w.line = line) && !flips w.who)).map (fun w => (w.who, w.line)) } }
  s.dropExt io line

def execBisnpResponse (io line : Nat) (data : Option (List Byte)) (s : State) : Host.Outcome State Fault Refusal :=
  .next (if s.cxlUp io && s.pcie.waits.contains (io, line) then s.bisnpResponse io line data else s)

/-- A BISnp unanswered for 10 ms is a loss. -/
def execBisnpTimeout (io line : Nat) (s : State) : Host.Outcome State Fault Refusal :=
  .next (if s.cxlUp io && s.pcie.waits.contains (io, line) then s.cxlLoss io else s)

end Sys2Proof.Machine
end

