-- ==== Sys2Proof/Machine/Courses.lean ====
section
/-! DEFINITION. Courses, their lanes and training (R373-R381, R395), references and clocks (R382-R387, R396), and the loss and
readmission of a die (R390-R394, R397, R398). -/

namespace Sys2Proof.Machine

/-! ### ALERT_N (R452, R453) -/

/-- ALERT_N follows PW_ALERT and the safe state. -/
def State.driveAlert (s : State) : State :=
  s.setFlag Reg.pwPins 4 (s.reg Reg.pwAlert != 0 || s.flag Reg.pwStatus 0)

def State.alert (s : State) (i : Nat) : State := (s.setFlag Reg.pwAlert i true).driveAlert

/-! ### Pairs (R13, R14, R374) -/

def pairsOn (die : Nat) : Nat := if isCd die then 16 else if isIo die then 4 else 0

/-- CP_STATUS.link: 0 absent, 1 down, 2 training, 3 up, 4 quiesced, 5 failed. -/
def State.pairLink (s : State) (die pair : Nat) : Nat := s.fld (Reg.cpStatus die pair) 11 8
def State.setLink (s : State) (die pair v : Nat) : State := s.putFld (Reg.cpStatus die pair) 11 8 v
def State.setModes (s : State) (die pair rx tx : Nat) : State :=
  (s.putFld (Reg.cpStatus die pair) 19 16 rx).putFld (Reg.cpStatus die pair) 23 20 tx

/-- The bad lanes of a map. -/
def badLanes (bad : BitVec 18) : Nat := ((List.range 18).filter (fun i => bad.getLsbD i)).length

/-- The physical lanes that carry L0, L1, ... for a bad-lane map: sixteen good lanes in ascending order with two or fewer bad, the
lowest eight with three to ten, none with more (R377). -/
def logicalLanes (bad : BitVec 18) : List Nat :=
  let good := (List.range 18).filter (fun i => !bad.getLsbD i)
  if badLanes bad ≤ 2 then good.take 16 else if badLanes bad ≤ 10 then good.take 8 else []

/-- The width a map allows: 1 full, 2 degraded, 0 down, as the clock lane and the logical lanes say (R377). -/
def laneMode (bad : BitVec 18) (ck : Bool) : Nat :=
  if !ck then 0 else match (logicalLanes bad).length with
    | 16 => 1
    | 8 => 2
    | _ => 0

def State.clearReplay (s : State) (die pair : Nat) : State :=
  { s with courses := s.courses.filter (fun c => decide (¬ (c.die = die ∧ c.pair = pair))) }

/-- A frame is answered for its descriptor with a status: one that has left its module stays with its flow, for nobody; one that has
not does not leave. -/
def State.answerSent (s : State) (u : Sent) (code : Nat) (detail : Word) : State :=
  let left := if u.sends = 0 then s.fab.unacked.erase u else s.fab.unacked.map (fun x => if x = u then { u with fid := none } else x)
  ({ s with fab := { s.fab with unacked := left } } : State).frameFails u code detail

/-- A pair goes down with flits unacknowledged: which transactions, of those whose requests or responses go over it, had flits in
its replay buffer is open (entry 1), and those are answered with COURSE_LOST: frames of descriptors, running or done, and the
accesses of those that have executed, or of a GRED. -/
def courseFail (die pair : Nat) (s : State) : State :=
  let over' (ps : List (Nat × Nat)) : Bool := (pairEnds die pair).any ps.contains
  let sent := s.fab.unacked.filter (fun u => u.fid.isSome && over' u.pairs)
  let s := sent.foldl (fun s u =>
    let (n, s) := s.freeCount
    if n % 2 = 1 then
      let q := s.nextSeq die
      (s.log die (.courseFault 0) u.frame.addr 0 (.desc (u.fid.getD 0))).answerSent u stCourseLost q
    else s) s
  let mine := s.flights.filter (fun f => f.issued && over' f.res.pairs)
  mine.foldl (fun s f =>
    let (n, s) := s.freeCount
    if n % 2 = 1 then
      let q := s.nextSeq die
      (s.log die (.courseFault 0) f.fid 0 (.desc f.fid)).raiseFlight f.fid stCourseLost q
    else s) s

def State.coursePairEnable (s : State) (die pair : Nat) : State :=
  let ctrl := Reg.cpCtrl die pair
  if !pairAttached die pair then (s.setFlag ctrl 2 true).log die .courseRefused pair
  else
    let off := s.fnState ctrl == 0
    let s := s.enableReq ctrl
    if off then (s.setLink die pair 2).setReg (Reg.cpFault die pair) 0 else s

def execCoursePairEnable (die pair : Nat) (s : State) : Host.Outcome State Fault Refusal :=
  .next (if s.dieDown die then s else s.coursePairEnable die pair)

/-- ENABLING fails with a fault reason. -/
def State.courseRefuse (s : State) (die pair link reason : Nat) : State :=
  let s := (s.enablingEnd (Reg.cpCtrl die pair) false).setLink die pair link
  ((s.setModes die pair 0 0).setReg (Reg.cpFault die pair) (BitVec.ofNat 32 reason)).log die (.courseFault reason) pair

def execCourseTrainingTimeout (die pair : Nat) (s : State) : Host.Outcome State Fault Refusal :=
  .next (if s.fnState (Reg.cpCtrl die pair) = 1 ∧ s.dieDown die = false then s.courseRefuse die pair 1 5 else s)

/-- Steps 2 and 3 of R379 at a receiver: the lanes outside the assembly map that failed, and the map in use. -/
def State.rxMap (s : State) (die pair : Nat) (failed : BitVec 18) (ck : Bool) : State :=
  let asm : BitVec 18 := BitVec.ofNat 18 (s.fld (Reg.cpRxAsm die pair) 17 0)
  let new := failed &&& ~~~ asm
  let bad := asm ||| new
  let s := (s.setReg (Reg.cpRxNew die pair) (new.setWidth 32)).setReg (Reg.cpRxBad die pair) (bad.setWidth 32)
  let s := (s.putFld (Reg.cpStatus die pair) 4 0 (badLanes bad)).putFld (Reg.cpStatus die pair) 19 16 (laneMode bad ck)
  if new = 0 then s else s.log die .laneFailed pair new.toNat

/-- The receive map in use at an end. -/
def State.rxBad (s : State) (die pair : Nat) : BitVec 18 := BitVec.ofNat 18 (s.fld (Reg.cpRxBad die pair) 17 0)

/-- Step 4: the peer's receive map, and the width it allows the course that this end sends. -/
def State.txMap (s : State) (die pair : Nat) (map : BitVec 18) (ck : Bool) : State :=
  (s.setReg (Reg.cpTxBad die pair) (map.setWidth 32)).putFld (Reg.cpStatus die pair) 23 20 (laneMode map ck)

/-- The tests of both receivers and the exchange of their maps; a host die, TD or SM, which has no course registers, reports its map
whole. -/
def State.laneMaps (s : State) (die pair : Nat) (r : LaneResult) : State :=
  let s := s.rxMap die pair r.newBad r.ckOk
  match peerPair die pair with
  | some (d, q) =>
    let s := s.rxMap d q r.peerMap r.peerOk
    (s.txMap die pair (s.rxBad d q) r.peerOk).txMap d q (s.rxBad die pair) r.ckOk
  | none => s.txMap die pair r.peerMap r.peerOk

def State.pairRuns (s : State) (die pair : Nat) : Bool :=
  s.fld (Reg.cpStatus die pair) 19 16 != 0 && s.fld (Reg.cpStatus die pair) 23 20 != 0

/-- The reason a course fails: its clock lane, or too few lanes. -/
def failReason (r : LaneResult) : Nat := if r.ckOk && r.peerOk then 2 else 1

/-- Both ends of a pair train: this one, and the other where it has registers; the other die is out of reset or in its start (R379,
R398). -/
def State.training (s : State) (die pair : Nat) : Bool :=
  (pairEnds die pair).all (fun e => s.fnState (Reg.cpCtrl e.1 e.2) == 1 && !s.dieDown e.1) &&
  (match pairPeer die pair with
   | some d => !s.dieDown d
   | none => false)

/-- Every end of a pair. -/
def State.atEnds (s : State) (die pair : Nat) (act : State → Nat → Nat → State) : State :=
  (pairEnds die pair).foldl (fun s e => act s e.1 e.2) s

def State.courseEnablingDone (s : State) (die pair : Nat) (r : LaneResult) : State :=
  let s := s.laneMaps die pair r
  if s.pairRuns die pair then s.atEnds die pair (fun s d p => (s.enablingEnd (Reg.cpCtrl d p) true).setLink d p 3)
  else s.atEnds die pair (fun s d p =>
    ((s.enablingEnd (Reg.cpCtrl d p) false).setLink d p 5).setReg (Reg.cpFault d p) (BitVec.ofNat 32 (failReason r)))

/-- Without the peer's training pattern a pair waits for its timeout. -/
def execCourseEnablingDone (die pair : Nat) (r : LaneResult) (s : State) : Host.Outcome State Fault Refusal :=
  .next (if s.training die pair then s.courseEnablingDone die pair r else s)

def State.pairOn (s : State) (die pair : Nat) : Bool := s.fnState (Reg.cpCtrl die pair) == 2 && !s.dieDown die

/-- Retraining in place begins: neither end is usable (R376, R380). -/
def State.retrain (s : State) (die pair : Nat) : State :=
  s.atEnds die pair (fun s d p => if s.pairOn d p then s.setLink d p 2 else s)

/-- Times the flit a pair replays has been replayed. -/
def State.replays (s : State) (die pair flit : Nat) : Nat :=
  ((s.courses.find? (fun c => decide (c.die = die ∧ c.pair = pair ∧ c.flit = flit))).map (·.replays)).getD 0

/-- A flit that fails its CRC is replayed; when its eighth replay fails too, the pair retrains. -/
def State.flitReplay (s : State) (die pair flit : Nat) : State :=
  let n := s.replays die pair flit
  if n < 8 then
    let s := s.clearReplay die pair
    ({ s with courses := s.courses ++ [⟨die, pair, flit, n + 1⟩] } : State).count (Reg.cpRetry die pair)
  else (s.retrain die pair).setReg (Reg.cpFault die pair) 3

def execCourseFlitReplay (die pair : Nat) (flit : Nat) (s : State) : Host.Outcome State Fault Refusal :=
  .next (if s.pairOn die pair && s.pairLink die pair == 3 then s.flitReplay die pair flit else s)

def execCourseRetrain (die pair : Nat) (s : State) : Host.Outcome State Fault Refusal :=
  .next (if s.pairOn die pair && s.pairLink die pair == 3 then s.retrain die pair else s)

def State.retrainDone (s : State) (die pair : Nat) (r : LaneResult) : State :=
  let s := (s.laneMaps die pair r).clearReplay die pair
  if s.pairRuns die pair then s.atEnds die pair (fun s d p =>
    if s.pairOn d p then (s.setLink d p 3).setReg (Reg.cpFault d p) 0 else s)
  else
    courseFail die pair (s.atEnds die pair (fun s d p =>
      if s.pairOn d p then
        (((s.putFld (Reg.cpCtrl d p) 6 4 0).setFlag (Reg.cpCtrl d p) 2 true).setLink d p 5).setReg (Reg.cpFault d p)
          (BitVec.ofNat 32 (failReason r))
      else s))

def execCourseRetrainDone (die pair : Nat) (r : LaneResult) (s : State) : Host.Outcome State Fault Refusal :=
  .next (if s.pairOn die pair && s.pairLink die pair == 2 then s.retrainDone die pair r else s)

def execCoursePairDisable (die pair : Nat) (s : State) : Host.Outcome State Fault Refusal :=
  .next (if s.dieDown die then s else s.disableReq (Reg.cpCtrl die pair))

/-- The lanes are off. -/
def State.pairOff (s : State) (die pair : Nat) : State :=
  (((s.disablingEnd (Reg.cpCtrl die pair)).setModes die pair 0 0).clearReplay die pair).setLink die pair 1

def execCourseDisablingDone (die pair : Nat) (s : State) : Host.Outcome State Fault Refusal :=
  .next (if s.fnState (Reg.cpCtrl die pair) = 3 ∧ s.pairLink die pair ≠ 4 ∧ s.dieDown die = false then
      courseFail die pair (s.pairOff die pair)
    else s)

/-! ### References (R382-R384, R396) -/

/-- Whether the primary and the secondary source of a die toggle with grade 0; a source not yet judged does. -/
def State.refQual (s : State) (die : Nat) : Bool × Bool :=
  ((s.refQ.find? (fun q => decide (q.1 = die))).map (·.2)).getD (true, true)

def State.setRefQual (s : State) (die : Nat) (q : Bool × Bool) : State :=
  { s with refQ := (die, q) :: s.refQ.filter (fun x => decide (x.1 ≠ die)) }

/-- The reference grade a die's transmitters send: 0 locked to the primary, 1 to the secondary, 2 in holdover or unlocked; TD's is 2
while it is in holdover, and host dies and SM are locked to TD's dedicated line (R382). -/
def State.gradeOf (s : State) (die : Nat) : Nat :=
  if isCd die || isIo die then min 2 (s.fld (Reg.cpRef die) 17 16)
  else if die = 98 ∧ s.flag Reg.tdRef 2 then 2 else 0

/-- The transmitter of a source sends grade 0, from a die that is not down (R383). -/
def State.goodSource (s : State) (die pair : Nat) : Bool :=
  match pairPeer die pair with
  | some d => !s.dieDown d && s.gradeOf d == 0
  | none => false

def State.primPair (s : State) (die : Nat) : Nat := s.fld (Reg.cpRef die) 3 0
def State.secPair (s : State) (die : Nat) : Nat := s.fld (Reg.cpRef die) 11 8

def State.primOk (s : State) (die : Nat) : Bool :=
  s.flag (Reg.cpRef die) 4 && (s.refQual die).1 && s.goodSource die (s.primPair die)
def State.secOk (s : State) (die : Nat) : Bool :=
  s.flag (Reg.cpRef die) 12 && (s.refQual die).2 && s.goodSource die (s.secPair die)

/-- Whether the CK of a secondary that stopped toggles again by now is open (entry 1). -/
def State.secBack (s : State) (die : Nat) : State :=
  if (s.refQual die).2 then s
  else
    let (n, s) := s.freeCount
    s.setRefQual die ((s.refQual die).1, n % 2 == 1)

/-- Whether the CK of a primary that stopped toggles again by now, for less than the 100 microseconds of its return, is open
(entry 1). -/
def State.primBack (s : State) (die : Nat) : State :=
  if (s.refQual die).1 then s
  else
    let (n, s) := s.freeCount
    s.setRefQual die (n % 2 == 1, (s.refQual die).2)

/-- The die uses a source (0 primary, 1 secondary) or enters holdover (2). -/
def State.useRef (s : State) (die v : Nat) : State :=
  let r := Reg.cpRef die
  if s.fld r 17 16 = v then s
  else (s.putFld r 17 16 v).setFlag r (if v = 2 then 19 else 18) true

/-- The source in use is kept while it qualifies; else the other is taken, and with neither the die is in holdover. -/
def State.chooseRef (s : State) (die : Nat) : State :=
  match s.fld (Reg.cpRef die) 17 16 with
  | 0 =>
    if s.primOk die then s
    else
      let s := s.secBack die
      s.useRef die (if s.secOk die then 1 else 2)
  | 1 =>
    if s.secOk die then s
    else
      let s := s.primBack die
      s.useRef die (if s.primOk die then 0 else 2)
  | _ => if s.secOk die then s.useRef die 1 else s.useRef die 2

def refDie (die : Nat) : Bool := isCd die || isIo die

/-- A source that fails for 16 ns: its grade is not 0, or its CK has stopped. -/
def State.sourceStops (s : State) (die : Nat) (secondary : Bool) : State :=
  let q := s.refQual die
  if !s.goodSource die (if secondary then s.secPair die else s.primPair die) then s
  else s.setRefQual die (if secondary then (q.1, false) else (false, q.2))

/-- With `both`, the two sources of the die are lost in one cycle: holdover (R398). -/
def execRefSourceLost (die : Nat) (secondary : Bool) (s : State) (both : Bool := false) : Host.Outcome State Fault Refusal :=
  .next (if refDie die && !s.dieDown die then
      if both then ((s.sourceStops die false).sourceStops die true).useRef die 2
      else (s.sourceStops die secondary).chooseRef die
    else s)

/-- The primary source, with grade 0, has qualified for 100 microseconds. -/
def execRefPrimaryReturn (die : Nat) (s : State) : Host.Outcome State Fault Refusal :=
  .next (if refDie die && !s.dieDown die && s.flag (Reg.cpRef die) 4 && s.goodSource die (s.primPair die) then
      (s.setRefQual die (true, (s.refQual die).2)).useRef die 0
    else s)

/-- A write to CP_REF: a source that changes has just appeared, qualified or not. -/
def State.cpRefWrite (s : State) (die : Nat) (v : Word) (primQ secQ : Bool) : State :=
  let r := Reg.cpRef die
  let old := s.reg r
  let q := s.refQual die
  let q := (if wfld old 4 0 = wfld v 4 0 then q.1 else primQ, if wfld old 12 8 = wfld v 12 8 then q.2 else secQ)
  let s := ((s.putFld r 4 0 (wfld v 4 0)).putFld r 12 8 (wfld v 12 8))
  let s := if bit v 19 then s.setFlag r 19 false else s
  let s := if bit v 18 then s.setFlag r 18 false else s
  (s.setRefQual die q).chooseRef die

def execCpRefWrite (die : Nat) (value : Word) (primQ secQ : Bool) (s : State) : Host.Outcome State Fault Refusal :=
  .next (if refDie die && !s.dieDown die then s.cpRefWrite die value primQ secQ else s)

/-! ### REFCLK (R387, R397, R453) -/

def State.refclkCheck (s : State) (bad : Bool) : State :=
  if bad then
    let fresh := !s.flag Reg.tdRef 3
    let s := ((s.setFlag Reg.tdRef 3 true).setFlag Reg.tdRef 2 true).setFlag Reg.tdRef 1 true
    let s := if fresh then s.log 99 .refclkBad else s
    s.alert 0
  else s.setFlag Reg.tdRef 3 false

def execRefclkCheck (bad : Bool) (s : State) : Host.Outcome State Fault Refusal :=
  .next (if s.pins.powered then s.refclkCheck bad else s)

def State.refclkRelock (s : State) : State := (s.setFlag Reg.tdRef 2 false).setFlag Reg.tdRef 0 true

/-- REFCLK has been good for 1 ms. -/
def execRefclkRelock (s : State) : Host.Outcome State Fault Refusal :=
  .next (if s.flag Reg.tdRef 3 || !s.pins.powered then s else s.refclkRelock)

/-- The sources of R384, both enabled. -/
def refSources (die : Nat) : Word :=
  let prim := if isIo die then 0 else 8
  let sec := if isIo die then 1 else if die % 8 < 7 then 4 else 12
  BitVec.ofNat 32 (2 ^ 12 + 2 ^ 8 * sec + 2 ^ 4 + prim)

/-- TD_START.go: the reference PLLs of the dies in reset are released, with the sources firmware writes. -/
def State.tdStart (s : State) : State :=
  ((List.range 98).filter (fun d => refDie d && s.dieState d == 1)).foldl
    (fun s d => (s.setReg (Reg.cpRef d) (refSources d)).setRefQual d (true, true)) s

def execTdStart (s : State) : Host.Outcome State Fault Refusal := .next s.tdStart

/-! ### The loss of a die (R345, R354, R368, R392, R393) -/

/-- The dies a compute die attaches, which its loss isolates. -/
def attachedDies (die : Nat) : List Nat :=
  if die = 0 then [88, 89] else if die = 7 then [96, 97] else if die < 7 then [89 + die]
  else if 32 ≤ die ∧ die < 40 then [48 + die] else []

/-- A pair at a surviving die quiesces; one that was training fails (R392 step 2, R398). -/
def quiescePair (s : State) (p : Nat × Nat) : State :=
  let ctrl := Reg.cpCtrl p.1 p.2
  match s.fnState ctrl with
  | 0 => s
  | 1 => s.courseRefuse p.1 p.2 5 4
  | _ => (s.putFld ctrl 6 4 3).setLink p.1 p.2 4

/-- The pairs of surviving dies that lead to a die. -/
def pairsTo (die : Nat) : List (Nat × Nat) :=
  ((List.range 40 ++ (List.range 10).map (· + 88)).flatMap (fun d => (List.range (pairsOn d)).map (fun p => (d, p)))).filter
    (fun x => decide (pairPeer x.1 x.2 = some die))

/-- A home writes a line poisoned; what it then holds is open (entry 1). -/
def poisonLost (s0 : State) (line : Nat) : State :=
  let (bs, s) := s0.freeBytes 64
  (s.putMem (64 * line) bs).markPoison line

/-- Lines and grants of a lost die: surviving homes write its O lines and its granted lines poisoned; its copies, and every entry
and copy of its own memory, are gone. -/
def State.dropAgent (s : State) (die : Nat) : State :=
  let mine (line : Nat) : Bool := ownerDie (64 * line) == die
  let agentIs (a : Nat) : Bool := agentDie a == die
  let owned := (s.host.filter.filter (fun e => e.owner.any agentIs && !mine e.line)).map (·.line)
  let granted := (s.host.grants.filter (fun g => agentIs g.hostDie && !mine g.line)).map (·.line)
  let s := (owned ++ granted).foldl poisonLost s
  { s with host := { s.host with
      copies := s.host.copies.filter (fun c => !(agentIs c.agent || mine c.line))
      cores := s.host.cores.filter (fun c => !(hartDie c.hart == die || (mine c.line && c.cache != .l1i)))
      filter := s.host.filter.filter (fun e => !(e.owner.any agentIs || mine e.line))
      grants := s.host.grants.filter (fun g => !(agentIs g.hostDie || mine g.line))
      resv := s.host.resv.filter (fun p => !(hartDie p.1 == die || mine p.2))
      imsicPend := s.host.imsicPend.filter (fun k => hartDie (k / 2048) != die)
      imsicM := s.host.imsicM.filter (fun k => hartDie (k / 2048) != die)
      stimecmp := s.host.stimecmp.filter (fun p => hartDie p.1 != die)
      stip := s.host.stip.filter (fun h => hartDie h != die) } }

/-- A requester at an I/O die: its devices and the frames of its flows. -/
def Waiter.onIo (io : Nat) : Waiter → Bool
  | .device d => d == io
  | .frame flow => flowDie flow == 88 + io
  | _ => false

/-- What a lost I/O die held: its port's requests, the external filter, its collectives and ports. An access that waited for its
external host, which a walk cut short had not released, meets EXT as HELD (R368). -/
def State.dropIo (s : State) (die : Nat) : State :=
  let io := die - 88
  { s with
    pcie := { s.pcie with
      np := s.pcie.np.filter (fun n => decide (n.io ≠ io))
      ext := s.pcie.ext.filter (fun e => decide (e.io ≠ io))
      waits := s.pcie.waits.filter (fun w => decide (w.1 ≠ io))
      waiters := s.pcie.waiters.filter (fun w => !(Waiter.onIo io w.who || s.pcie.waits.contains (io, w.line)))
      exempt := s.pcie.exempt.filter (fun w => !(Waiter.onIo io w.1 || s.pcie.waits.contains (io, w.2)))
      hdm := setErase s.pcie.hdm io
      walk := setErase s.pcie.walk io }
    fab := { s.fab with
      credits := s.fab.credits.filter (fun x => decide (portDie x.1 ≠ die))
      txq := s.fab.txq.filter (fun x => decide (portDie x.port ≠ die))
      rxVis := s.fab.rxVis.filter (fun x => decide (flowDie x.1 ≠ die))
      nakGap := s.fab.nakGap.filter (fun x => decide (flowDie x.1 ≠ die))
      syncSends := s.fab.syncSends.filter (fun x => decide (flowDie x.1 ≠ die))
      greds := s.fab.greds.filter (fun g => decide (g.die ≠ die))
      barriers := s.fab.barriers.filter (fun b => decide (b.io ≠ die)) } }

/-- The registers of a die held in reset read their reset values; a stack's window goes with its compute die. -/
def State.resetRegs (s : State) (die : Nat) : State :=
  let wipe (m : List (Nat × Word)) (d : Nat) := eraseRange m (Reg.setupBase d) (Reg.setupBase (d + 1))
  { s with regs := if isCd die then wipe (wipe s.regs die) (die + 40) else wipe s.regs die }

/-- Rings held on a lost die are gone with their descriptors; what its units were executing, and the gangs whose home it is, end with
DIE_LOST, with no slot left to merge into; a share that was already done stays (R20, R393). -/
def State.dropWork (s : State) (die : Nat) : State :=
  let gone (f : Flight) : Bool := f.parent.isNone && f.remote.isNone && ringDie f.ring == die
  let stops (f : Flight) : Bool := f.executing && (if hGang f.target then gangHome (hGangNo f.target) else hDie f.target) == die
  let lostIds := (s.flights.filter gone).map (·.fid)
  let stopped := (s.flights.filter (fun f => hGang f.target && stops f)).map (·.fid)
  let lostRes (f : Flight) : Result :=
    { s.halted f stDieLost (BitVec.ofNat 32 die) with member := 0, merges := [], uses := [], pairs := [], cycles := 0, lines := [] }
  { s with
    flights := (s.flights.filter (fun f => !gone f)).map (fun f =>
      if stops f then { f with phase := .done, res := lostRes f } else f)
    reports := s.reports.filter (fun r => !(lostIds ++ stopped).contains r.gang)
    commits := s.commits.filter (fun c => !lostIds.contains c)
    wmQ := s.wmQ.filter (fun w => decide (w.die ≠ die))
    ppr := s.ppr.filter (fun r => decide (r.stack ≠ die))
    courses := s.courses.filter (fun c => decide (c.die ≠ die)) }

/-- The accesses waiting for an external host that use a die, as they were issued. -/
def State.waitsUsing (s : State) (die : Nat) : List (Waiter × Nat) :=
  (s.pcie.waiters.filter (fun w => w.dies.contains die)).map (fun w => (w.who, w.line))

/-- One die is lost: the notice, the pairs to it, and what was on it. -/
def State.loseOne (s : State) (die reason : Nat) : State :=
  let lines := s.waitsUsing die
  let s := (s.putFld (Reg.tdDie die) 11 8 3).putFld (Reg.tdDie die) 7 4 reason
  let s := (s.setFlag Reg.tdLoss 31 true).putFld Reg.tdLoss 6 0 die
  let s := s.log 98 .dieLost die reason
  let s := if s.flag Reg.tdLossIrq 24 then s.interrupt 98 (s.fld Reg.tdLossIrq 23 0) else s
  let s := (s.alert 1).dropWork die
  let s := (pairsTo die).foldl quiescePair s
  let s := s.dropAgent die
  let s := if isIo die then s.dropIo die else s
  let s := s.resetRegs die
  let out := s.flights.filter (fun f => match f.phase with | .waiting => false | .completed => false | _ => true)
  ({ s with losses := s.losses ++ [⟨die, out.map (·.fid), lines⟩] } : State).evalAll

/-- A die that is in reset, running or being readmitted. -/
def State.losable (s : State) (die : Nat) : Bool :=
  ringBearing die && (s.dieState die == 1 || s.dieState die == 2 || s.dieState die == 4)

/-- The loss of a die, and of those it isolates (reason 3). -/
def State.loseDie (s : State) (die reason : Nat) : State :=
  let s := s.loseOne die reason
  if isCd die then
    (attachedDies die).foldl (fun s d => if s.losable d then s.loseOne d 3 else s) s
  else s

def execDieReset (die : Nat) (s : State) : Host.Outcome State Fault Refusal :=
  .next (if s.losable die then s.loseDie die 2 else s)

/-- The transactions of a descriptor that used the lost die are answered DIE_LOST: its frames, and the accesses of one that has executed
or is a GRED. One that still runs meets the answers when it goes on. -/
def answerLost (die : Nat) (s : State) (fid : Nat) : State :=
  let sent := s.fab.unacked.filter (fun u => decide (u.fid = some fid) && (u.uses.contains die || flowDie u.flow == die))
  let s := sent.foldl (fun s u => s.answerSent u stDieLost (BitVec.ofNat 32 die)) s
  match s.flight fid with
  | none => s
  | some f =>
    if f.issued && f.res.uses.contains die then s.raiseFlight fid stDieLost (BitVec.ofNat 32 die) else s

/-- An access that still waits for an external host, and used the lost die, is answered, once; its requester meets the answer as it goes
on. -/
def answerWait (die : Nat) (s : State) (x : Waiter × Nat) : State :=
  if s.pcie.waiters.any (fun w => decide (w.who = x.1 ∧ w.line = x.2)) &&
      !s.answered.any (fun y => decide (y.1 = x.1 ∧ y.2.1 = x.2)) then
    { s with answered := s.answered ++ [(x.1, x.2, die)] }
  else s

def State.runningCds (s : State) : List Nat := (List.range 40).filter (fun d => s.dieState d == 2)

/-- The valid route-table entries of running compute dies whose path crosses a die are invalid (R392 step 5); the entries of a detour
come as firmware's register writes. -/
def State.clearRoutes (s : State) (die : Nat) : State :=
  let crosses (x d v : Nat) : Bool := match s.walkMesh (.line 0) d x v 64 with
    | .ok ds _ => ds.contains die
    | _ => d == die
  s.runningCds.foldl (fun t x => (List.range 100).foldl (fun t d => [0, 1].foldl (fun t v =>
    if crosses x d v then t.setFlag (Reg.dcRoute x d v) 31 false else t) t) t) s

/-- At t0 + 20.1 microseconds the outstanding transactions that used the die are answered and the quiesced pairs enter OFF; firmware's
first phase follows (entry 177). -/
def State.lossAnswer (s : State) (l : Loss) : State :=
  let s := l.lines.foldl (answerWait l.die) (l.fids.foldl (answerLost l.die) s)
  let s := { s with
    losses := s.losses.erase l
    fab := { s.fab with unacked := s.fab.unacked.filter (fun u => decide (flowDie u.flow ≠ l.die)) } }
  (pairsTo l.die).foldl (fun s p =>
    if s.fnState (Reg.cpCtrl p.1 p.2) = 3 ∧ s.pairLink p.1 p.2 = 4 then s.pairOff p.1 p.2 else s) (s.clearRoutes l.die)

def execDieLossAnswer (die : Nat) (s : State) : Host.Outcome State Fault Refusal :=
  .next (match s.losses.find? (fun l => decide (l.die = die)) with
    | some l => s.lossAnswer l
    | none => s)

/-! ### Readmission (R348, R393, R394) -/

def execDieReadmit (die : Nat) (s : State) : Host.Outcome State Fault Refusal :=
  .next (if ringBearing die && s.dieState die == 3 then s.putFld (Reg.tdDie die) 11 8 4 else s)

/-- Firmware sets the timer of a readmitted host die from another's; the counts differ by at most 16 ticks (entry 1). -/
def State.setTimer (s : State) (hd : Nat) : State :=
  match ((List.range 8).map (· + 80)).find? (fun d => d != hd && s.dieState d == 2) with
  | none => s
  | some d =>
    let (n, s) := s.freeCount
    let t := s.mtime d + n % 33 - 16
    (s.setReg (Reg.hxMtimeLo hd) (BitVec.ofNat 32 t)).setReg (Reg.hxMtimeHi hd) (BitVec.ofNat 32 (t / 2 ^ 32))

end Sys2Proof.Machine
end

