-- ==== Sys2Proof/Machine/Power.lean ====
section
/-! DEFINITION. The power controller: the lehr window and the floor, throttling, temperatures, capo and shifting groups, power
domains and the safe state (R400-R422, R458). -/

namespace Sys2Proof.Machine

/-! ### The safe state (R418, R419, R449) -/

/-- A started descriptor is stopped while it executes, or while writes of it are unacknowledged. -/
def State.stops (s : State) (f : Flight) : Bool := f.executing || (f.isDone && f.start != 0 && s.awaitsAck f.fid)

/-- What a started descriptor ends with: one that has only its record to write keeps its status. -/
def State.stopFlight (s : State) (f : Flight) : Flight :=
  if s.stops f then { f with phase := .done, res := s.halted f stSafeState 0 } else f

/-- The unit of a stopped descriptor reports SAFE_STATE and executes nothing (R123, R165, R231, R249). -/
def State.unitStops (s : State) (f : Flight) : State :=
  let die := hDie f.target
  let k := hSlot f.target
  if hGang f.target then s
  else
    let s := s.unitFaultSet f stSafeState
    match unitAt die k with
    | some .enginePair =>
      if matClass (dClass f.desc) then ((s.maBusy f).setFlag (Reg.maStatus die k) (8 + matPart f.desc) false) else s.veBusy die k
    | some .decodeEngine => s.vdBusy die k
    | _ => s

/-- Engines, movers, decode engines and fabric engines stop; started descriptors complete with SAFE_STATE and their records are
written while memory is powered. -/
def State.stopAll (s : State) : State :=
  let ids := (s.flights.filter (fun f => !f.waits && !f.completed)).map (·.fid)
  let stopped := s.flights.filter s.stops
  let s : State := { s with flights := s.flights.map s.stopFlight }
  let s := stopped.foldl State.unitStops s
  ids.foldl (fun s i => match s.flight i with
    | some f => s.complete f
    | none => s) s

/-- Everything volatile as at reset; the flashes and the counter keep what they hold, and the numbering goes on. -/
def State.cold (s : State) : State :=
  let r := State.reset
  let sm : SmSt := { r.sm with imgFlash := s.sm.imgFlash, journal := s.sm.journal, counter := s.sm.counter
                               counterKey := s.sm.counterKey, romKeys := s.sm.romKeys }
  { r with pending := s.pending, moduleId := s.moduleId, nextFid := s.nextFid, nextStart := s.nextStart, out := s.out, free := s.free
           flog := s.flog, sm := sm }

/-- Power-on; MOD_RESET_N keeps the level it was accepted at (R450). -/
def State.powerOn (s : State) : State :=
  let t := s.cold
  ({ t with pins := { t.pins with rst := s.pins.rst, rstInt := s.pins.rstInt, rstCol := s.pins.rstCol } } : State).setFlag Reg.pwPins 1
    (s.flag Reg.pwPins 1)

/-- A counter write in progress leaves the old value or the new one, which is open (entry 1); an image being written is left without
its header; the journal's writes end as R441 says. -/
def State.cutWrites (s : State) : State :=
  let s := s.endAppend.endCompaction.cutErase
  let (n, s) := s.freeCount
  let img := match s.sm.fwup with
    | some u => eraseRange s.sm.imgFlash (0x20000000 * u.slot) (0x20000000 * u.slot + 512)
    | none => s.sm.imgFlash
  let cnt := match s.sm.cwrite with
    | some v => if n % 2 = 1 then v else s.sm.counter
    | none => s.sm.counter
  { s with sm := { s.sm with imgFlash := img, counter := cnt } }

/-- The dies that TD_DIE shows with a state of their own. -/
def railDies : List Nat := (List.range 40) ++ (List.range 20).map (· + 80)

/-- The rails are removed: every die is off and nothing runs; the connector's inputs keep their levels. -/
def State.railsOff (s : State) : State :=
  let t : State := { s.cutWrites.cold with pins := { State.reset.pins with powered := false, armed := s.pins.armed } }
  let t := [0, 1, 2].foldl (fun (t : State) i => t.setFlag Reg.pwPins i (s.flag Reg.pwPins i)) t
  railDies.foldl (fun (t : State) d => t.putFld (Reg.tdDie d) 11 8 0) t

/-- SM writes the cause to the journal while the input lies within 50.0-59.5 V; an append and a compaction in progress end first (R419,
R441, R444). -/
def State.causeRecord (s : State) (cause : Nat) : State :=
  let s := s.endAppend.endCompaction
  let v := s.fld Reg.pwInput 31 16
  let n := match s.standing 0x71 0 with
    | some r => rData r % 2 ^ 32
    | none => 0
  if s.firmwareRuns ∧ s.regionFull = false then
    if 5000 ≤ v ∧ v ≤ 5950 then
      { s.appendRecord 0x70 52 false n (cause + 2 ^ 8 * v + 2 ^ 32 * n) with pw := { s.pw with causeDue := false } }
    else { s with pw := { s.pw with causeDue := true } }
  else s

/-- A sample of the input in the safe state: a record that waited is written once the input lies in range. -/
def State.safeSample (s : State) : State := if s.pw.causeDue then s.causeRecord (s.fld Reg.pwSafeCause 7 0) else s

/-- Changes of operating points are abandoned (R422). -/
def State.abandonChanges (s : State) : State :=
  let t := s.pw.changes.foldl (fun (t : State) c => t.setFlag (Reg.pwDieStatus c.die) 17 false) s
  { t with pw := { t.pw with changes := [], deferred := [] } }

/-- Steps 1 to 3 of R419; SM clears its keys (R427). -/
def State.enterSafe (s : State) (cause : Nat) : State :=
  let s := s.stopAll.abandonChanges
  let s := (s.setFlag Reg.pwStatus 0 true).putFld Reg.pwSafeCause 7 0 cause
  { s.driveAlert with pins := { s.pins with pwrGood := false, armed := false }, sm := { s.sm with keys := none } }

/-- The module is powered and not in the safe state. -/
def State.controls (s : State) : Bool := s.pins.powered && !s.isSafe

/-- The safe state begins and SM records its cause; the rails go at the next 1 ms bin (R419). -/
def State.safeState (s : State) (cause : Nat) : State := if s.controls then (s.enterSafe cause).causeRecord cause else s

/-- The clock of a die is lost; SM's loss leads to the safe state, which nobody then records (R390, R393). -/
def execDieClockLost (die : Nat) (s : State) : Host.Outcome State Fault Refusal :=
  .next (
    if die = 99 then (if s.controls then s.enterSafe 4 else s)
    else if s.losable die && s.dieState die != 1 then s.loseDie die 1
    else s)

/-! ### Effective cap (R406, R411, R421) -/

def State.lehrWindow (s : State) : Nat := min 60 (Nat.max 1 (s.fld Reg.pwCap 21 16))
def State.lehrCap (s : State) : Nat := min 16000 (Nat.max 6000 (s.fld Reg.pwCap 15 0))

/-- The shifting groups of the module. -/
def State.shiftGroups (s : State) : List Nat := s.validGroups.filter s.grpShifting

def State.offers (m : List Offer) (g : Nat) : Nat := (m.filter (fun o => decide (o.group = g))).foldl (fun n o => n + o.watts) 0

/-- min(cap, share + received - given), over the shifting groups. -/
def State.effCap (s : State) : Nat :=
  s.shiftGroups.foldl (fun c g =>
    min c (s.fld (Reg.pwGrpShare g) 15 0 + State.offers s.pw.recv g - State.offers s.pw.given g)) s.lehrCap

/-! ### The lehr window (R406, R407, R408); energy in microjoules -/

/-- THROTTLE_N active, or its fault latched (R408, R451). -/
def State.throttled (s : State) : Bool := s.flag Reg.pwStatus 1 || s.flag Reg.pwAlert 4

/-- The allowance of the bin. -/
def State.allowance (s : State) : Int :=
  let w := s.lehrWindow
  let past := (s.pw.bins.take (1000 * w - 1)).foldl (· + ·) 0
  let a := min (((1000000 * (s.effCap * w) : Nat) : Int) - (past : Nat)) (37000000 - ((s.pw.bins.headD 0 : Nat) : Int))
  if s.throttled then min a 6000000 else a

def State.setFloor (s : State) (b : Bool) : State :=
  ({ s with pw := { s.pw with floorOn := b } } : State).setFlag Reg.pwStatus 2 b

/-- A 1 ms bin ends and the next begins: the readings over the bin and the window, the tick that ends long-droop limits. -/
def State.binStart (s : State) : State :=
  let bins := (s.pw.eBin :: s.pw.bins).take 60000
  let w := s.lehrWindow
  let s := s.putFld Reg.pwInput 15 0 (min 0xFFFF (s.pw.eBin / 1000))
  let s := s.putFld Reg.pwAvg 15 0 (min 0xFFFF ((bins.take (1000 * w)).foldl (· + ·) 0 / (1000000 * w)))
  let s := ({ s with pw := { s.pw with bins := bins, eBin := 0, tLeft := 1000, lowered := false, longDroop := [] } } : State).setFloor false
  ({ s with pw := { s.pw with allow := s.allowance } } : State).evalAll

/-- A bin of the power controller; in the safe state the bin's end is where the rails go. -/
def execLehrBinStart (s : State) : Host.Outcome State Fault Refusal :=
  .next (if s.controls then s.binStart else if s.pins.powered then s.railsOff else s)

/-- The dies a die-step moves with `die`: the local members of its capo group, when it lowers. -/
def State.stepDies (s : State) (die : Nat) : List Nat :=
  match s.capoGroup die with
  | some g => s.grpDies g
  | none => [die]

/-- The first die of those that can move, by a better-than order on weights; the lower index on ties. -/
def pickDie (better : Nat → Nat → Bool) (weight : Nat → Nat) : List Nat → Option Nat
  | [] => none
  | d :: ds => match pickDie better weight ds with
    | none => some d
    | some e => if better (weight e) (weight d) then some e else some d

/-- One die-step down: the lowest weight first. -/
def State.lowerOnce (s : State) : State :=
  match pickDie (fun a b => decide (a < b)) (fun d => (s.phaseOf d).2.2) (s.runningCds.filter (fun d => s.lehrLimit d != 0)) with
  | none => s
  | some d => { s with pw := { s.pw with lowered := true,
                                         lehr := (s.stepDies d).foldl (fun m x => setDie m x (byDie m 15 x - 1)) s.pw.lehr } }

def State.lowerSteps (s : State) : Nat → State
  | 0 => s
  | n + 1 => s.lowerOnce.lowerSteps n

/-- One die-step up: the highest weight first. -/
def State.raiseOnce (s : State) : State :=
  match pickDie (fun a b => decide (b < a)) (fun d => (s.phaseOf d).2.2) (s.runningCds.filter (fun d => s.lehrLimit d < 15)) with
  | none => s
  | some d => { s with pw := { s.pw with lehr := setDie s.pw.lehr d (s.lehrLimit d + 1) } }

/-- The three steps of R406 at a sample of `p` watts. -/
def State.lehrControl (s : State) (p : Nat) : State :=
  let e : Int := s.pw.eBin
  let t := s.pw.tLeft
  let a := s.pw.allow
  let s := if a < e + (p * t : Nat) then s.lowerSteps 8 else s
  let s := if a ≤ e + (5400 * t : Nat) then s.setFloor true else s
  if 100 * e + (105 * p * t : Nat) < 100 * a ∧ s.pw.lowered = false then s.raiseOnce else s

/-- The busbar check: outside 50.0-59.5 V in two consecutive samples (R458). -/
def State.voltSample (s : State) (v : Nat) : State :=
  { s.putFld Reg.pwInput 31 16 v with pw := { s.pw with outRange := if v < 5000 ∨ 5950 < v then s.pw.outRange + 1 else 0 } }

def State.powerSample (s : State) (r : PowerReading) : State :=
  let s := s.voltSample r.volt
  let samples := (r.watts :: s.pw.samples).take 200
  let s : State := { s with pw := { s.pw with samples := samples, eBin := s.pw.eBin + r.watts * 10, tLeft := s.pw.tLeft - 10 } }
  if 2 ≤ s.pw.outRange then s.safeState 1
  else if r.stageFault then s.safeState 3
  else if samples.length = 200 ∧ 3900000 ≤ samples.foldl (· + ·) 0 then s.safeState 5
  else (({ s with pw := { s.pw with allow := s.allowance } } : State).lehrControl r.watts).evalAll

/-- A start that waits for the input begins once it lies inside 51.0-59.0 V (R458). -/
def execPowerSample (r : PowerReading) (s : State) : Host.Outcome State Fault Refusal :=
  .next (
    if s.controls then s.powerSample r
    else if s.pins.powered then (s.voltSample r.volt).safeSample
    else if s.pins.startWait && decide (5100 ≤ r.volt ∧ r.volt ≤ 5900) then s.powerOn
    else s)

/-- SM finds TD's alive line silent (R393, R418 code 4). -/
def execTdAliveLost (s : State) : Host.Outcome State Fault Refusal := .next (if s.controls then s.safeState 4 else s)

/-! ### Temperatures (R415) -/

def tempByte (t : Int) : Nat := (t % 256).toNat
/-- The reading of a die or stack, when the report holds one. -/
def reading (m : List (Nat × Int)) (k : Nat) : Option Int := (m.find? (fun p => decide (p.1 = k))).map (·.2)
def atLeast (m : List (Nat × Int)) (k : Nat) (t : Int) : Bool := (reading m k).any (fun x => decide (t ≤ x))
def atMost (m : List (Nat × Int)) (k : Nat) (t : Int) : Bool := (reading m k).any (fun x => decide (x ≤ t))

/-- The thermal limit of a compute die: down one point per report at 100 degrees or its stack at 95, to OP0 at 110; up one per
ten reports at or below 95. -/
def thermalDie (r : ThermalReading) (s : State) (d : Nat) : State :=
  let l := s.thermalLimit d
  let set (v n : Nat) : State := { s with pw := { s.pw with thermal := setDie s.pw.thermal d v, hotTicks := setDie s.pw.hotTicks d n } }
  if atLeast r.dies d 110 then set 0 0
  else if atLeast r.dies d 100 || atLeast r.hbm d 95 then set (l - 1) 0
  else if atMost r.dies d 95 then
    let n := byDie s.pw.hotTicks 0 d + 1
    if n < 10 then set l n else set (min 15 (l + 1)) 0
  else set l 0

/-- HCLK of a host die in MHz. -/
def State.hclkOf (s : State) (d : Nat) : Nat := byDie s.pw.hclk 3200 d

def thermalHost (r : ThermalReading) (s : State) (d : Nat) : State :=
  let f := s.hclkOf d
  if atLeast r.dies d 100 then { s with pw := { s.pw with hclk := setDie s.pw.hclk d (Nat.max 1200 (f - 200)) } }
  else if atMost r.dies d 95 then { s with pw := { s.pw with hclk := setDie s.pw.hclk d (min 3200 (f + 200)) } }
  else s

def thermalLimits (r : ThermalReading) : Bool :=
  r.dies.any (fun p => decide (120 ≤ p.2)) || r.hbm.any (fun p => decide (105 ≤ p.2)) || decide (70 ≤ r.outlet) || decide (45 ≤ r.inlet)

def State.thermalSample (s : State) (r : ThermalReading) : State :=
  let s := r.dies.foldl (fun s p => if ringBearing p.1 then s.putFld (Reg.dieTemp p.1) 7 0 (tempByte p.2) else s) s
  let s := r.hbm.foldl (fun s p => if p.1 < 40 then s.putFld (Reg.hcTemp p.1) 7 0 (tempByte p.2) else s) s
  let s := (s.putFld Reg.pwCoolant 15 8 (tempByte r.outlet)).putFld Reg.pwCoolant 7 0 (tempByte r.inlet)
  if thermalLimits r then s.safeState 2
  else
    let s := (List.range 40).foldl (thermalDie r) s
    let s := ((List.range 8).map (· + 80)).foldl (thermalHost r) s
    s.evalAll

def execThermalSample (r : ThermalReading) (s : State) : Host.Outcome State Fault Refusal :=
  .next (if s.controls then s.thermalSample r else s)

/-! ### Group entries (R409, R412) -/

/-- The other members' modules of a group: positions of its span other than this module. -/
def State.grpModules (s : State) (g : Nat) : List Nat :=
  let span := s.reg (Reg.pwGrpSpan g)
  ((List.range (wfld span 22 11)).map (fun p => wfld span 10 0 + p * wfld span 31 23)).filter (fun m => m != s.moduleId)

def State.grpErrs (s : State) (g : Nat) (v : Word) : List Nat :=
  let span := s.reg (Reg.pwGrpSpan g)
  let n := wfld span 22 11
  let share := s.fld (Reg.pwGrpShare g) 15 0
  (if (s.validGroups.filter (fun h => h != g)).any (fun h => (List.range 40).any (fun d => s.grpHas g d && s.grpHas h d)) then [1] else []) ++
  (if 1 ≤ n ∧ (wfld span 31 23 = 0 ∨ 2048 ≤ wfld span 10 0 + (n - 1) * wfld span 31 23) then [2] else []) ++
  (if bit v 30 ∧ ¬ (6000 ≤ share ∧ share ≤ 16000) then [3] else [])

/-- What is held for a group is discarded. -/
def State.dropGroup (s : State) (g : Nat) : State :=
  { s with pw := { s.pw with capo := s.pw.capo.filter (fun e => decide (e.1 ≠ g))
                             capoSent := s.pw.capoSent.filter (fun e => decide (e.1 ≠ g))
                             given := s.pw.given.filter (fun o => decide (o.group ≠ g))
                             recv := s.pw.recv.filter (fun o => decide (o.group ≠ g)) } }

/-- A write to PW_GRP_CTRL. -/
def State.grpCtrlWrite (s : State) (g : Nat) (v : Word) : State :=
  let a := Reg.pwGrpCtrl g
  let base := wset (wset 0 30 30 (wfld v 30 30)) 13 8 (s.fld a 13 8)
  if bit v 31 then
    match lowest ((s.grpErrs g v).map some) with
    | some e => ((s.setReg a (wset base 13 8 e)).dropGroup g).evalAll
    | none => (s.setReg a (wset (wset base 13 8 0) 31 31 1)).evalAll
  else ((s.setReg a base).dropGroup g).evalAll

def execGroupEntryValidate (group : Nat) (value : Word) (s : State) : Host.Outcome State Fault Refusal :=
  .next (if s.controls then s.grpCtrlWrite group value else s)

/-! ### CAPO and SHIFT (R342, R410, R411) -/

/-- The I/O die that carries a group's frames, and whether SM's controller reaches it. -/
def grpIo (g : Nat) : Nat := 88 + g % 10
def State.reaches (s : State) (a b : Nat) : Bool :=
  !s.dieDown a && !s.dieDown b && (match s.path a b with | .ok _ _ => true | _ => false)

/-- A frame to module m, on the route of the flow in the I/O die's DC_FDEST_m, with flow 0. -/
def State.sendGroup (s : State) (g m seq : Nat) (b : FrameBody) : State :=
  match s.fdest (grpIo g) m with
  | some f => s.sendRouted (grpIo g) (mkFrame b s.moduleId m 0 seq (s.flowRoute f))
  | none => s

/-- CAPO goes to every other member with the module's contribution. -/
def State.capoSend (s : State) (g : Nat) : State :=
  let op := s.contribution g
  let seq := s.fab.capoSeq.toNat
  let s : State := { s with fab := { s.fab with capoSeq := s.fab.capoSeq + 1 }, pw := { s.pw with capoSent := setDie s.pw.capoSent g op } }
  if s.reaches 99 (grpIo g) then
    (s.grpModules g).foldl (fun s m => s.sendGroup g m seq { type := 0x30, addr := g + 2 ^ 12 * op }) s
  else s

def State.isCapo (s : State) (g : Nat) : Bool := s.validGroups.contains g && !s.grpShifting g
def State.isShift (s : State) (g : Nat) : Bool := s.validGroups.contains g && s.grpShifting g

def execCapoSend (group : Nat) (s : State) : Host.Outcome State Fault Refusal :=
  .next (if s.controls && s.isCapo group then s.capoSend group else s)

/-- A sequence number is newer than another, modulo 2^24 (R342). -/
def seqNewer (a b : BitVec 24) : Bool := a != b && decide ((a - b).toNat < 2 ^ 23)

/-- A received CAPO: the newest of each group and sender is kept. -/
def State.capoReceive (s : State) (port : Nat) (f : Frame) : State :=
  let a := f.addr
  let g := a % 4096
  let seq := BitVec.ofNat 24 f.seq
  let newer := (s.pw.capo.filter (fun e => decide (e.1 = g ∧ e.2.1 = f.src))).all (fun e => seqNewer seq e.2.2.1)
  if s.controls && s.isCapo g && (s.grpModules g).contains f.src && s.reaches (portDie port) 99 && newer then
    let rest := s.pw.capo.filter (fun e => decide (¬ (e.1 = g ∧ e.2.1 = f.src)))
    ({ s with pw := { s.pw with capo := rest ++ [(g, f.src, seq, a / 4096 % 16)] } } : State).evalAll
  else s

def execCapo (port : Nat) (f : Frame) (s : State) : Host.Outcome State Fault Refusal :=
  .next (s.receive port 0x30 f (fun s => s.capoReceive port f))

/-- An entry not refreshed for 1 ms is dropped. -/
def execCapoEntryExpiry (group sender : Nat) (s : State) : Host.Outcome State Fault Refusal :=
  .next (if s.controls then
      ({ s with pw := { s.pw with capo := s.pw.capo.filter (fun e => decide (¬ (e.1 = group ∧ e.2.1 = sender))) } } : State).evalAll
    else s)

/-- The average over the last 10 ms, in watts. -/
def State.recentAvg (s : State) : Nat := (s.pw.bins.take 10).foldl (· + ·) 0 / 10000

/-- The surplus of a module whose average lies more than 5% below its effective cap: the cap minus 1.02 times the average. -/
def State.surplus (s : State) : Nat :=
  let c := s.effCap
  let a := s.recentAvg
  if 100 * a < 95 * c then c - (102 * a + 99) / 100 else 0

/-- The surplus is offered to next, and deducted from the giver's cap. -/
def State.shiftOffer (s : State) (g : Nat) : State :=
  let m := s.fld (Reg.pwGrpShare g) 26 16
  let w := min 0xFFFF s.surplus
  if w = 0 ∨ s.flag (Reg.pwGrpShare g) 27 = false then s
  else
    let seq := s.fab.shiftSeq
    let s : State := { s with fab := { s.fab with shiftSeq := seq + 1 }, pw := { s.pw with given := s.pw.given ++ [⟨g, m, seq, w⟩] } }
    if s.reaches 99 (grpIo g) then s.sendGroup g m seq.toNat { type := 0x31, addr := g + 2 ^ 16 * w } else s

def execShiftOffer (group : Nat) (s : State) : Host.Outcome State Fault Refusal :=
  .next (if s.controls && s.isShift group then s.shiftOffer group else s)

/-- A received SHIFT: the offer of the newest seq counts, once. -/
def State.shiftReceive (s : State) (port : Nat) (f : Frame) : State :=
  let a := f.addr
  let g := a % 4096
  let seq := BitVec.ofNat 24 f.seq
  let newer := (s.pw.recv.filter (fun o => decide (o.group = g ∧ o.sender = f.src))).all (fun o => seqNewer seq o.seq)
  if s.controls && s.isShift g && s.reaches (portDie port) 99 && newer then
    let rest := s.pw.recv.filter (fun o => decide (¬ (o.group = g ∧ o.sender = f.src)))
    { s with pw := { s.pw with recv := rest ++ [⟨g, f.src, seq, a / 2 ^ 16 % 2 ^ 16⟩] } }
  else s

def execShift (port : Nat) (f : Frame) (s : State) : Host.Outcome State Fault Refusal :=
  .next (s.receive port 0x31 f (fun s => s.shiftReceive port f))

/-- 12 ms after an offer: its giver, the module itself, stops deducting it; a receiver stops counting it and remembers its sequence
number, so that no repetition counts again. -/
def execShiftLeaseExpiry (group sender : Nat) (seq : BitVec 24) (s : State) : Host.Outcome State Fault Refusal :=
  .next (if s.controls then
      if sender = s.moduleId then
        { s with pw := { s.pw with given := s.pw.given.filter (fun o => decide (¬ (o.group = group ∧ o.seq = seq))) } }
      else
        { s with pw := { s.pw with recv := s.pw.recv.map (fun o =>
          if o.group = group ∧ o.sender = sender ∧ o.seq = seq then { o with watts := 0 } else o) } }
    else s)

/-! ### Power domains (R417) -/

/-- The default route of a packet at compute die x for die d: along the row, then along the column, then out (R13). -/
def defaultEdge (x d : Nat) : Nat :=
  let t := attachedTo d
  if x = t then attachEdge d
  else if x % 8 < t % 8 then 1 else if t % 8 < x % 8 then 3
  else if x / 8 < t / 8 then 2 else 0

def routeEntry (x d v : Nat) : Word := BitVec.ofNat 32 (2 ^ 31 + 2 ^ 8 * defaultEdge x d + 2 ^ 4 * v)

/-- The valid entries for a destination in the table of a compute die. -/
def State.loadRoute (s : State) (x d : Nat) : State :=
  if x = d ∨ isStack d then s
  else (s.setReg (Reg.dcRoute x d 0) (routeEntry x d 0)).setReg (Reg.dcRoute x d 1) (routeEntry x d 1)

/-- The default path from compute die x to die d crosses compute die t, or ends at it (R13). -/
def crossesDefault (x d t : Nat) : Bool :=
  let e := attachedTo d
  let between (a b m : Nat) : Bool := decide (min a b ≤ m ∧ m ≤ Nat.max a b)
  d == t || (isCd t && ((t / 8 == x / 8 && between (x % 8) (e % 8) (t % 8)) || (t % 8 == e % 8 && between (x / 8) (e / 8) (t / 8))))

/-- What the training of a pair finds when ENABLING begins; a pair not listed is clean. -/
def testOf (tests : List PairTest) (die pair : Nat) : Option LaneResult :=
  match tests.find? (fun t => (pairEnds die pair).contains (t.die, t.pair)) with
  | some t => t.result
  | none => some ⟨0, true, 0, true⟩

/-- A pair is enabled at every end and trains under R379; with no training pattern it refuses. -/
def State.pairTrain (s : State) (tests : List PairTest) (die pair : Nat) : State :=
  let s := s.atEnds die pair (fun s d p => s.coursePairEnable d p)
  match testOf tests die pair with
  | some r => if s.training die pair then s.courseEnablingDone die pair r else s
  | none => s.atEnds die pair (fun s d p => if s.fnState (Reg.cpCtrl d p) = 1 then s.courseRefuse d p 1 5 else s)

/-- The pairs of a die, each at an end that has its registers. -/
def pairsOf (die : Nat) : List (Nat × Nat) :=
  if isCd die || isIo die then ((List.range (pairsOn die)).map (fun p => (die, p))).filter (fun e => (pairPeer e.1 e.2).isSome)
  else pairsTo die

/-- The pairs of some dies to dies that are not down train, each once. -/
def State.startPairs (s : State) (tests : List PairTest) (dies : List Nat) : State :=
  let ends := dies.flatMap pairsOf
  let once := ends.filter (fun e => match peerPair e.1 e.2 with
    | some q => !ends.contains q || decide (e.1 < q.1)
    | none => true)
  once.foldl (fun s e => if s.dieDown e.1 || (pairPeer e.1 e.2).any s.dieDown then s else s.pairTrain tests e.1 e.2) s

/-- ENABLING is refused while the die is lost or the compute die that attaches it is not ON. -/
def State.domainRefused (s : State) (die : Nat) : Bool :=
  s.dieState die == 3 || (!isCd die && s.fnState (Reg.pwDom (attachedTo die)) != 2)

def State.domainEnable (s : State) (die : Nat) : State :=
  let s := s.enableReq (Reg.pwDom die)
  if s.fnState (Reg.pwDom die) = 1 ∧ s.domainRefused die = true then s.enablingEnd (Reg.pwDom die) false else s

def execDomainEnable (die : Nat) (s : State) : Host.Outcome State Fault Refusal :=
  .next (if s.controls && ringBearing die then s.domainEnable die else s)

/-- The operating points, ceiling and assembly maps firmware loads from the journal (R378, R401, R438). -/
def State.loadDie (s : State) (die : Nat) : State :=
  if isCd die then
    let volts := match s.standing 0x12 die with
      | some r => (List.range 16).map (fun k => rData r / 2 ^ (16 * k) % 2 ^ 12)
      | none => List.replicate 16 0
    let s := (List.range 16).foldl (fun s k => s.putFld (Reg.pwOp die k) 27 16 (volts.getD k 0)) s
    match s.standing 0x11 die with
    | some r => s.putFld (Reg.pwOp die 15) 11 0 (rData r % 2 ^ 12)
    | none => s
  else s

def State.loadMaps (s : State) (die : Nat) : State :=
  (List.range (pairsOn die)).foldl (fun s p => match s.standing 0x20 (die * 16 + p) with
    | some r => s.setReg (Reg.cpRxAsm die p) (BitVec.ofNat 32 (rData r % 2 ^ 18))
    | none => s) s

/-- A die runs: its operating point is the idle one, its working memory is initialised, its own routes are loaded. -/
def State.dieRuns (s : State) (die : Nat) : State :=
  let s := (s.putFld (Reg.tdDie die) 11 8 2).putFld (Reg.tdDie die) 7 4 0
  if isCd die then
    let s : State := { s with mem := eraseRange s.mem (wmBase die) (wmBase die + wmSize)
                              poison := setEraseRange s.poison (wmBase die / 64) ((wmBase die + wmSize) / 64) }
    let s := (s.loadDie die).putFld (Reg.pwDieStatus die) 31 20 (s.opMhz die 0)
    let s : State := { s with pw := { s.pw with volts := setDie s.pw.volts die (s.opMv die 0)
                                                changes := s.pw.changes.filter (fun c => decide (c.die ≠ die))
                                                droops := setErase s.pw.droops die
                                                deferred := setErase s.pw.deferred die } }
    ((List.range 100).foldl (fun s d => s.loadRoute die d) s).evalDie die
  else s

/-- Routes of the running compute dies to a die, and over it, are restored. -/
def State.restoreRoutes (s : State) (die : Nat) : State :=
  s.runningCds.foldl (fun s x =>
    ((List.range 100).filter (fun d => crossesDefault x d die)).foldl (fun s d => s.loadRoute x d) s) s

/-- The domain is ON: the die is restored, its courses train, and routes to it are restored. -/
def State.domainUp (s : State) (die : Nat) (tests : List PairTest) : State :=
  let s := (s.enablingEnd (Reg.pwDom die) true).dieRuns die
  let s := if isHd die then s.setTimer die else s
  (((s.loadMaps die).startPairs tests [die]).restoreRoutes die).evalAll

def execDomainEnablingDone (die : Nat) (s : State) (tests : List PairTest := []) : Host.Outcome State Fault Refusal :=
  .next (if s.controls && ringBearing die && s.fnState (Reg.pwDom die) == 1 then s.domainUp die tests else s)

/-- Flows of an I/O die that are not OFF. -/
def State.flowsActive (s : State) (die : Nat) : List Nat :=
  (s.regs.filterMap (fun p =>
    if Reg.fbFlowCtrl die 0 ≤ p.1 ∧ p.1 < Reg.fbFlowCtrl die (flowsOn die) ∧
       (p.1 - Reg.fbFlowCtrl die 0) % (Reg.fbFlowCtrl die 1 - Reg.fbFlowCtrl die 0) = 0 ∧ wfld p.2 6 4 ≠ 0 then
      some ((p.1 - Reg.fbFlowCtrl die 0) / (Reg.fbFlowCtrl die 1 - Reg.fbFlowCtrl die 0) * 10 + (die - 88))
    else none))

/-- The shutdown of a die whose domain goes off: every ring, engine pair, mover and flow; a connected external host is lost. -/
def State.domainWork (s : State) (die : Nat) : State :=
  let s := (List.range (ringsOn die)).foldl (fun s k =>
    s.ringDisable (ringOf die k)) s
  let s := if isCd die then
      let s := (List.range 6).foldl (fun s e => s.epDisable die e) s
      (List.range 4).foldl (fun s m => s.moverDisable die m) s
    else s
  if isIo die then
    let s := (s.flowsActive die).foldl (fun s f => (s.disableReq (fCtrl f)).endSync f) s
    if s.cxlState (die - 88) = 1 then s.cxlLoss (die - 88) else s
  else s

/-- The domains attached to a compute die are OFF. -/
def State.attachedOff (s : State) (die : Nat) : Bool :=
  !isCd die || (attachedDies die).all (fun d => s.fnState (Reg.pwDom d) == 0)

/-- A disable of a domain; the shutdown of a compute die waits until the domains attached to it are OFF. -/
def State.domainDisable (s : State) (die : Nat) : State :=
  let on := s.fnState (Reg.pwDom die) == 2
  let s := s.disableReq (Reg.pwDom die)
  if on && s.attachedOff die then s.domainWork die else s

/-- The disable of a compute die's domain disables those of the dies attached to it first (R417). -/
def State.domainDisableAll (s : State) (die : Nat) : State :=
  (if isCd die && s.fnState (Reg.pwDom die) == 2 then attachedDies die else []).foldl (fun s d => s.domainDisable d)
    s |>.domainDisable die

def execDomainDisable (die : Nat) (s : State) : Host.Outcome State Fault Refusal :=
  .next (if s.controls && ringBearing die then s.domainDisableAll die else s)

/-- Everything a domain waits for before its rails go: the attached domains, rings, engine pairs, movers and flows are OFF. -/
def State.domainIdle (s : State) (die : Nat) : Bool :=
  s.attachedOff die &&
  (List.range (ringsOn die)).all (fun k => s.fnState (Reg.dcRingCtrl die k) == 0) &&
  (!isCd die || ((List.range 6).all (fun e => s.fnState (Reg.maCtrl die e) == 0) &&
    (List.range 4).all (fun m => s.fnState (Reg.mvCtrl die m) == 0))) &&
  (!isIo die || ((s.flowsActive die).isEmpty && !s.pcie.walk.contains (die - 88))) &&
  !s.flights.any (fun f => !hGang f.target && hDie f.target == die && !f.waits && !f.completed)

/-- Modified lines a host die holds are written back before it goes off; its cores' caches hold nothing then. -/
def State.flushAgent (s : State) (die : Nat) : State :=
  let s := (s.host.copies.filter (fun c => agentDie c.agent == die)).foldl (fun s c => s.invalidate c.line) s
  { s with host := { s.host with cores := s.host.cores.filter (fun c => hartDie c.hart != die) } }

/-- An attached domain is OFF: a compute die that waited for it goes on. -/
def State.attachedGone (s : State) (die : Nat) : State :=
  let t := attachedTo die
  if !isCd die && s.fnState (Reg.pwDom t) == 3 && s.attachedOff t then s.domainWork t else s

/-- The rails are removed: routes avoid the die, its memory stays in self-refresh, and its pairs have been disabled and are OFF (R67,
R381; entry 178). -/
def State.domainOff (s : State) (die : Nat) : State :=
  let s := (s.flushAgent die).clearRoutes die
  let s := (pairsTo die).foldl (fun s p => if s.fnState (Reg.cpCtrl p.1 p.2) = 0 then s else
    courseFail p.1 p.2 ((s.disableReq (Reg.cpCtrl p.1 p.2)).pairOff p.1 p.2)) s
  let s : State := { s with courses := s.courses.filter (fun c => decide (c.die ≠ die)) }
  let s := s.putFld (Reg.tdDie die) 11 8 0
  let s := if isIo die then s.dropIo die else s
  let s := s.resetRegs die
  let s := s.disablingEnd (Reg.pwDom die)
  (s.attachedGone die).evalAll

def execDomainDisablingDone (die : Nat) (s : State) : Host.Outcome State Fault Refusal :=
  .next (if s.controls && ringBearing die && s.fnState (Reg.pwDom die) == 3 && s.domainIdle die then s.domainOff die else s)

end Sys2Proof.Machine
end

