-- ==== Sys2Proof/Machine/Cycle.lean ====
section
/-! DEFINITION. What the clocks do between commands: the host-die timers count (R348), and a function that went OFF with an enable
latched begins ENABLING in the next cycle of its clock (R67). -/

namespace Sys2Proof.Machine

/-- A function with a control register of R66. -/
inductive Fn where
  | ring (n : Nat)
  | enginePair (die ep : Nat)
  | mover (die n : Nat)
  | flow (f : Nat)
  | coursePair (die pair : Nat)
  | domain (die : Nat)
  deriving DecidableEq, Repr

/-- Its control register. -/
def Fn.ctrl : Fn → Nat
  | .ring n => ringAddr Reg.dcRingCtrl n
  | .enginePair d e => Reg.maCtrl d e
  | .mover d n => Reg.mvCtrl d n
  | .flow f => fCtrl f
  | .coursePair d p => Reg.cpCtrl d p
  | .domain d => Reg.pwDom d

/-- The module has the function. -/
def Fn.present : Fn → Bool
  | .ring n => decide (n < 4096)
  | .enginePair _ e => decide (e < 6)
  | .mover _ n => decide (n < 4)
  | .flow f => decide (f < 65536)
  | .coursePair d p => decide (p < pairsOn d)
  | .domain d => ringBearing d

/-- The functions whose control registers may stand at an offset of a die's window. -/
def fnsAt (die off : Nat) : List Fn :=
  (if off < 0x20000 then [.ring (ringOf die ((off - 0x10018) / 0x40))] else []) ++
  (if isCd die then [.enginePair die (off / 0x100000 - 1), .mover die ((off - 0x700000) / 0x40)] else []) ++
  (if isIo die then [.flow ((off - 0x110000) / 0x40 * 10 + (die - 88))] else []) ++
  ((List.range (pairsOn die)).map (fun p => .coursePair die p)) ++
  (if die = 99 then [.domain ((off - 0x100100) / 4)] else [])

/-- The function a control register belongs to. -/
def fnOf (a : Nat) : Option Fn :=
  match regionOf a with
  | .setup i off => (fnsAt i off).find? (fun c => c.present && c.ctrl == a)
  | _ => none

/-- A function of a die that runs. -/
def State.fnHere (s : State) : Fn → Bool
  | .ring n => !s.dieDown (ringDie n)
  | .enginePair d _ => !s.dieDown d
  | .mover d _ => !s.dieDown d
  | .flow f => flowHere s f
  | .coursePair d _ => !s.dieDown d
  | .domain _ => s.controls

/-- The functions that are OFF with an enable latched. -/
def State.latched (s : State) : List Fn :=
  (s.regs.filterMap (fun p => if wfld p.2 6 3 = 1 then fnOf p.1 else none)).filter s.fnHere

/-- ENABLING begins. -/
def State.beginEnabling (s : State) : Fn → State
  | .ring n => s.enableReq (ringAddr Reg.dcRingCtrl n)
  | .enginePair d e => s.epEnable d e
  | .mover d n => s.enableReq (Reg.mvCtrl d n)
  | .flow f => s.flowEnable f
  | .coursePair d p => s.coursePairEnable d p
  | .domain d => s.domainEnable d

/-- Sstc: a hart's supervisor timer interrupt is pending while the timer of its running host die has reached what its stimecmp
holds (R348). -/
def State.compareTimers (s : State) : State :=
  { s with host := { s.host with
      stip := (s.host.stimecmp.filter (fun p => s.dieState (hartDie p.1) == 2)).foldl (fun m p =>
        if p.2.toNat ≤ s.mtime (hartDie p.1) then setInsert m p.1 else setErase m p.1) s.host.stip } }

/-- One cycle passes. A write that follows others and waits for an external host is tried again (R84, R366). -/
def State.cycle (s : State) : State := s.latched.foldl State.beginEnabling s.tick.compareTimers.releaseGuards

end Sys2Proof.Machine
end

