-- ==== Sys2Proof/Machine/Boot.lean ====
section
/-! DEFINITION. Start, images, the counter, set-up rights and the SPDM responder (R387, R390, R424-R436, R442). -/

namespace Sys2Proof.Machine

/-! ### Image slots (R423, R428, R429) -/

def flashErased : Nat → Byte := fun _ => 0xFF

/-- Bytes of an image slot. -/
def slotSize : Nat := 0x20000000

def State.imgByte (s : State) (a : Nat) : Byte := lookup flashErased s.sm.imgFlash a
def State.imgBytes (s : State) (a n : Nat) : List Byte := (List.range n).map (fun i => s.imgByte (a + i))
def State.imgNat (s : State) (a n : Nat) : Nat := leNat (s.imgBytes a n)

/-- What R428 and R429 ask of the header at flash address `b`: its fields, a signing key whose digest the boot ROM holds, the
signature over bytes 0-167, and an svn of at least the counter. -/
def State.headerOk (s : State) (b : Nat) : Bool :=
  s.imgNat b 4 == 0x57464C59 && s.imgNat (b + 4) 4 == 1 && decide (1 ≤ s.imgNat (b + 16) 4 ∧ s.imgNat (b + 16) 4 ≤ 536870400) &&
  s.imgNat (b + 20) 4 == 0 && (s.imgBytes (b + 264) 248).all (· == 0) && decide (s.sm.counter.toNat ≤ s.imgNat (b + 12) 4) &&
  s.sm.romKeys.contains (sha384 (s.imgBytes (b + 72) 96)) &&
  ecdsaVerify (s.imgBytes (b + 72) 96) (sha384 (s.imgBytes b 168)) (s.imgBytes (b + 168) 96)

/-- The digest of the header matches the payload. -/
def State.payloadOk (s : State) (b : Nat) : Bool :=
  sha384 (s.imgBytes (b + 512) (s.imgNat (b + 16) 4)) == s.imgBytes (b + 24) 48

/-- A slot is valid (R429). -/
def State.slotOk (s : State) (b : Nat) : Bool := s.headerOk b && s.payloadOk b

/-- The slot to run: the higher version of the valid slots, A when equal. -/
def State.chooseSlot (s : State) : Option Nat :=
  let a := s.slotOk 0
  let b := s.slotOk slotSize
  if a && b then some (if s.imgNat 8 4 < s.imgNat (slotSize + 8) 4 then 1 else 0)
  else if a then some 0 else if b then some 1 else none

/-! ### Keys (R427) -/

/-- 48 bytes, the first the most significant, as a private scalar. -/
def scalarOf (bs : List Byte) : Nat := beNat bs % (bpOrder - 1) + 1

/-- "yl-ident", "yl-alias" and "yl-rpmc". -/
def infoIdent : List Byte := [0x79, 0x6C, 0x2D, 0x69, 0x64, 0x65, 0x6E, 0x74]
def infoAlias : List Byte := [0x79, 0x6C, 0x2D, 0x61, 0x6C, 0x69, 0x61, 0x73]
def infoRpmc : List Byte := [0x79, 0x6C, 0x2D, 0x72, 0x70, 0x6D, 0x63]

/-- The alias certificate: the identity key signs it, with a nonce. -/
def signAlias (ident aliasD nonce : Nat) : List Byte :=
  let tbs := Config.aliasTbs (publicKey aliasD)
  Config.aliasCert tbs (ecdsaSign ident nonce (sha384 tbs))

/-- The keys firmware derives from the seed and the running image's header, and the certificate it signs with a nonce. -/
def deriveKeys (seed : BitVec 256) (header : List Byte) (nonce : Nat) : SmKeys :=
  let k := leBytes 32 seed.toNat
  let ident := scalarOf (hkdf384 k infoIdent 48)
  let aliasD := scalarOf (hkdf384 (k ++ sha384 header) infoAlias 48)
  ⟨seed, ident, aliasD, hkdf384 k infoRpmc 32, signAlias ident aliasD nonce⟩

/-- The bits in which two byte strings differ; a byte that one of them lacks is wrong whole. -/
def wrongBits (a b : List Byte) : Nat :=
  (List.zipWith (fun x y => ((List.range 8).filter (fun i => x.getLsbD i != y.getLsbD i)).length) a b).sum +
    8 * ((a.length - b.length) + (b.length - a.length))

/-- The extractor corrects up to 15% of the bits of the 16 KiB wrong; beyond that what it yields is open (entry 21). -/
def fuzzySeed (puf helper : List Byte) : Option (BitVec 256) :=
  if 100 * wrongBits puf (Config.pufOf helper) ≤ 15 * 131072 then some (Config.pufSeed helper) else Config.pufBeyond puf helper

/-- The helper data: 4,096 bytes in chunks 0-85 of the journal. -/
def State.helperData (s : State) : Option (List Byte) :=
  ((List.range 86).mapM (fun k => (s.standing 0x40 k).map (fun r => leBytes 48 (rData r)))).map (fun cs => cs.flatten.take 4096)

/-- The identity seed, from the PUF and the helper data. -/
def State.identitySeed (s : State) (puf : List Byte) : Option (BitVec 256) := s.helperData.bind (fuzzySeed puf)

/-- The static address of the management target (R454): one that I3C reserves, or whose successor it reserves, is replaced. -/
def i3cReserved (a : Nat) : Bool :=
  decide (a < 0x08 ∨ 0x78 ≤ a) || [0x3E, 0x5E, 0x6E, 0x76, 0x7A, 0x7C, 0x7E, 0x7F].contains a

def State.i3cAddr (s : State) : Nat :=
  match s.winner.bind (fun w => (s.putFld Reg.jrStatus 28 28 w.1).setting 4) with
  | some a => if 0x08 ≤ a ∧ a ≤ 0x74 ∧ i3cReserved a = false ∧ i3cReserved (a + 1) = false then a else 0x3A
  | none => 0x3A

/-! ### Start (R390, R424-R426, R432) -/

/-- The start halts: every other die stays in reset. -/
def State.haltStart (s : State) (reason : Nat) : State :=
  let s := (s.putFld Reg.smBoot 31 28 15).putFld Reg.smBoot 27 24 reason
  ({ s with pins := { s.pins with pwrGood := false } } : State).alert 3

def startDies : List Nat := (List.range 40) ++ (List.range 18).map (· + 80)

/-- Stage 1: the journal is mounted and the start counted; on a full region the count waits for a compaction (R440). -/
def State.startJournal (s : State) (r gen : Nat) : State :=
  let s := (s.mount r gen).putFld Reg.smBoot 31 28 1
  let n := match s.standing 0x71 0 with
    | some x => rData x % 2 ^ 32
    | none => 0
  if s.regionFull then
    ({ s with sm := { s.sm with jwait := [⟨1, 0x71, 0, BitVec.ofNat 384 ((n + 1) % 2 ^ 32)⟩] } } : State).maybeCompact
  else s.jrAppend 0x71 52 false 0 ((n + 1) % 2 ^ 32)

/-- Stages 2 and 3: the image runs, the keys are derived, the mailbox is cleared and enabled. -/
def State.startFirmware (s : State) (slot : Nat) (keys : SmKeys) : State :=
  let b := slotSize * slot
  let s := (s.putFld Reg.smBoot 31 28 3).putFld Reg.smBoot 17 16 slot
  let s := (s.setReg Reg.smFwVer (BitVec.ofNat 32 (s.imgNat (b + 8) 4))).setReg Reg.smFwSvn (BitVec.ofNat 32 (s.imgNat (b + 12) 4))
  let s := (s.setReg Reg.smRbCount s.sm.counter).setFlag Reg.smBoot 19 true
  let s := match s.setting 2 with
    | some v => s.setReg Reg.pwCap (wset (wset 0 21 16 (v / 2 ^ 16)) 15 0 v)
    | none => s
  { s with mbx := [], mbxBad := [], sm := { s.sm with keys := some keys, mbxServed := true, mctpServed := true } }

/-- A die that fails to start in stage 4 is lost with reason 4, and those it attaches with reason 3 (R425). -/
def failDie (s : State) (die : Nat) : State :=
  let s := (s.putFld (Reg.tdDie die) 11 8 3).putFld (Reg.tdDie die) 7 4 4
  let s := (s.log 99 .dieStart die).setFlag Reg.smBoot 18 true
  let s := if isCd die then
      (attachedDies die).foldl (fun (s : State) d => (s.putFld (Reg.tdDie d) 11 8 3).putFld (Reg.tdDie d) 7 4 3) s
    else s
  s.alert 2

/-- Where firmware places the table of a home, as R359 shows it: at the top of the stack of R356. -/
def tableBase (home : Nat) : Nat := if isHd home then hbmBase (home - 48) + 0x17FFE00000 else hbmBase home + 0x17FFC00000

/-- The bias table of a home: HBM to DEV, host memory to SHR (R356). -/
def State.startTable (s : State) (home : Nat) : State :=
  let b := tableBase home
  let lo := BitVec.ofNat 32 (b % 2 ^ 32)
  let hi := BitVec.ofNat 32 (b / 2 ^ 32)
  let s := if isHd home then (s.setReg (Reg.hxBiasBaseLo home) lo).setReg (Reg.hxBiasBaseHi home) hi
           else (s.setReg (Reg.hcBiasBaseLo home) lo).setReg (Reg.hcBiasBaseHi home) hi
  let n := biasTableSize home
  let s : State := { s with poison := setEraseRange s.poison (b / 64) ((b + n) / 64) }
  if isHd home then s.putMem b (List.replicate n 0x55) else { s with mem := eraseRange s.mem b (b + n) }

/-- The granules that hold a table carry HELD. -/
def State.holdTable (s : State) (home : Nat) : State :=
  let b := tableBase home
  (List.range (biasTableSize home / 0x10000)).foldl (fun s i => s.setCode (ownerDie b) (granuleOf b + i) 3) s

/-- The compute die that a refused pair leaves unstarted, and a die that is attached by the pair (DESIGN CHOICE, entry 166: where the pair
joins two compute dies, or one and TD or SM, the die that the test names). -/
def refusedDie (t : PairTest) : Nat := match pairPeer t.die t.pair with
  | some d => if isIo d || isHd d then d else t.die
  | none => t.die

/-- The pair has refused ENABLING: it is OFF with err. -/
def State.pairRefused (s : State) (t : PairTest) : Bool :=
  (pairEnds t.die t.pair).any (fun e => s.fnState (Reg.cpCtrl e.1 e.2) == 0 && s.flag (Reg.cpCtrl e.1 e.2) 2)

/-- A die found not to start once courses train: its pairs are OFF, and it and those it attaches are lost (R425). -/
def failRunning (s : State) (die : Nat) : State :=
  if s.dieState die = 2 then
    let off (s : State) (d : Nat) : State := (pairsTo d).foldl (fun s p =>
      if s.fnState (Reg.cpCtrl p.1 p.2) = 0 then s
      else ((s.putFld (Reg.cpCtrl p.1 p.2) 6 4 0).setLink p.1 p.2 1).setModes p.1 p.2 0 0) s
    let gone := die :: (if isCd die then attachedDies die else [])
    failDie (gone.foldl (fun s d => (off s d).resetRegs d) s) die
  else s

/-- Every line of a stack is written as 0 with a valid code (R393). -/
def State.zeroStack (s : State) (die : Nat) : State :=
  { s with mem := eraseRange s.mem (hbmBase die) (hbmBase die + hbmSize)
           poison := setEraseRange s.poison (hbmBase die / 64) ((hbmBase die + hbmSize) / 64) }

/-- Firmware starts a die that TD released: its stack, what `dieRuns` sets up, and its assembly maps. -/
def State.bringUp (s : State) (die : Nat) : State :=
  ((if isCd die then s.zeroStack die else s).dieRuns die).loadMaps die

/-- Stage 4: TD_START, the dies that start, their stacks, courses, routes and tables (R384, R390, R393). -/
def State.startDiesUp (s : State) (e : StartEnv) : State :=
  let s := e.failed.foldl failDie (s.tdStart.putFld Reg.smBoot 31 28 4)
  let up := startDies.filter (fun d => s.dieState d == 1)
  let s := (up.foldl (fun (s : State) d => s.bringUp d) s).startPairs e.pairs up
  let s := (e.pairs.filter s.pairRefused).foldl (fun s t => failRunning s (refusedDie t)) s
  let homes := up.filter (fun d => (isCd d || isHd d) && s.dieState d == 2)
  let s := homes.foldl (fun (s : State) d => s.startTable d) s
  homes.foldl (fun (s : State) d => if s.dieDown (ownerDie (tableBase d)) then s else s.holdTable d) s

/-! ### Readmission (R348, R394) -/

/-- A readmitted die runs: firmware starts it as at stage 4 and sets a host die's timer; its pairs train when software enables
them. -/
def State.readmitted (s : State) (die : Nat) : State :=
  let s := s.bringUp die
  if isIo die then s
  else
    let s := if isHd die then s.setTimer die else s
    let s := s.startTable die
    if s.dieDown (ownerDie (tableBase die)) then s else s.holdTable die

def execDieReadmitDone (die : Nat) (ok : Bool) (s : State) : Host.Outcome State Fault Refusal :=
  .next (if ringBearing die && s.dieState die == 4 then
      (if ok then s.readmitted die else (s.putFld (Reg.tdDie die) 11 8 3).putFld (Reg.tdDie die) 7 4 4).evalAll
    else s)

/-- SM_DESC_0 to SM_DESC_11 (R436). -/
def State.descWords (s : State) : List Nat :=
  let mask (f : Nat → Nat) (n : Nat) : Nat := (List.range n).foldl (fun m i => m + (if s.dieState (f i) = 2 then 2 ^ i else 0)) 0
  [3, mask id 32, mask (· + 32) 8, 5 + 8 * 2 ^ 8, mask (· + 80) 8 + 2 ^ 8 * mask (· + 88) 10, 40, 20, 4096, 4096, 4096, 65536, 16000]

def State.writeDesc (s : State) : State :=
  (s.descWords.zipIdx).foldl (fun (s : State) w => s.setReg (Reg.smDesc w.2) (BitVec.ofNat 32 w.1)) s

/-- A hart as it leaves reset: in machine mode at the host boot section, a0 its number, a1 the base (R432). -/
def releasedHart (hart base : Nat) : HartSt :=
  ⟨hart, true, BitVec.ofNat 64 (base + 0x100000), (List.range 32).map (fun k =>
    if k = 10 then BitVec.ofNat 64 hart else if k = 11 then BitVec.ofNat 64 base else 0)⟩

/-- The host boot section, copied to the memory of the lowest host die that started; every hart there and on the other running
host dies leaves reset (R432). -/
def State.hostBoot (s : State) (slot : Nat) : State :=
  let pay := slotSize * slot + 512
  let len := s.imgNat (slotSize * slot + 16) 4
  let off := s.imgNat pay 8
  let n := s.imgNat (pay + 8) 8
  let ok := decide (64 ≤ len ∧ off % 64 = 0 ∧ 1 ≤ n ∧ n ≤ 67108864 ∧ off + n ≤ len) && (s.imgBytes (pay + 16) 48).all (· == 0)
  if !ok then (s.setFlag Reg.smBoot 18 true).alert 2
  else match (List.range 8).find? (fun h => s.dieState (80 + h) == 2) with
    | none => s
    | some b =>
      let base := hostBase b
      let block := leBytes 8 n ++ leBytes 8 b ++ List.replicate 48 0 ++ s.descWords.flatMap (leBytes 4) ++ List.replicate 3984 0
      let s := ((s.write (base + 0x100000) (s.imgBytes (pay + off) n)).1.write base block).1
      let runs := (List.range 192).filter (fun i => s.dieState (hartDie i) == 2)
      { s with host := { s.host with harts := runs.map (fun i => releasedHart i base) } }

/-- Stage 5: rights are set and locked, PWR_GOOD is asserted; auto_commit raises the counter. -/
def State.startRunning (s : State) : State :=
  let acl := (s.setting 3).getD 2 % 8
  let s := (s.putFld Reg.smBoot 31 28 5).setReg Reg.smSetupAcl (BitVec.ofNat 32 (2 ^ 31 + acl))
  let s : State := { s with
    pins := { s.pins with pwrGood := true }
    jtag := { s.jtag with ir := if s.jtag.ir = 0x00 ∨ s.jtag.ir = 0x03 then 0x02 else s.jtag.ir } }
  s.autoCommit

def State.moduleStart (s : State) (e : StartEnv) : State :=
  let s := s.setFlag Reg.tdRef 0 true
  if !e.romOk then s.haltStart 1
  else match s.winner with
    | none => s.haltStart 2
    | some (r, gen) =>
      let s := s.startJournal r gen
      match s.identitySeed e.puf with
      | none => s.haltStart 3
      | some seed =>
        let s := s.putFld Reg.smBoot 31 28 2
        match s.chooseSlot with
        | none => s.haltStart 4
        | some slot =>
          let (nonce, s) := s.freeBytes 48
          let keys := deriveKeys seed (s.imgBytes (slotSize * slot) 512) (scalarOf nonce)
          if !(e.counterOk && s.counterOpens keys) then s.haltStart 5
          else (((((s.startFirmware slot keys).startDiesUp e).writeDesc).hostBoot slot).startRunning).evalAll

/-- Power is on, REFCLK is good and TD has relocked to it, SM stands at the ROM stage, no reset is held and the safe state does not run. -/
def State.mayStart (s : State) : Bool :=
  s.controls && s.fld Reg.smBoot 31 28 == 0 && !s.flag Reg.tdRef 3 && !s.flag Reg.tdRef 2 && !s.pins.rst

def execModuleStart (env : StartEnv) (s : State) : Host.Outcome State Fault Refusal :=
  .next (if s.mayStart then s.moduleStart env else s)

/-! ### The counter (R430) -/

def execSmRbCommit (s : State) : Host.Outcome State Fault Refusal :=
  .next (if s.pins.powered && s.stage == 5 then s.beginCommit else s)

def execCounterWriteDone (s : State) : Host.Outcome State Fault Refusal :=
  .next (match s.sm.cwrite with
    | some v =>
      (({ s with sm := { s.sm with counter := v, cwrite := none } } : State).setReg Reg.smRbCount v).setFlag Reg.smRbCtrl 1 false
    | none => s)

/-! ### Image update (R431) -/

/-- The slot not running loses its header; the image is taken from host memory. -/
def State.fwupGo (s : State) : State :=
  let a := 2 ^ 32 * s.fld Reg.smFwupAddrHi 15 0 + 64 * s.fld Reg.smFwupAddrLo 31 6
  let n := (s.reg Reg.smFwupLen).toNat
  let slot := 1 - s.fld Reg.smBoot 17 16
  let ok := isHostMem a && isHostMem (a + n - 1) && !s.dieDown (ownerDie a) && !s.dieDown (ownerDie (a + n - 1)) &&
    !s.anyPoison a n && decide (512 < n ∧ n ≤ slotSize)
  let s := (s.setFlag Reg.smFwupCtrl 1 true).putFld Reg.smFwupCtrl 3 2 0
  { s with sm := { s.sm with
      imgFlash := eraseRange s.sm.imgFlash (slotSize * slot) (slotSize * slot + 512)
      fwup := some ⟨slot, if ok then s.bytes a n else [], ok⟩ } }

def execFwupGo (s : State) : Host.Outcome State Fault Refusal :=
  .next (if s.pins.powered && s.stage == 5 && s.sm.fwup.isNone then s.fwupGo else s)

/-- The update ends: what was written is verified as R429 verifies a slot. The flash fails to erase the slot, whose other bytes
then stay, or fails as the image is written. -/
def State.fwupDone (s : State) (u : FwUpdate) (eraseOk writeOk : Bool) : State :=
  let b := slotSize * u.slot
  let lo := eraseRange s.sm.imgFlash b (b + slotSize)
  let full : State := { s with sm := { s.sm with imgFlash := storeRun flashErased lo b u.image } }
  let ok := u.readable && full.slotOk b && decide (512 + full.imgNat (b + 16) 4 ≤ u.image.length)
  let bare : State := { s with sm := { s.sm with imgFlash := eraseRange full.sm.imgFlash b (b + 512) } }
  let kept : State := { s with sm := { s.sm with imgFlash := eraseRange s.sm.imgFlash b (b + 512) } }
  let (r, s) := if !eraseOk then ((3 : Nat), kept) else if !writeOk then (3, bare) else if ok then (1, full) else (2, bare)
  ((({ s with sm := { s.sm with fwup := none } } : State).setFlag Reg.smFwupCtrl 1 false).putFld Reg.smFwupCtrl 3 2 r)

def execFwupDone (eraseOk writeOk : Bool) (s : State) : Host.Outcome State Fault Refusal :=
  .next (match s.sm.fwup with
    | some u => s.fwupDone u eraseOk writeOk
    | none => s)

/-! ### Set-up rights (R435, R442) -/

/-- SM_SETUP_ACL: unchanged once locked; lock is set by writing 1. -/
def State.aclWrite (s : State) (v : Word) : State :=
  let a := Reg.smSetupAcl
  if s.flag a 31 then s else s.setReg a (wset (wset 0 2 0 (wfld v 2 0)) 31 31 (wfld v 31 31))

def execSetupAclWrite (req : Requester) (value : Word) (s : State) : Host.Outcome State Fault Refusal :=
  .next (match s.setupMeets req true Reg.smSetupAcl with
    | some (d, k) => s.refuseSetup req true d k Reg.smSetupAcl
    | none => s.aclWrite value)

/-! ### SPDM (R424 note 2, R433, R434) -/

/-- The path reaches the responder: the MCTP target is served, or the endpoint's port is up in mode 2. -/
def State.spdmReach (s : State) (p : SpdmPath) : Bool :=
  s.controls && !s.pins.rst &&
  (match p with
   | .mctp => s.sm.mctpServed
   | .doe io => decide (io < 2) && s.pcieMode io == 2 && s.pcieUp io && !s.dieDown (ioDie io) && !s.dieDown 23)

/-- SPDM error codes of DSP0274. -/
def spdmInvalid : Nat := 0x01
def spdmBusy : Nat := 0x03
def spdmUnexpected : Nat := 0x04
def spdmUnsupported : Nat := 0x07
def spdmNotReady : Nat := 0x42

/-- A request of the other path may be running. -/
def State.otherPath (s : State) (p : SpdmPath) : Bool := [.mctp, .doe 0, .doe 1].any (fun q => q != p && s.spdmReach q)

/-- A request is answered once stage 5 is reached, with ResponseNotReady before; `busy` says that it arrives while a request of the
other path runs. -/
def State.spdm (s : State) (p : SpdmPath) (busy : Bool) (act : State → State) : State :=
  if !s.spdmReach p then s
  else if s.stage ≠ 5 then s.emit (.spdmError p spdmNotReady)
  else if busy && s.otherPath p then s.emit (.spdmError p spdmBusy)
  else act s

/-- A response goes out: over MCTP in units of 64 bytes, the first of which also holds the message type; over DOE whole. -/
def State.spdmSend (s : State) (p : SpdmPath) (d : List Byte) : State :=
  match p with
  | .mctp => (d.take 63 :: piecesOf 64 d.length (d.drop 63)).foldl (fun s x => s.emit (.spdm p x)) s
  | .doe _ => s.emit (.spdm p d)

/-- VERSION: 1.2 and 1.3. -/
def State.spdmVersion (s : State) (p : SpdmPath) : State :=
  ({ s with sm := { s.sm with spdmVer := p :: s.sm.spdmVer.filter (· != p), spdmAlg := s.sm.spdmAlg.filter (· != p) } } : State).spdmSend p
    ([0x10, 0x04, 0, 0, 0, 2, 0x00, 0x12, 0x00, 0x13])

def execGetVersion (path : SpdmPath) (s : State) (busy : Bool := false) : Host.Outcome State Fault Refusal :=
  .next (s.spdm path busy (fun s => s.spdmVersion path))

/-- CAPABILITIES: CERT, CHAL and MEAS with signature; no key exchange, no session. -/
def execGetCapabilities (path : SpdmPath) (s : State) (busy : Bool := false) : Host.Outcome State Fault Refusal :=
  .next (s.spdm path busy (fun s =>
    if s.sm.spdmVer.contains path then s.spdmSend path ([0x13, 0x61, 0, 0, 0, 0, 0, 0] ++ leBytes 4 0x16)
    else s.emit (.spdmError path spdmUnexpected)))

/-- ALGORITHMS: SHA-384, no BaseAsym, the ExtAsym entry of enterprise 59,813. -/
def algorithms : List Byte :=
  [0x13, 0x63, 0, 0] ++ leBytes 4 0x02 ++ leBytes 4 0 ++ leBytes 2 59813 ++ leBytes 2 1

def State.negotiate (s : State) (p : SpdmPath) (extAsym : Bool) : State :=
  if !s.sm.spdmVer.contains p then s.emit (.spdmError p spdmUnexpected)
  else if !extAsym then s.emit (.spdmError p spdmUnsupported)
  else ({ s with sm := { s.sm with spdmAlg := p :: s.sm.spdmAlg.filter (· != p) } } : State).spdmSend p algorithms

def execNegotiateAlgorithms (path : SpdmPath) (extAsym : Bool) (s : State) (busy : Bool := false) : Host.Outcome State Fault Refusal :=
  .next (s.spdm path busy (fun s => s.negotiate path extAsym))

/-- The certificates of a slot in the journal: its chunks in order. -/
def State.certChunks (s : State) (slot : Nat) : Nat → Nat → List Byte
  | 0, _ => []
  | n + 1, k =>
    match s.standing 0x50 (2 ^ 16 * slot + k) with
    | some r => leBytes (r.toNat / 2 ^ 48 % 2 ^ 8 - 4) (rData r) ++ s.certChunks slot n (k + 1)
    | none => []

/-- The 512 bytes of the running image's header. -/
def State.imageHeader (s : State) : List Byte := s.imgBytes (slotSize * s.fld Reg.smBoot 17 16) 512

/-- Slot 0: root, identity and alias certificate; slot 1: identity and alias certificate. -/
def State.certChain (s : State) (slot : Nat) : List Byte :=
  s.certChunks slot 65536 0 ++ (match s.sm.keys with | some k => k.cert | none => [])

def State.certificate (s : State) (p : SpdmPath) (slot offset length : Nat) : State :=
  if !s.sm.spdmAlg.contains p then s.emit (.spdmError p spdmUnexpected)
  else if 1 < slot then s.emit (.spdmError p spdmInvalid)
  else
    let c := s.certChain slot
    let part := (c.drop offset).take length
    let rest := c.length - offset - part.length
    s.spdmSend p ([0x13, 0x02, BitVec.ofNat 8 slot, 0] ++ leBytes 2 part.length ++ leBytes 2 rest ++ part)

def execGetCertificate (path : SpdmPath) (slot offset length : Nat) (s : State) (busy : Bool := false) : Host.Outcome State Fault Refusal :=
  .next (s.spdm path busy (fun s => s.certificate path slot offset length))

/-- A response signed with the alias key, with a free nonce. -/
def State.spdmSigned (s : State) (p : SpdmPath) (body : List Byte) : State :=
  let (nonce, s) := s.freeBytes 48
  s.spdmSend p (body ++ (match s.sm.keys with
    | some k => ecdsaSign k.aliasD (scalarOf nonce) (sha384 (Config.spdmMessage body))
    | none => []))

/-- Measurements 1-5. -/
def State.measurement (s : State) (n : Nat) : List Byte :=
  match n with
  | 1 => Config.romDigest
  | 2 => sha384 s.imageHeader
  | 3 => leBytes 4 (s.reg Reg.smFwVer).toNat ++ leBytes 4 (s.reg Reg.smFwSvn).toNat ++ leBytes 4 (s.fld Reg.smBoot 17 16) ++
      leBytes 4 s.sm.counter.toNat
  | 4 => sha384 ((s.allStanding.filter (fun r => rType r == 0x60)).flatMap (fun r => leBytes 64 r.toNat))
  | _ => (List.range 12).flatMap (fun i => leBytes 4 (s.reg (Reg.smDesc i)).toNat)

def State.challenge (s : State) (p : SpdmPath) (slot : Nat) (nonce : BitVec 256) : State :=
  if !s.sm.spdmAlg.contains p then s.emit (.spdmError p spdmUnexpected)
  else if 1 < slot then s.emit (.spdmError p spdmInvalid)
  else
    let (own, s) := s.freeBytes 32
    s.spdmSigned p ([0x13, 0x03, BitVec.ofNat 8 slot, 3] ++ sha384 (s.certChain slot) ++ own ++ leBytes 32 nonce.toNat)

def execChallenge (path : SpdmPath) (slot : Nat) (nonce : BitVec 256) (s : State) (busy : Bool := false) : Host.Outcome State Fault Refusal :=
  .next (s.spdm path busy (fun s => s.challenge path slot nonce))

/-- MEASUREMENTS: index 0 asks how many there are, 0xFF for all. -/
def State.measurements (s : State) (p : SpdmPath) (ix : Nat) (nonce : BitVec 256) : State :=
  if !s.sm.spdmAlg.contains p then s.emit (.spdmError p spdmUnexpected)
  else if 5 < ix ∧ ix ≠ 255 then s.emit (.spdmError p spdmInvalid)
  else
    let ns := if ix = 0 then [] else if ix = 255 then [1, 2, 3, 4, 5] else [ix]
    let blocks := ns.flatMap (fun n => [BitVec.ofNat 8 n] ++ leBytes 2 (s.measurement n).length ++ s.measurement n)
    let (own, s) := s.freeBytes 32
    s.spdmSigned p ([0x13, 0x60, if ix = 0 then 5 else 0, 0, BitVec.ofNat 8 ns.length] ++ leBytes 3 blocks.length ++
      blocks ++ own ++ leBytes 32 nonce.toNat)

def execGetMeasurements (path : SpdmPath) (index : Nat) (nonce : BitVec 256) (s : State) (busy : Bool := false) :
    Host.Outcome State Fault Refusal :=
  .next (s.spdm path busy (fun s => s.measurements path index nonce))

/-! ### MCTP control (R454) -/

/-- The answer to a control request of DSP0236: Set and Get Endpoint ID, version and message-type support; every other command is
not supported. -/
def State.mctpControl (s : State) (d : List Byte) : State :=
  let h := d.getD 0 0
  let c := (d.getD 1 0).toNat
  let rsp (b : List Byte) : List Byte := [h &&& 0x1F, BitVec.ofNat 8 c] ++ b
  if c = 1 then
    let e := d.getD 3 0
    if e = 0 ∨ e = 0xFF then s.emit (.mctp (rsp [0x02]))
    else ({ s with sm := { s.sm with mctpEid := e } } : State).emit (.mctp (rsp [0x00, 0x00, e, 0x00]))
  else if c = 2 then s.emit (.mctp (rsp [0x00, s.sm.mctpEid, 0x00, 0x00]))
  else if c = 4 then s.emit (.mctp (rsp ([0x00, 0x01] ++ [0xF1, 0xF3, 0xF1, 0x00])))
  else if c = 5 then s.emit (.mctp (rsp [0x00, 0x02, 0x00, 0x05]))
  else s.emit (.mctp (rsp [0x05]))

def execMctpControlMessage (data : List Byte) (s : State) : Host.Outcome State Fault Refusal :=
  .next (if s.sm.mctpServed && !s.pins.rst then s.mctpControl data else s)

end Sys2Proof.Machine
end

