-- ==== Sys2Proof/Machine/Mailbox.lean ====
section
/-! DEFINITION. The mailbox: its words and their aliases, the external requester's transfers, collisions, and the claim
(R257-R261). -/

namespace Sys2Proof.Machine

/-- SM answers on the management bus: from the ROM stage on, and not while MOD_RESET_N holds it (R424, R454 note 4, R462). -/
def State.smUp (s : State) : Bool := s.dieState 99 == 2 && !s.pins.rst

def mbxDefault : Nat → Word := fun _ => 0

/-- Words of the mailbox (R257). -/
def mbxWords : Nat := 16384

def State.mbxWord (s : State) (w : Nat) : Word := lookup mbxDefault s.mbx w

/-! ### One access to the array (R257-R259) -/

/-- What a write, set or clear makes of a word. -/
def mbApply (k : MbKind) (old v : Word) : Word :=
  match k with
  | .read => old
  | .write => v
  | .set => old ||| v
  | .clear => old &&& ~~~ v

/-- A write, set or clear of a word. A plain write makes a word correct again. -/
def State.mbStore (s : State) (a : MbAccess) : State :=
  match a.kind with
  | .read => s
  | .write => { s with mbx := store mbxDefault s.mbx a.word a.value, mbxBad := setErase s.mbxBad a.word }
  | .set => { s with mbx := store mbxDefault s.mbx a.word (mbApply .set (s.mbxWord a.word) a.value) }
  | .clear => { s with mbx := store mbxDefault s.mbx a.word (mbApply .clear (s.mbxWord a.word) a.value) }

/-- A read of a word: its value and whether it is uncorrectable; either reader sets ecc_ue (R258). -/
def State.mbLoad (s : State) (w : Nat) : State × Word × Bool :=
  if s.mbxBad.contains w then (s.setFlag Reg.mbStatus 3 true, 0xFFFFFFFF, true) else (s, s.mbxWord w, false)

def State.mbxBusy (s : State) : State :=
  s.setFlag Reg.pwPins 5 (s.flag Reg.mbClaim 1 || s.pins.mbxPulse)

/-- A same-word case with a write (R259). -/
def State.mbCollide (s : State) (w : Nat) : State :=
  let s := (s.setFlag Reg.mbStatus 1 true).setReg Reg.mbCollideIx (BitVec.ofNat 32 w)
  ({ s with pins := { s.pins with mbxPulse := true } } : State).mbxBusy

/-- What the external requester reads of a word. -/
def State.mbExt (s : State) (a : MbAccess) : State × List Byte :=
  match a.kind with
  | .read =>
    let (s, v, _) := s.mbLoad a.word
    (s, leBytes 4 v.toNat)
  | _ => (s.mbStore a, [])

/-- The internal requesters: SM's firmware and the host cores (R257). -/
def internalReq (req : Requester) : Bool :=
  match req with
  | .smFirmware => true
  | .hostMachine h => decide (h < 192)
  | .hostUser h => decide (h < 192)
  | _ => false

/-- The answer to an internal read: a word, or a load access fault for an uncorrectable one (R258). -/
def State.mbAnswer (s : State) (req : Requester) (v : Word) (bad : Bool) : State :=
  match req with
  | .hostMachine h => s.emit (if bad then .coreFault h 5 else .coreData h (leBytes 4 v.toNat))
  | .hostUser h => s.emit (if bad then .coreFault h 5 else .coreData h (leBytes 4 v.toNat))
  | _ => s.emit (if bad then .accessFault req false else .setupData req v)

/-- An internal access: a read answers its requester. -/
def State.mbInt (s : State) (req : Requester) (a : MbAccess) : State :=
  match a.kind with
  | .read =>
    let (s, v, bad) := s.mbLoad a.word
    s.mbAnswer req v bad
  | _ => s.mbStore a

def isMbRead (k : MbKind) : Bool := match k with | .read => true | _ => false

/-- Both requesters in one cycle (R259). A read that meets a write of its word gets a free value. -/
def State.mbBoth (s : State) (req : Requester) (i e : MbAccess) : State × List Byte :=
  if i.word ≠ e.word then
    let (s, bs) := s.mbExt e
    (s.mbInt req i, bs)
  else match isMbRead i.kind, isMbRead e.kind with
    | true, true =>
      let (s, bs) := s.mbExt e
      (s.mbInt req i, bs)
    | false, true =>
      let (v, s) := (s.mbStore i).freeWord
      (s.mbCollide e.word, leBytes 4 v.toNat)
    | true, false =>
      let (v, s) := (s.mbStore e).freeWord
      ((s.mbCollide e.word).mbAnswer req v false, [])
    | false, false => (((s.mbStore i).mbStore e).mbCollide e.word, [])

/-! ### Transfers of the external requester (R258, R260, R455) -/

/-- A private transfer addresses the management target. -/
def State.i3cBegin (s : State) (wrote : Bool) : State :=
  let s := if s.sm.i3c.isNone && s.flag Reg.mbClaim 1 then s.setFlag Reg.mbStatus 4 true else s
  let s := s.setFlag Reg.mbStatus 0 true
  { s with sm := { s.sm with i3c := some (wrote || s.sm.i3c.getD false) } }

/-- A transfer that SM does not serve (R455). -/
def State.i3cIgnore (s : State) (first : Nat) (reads : Nat) : State :=
  let s := (s.i3cBegin false).log 99 .i3cIgnored first 0 .nobody (if reads = 0 then .write else .read)
  if reads = 0 then s else s.emit (.i3cBytes (List.replicate reads 0xFF))

/-- The accesses of a transfer, word after word from an index, each with the internal access of its cycle if there is one. -/
def State.mbWalk (s : State) (intl : List (Nat × Requester × MbAccess)) : Nat → List MbAccess → State × List Byte
  | _, [] => (s, [])
  | k, e :: es =>
    let (s, bs) := match intl.find? (fun p => decide (p.1 = k)) with
      | some (_, req, i) => if internalReq req then s.mbBoth req i e else s.mbExt e
      | none => s.mbExt e
    let (s, rest) := s.mbWalk intl (k + 1) es
    (s, bs ++ rest)

/-- The accesses of a transfer: the index continues at 0 after the last word. -/
def mbAccesses (k : MbKind) (index : Nat) : Nat → List Word → List MbAccess
  | _, [] => []
  | n, v :: vs => ⟨(index + n) % mbxWords, k, v⟩ :: mbAccesses k index (n + 1) vs

/-- Whole words of a transfer's data; a word of which fewer than 4 bytes arrived is discarded. -/
def wordsIn (data : List Byte) : List Word := (numsOf 4 (data.length / 4) data).map (BitVec.ofNat 32)

/-- A write, set or clear transfer up to its STOP. -/
def State.mbTransfer (s : State) (k : MbKind) (code index : Nat) (data : List Byte) (intl : List (Nat × Requester × MbAccess)) : State :=
  if !s.smUp then s
  else if !s.sm.mbxServed then s.i3cIgnore code 0
  else ((s.i3cBegin true).mbWalk intl 0 (mbAccesses k index 0 (wordsIn data))).1

def execMailboxWrite (index : Nat) (data : List Byte) (intl : List (Nat × Requester × MbAccess)) (s : State) :
    Host.Outcome State Fault Refusal :=
  .next (s.mbTransfer .write 0x02 index data intl)

def execMailboxSet (index : Nat) (data : List Byte) (intl : List (Nat × Requester × MbAccess)) (s : State) :
    Host.Outcome State Fault Refusal :=
  .next (s.mbTransfer .set 0x03 index data intl)

def execMailboxClear (index : Nat) (data : List Byte) (intl : List (Nat × Requester × MbAccess)) (s : State) :
    Host.Outcome State Fault Refusal :=
  .next (s.mbTransfer .clear 0x04 index data intl)

/-- A read transfer; `bad` are words that turn out uncorrectable. -/
def State.mbReadTransfer (s : State) (index count : Nat) (intl : List (Nat × Requester × MbAccess)) (bad : List Nat) : State :=
  if !s.smUp then s
  else if !s.sm.mbxServed then s.i3cIgnore 0x01 (4 * count)
  else
    let s := s.i3cBegin false
    let s := { s with mbxBad := bad.foldl setInsert s.mbxBad }
    let (s, bs) := s.mbWalk intl 0 (mbAccesses .read index 0 (List.replicate count 0))
    s.emit (.i3cBytes bs)

def execMailboxRead (index count : Nat) (intl : List (Nat × Requester × MbAccess)) (bad : List Nat) (s : State) :
    Host.Outcome State Fault Refusal :=
  .next (s.mbReadTransfer index count intl bad)

/-! ### Internal accesses (R257) -/

/-- An internal write, with the external access of its cycle if there is one. -/
def State.mbInternal (s : State) (req : Requester) (k : MbKind) (word : Nat) (value : Word) (ext : Option MbAccess) : State :=
  if !s.smUp || !internalReq req then s
  else match ext with
    | none => s.mbStore ⟨word % mbxWords, k, value⟩
    | some e =>
      let (s, bs) := s.mbBoth req ⟨word % mbxWords, k, value⟩ e
      if bs.isEmpty then s else s.emit (.i3cBytes bs)

def execMailboxInternalWrite (req : Requester) (word : Nat) (value : Word) (s : State) (ext : Option MbAccess := none) :
    Host.Outcome State Fault Refusal :=
  .next (s.mbInternal req .write word value ext)

def execMailboxSetAliasWrite (req : Requester) (word : Nat) (value : Word) (s : State) (ext : Option MbAccess := none) :
    Host.Outcome State Fault Refusal :=
  .next (s.mbInternal req .set word value ext)

def execMailboxClearAliasWrite (req : Requester) (word : Nat) (value : Word) (s : State) (ext : Option MbAccess := none) :
    Host.Outcome State Fault Refusal :=
  .next (s.mbInternal req .clear word value ext)

/-! ### The claim (R260) -/

/-- A pending claim is granted when no external transfer is in progress. -/
def State.grantClaim (s : State) : State :=
  if s.flag Reg.mbClaim 0 && s.sm.i3c.isNone then (s.setFlag Reg.mbClaim 1 true).mbxBusy else s

def State.claimWrite (s : State) (claim : Bool) : State :=
  if claim then (s.setFlag Reg.mbClaim 0 true).grantClaim
  else ((s.setFlag Reg.mbClaim 0 false).setFlag Reg.mbClaim 1 false).mbxBusy

def execMbClaim (claim : Bool) (s : State) : Host.Outcome State Fault Refusal :=
  .next (if s.smUp then s.claimWrite claim else s)

/-- The transfer in progress has ended. -/
def State.i3cEnd (s : State) : State :=
  (({ s with sm := { s.sm with i3c := none } } : State).setFlag Reg.mbStatus 0 false).grantClaim

/-- A STOP. -/
def State.i3cStop (s : State) : State :=
  match s.sm.i3c with
  | none => s
  | some wrote =>
    let s := if wrote then
        let s := s.setFlag Reg.mbStatus 5 true
        if s.flag Reg.mbIrq 24 then s.interrupt 99 (s.fld Reg.mbIrq 23 0) else s
      else s
    s.i3cEnd

def execI3cTransferEnd (s : State) : Host.Outcome State Fault Refusal :=
  .next (if s.smUp then s.i3cStop else s)

/-- The claim has been held for 100 ms. -/
def execClaimTimeout (s : State) : Host.Outcome State Fault Refusal :=
  .next (if s.smUp && s.flag Reg.mbClaim 1 then (s.claimWrite false).setFlag Reg.mbStatus 2 true else s)

/-- The 2 µs of a collision are over (R259). -/
def execMbxBusyPulseEnd (s : State) : Host.Outcome State Fault Refusal :=
  .next (({ s with pins := { s.pins with mbxPulse := false } } : State).mbxBusy)

end Sys2Proof.Machine
end

