-- ==== Sys2Proof/Machine/Pins.lean ====
section
/-! DEFINITION. The management connector: power, reset and throttle pins, alerts, the I3C targets and JTAG (R447-R456, R462). -/

namespace Sys2Proof.Machine

/-! ### PWR_EN (R449, R458) -/

/-- PWR_EN accepted high: the module starts once the input lies inside 51.0-59.0 V; after a safe state only once PWR_EN has been
low. -/
def State.pwrEnHigh (s : State) (volt : Nat) : State :=
  if s.pins.powered then s.setFlag Reg.pwPins 0 true
  else if !s.pins.armed then s
  else if 5100 ≤ volt ∧ volt ≤ 5900 then s.powerOn
  else
    let s := s.setFlag Reg.pwPins 0 true
    { s with pins := { s.pins with startWait := true } }

def execPwrEnHigh (volt : Nat) (s : State) : Host.Outcome State Fault Refusal := .next (s.pwrEnHigh volt)

/-- The samples of the input during the shutdown: one that makes two in a row outside 50.0-59.5 V enters the safe state, cause 1
(R458), whose record waits for a later one in range (R462). -/
def State.shutSample (s : State) (v : Nat) : State :=
  let s := s.voltSample v
  if s.isSafe then s.safeSample else if 2 ≤ s.pw.outRange then s.safeState 1 else s

/-- PWR_EN accepted low: work stops, keys are cleared and the rails go; or the next start is armed. `volts` are the input's samples
until the rails go. -/
def State.pwrEnLow (s : State) (volts : List Nat) : State :=
  let s := if s.pins.powered then (volts.foldl State.shutSample s.stopAll).railsOff else s
  let s := (s.setFlag Reg.pwPins 0 false).setFlag Reg.pwPins 1 false
  { s with pins := { s.pins with armed := true, startWait := false, thrSeen := false, thrInt := false, thrCol := false,
                                 rst := false, rstInt := false, rstCol := false } }

def execPwrEnLow (s : State) (volts : List Nat := []) : Host.Outcome State Fault Refusal := .next (s.pwrEnLow volts)

/-! ### MOD_RESET_N (R450, R462) -/

/-- The module responds to a level of THROTTLE_N and an interval of 100 microseconds begins. -/
def State.throttleRespond (s : State) (rsp level : Bool) : State :=
  let s := (s.setFlag Reg.pwPins 3 rsp).setFlag Reg.pwStatus 1 rsp
  { s with pins := { s.pins with thrInt := true, thrSeen := level, thrCol := false } }

/-- The whole module but its supply, with the supply's check, and TD's reference is reset: memories, flashes and the fault logs keep
what they hold. A THROTTLE_N that is held active is responded to afresh (R408). -/
def State.modReset (s : State) : State :=
  let s := s.stopAll.cutWrites
  let t : State := { s.cold with mem := s.mem, poison := s.poison, jtag := s.jtag, pins := { State.reset.pins with armed := s.pins.armed } }
  let t : State := { t with pw := { t.pw with outRange := s.pw.outRange } }
  let t := (t.setReg Reg.tdRef (s.reg Reg.tdRef)).setFlag Reg.pwPins 1 (s.flag Reg.pwPins 1)
  let t := t.setFlag Reg.pwPins 2 (s.flag Reg.pwPins 2)
  if s.flag Reg.pwPins 2 then t.throttleRespond true true else t

/-- The module responds to a level of MOD_RESET_N, once at the level, and an interval of 100 microseconds begins (R448): it resets, or SM
restarts at the ROM stage. -/
def State.resetRespond (s : State) (active : Bool) : State :=
  let t := if active && !s.pins.rst && s.pins.powered then s.modReset else s
  { t with pins := { t.pins with rst := active, rstInt := true, rstCol := false } }

/-- An accepted change of MOD_RESET_N: acted on at once after a quiet period, collected within an interval. -/
def State.resetChange (s : State) (active : Bool) : State :=
  let s := s.setFlag Reg.pwPins 1 active
  if s.pins.rstInt then { s with pins := { s.pins with rstCol := true } } else s.resetRespond active

/-- The interval of MOD_RESET_N ends: the level now accepted is responded to where changes were collected; otherwise the pin is
quiet. -/
def State.resetEnd (s : State) : State :=
  if s.pins.rstCol then s.resetRespond (s.flag Reg.pwPins 1) else { s with pins := { s.pins with rstInt := false } }

/-- MOD_RESET_N is heeded: PWR_EN is accepted high, and no safe state runs (R450, R462). -/
def State.resetHeeded (s : State) : Bool := s.flag Reg.pwPins 0 && !s.isSafe

def execModResetAssert (s : State) : Host.Outcome State Fault Refusal :=
  .next (if s.resetHeeded && !s.flag Reg.pwPins 1 then s.resetChange true else s)

def execModResetRelease (s : State) : Host.Outcome State Fault Refusal :=
  .next (if s.resetHeeded && s.flag Reg.pwPins 1 then s.resetChange false else s)

def execModResetHeld (s : State) : Host.Outcome State Fault Refusal :=
  .next (if s.pins.powered && s.pins.rst then s.alert 5 else s)

/-! ### THROTTLE_N (R408, R448, R451) -/

/-- An accepted change: acted on at once after a quiet period, collected within an interval. -/
def State.throttleChange (s : State) (active : Bool) : State :=
  let s := s.setFlag Reg.pwPins 2 active
  if s.pins.thrInt then { s with pins := { s.pins with thrSeen := s.pins.thrSeen || active, thrCol := true } }
  else s.throttleRespond active active

def execThrottleNChange (active : Bool) (s : State) : Host.Outcome State Fault Refusal :=
  .next (if s.pins.powered then s.throttleChange active else s)

/-- The interval ends: an active level at any time in it counts as active. With no change collected and nothing left to respond to, the
pin is quiet. -/
def State.throttleEnd (s : State) : State :=
  let cur := s.flag Reg.pwPins 2
  let level := cur || s.pins.thrSeen
  if s.pins.thrCol = false ∧ level = s.flag Reg.pwPins 3 ∧ level = cur then
    { s with pins := { s.pins with thrInt := false, thrSeen := false } }
  else s.throttleRespond level cur

/-- The 100 microseconds of THROTTLE_N, or with `reset` of MOD_RESET_N, have passed. -/
def execThrottleIntervalEnd (s : State) (reset : Bool := false) : Host.Outcome State Fault Refusal :=
  .next (if reset then (if s.resetHeeded && s.pins.rstInt then s.resetEnd else s)
    else if s.pins.powered && s.pins.thrInt then s.throttleEnd else s)

/-- The response state has been active for 60 s. -/
def execThrottleStuck (s : State) : Host.Outcome State Fault Refusal :=
  .next (if s.pins.powered && s.flag Reg.pwPins 3 then s.alert 4 else s)

/-! ### PW_ALERT (R452, R453) -/

/-- A W1C write; halted is read only. -/
def State.alertClear (s : State) (v : Word) : State :=
  (s.setReg Reg.pwAlert (s.reg Reg.pwAlert &&& ~~~ (v &&& 0x37#32))).driveAlert

def execPwAlertClear (value : Word) (s : State) : Host.Outcome State Fault Refusal :=
  .next (if s.smUp then s.alertClear value else s)

/-! ### The management target's own commands (R455) -/

def State.statusBlock (s : State) : List Byte :=
  [Reg.smBoot, Reg.pwStatus, Reg.pwSafeCause, Reg.pwInput, Reg.pwCoolant, Reg.pwAlert].flatMap (fun a => leBytes 4 (s.reg a).toNat)

def execReadStatusBlock (s : State) : Host.Outcome State Fault Refusal :=
  .next (if s.smUp then (s.i3cBegin false).emit (.i3cBytes s.statusBlock) else s)

/-- Command 0x11; a word of which fewer than 4 bytes arrive is discarded. -/
def execClearAlerts (value : Word) (s : State) (bytes : Nat := 4) : Host.Outcome State Fault Refusal :=
  .next (if s.smUp then (if 4 ≤ bytes then (s.i3cBegin false).alertClear value else s.i3cBegin false) else s)

def execI3cTransferTimeout (s : State) : Host.Outcome State Fault Refusal :=
  .next (if s.smUp && s.sm.i3c.isSome then s.i3cEnd else s)

/-- An unknown first byte is ignored and logged; a read that no command precedes returns 0xFF. -/
def State.i3cUnknown (s : State) (first : Option Byte) (reads : Nat) : State :=
  match first with
  | some b => s.i3cIgnore b.toNat reads
  | none => (s.i3cBegin false).emit (.i3cBytes (List.replicate reads 0xFF))

def execI3cUnknownCommand (first : Option Byte) (reads : Nat) (s : State) : Host.Outcome State Fault Refusal :=
  .next (if s.smUp then s.i3cUnknown first reads else s)

/-! ### Common command codes (R454) -/

/-- The target answers: the management target from the ROM stage, the MCTP target from stage 3. -/
def State.targetUp (s : State) (mctp : Bool) : Bool := s.smUp && s.pins.powered && (!mctp || s.sm.mctpServed)

def State.hasAddr (s : State) (mctp : Bool) : Bool := s.sm.dynAddr.any (fun p => p.1 == mctp)

def State.setAddr (s : State) (mctp : Bool) (a : BitVec 7) : State :=
  { s with sm := { s.sm with dynAddr := (mctp, a) :: s.sm.dynAddr.filter (fun p => p.1 != mctp) } }

/-- BCR: a target only, without in-band interrupts or HDR modes; the other bits are open (entry 1). -/
def bcr (mctp : Bool) : Byte := Config.i3cBcr mctp &&& 0x19

def ccc (mctp : Bool) (act : State → State) (s : State) : State := if s.targetUp mctp then act s else s.emit .i3cNoAck

/-- The static address of a target (R454). -/
def State.staticAddr (s : State) (mctp : Bool) : Nat := if mctp then s.i3cAddr + 1 else s.i3cAddr

/-- A target without a dynamic address takes the one sent to its static address; `dest` is the address the controller sends to, none for
the target's own. -/
def execSetdasa (mctp : Bool) (addr : BitVec 7) (s : State) (dest : Option (BitVec 7) := none) : Host.Outcome State Fault Refusal :=
  .next (ccc mctp (fun s =>
    if s.hasAddr mctp || dest.any (fun d => decide (d.toNat ≠ s.staticAddr mctp)) then s.emit .i3cNoAck
    else (s.setAddr mctp addr).emit .i3cAck) s)

/-- A target without a dynamic address sends its identity and takes the address assigned. -/
def execEntdaa (mctp : Bool) (addr : BitVec 7) (s : State) : Host.Outcome State Fault Refusal :=
  .next (ccc mctp (fun s =>
    if s.hasAddr mctp then s.emit .i3cNoAck
    else ((s.emit (.i3cBytes (Config.i3cPid mctp ++ [bcr mctp, Config.i3cDcr mctp]))).setAddr mctp addr).emit .i3cAck) s)

/-- Both targets lose their dynamic addresses. -/
def execRstdaa (s : State) : Host.Outcome State Fault Refusal :=
  .next (ccc false (fun s => ({ s with sm := { s.sm with dynAddr := [] } } : State).emit .i3cAck) s)

def execGetpid (mctp : Bool) (s : State) : Host.Outcome State Fault Refusal :=
  .next (ccc mctp (fun s => s.emit (.i3cBytes (Config.i3cPid mctp))) s)

def execGetbcr (mctp : Bool) (s : State) : Host.Outcome State Fault Refusal :=
  .next (ccc mctp (fun s => s.emit (.i3cBytes [bcr mctp])) s)

def execGetdcr (mctp : Bool) (s : State) : Host.Outcome State Fault Refusal :=
  .next (ccc mctp (fun s => s.emit (.i3cBytes [Config.i3cDcr mctp])) s)

def execGetmxds (mctp : Bool) (s : State) : Host.Outcome State Fault Refusal :=
  .next (ccc mctp (fun s => s.emit (.i3cBytes (Config.i3cMxds mctp))) s)

/-- The events of the targets that answer, of one or by broadcast of both; a target raises no in-band interrupt, so nothing rests on
them. -/
def State.events (s : State) (on : Bool) (e : Byte) (target : Option Bool) : State :=
  let hit := [false, true].filter (fun m => s.targetUp m && (target.isNone || target == some m))
  let rest := s.sm.i3cEvents.filter (fun m => !hit.contains m)
  (if e.getLsbD 0 then { s with sm := { s.sm with i3cEvents := if on then rest ++ hit else rest } } else s).emit .i3cAck

/-- ENEC and DISEC, sent to one target or, with no target, to both. -/
def execEnec (events : Byte) (s : State) (target : Option Bool := none) : Host.Outcome State Fault Refusal :=
  .next (ccc (target.getD false) (fun s => s.events true events target) s)

def execDisec (events : Byte) (s : State) (target : Option Bool := none) : Host.Outcome State Fault Refusal :=
  .next (ccc (target.getD false) (fun s => s.events false events target) s)

/-! ### JTAG (R456) -/

/-- TRST_N resets the TAP: IDCODE is selected. -/
def execTrstN (s : State) : Host.Outcome State Fault Refusal :=
  .next (if s.pins.powered then { s with jtag := { s.jtag with ir := 0x01 } } else s)

/-- The pins as the boundary cells see them, from TDI on: PWR_EN, MOD_RESET_N, THROTTLE_N, then a data and an enable cell each for
PWR_GOOD, ALERT_N, MBX_BUSY, I3C_SCL and I3C_SDA; the bus lines' cells are open (entry 1). -/
def State.boundary (s : State) : BitVec 13 × State :=
  let (n, s) := s.freeCount
  let p := Reg.pwPins
  let b (x : Bool) (i : Nat) : Nat := if x then 2 ^ i else 0
  (BitVec.ofNat 13 (b (s.flag p 0) 0 + b (!s.flag p 1) 1 + b (!s.flag p 2) 2 + b s.pins.pwrGood 3 + 2 ^ 4 +
    b (!s.flag p 4) 5 + b (s.flag p 4) 6 + b (s.flag p 5) 7 + 2 ^ 8 + 2 ^ 9 * (n % 16)), s)

/-- SAMPLE/PRELOAD captures the pins and loads the update cells. -/
def State.sample (s : State) (cells : BitVec 13) : State :=
  let (v, s) := s.boundary
  ({ s with jtag := { s.jtag with bsr := v, upd := cells } } : State).emit (.jtagData v.toNat 13)

/-- EXTEST and HIGHZ take effect while PWR_GOOD is deasserted and the stage is 0-2 or 15. -/
def State.drivesPins (s : State) : Bool := !s.pins.pwrGood && (decide (s.stage ≤ 2) || s.stage == 15)

/-- What the boundary register's outputs PWR_GOOD, ALERT_N, MBX_BUSY, I3C_SCL and I3C_SDA drive: a data and an enable cell each from cell 3
on under EXTEST, nothing under HIGHZ, and otherwise what the module drives, ALERT_N being open drain and the bus lines those of the
I3C targets, which drive nothing between transfers. -/
def State.outputs (s : State) : List (Option Bool) :=
  if s.drivesPins && s.jtag.ir == 0x00 then
    (List.range 5).map (fun i => if s.jtag.upd.getLsbD (4 + 2 * i) then some (s.jtag.upd.getLsbD (3 + 2 * i)) else none)
  else if s.drivesPins && s.jtag.ir == 0x03 then List.replicate 5 none
  else [some s.pins.pwrGood, if s.flag Reg.pwPins 4 then some false else none, some (s.flag Reg.pwPins 5), none, none]

def State.showPins (s : State) : State := s.emit (.pins s.outputs)

def execExtest (cells : BitVec 13) (s : State) : Host.Outcome State Fault Refusal :=
  .next (if s.pins.powered then
      (if s.drivesPins then (({ s with jtag := { s.jtag with ir := 0x00 } } : State).sample cells).showPins
       else ({ s with jtag := { s.jtag with ir := 0x02 } } : State).sample cells)
    else s)

def execIdcode (s : State) : Host.Outcome State Fault Refusal :=
  .next (if s.pins.powered then ({ s with jtag := { s.jtag with ir := 0x01 } } : State).emit (.jtagData 0x3A5C1C4B 32) else s)

def execSamplePreload (cells : BitVec 13) (s : State) : Host.Outcome State Fault Refusal :=
  .next (if s.pins.powered then ({ s with jtag := { s.jtag with ir := 0x02 } } : State).sample cells else s)

/-- HIGHZ turns the outputs off and selects the bypass register; where it may not, it acts as SAMPLE/PRELOAD. -/
def execHighz (s : State) : Host.Outcome State Fault Refusal :=
  .next (if s.pins.powered then
      (if s.drivesPins then (({ s with jtag := { s.jtag with ir := 0x03 } } : State).emit (.jtagData 0 1)).showPins
       else ({ s with jtag := { s.jtag with ir := 0x02 } } : State).sample s.jtag.upd)
    else s)

/-- BYPASS, and every code that names no other instruction. -/
def execBypass (code : Byte) (s : State) : Host.Outcome State Fault Refusal :=
  .next (if s.pins.powered then ({ s with jtag := { s.jtag with ir := code } } : State).emit (.jtagData 0 1) else s)

end Sys2Proof.Machine
end

