-- ==== Sys2Proof/Machine/Start.lean ====
section
/-! DEFINITION. The start of a descriptor: its conditions (R30, R43, R69, R293), the classes a unit accepts (R40), the checks and the
records read at the start (R39, R464), and the units' busy bits. -/

namespace Sys2Proof.Machine

/-! ### Classes and units (R40) -/

/-- The body checks of a class on a unit; none when the unit does not accept the class. -/
def State.bodyChecks (s : State) (f : Flight) : Option (List (Option Nat)) :=
  let cd := isCd (hDie f.target)
  let c := dClass f.desc
  if c = 0 then some [resvBits f.desc 511 128]
  else match unitAt (hDie f.target) (hSlot f.target) with
    | some .enginePair =>
      if c = 0x10 then some (matmulChecks s f)
      else if c = 0x11 then some (mxChecks s f)
      else if c = 0x12 then some (elemChecks s f)
      else if c = 0x20 ∨ c = 0x21 then some (vecBodyChecks s f)
      else if c = 0x30 then some (smrowChecks s f)
      else if c = 0x31 then some (smmergeChecks s f)
      else if c = 0x32 then some (normChecks s f)
      else if c = 0x33 then some (xentChecks s f)
      else if c = 0x34 then some (attstepChecks s f)
      else if c = 0x40 then some (convChecks s f)
      else if c = 0x41 then some (resampleChecks s f)
      else if c = 0x42 then some (regroupChecks s f)
      else if c = 0x60 then some (gnormChecks s f)
      else if c = 0x61 then some (updateChecks s f)
      else if c = 0x62 then some (wcopyChecks s f)
      else none
    | some .decodeEngine => if c = 0x48 then some (decodeChecks s f) else none
    | some .moverGroup =>
      if c = 0x50 then some (moveChecks s f)
      else if c = 0x51 then some (msopChecks s f)
      else if c = 0x54 then some (spillChecks s f)
      else if c = 0x55 then some (recallChecks s f)
      else none
    | some .dieController =>
      if c = 0x63 then some (slotloadChecks s f)
      else if c = 0x68 ∧ cd = true then some (commitChecks s f)
      else if c = 0x69 then some (slotimgChecks s f)
      else if c = 0x80 ∧ cd = true then some (biasflipChecks s f)
      else none
    | some .hostCoupling =>
      if c = 0x80 then some (biasflipChecks s f) else if c = 0x81 then some (hfillChecks s f) else none
    | some .fabricEngine =>
      if c = 0x70 then some (putChecks s f) else if c = 0x71 then some (gredChecks s f) else none
    | none => none

/-- The parameter group a class reads, with the descriptor bit that names it (R270, R274). -/
def groupField (d : Desc) : Option (Nat × Nat) :=
  if dClass d = 0x60 then some (473, dfld d 484 473) else if dClass d = 0x61 then some (272, dfld d 283 272) else none

/-- Descriptor bits of the format words whose scale exponent or E_ref the start reads (R87). -/
def fmtBits (c : Nat) : List Nat :=
  if c = 0x10 ∨ c = 0x12 then [320, 352, 384]
  else if c = 0x40 ∨ c = 0x71 then [384, 416, 448]
  else if c = 0x30 ∨ c = 0x32 ∨ c = 0x41 then [384, 416]
  else if c = 0x50 ∨ c = 0x51 then [320, 352]
  else if c = 0x42 ∨ c = 0x54 then [256, 288]
  else if c = 0x55 then [256]
  else if c = 0x31 ∨ c = 0x60 then [384]
  else if c = 0x34 ∨ c = 0x62 then [320]
  else if c = 0x48 then [448]
  else []

/-! ### Records and lists read at the start (R39) -/

/-- The records whose places the descriptor gives, with their lengths. -/
def firstReads (f : Flight) : List (Nat × Nat) :=
  let c := dClass f.desc
  if c = 0x20 ∨ c = 0x21 then (128, vecRecLen f.desc) :: (if f.lenSrc then [(192, 128)] else [])
  else if c = 0x40 then [(320, 64)]
  else if c = 0x41 then [(320, 32)]
  else if c = 0x48 then [(384, 128)]
  else if c = 0x61 then [(128, 128)]
  else if c = 0x71 then [(320, 128)]
  else []

/-- The box list a first record asks for. -/
def moreReads (f : Flight) (bs : List Byte) : List (Nat × Nat) :=
  let c := dClass f.desc
  let n := if c = 0x41 then (samplingOf bs).nbox else if c = 0x48 then (videoPrm bs).smp.nbox else 0
  if n = 0 then [] else [(if c = 0x41 then 192 else 320, 32 * n)]

/-- The lost die, if any, whose memory a record lies in (R39). -/
def Run.recordLost (r : Run) (w : AddrWord) (n : Nat) : Option Nat :=
  ((List.range (n / 64 + 1)).findSome? (fun k => match w.at r.s.moduleId r.die (64 * k) with
    | .here a => if 64 * k < n && populated a && r.s.dieLost (ownerDie a) then some (ownerDie a) else none
    | _ => none))

/-- Read the words of a list in turn into a run. -/
def Run.readAll (r : Run) (d : Desc) : List (Nat × Nat) → Run × List Byte
  | [] => (r, [])
  | x :: xs =>
    if r.stop then (r, [])
    else match r.recordLost (dAddr d x.1) x.2 with
    | some die => (({ r with stop := true } : Run).raise stDieLost (BitVec.ofNat 32 die), [])
    | none =>
      let (r, bs, _) := r.read (dAddr d x.1) 0 x.2
      let (r, bs') := r.readAll d xs
      (r, bs ++ bs')

/-- Every read was served and clean. -/
def Run.clean (r : Run) : Bool := !r.stop && r.code == 0 && r.ext.isEmpty && r.far.isEmpty

/-- Checks of descriptor fields that rest on a record's contents. -/
def State.recordFieldChecks (s : State) (f : Flight) : List (Option Nat) :=
  let c := dClass f.desc
  if c = 0x20 ∨ c = 0x21 then (vecPlan s.moduleId f).descChecks
  else if c = 0x41 then resampleRecChecks s f
  else if c = 0x48 then decodeRecChecks s f
  else []

/-- The records and lists themselves are in order. -/
def State.recordsOk (s : State) (f : Flight) : Bool :=
  let c := dClass f.desc
  if c = 0x20 ∨ c = 0x21 then (vecPlan s.moduleId f).ok
  else if c = 0x40 then (geoOf f.recs).ok
  else if c = 0x41 then resampleRecOk f
  else if c = 0x48 then decodeRecOk f
  else if c = 0x61 then (UpdRec.mk f.recs).ok s (hDie f.target) (dbit f.desc 284)
  else if c = 0x71 then (Plan.mk f.recs).ok (hDie f.target)
  else true

/-- The read of the records whose places pass their checks; none when one does not. -/
def State.peekRead (s : State) (f : Flight) (body : List (Option Nat)) : Option (Run × List Byte) :=
  if (firstReads f).any (fun x => body.contains (some x.1)) then none
  else some ((Run.start s (hDie f.target) f.fid).readAll f.desc (firstReads f))

/-- The checks that rest on records, when these can be read: the detail word does not depend on what the unit finds first (R464). -/
def State.peekChecks (s : State) (f : Flight) (body : List (Option Nat)) : List (Option Nat) :=
  match s.peekRead f body with
  | some (r, bs) => if r.clean then s.recordFieldChecks { f with recs := bs } else []
  | none => []

/-- The records are not there yet: what their read waits for. -/
def State.peekWaits (s : State) (f : Flight) (body : List (Option Nat)) : Option (List (Nat × Nat) × List (Nat × Nat)) :=
  match s.peekRead f body with
  | some (r, _) => if r.code = 0 ∧ ¬ (r.far = [] ∧ r.ext = []) then some (r.far, r.ext) else none
  | none => none

/-- The values of the format words with auto = 1, read once (R87). -/
def State.startVals (s : State) (f : Flight) : List (Nat × Int) :=
  let die := hDie f.target
  let c := dClass f.desc
  (fmtBits c).map (fun lo => (lo, s.slotVal die (dFmt f.desc lo))) ++
  (if c = 0x20 ∨ c = 0x21 then (vecPlan s.moduleId f).startVals s
   else if c = 0x61 then (UpdRec.mk f.recs).vals s die
   else [])

/-! ### Fault registers and busy bits (R123, R165, R231, R249) -/

/-- The format words in the descriptor that a class which reads records at its start converts into. -/
def startTargets (d : Desc) : List FmtWord :=
  let c := dClass d
  if c = 0x40 ∨ c = 0x48 then [dFmt d 448] else if c = 0x41 ∨ c = 0x71 then [dFmt d 416] else []

/-- The result of a descriptor that its unit does not execute: it has converted nothing, so its maximum is +0, and it merges and
closes unless its status is DESC_INVALID (R88, R90). -/
def State.unrun (s : State) (f : Flight) (status : Nat) (detail : Word) : Result :=
  let r := (Run.start s (hDie f.target) f.fid).raise status detail
  (if status = stDescInvalid then r else (startTargets f.desc).foldl Run.gatherInto r).result 0

/-- A descriptor that its unit does not execute is done; the unit reports a fault of a class it accepts. -/
def State.startFails (s : State) (f : Flight) (status : Nat) (detail : Word) : State :=
  let s := s.setFlight { f with phase := .done, res := s.unrun f status detail }
  let c := dClass f.desc
  let die := hDie f.target
  let k := hSlot f.target
  if !recordsFault status then s
  else match unitAt die k with
    | some .enginePair =>
      if c = 0 ∨ detail = detailNoClass then s
      else if matClass c then (if matPart f.desc < s.maParts die k then s.maFaultSet die k (matPart f.desc) status f.index else s)
      else s.veFaultSet die k f status
    | some .decodeEngine =>
      if c = 0x48 then
        (((s.vdFaultSet die k f status).putFld (Reg.vdFault die k) 27 24 0)).setReg (Reg.vdFaultPos die k) 0xFFFFFFFF#32
      else s
    | some .moverGroup => s.mvFaultSet die f.mover.toNat f status
    | _ => s

/-- The busy bit of the unit that holds the started descriptor. -/
def State.startBusy (s : State) (f : Flight) : State :=
  match unitAt (hDie f.target) (hSlot f.target) with
  | some .enginePair =>
    if dClass f.desc = 0 then s
    else if matClass (dClass f.desc) then s.maBusy f
    else s.veBusy (hDie f.target) (hSlot f.target)
  | some .decodeEngine => if dClass f.desc = 0x48 then s.vdBusy (hDie f.target) (hSlot f.target) else s
  | _ => s

/-! ### The start -/

/-- A descriptor whose checks passed. -/
def State.startGo (s : State) (f : Flight) : State :=
  let f := { f with phase := .started, vals := s.startVals f, start := s.nextStart }
  (({ s with nextStart := s.nextStart + 1 } : State).setFlight f).startBusy f

/-- Read the records and start, or wait, or end with what the reads met. -/
def State.startRead (s : State) (f : Flight) : State :=
  let r0 := Run.start s (hDie f.target) f.fid
  let (r1, bs1) := r0.readAll f.desc (firstReads f)
  let (r, bs2) := if r1.clean then r1.readAll f.desc (moreReads f bs1) else (r1, [])
  if r.code ≠ 0 then r.s.startFails f r.code r.detail
  else if !r.clean then s.askFor f.fid r.far r.ext
  else
    let grp := match groupField f.desc with
      | some g => s.groupWords g.2
      | none => []
    let g := { f with recs := bs1 ++ bs2 ++ grp }
    if r.s.recordsOk g then r.s.startGo g else r.s.startFails f stDescInvalid detailRecord

/-- The home die of the parameter group is lost (R393). -/
def State.groupLost (s : State) (f : Flight) : Bool :=
  match groupField f.desc with
  | some g => s.dieDown (g.2 % 40)
  | none => false

/-- The checks of R39 and R464, in the order of their detail words. -/
def State.startChecked (s : State) (f : Flight) : State :=
  match s.bodyChecks f with
  | none => s.startFails f stDescInvalid detailNoClass
  | some body =>
    if dClass f.desc = 0x68 ∧ (f.parent.isSome ∨ f.remote.isSome) then s.startFails f stDescInvalid detailArrival
    else
      let lost := s.groupLost f
      let body := headerChecks f.desc ++
        (if lost then body.filter (fun x => x != ((groupField f.desc).map (·.1))) else body)
      match lowest (body ++ s.peekChecks f body) with
      | some b => match s.peekWaits f body with
        | some (far, ext) => s.askFor f.fid far ext
        | none => s.startFails f stDescInvalid (BitVec.ofNat 32 b)
      | none =>
        if lost then s.startFails f stDieLost (BitVec.ofNat 32 (((groupField f.desc).map (·.2)).getD 0 % 40))
        else s.startRead f

/-- A die controller holds a descriptor behind the one it executes (R306). -/
def State.controllerBusy (s : State) (f : Flight) : Bool :=
  f.lane == some 5 && s.flights.any (fun g => g.executing && g.target == f.target)

/-- A descriptor ready to start meets, in this order: an abort of its step (R293), a lost die (R393), a unit or die that is OFF
or DISABLING, a unit that is ENABLING (R69), its turn among the rings (R30), and its checks. -/
def State.startOne (s : State) (f : Flight) : State :=
  let die := hDie f.target
  if s.stepAborted die f.desc then s.abort f
  else if s.dieLost die then s.finishWith f stDieLost (BitVec.ofNat 32 die)
  else if s.domainGone die ∨ (s.domainWait die = false ∧ (s.unitState f = 0 ∨ s.unitState f = 3)) then s.abort f
  else if s.domainWait die ∨ s.unitState f = 1 ∨ s.myTurn f = false ∨ s.controllerBusy f then s
  else
    let t := s.startChecked f
    match t.flight f.fid with
    | some g => if g.waits then t else (t.setTurn f).evalDie die
    | none => t

def execDescriptorStart (fid : Nat) (s : State) : Host.Outcome State Fault Refusal :=
  .next (match s.flight fid with
    | some f => if !hGang f.target && s.ready f then s.startOne f else s
    | none => s)

end Sys2Proof.Machine
end

