-- ==== Sys2Proof/Machine/Setup.lean ====
section
/-! DEFINITION. Writes and reads of set-up space: what a 32-bit write of each register does besides its access types (R8, R9, R27, R31
and the rules named below), and the requesters that reach it (R24, R347, R350, R365, R435). -/

namespace Sys2Proof.Machine

/-! ### Registers without an act of their own (R8, R9) -/

/-- A write that only sets, clears or ignores fields by their access types; an offset without a register takes none. -/
def State.plainWrite (s : State) (a : Nat) (v : Word) : State :=
  match regAt a with
  | some (r, _, _) => s.setReg a (fieldsWrite (s.reg a) v r.fields)
  | none => s

/-- A set-up field writable in OFF only: outside OFF the write is ignored and the error bit set (R33, R123, R134, R295, R329). -/
def State.offWrite (s : State) (ctrl err bit_ : Nat) (a : Nat) (v : Word) : State :=
  if s.fnState ctrl = 0 then s.plainWrite a v else s.setFlag err bit_ true

/-- A control register with a set-up field [hi:lo]: outside OFF a differing value is left and the error bit set (R66). The other
fields follow their access types; the enable and disable bits are acted on apart. -/
def State.ctrlFields (s : State) (ctrl hi lo err bit_ : Nat) (v : Word) : State :=
  if s.fnState ctrl = 0 then s.plainWrite ctrl v
  else
    let old := s.fld ctrl hi lo
    let t := (s.plainWrite ctrl v).putFld ctrl hi lo old
    if wfld v hi lo = old then t else t.setFlag err bit_ true

/-- The requests of a control register's low byte, with what the function does for each. -/
def State.onRequest (s : State) (v : Word) (enable disable : State → State) : State :=
  if bit v 1 then disable s else if bit v 0 then enable s else s

/-! ### The die controller (R31-R36, R57, R58, R89, R134, R267, R268, R292, R295) -/

/-- A register of ring context k, at offset o of the context. -/
def State.ringWrite (s : State) (die k o : Nat) (v : Word) : State :=
  let ring := ringOf die k
  let ctrl := Reg.dcRingCtrl die k
  let err := Reg.dcRingErr die k
  let a := Reg.dcRingBaseLo die k + o
  if o = 0x18 then
    let s := s.ctrlFields ctrl 13 12 err 0 v
    let s := if bit v 8 then s.setFlag ctrl 9 false else s
    s.onRequest v (fun s => s.enableReq ctrl) (fun s => s.ringDisable ring)
  else if o = 0x2C then s.cplRdWrite ring v
  else if o = 0x28 ∨ o = 0x30 then s.plainWrite a v
  else if o < 0x28 then s.offWrite ctrl err 0 a v
  else s

/-- A word of a gang entry: every word but the control word is kept while the entry is valid (R58). -/
def State.gangWrite (s : State) (die slot o : Nat) (v : Word) : State :=
  let c := Reg.dcGangCtrl die slot
  if o = 0 then s.gangCtrlWrite die slot v
  else if s.flag c 31 then s.putFld c 13 8 7
  else s.plainWrite (c + o) v

/-- A word of a parameter group (R268). -/
def State.groupWrite (s : State) (die slot o : Nat) (v : Word) : State :=
  let c := Reg.dcPgCtrl die slot
  if o = 0 then s.pgCtrlWrite die slot v
  else if s.flag c 31 && decide (o < 0x18) then s.putFld c 13 8 7
  else s.plainWrite (c + o) v

/-- A register of a running-maximum slot: cur as a magnitude, exp and eref limited; then a close, then a revert (R89, R92). -/
def State.slotWrite (s : State) (die slot o : Nat) (v : Word) : State :=
  if o = 0 then s.setReg (Reg.ruRmCur die slot) (slotMag v)
  else if o = 4 then
    let a := Reg.ruRmCtrl die slot
    let s := s.plainWrite a v
    let s := s.setReg a (slotScale (s.reg a))
    let s := if bit v 29 then s.rmCloseSlot die slot else s
    if bit v 30 then s.rmRevertSlot die slot else s
  else s.plainWrite (Reg.ruRmCur die slot + o) v

/-- The port registers of an I/O die (R371): the mode, then rearm; the CXL window stands while the endpoint is UP. -/
def State.portRegWrite (s : State) (die off : Nat) (v : Word) : State :=
  let io := die - 88
  let a := Reg.setupBase die + off
  if off = 0x90000 then
    let s := if bit v 3 then s.setFlag a 3 false else s
    let s := s.pcieModeWrite io (wfld v 1 0)
    if bit v 2 then s.cxlRearm io else s
  else if (off = 0x90050 ∨ off = 0x90054) ∧ s.cxlState io = 1 then s
  else s.plainWrite a v

/-- Sub-window 0 of a die that bears rings. -/
def State.controllerWrite (s : State) (die off : Nat) (v : Word) : State :=
  let a := Reg.setupBase die + off
  if off = 0x100 then s.doorbell die false (BitVec.ofNat 64 v.toNat)
  else if off = 0x208 then s.abortWrite die v
  else if 0x10000 ≤ off ∧ off < 0x10000 + 0x40 * ringsOn die then
    s.ringWrite die ((off - 0x10000) / 0x40) ((off - 0x10000) % 0x40) v
  else if 0x30000 ≤ off ∧ off < 0x30000 + 4 * cdRings die then
    (let k := (off - 0x30000) / 4
     s.offWrite (Reg.dcRingCtrl die k) (Reg.dcRingErr die k) 0 a v)
  else if 0x30400 ≤ off ∧ off < 0x30400 + 8 * cdRings die then
    (let k := (off - 0x30400) / 8
     s.offWrite (Reg.dcRingCtrl die k) (Reg.dcRingErr die k) 0 a v)
  else if 0x40000 ≤ off ∧ off < 0x40000 + 0x100 * gangSlotsOn die then
    s.gangWrite die ((off - 0x40000) / 0x100) ((off - 0x40000) % 0x100) v
  else if 0x80000 ≤ off ∧ off < 0x80000 + 0x80 * rmSlotsOn die then
    s.slotWrite die ((off - 0x80000) / 0x80) ((off - 0x80000) % 0x80) v
  else if isIo die = true ∧ 0x90000 ≤ off ∧ off < 0x91000 then s.portRegWrite die off v
  else if 0xC0000 ≤ off ∧ off < 0xC0000 + 0x40 * gangSlotsOn die then
    s.groupWrite die ((off - 0xC0000) / 0x40) ((off - 0xC0000) % 0x40) v
  else s.plainWrite a v

/-! ### Compute dies (R123, R239-R241, R245, R249, R369, R395, R396, R420) -/

/-- Engine pair registers, at offset o of the sub-window. -/
def State.epWrite (s : State) (die ep o : Nat) (v : Word) : State :=
  let ctrl := Reg.maCtrl die ep
  let err := Reg.maErr die ep
  if o = 0 then
    (s.ctrlFields ctrl 9 8 err 0 v).onRequest v (fun s => s.epEnable die ep) (fun s => s.epDisable die ep)
  else if 0x10 ≤ o ∧ o < 0x20 then s.offWrite ctrl err 0 (ctrl + o) v
  else s.plainWrite (ctrl + o) v

def State.moverWrite (s : State) (die n o : Nat) (v : Word) : State :=
  if o = 0 then s.onRequest v (fun s => s.enableReq (Reg.mvCtrl die n)) (fun s => s.moverDisable die n)
  else s.plainWrite (Reg.mvCtrl die n + o) v

/-- The table of the home lies in the stack of R356, aligned. -/
def biasBaseOk (home base : Nat) : Bool :=
  let st := if isHd home then home - 48 else home
  decide (hbmBase st ≤ base ∧ base + biasTableSize home ≤ hbmBase st + hbmSize)

def biasLo (home : Nat) : Nat := if isHd home then Reg.hxBiasBaseLo home else Reg.hcBiasBaseLo home
def biasHi (home : Nat) : Nat := if isHd home then Reg.hxBiasBaseHi home else Reg.hcBiasBaseHi home

/-- A write that makes the base words lo and hi: ignored, with err, while busy or outside the stack (R369). -/
def State.biasBaseWrite (s : State) (home : Nat) (lo hi : Word) : State :=
  let base := 2 ^ 32 * wfld hi 15 0 + 2 ^ 16 * wfld lo 31 16
  if s.flag (biasCtrl home) 31 || !biasBaseOk home base then s.setFlag (biasCtrl home) 30 true
  else (s.plainWrite (biasLo home) lo).plainWrite (biasHi home) hi

/-- The bias registers, at offset o of their block. -/
def State.biasWrite (s : State) (home o : Nat) (v : Word) : State :=
  if o = 0 then s.biasBaseWrite home v (s.reg (biasHi home))
  else if o = 4 then s.biasBaseWrite home (s.reg (biasLo home)) v
  else
    let s := s.plainWrite (biasCtrl home) v
    if bit v 0 then s.setFlag (biasCtrl home) 31 true else s

/-- The HBM4 controller, at offset o of its sub-window. -/
def State.hcWrite (s : State) (die o : Nat) (v : Word) : State :=
  let a := Reg.hcCtrl die + o
  if o = 0 then (if bit v 0 then s.setFlag a 0 true else s.maintExit die)
  else if o = 0x20 then
    (let s := s.plainWrite a v
     if bit v 31 then s.pprGo die (bit v 0) else s)
  else if (o = 0x24 ∨ o = 0x28) ∧ s.flag (Reg.hcPprCtrl die) 30 = true then s
  else if 0x800 ≤ o ∧ o < 0x80C then s.biasWrite die (o - 0x800) v
  else s.plainWrite a v

def State.stackWrite (s : State) (stack o : Nat) (v : Word) : State :=
  if o = 8 then (if bit v 0 then s.w1500Go stack else s) else s.plainWrite (Reg.setupBase (stack + 40) + o) v

/-- A register of course pair p, at offset o; the assembly map is writable in OFF only (R395). -/
def State.pairWrite (s : State) (die p o : Nat) (v : Word) : State :=
  let ctrl := Reg.cpCtrl die p
  if o = 0 then s.onRequest v (fun s => s.coursePairEnable die p) (fun s => s.disableReq ctrl)
  else if o = 0x0C ∧ s.fnState ctrl ≠ 0 then s
  else s.plainWrite (ctrl + o) v

/-- The course sub-window: registers of the die's pairs and of its reference; a new reference source counts as qualified until
a command says that it is lost. -/
def State.courseWrite (s : State) (die o : Nat) (v : Word) : State :=
  if o = 0x400 then s.cpRefWrite die v true true
  else if o < 0x40 * pairsOn die then s.pairWrite die (o / 0x40) (o % 0x40) v
  else s

/-- The sub-windows of a compute die above the die controller's. -/
def State.computeWrite (s : State) (die off : Nat) (v : Word) : State :=
  let w := off / 0x100000
  let o := off % 0x100000
  let a := Reg.setupBase die + off
  if w ≤ 6 then s.epWrite die (w - 1) o v
  else if w = 7 then (if o < 0x100 then s.moverWrite die (o / 0x40) (o % 0x40) v else s)
  else if w = 8 then s.hcWrite die o v
  else if w = 9 then (if o = 0 then (if bit v 0 then s.wmInit die else s) else s.plainWrite a v)
  else if w = 10 then s.courseWrite die o v
  else (s.plainWrite a v).evalDie die

/-! ### Host dies and I/O dies (R323, R329, R350, R370) -/

def State.hostWrite (s : State) (die off : Nat) (v : Word) : State :=
  let o := off - 0x100000
  if off / 0x100000 = 1 then
    (if o < 0xC then s.biasWrite die o v
     else if 0x40000 ≤ o then s.imsicWrite die o v
     else s.plainWrite (Reg.setupBase die + off) v)
  else s.plainWrite (Reg.setupBase die + off) v

/-- A register of port p, at offset o. -/
def State.fbPortWrite (s : State) (p o : Nat) (v : Word) : State :=
  if o = 0 then
    let s := if bit v 0 then s.portEnable p else s.portDisable p
    if bit v 1 then s.portRetrain p else s
  else s.plainWrite (pCtrl p + o) v

/-- A register of a flow, at offset o. -/
def State.flowWrite (s : State) (f o : Nat) (v : Word) : State :=
  let ctrl := fCtrl f
  if o = 0 then
    (s.ctrlFields ctrl 15 12 ctrl 10 v).onRequest v (fun s => s.flowEnable f) (fun s => (s.disableReq ctrl).endSync f)
  else if o < 0x1C then s.offWrite ctrl ctrl 10 (ctrl + o) v
  else s.plainWrite (ctrl + o) v

def State.ioWrite (s : State) (die off : Nat) (v : Word) : State :=
  let w := off / 0x100000
  let o := off % 0x100000
  if w = 1 then
    (if o < 0x100 then s.fbPortWrite ((die - 88) * 4 + o / 0x40) (o % 0x40) v
     else if 0x10000 ≤ o ∧ (o - 0x10000) / 0x40 < flowsOn die then
       s.flowWrite ((o - 0x10000) / 0x40 * 10 + (die - 88)) ((o - 0x10000) % 0x40) v
     else s)
  else if w = 4 then s.courseWrite die o v
  else s.plainWrite (Reg.setupBase die + off) v

/-! ### TD and SM (R397, R421, R430, R431, R442, R443, R453, R257, R260) -/

def State.tdWrite (s : State) (off : Nat) (v : Word) : State :=
  if off = 0xC then (if bit v 0 then s.tdStart else s)
  else if 0x100 ≤ off ∧ off < 0x290 then
    (let i := (off - 0x100) / 4
     if ringBearing i && bit v 1 && s.dieState i == 3 then s.putFld (Reg.tdDie i) 11 8 4
     else if bit v 0 && s.losable i then s.loseDie i 2
     else s)
  else s.plainWrite (Reg.setupBase 98 + off) v

/-- The SM_ registers. -/
def State.smRegWrite (s : State) (off : Nat) (v : Word) : State :=
  let up := s.pins.powered && s.stage == 5
  if off = 0x10 then (if bit v 0 && up then s.beginCommit else s)
  else if off = 0x20 then s.aclWrite v
  else if off = 0x3C then (if bit v 0 && up && s.sm.fwup.isNone then s.fwupGo else s)
  else s.plainWrite (Reg.setupBase 99 + off) v

/-- A word of a power group (R412). -/
def State.pwGroupWrite (s : State) (g o : Nat) (v : Word) : State :=
  let c := Reg.pwGrpCtrl g
  if o = 0 then s.grpCtrlWrite g v
  else if s.flag c 31 then s.putFld c 13 8 7
  else s.plainWrite (c + o) v

/-- The module power controller, at offset o of its sub-window. -/
def State.powerWrite (s : State) (o : Nat) (v : Word) : State :=
  if o = 0x20 then s.alertClear v
  else if 0x100 ≤ o ∧ o < 0x100 + 4 * 98 then
    (let i := (o - 0x100) / 4
     if ringBearing i && s.controls then s.onRequest v (fun s => s.domainEnable i) (fun s => s.domainDisableAll i) else s)
  else if 0x10000 ≤ o ∧ o < 0x30000 then s.pwGroupWrite ((o - 0x10000) / 0x20) ((o - 0x10000) % 0x20) v
  else s.plainWrite (Reg.setupBase 99 + 0x100000 + o) v

/-- The journal, at offset o of its sub-window. -/
def State.journalWrite (s : State) (o : Nat) (v : Word) : State :=
  if o = 0x0C then (if wfld v 1 0 = 0 then s else s.jrOp (wfld v 1 0))
  else s.plainWrite (Reg.setupBase 99 + 0x200000 + o) v

/-- The mailbox sub-window: plain words, the set alias, the clear alias, the registers. -/
def State.mailboxWrite (s : State) (o : Nat) (v : Word) : State :=
  let w := o % 0x10000 / 4
  if o < 0x10000 then s.mbStore ⟨w, .write, v⟩
  else if o < 0x20000 then s.mbStore ⟨w, .set, v⟩
  else if o < 0x30000 then s.mbStore ⟨w, .clear, v⟩
  else if o = 0x30000 then s.claimWrite (bit v 0)
  else s.plainWrite (Reg.setupBase 99 + 0x300000 + o) v

def State.smWrite (s : State) (off : Nat) (v : Word) : State :=
  let w := off / 0x100000
  let o := off % 0x100000
  if w = 0 then s.smRegWrite off v
  else if w = 1 then s.powerWrite o v
  else if w = 2 then s.journalWrite o v
  else s.mailboxWrite o v

/-! ### One word of set-up space -/

/-- What a 32-bit write of a word of set-up space does. -/
def State.setupWrite (s : State) (a : Nat) (v : Word) : State :=
  match regionOf a with
  | .setup i off =>
    if isStack i then s.stackWrite (i - 40) off v
    else if i = 98 then s.tdWrite off v
    else if i = 99 then s.smWrite off v
    else if off < 0x100000 then s.controllerWrite i off v
    else if isCd i then s.computeWrite i off v
    else if isHd i then s.hostWrite i off v
    else s.ioWrite i off v
  | _ => s

/-- The word of the mailbox an address of its plain words and aliases names. -/
def mailboxWordAt (a : Nat) : Option Nat :=
  let b := Reg.setupBase 99 + 0x300000
  if b ≤ a ∧ a < b + 0x30000 then some ((a - b) % 0x10000 / 4) else none

/-- What a 32-bit read of a word of set-up space returns, and whether it raises an access fault (R258). -/
def State.setupRead (s : State) (a : Nat) : State × Word × Bool :=
  match mailboxWordAt a with
  | some w => s.mbLoad w
  | none => (s, s.reg a, false)

/-- The I/O die and offset of a PCIe configuration or memory window (R363). -/
def outboundAt (a : Nat) : Option (Nat × Nat) :=
  match regionOf a with
  | .setup i off =>
    if isIo i && (decide (0xA0000 ≤ off ∧ off < 0xA8000) || decide (0xC0000 ≤ off ∧ off < 0x100000)) then some (i - 88, off) else none
  | _ => none

/-- The mailbox sub-window: its words, aliases and registers, which take 32-bit accesses only (R257). -/
def inMailbox (a : Nat) : Bool :=
  let b := Reg.setupBase 99 + 0x300000
  decide (b ≤ a ∧ a < b + 0x30100)

/-- Words of an access of 4 or 8 bytes. -/
def wordsAt (a n : Nat) : List Nat := if n = 8 then [a, a + 4] else [a]

/-- A store of 4 or 8 bytes: a doorbell and a bias base take 8 bytes together, other registers word after word. -/
def State.setupStore (s : State) (req : Requester) (a : Nat) (bs : List Byte) : State :=
  let lo : Word := BitVec.ofNat 32 (leNat (bs.take 4))
  let hi : Word := BitVec.ofNat 32 (leNat (bs.drop 4))
  match outboundAt a with
  | some (io, off) => s.outbound req io off (.write bs)
  | none =>
    if bs.length = 8 then
      match regionOf a with
      | .setup i off =>
        if ringBearing i = true ∧ off = 0x100 then s.doorbell i true (BitVec.ofNat 64 (leNat bs))
        else if (isCd i || isHd i) = true ∧ a = biasLo i then s.biasBaseWrite i lo hi
        else (s.setupWrite a lo).setupWrite (a + 4) hi
      | _ => s
    else s.setupWrite a lo

/-- The words of a read; none when one raises an access fault. -/
def State.setupLoad (s : State) : List Nat → State × Option (List Byte)
  | [] => (s, some [])
  | a :: as =>
    let (s, v, bad) := s.setupRead a
    if bad then (s, none)
    else
      let (s, r) := s.setupLoad as
      (s, r.map (leBytes 4 v.toNat ++ ·))

/-- Set-up space serves an access of this place and length: naturally aligned, 4 or 8 bytes, in the mailbox 4 (R257, R347). -/
def setupShapeOk (a n : Nat) : Bool :=
  (n == 4 || n == 8) && a % n == 0 && (n == 4 || !inMailbox a)

/-- The first word of an access that its requester may not reach. -/
def State.setupMeetsAll (s : State) (req : Requester) (write : Bool) : List Nat → Option (Nat × LogKind)
  | [] => none
  | a :: as => match s.setupMeets req write a with
    | some e => some e
    | none => s.setupMeetsAll req write as

/-! ### REGISTER_WRITE -/

/-- A 32-bit write of a set-up address by a requester. -/
def State.registerWrite (s : State) (req : Requester) (a : Nat) (v : Word) : State :=
  if a % 4 ≠ 0 then s.refuseSetup req true (reqDie req) .address a
  else match s.setupMeets req true a with
    | some (d, k) => s.refuseSetup req true d k a
    | none => s.setupStore req a (leBytes 4 v.toNat)

def execRegisterWrite (req : Requester) (addr : Nat) (value : Word) (s : State) : Host.Outcome State Fault Refusal :=
  .next (s.registerWrite req addr value)

/-! ### HOST_CORE_ACCESS -/

def isSetup (a : Nat) : Bool := match regionOf a with | .setup _ _ => true | _ => false

/-- Bytes of a host-core access. -/
def coreSize (acc : CoreAccess) (size : Nat) : Nat := match acc with | .store bs => bs.length | .cboZero => 64 | _ => size

def coreWrites (acc : CoreAccess) : Bool := match acc with | .store _ => true | .cboZero => true | _ => false

/-- A host-core access to set-up space. A load through a PCIe window is answered by the device's completion. -/
def State.coreSetup (s : State) (hart : Nat) (machine : Bool) (a size : Nat) (acc : CoreAccess) : State :=
  let req : Requester := if machine then .hostMachine hart else .hostUser hart
  let n := coreSize acc size
  let fail (s : State) (d : Nat) (k : LogKind) := (s.log d k a 0 (.hart hart) (coreAcc acc)).emit (.coreFault hart (coreCause acc))
  if !setupShapeOk a n || acc = .fetch || acc = .cboZero then fail s (hartDie hart) .address
  else match s.setupMeetsAll req (coreWrites acc) (wordsAt a n) with
    | some (d, k) => fail s d k
    | none =>
      match acc with
      | .store bs => (s.setupStore req a bs).emit (.coreDone hart)
      | _ =>
        match outboundAt a with
        | some (io, off) => s.outbound req io off (.read n)
        | none =>
          let (s, r) := s.setupLoad (wordsAt a n)
          match r with
          | some bs => s.emit (.coreData hart bs)
          | none => s.emit (.coreFault hart 5)

/-- A host core's access: memory by the granule's bias and the line's state, set-up space by its rights, and an access fault in an
unmapped range (R24, R347, R357). -/
def execHostCoreAccess (hart : Nat) (machine uncached : Bool) (addr size : Nat) (access : CoreAccess) (ecc : Ecc) (s : State) :
    Host.Outcome State Fault Refusal :=
  .next (if hart < 192 ∧ s.dieState (hartDie hart) = 2 then
      (if isSetup addr then s.coreSetup hart machine addr size access
       else s.coreMemory hart uncached addr size access ecc)
    else s)

/-! ### IMSIC_STORE (R350, R370) -/

/-- A 32-bit store to the HX_ sub-window of a host die that holds the interrupt pages. -/
def execImsicStore (req : Requester) (hostDie offset : Nat) (value : Word) (s : State) : Host.Outcome State Fault Refusal :=
  .next (if isHd hostDie ∧ offset < 0x100000 then
      (let a := Reg.setupBase hostDie + 0x100000 + offset
       match s.setupMeets req true a with
       | some (d, k) => s.refuseSetup req true d k a
       | none => s.imsicWrite hostDie offset value)
    else s)

/-! ### CXL_BAR0_ACCESS (R365, R435) -/

/-- BAR0 answers while its port's link is up in mode 2 and no loss stands. -/
def State.bar0Up (s : State) (io : Nat) : Bool :=
  decide (io < 2) && !s.dieDown (ioDie io) && s.pcieMode io == 2 && s.pcieUp io && s.cxlState io != 2

/-- An access of the external host to BAR0, 2 GiB of set-up space. -/
def State.bar0Access (s : State) (io off : Nat) (acc : BusAccess) : State :=
  let a := Reg.setupBase 0 + off
  let n := accSize acc
  if !setupShapeOk a n || !isSetup a then s.refuseDevice io acc (ioDie io) .address a
  else match s.setupMeetsAll (.extHost io) (accWrites acc) (wordsAt a n) with
    | some (d, k) => s.refuseDevice io acc d k a
    | none =>
      match acc with
      | .write bs => s.setupStore (.extHost io) a bs
      | .read _ =>
        match outboundAt a with
        | some (o, off) => s.outbound (.extHost io) o off acc
        | none =>
          let (s, r) := s.setupLoad (wordsAt a n)
          match r with
          | some bs => s.emit (.deviceData io bs false)
          | none => s.emit (.deviceUnsupported io)

def execCxlBar0Access (io offset : Nat) (access : BusAccess) (s : State) : Host.Outcome State Fault Refusal :=
  .next (if s.bar0Up io && decide (offset < 0x80000000) then s.bar0Access io offset access else s)

end Sys2Proof.Machine
end

