-- ==== Sys2Proof/Machine/Dispatch.lean ====
section
/-! DEFINITION. One arm per command: a direct call of its meaning. -/

namespace Sys2Proof.Machine

/-- The effect of a command on everything but the queue. -/
def exec (i : Instr) (s : State) : Host.Outcome State Fault Refusal :=
  match i with
  | .registerWrite req addr value => Sys2Proof.Machine.execRegisterWrite req addr value s
  | .doorbell die wide value => Sys2Proof.Machine.execDoorbell die wide value s
  | .ringEnable ring => Sys2Proof.Machine.execRingEnable ring s
  | .ringEnablingDone ring => Sys2Proof.Machine.execRingEnablingDone ring s
  | .ringDisable ring => Sys2Proof.Machine.execRingDisable ring s
  | .ringDisablingDone ring => Sys2Proof.Machine.execRingDisablingDone ring s
  | .ringResume ring => Sys2Proof.Machine.execRingResume ring s
  | .cplRdWrite ring value => Sys2Proof.Machine.execCplRdWrite ring value s
  | .descriptorFetch ring => Sys2Proof.Machine.execDescriptorFetch ring s
  | .descriptorStart fid => Sys2Proof.Machine.execDescriptorStart fid s
  | .nop fid => Sys2Proof.Machine.execNop fid s
  | .descriptorComplete fid => Sys2Proof.Machine.execDescriptorComplete fid s
  | .completionWriteFault fid => Sys2Proof.Machine.execCompletionWriteFault fid s
  | .fenceSignal die ctr => Sys2Proof.Machine.execFenceSignal die ctr s
  | .fenceWrite die ctr value => Sys2Proof.Machine.execFenceWrite die ctr value s
  | .gangFanout fid => Sys2Proof.Machine.execGangFanout fid s
  | .gangMemberReport gang member remote => Sys2Proof.Machine.execGangMemberReport gang member remote s
  | .gangEntryValidate die slot value => Sys2Proof.Machine.execGangEntryValidate die slot value s
  | .rmClose die slot => Sys2Proof.Machine.execRmClose die slot s
  | .rmRevert die slot => Sys2Proof.Machine.execRmRevert die slot s
  | .matmul fid errs => Sys2Proof.Machine.execMatmul fid s errs
  | .matmulMxfp4 fid errs => Sys2Proof.Machine.execMatmulMxfp4 fid s errs
  | .elementwiseFma fid => Sys2Proof.Machine.execElementwiseFma fid s
  | .partitionFault fid beat => Sys2Proof.Machine.execPartitionFault fid s beat
  | .enginePairEnable die ep => Sys2Proof.Machine.execEnginePairEnable die ep s
  | .enginePairEnablingDone die ep => Sys2Proof.Machine.execEnginePairEnablingDone die ep s
  | .enginePairDisable die ep => Sys2Proof.Machine.execEnginePairDisable die ep s
  | .enginePairDisablingDone die ep => Sys2Proof.Machine.execEnginePairDisablingDone die ep s
  | .fusedChain fid errs => Sys2Proof.Machine.execFusedChain fid s errs
  | .fallbackProgram fid errs => Sys2Proof.Machine.execFallbackProgram fid s errs
  | .veAccessFault fid => Sys2Proof.Machine.execVeAccessFault fid s
  | .smrow fid => Sys2Proof.Machine.execSmrow fid s
  | .smmerge fid => Sys2Proof.Machine.execSmmerge fid s
  | .norm fid => Sys2Proof.Machine.execNorm fid s
  | .xent fid => Sys2Proof.Machine.execXent fid s
  | .attstep fid errs => Sys2Proof.Machine.execAttstep fid s errs
  | .conv fid errs => Sys2Proof.Machine.execConv fid s errs
  | .resample fid => Sys2Proof.Machine.execResample fid s
  | .regroup fid => Sys2Proof.Machine.execRegroup fid s
  | .decode fid scratch => Sys2Proof.Machine.execDecode fid s scratch
  | .hbmRequest addr access poisoned ecc => Sys2Proof.Machine.execHbmRequest addr access poisoned ecc s
  | .msopRequest addr op mask data poisoned ecc => Sys2Proof.Machine.execMsopRequest addr op mask data poisoned ecc s
  | .hbmRefresh home => Sys2Proof.Machine.execHbmRefresh home s
  | .hbmScrubStep home ecc => Sys2Proof.Machine.execHbmScrubStep home ecc s
  | .hbmMaintEnter stack => Sys2Proof.Machine.execHbmMaintEnter stack s
  | .hbmMaintDrained stack => Sys2Proof.Machine.execHbmMaintDrained stack s
  | .hbmMaintExit stack => Sys2Proof.Machine.execHbmMaintExit stack s
  | .w1500Go stack => Sys2Proof.Machine.execW1500Go stack s
  | .w1500ShiftDone stack captured => Sys2Proof.Machine.execW1500ShiftDone stack captured s
  | .pprGo stack hard => Sys2Proof.Machine.execPprGo stack hard s
  | .pprDone stack result => Sys2Proof.Machine.execPprDone stack result s
  | .wmAccess die offset access poisoned ecc next => Sys2Proof.Machine.execWmAccess die offset access poisoned ecc s next
  | .wmInit die => Sys2Proof.Machine.execWmInit die s
  | .wmInitDone die => Sys2Proof.Machine.execWmInitDone die s
  | .move fid => Sys2Proof.Machine.execMove fid s
  | .msop fid => Sys2Proof.Machine.execMsop fid s
  | .moverFault fid => Sys2Proof.Machine.execMoverFault fid s
  | .moverEnable die mover => Sys2Proof.Machine.execMoverEnable die mover s
  | .moverEnablingDone die mover => Sys2Proof.Machine.execMoverEnablingDone die mover s
  | .moverDisable die mover => Sys2Proof.Machine.execMoverDisable die mover s
  | .moverDisablingDone die mover => Sys2Proof.Machine.execMoverDisablingDone die mover s
  | .hostCoreAccess hart machine uncached addr size access ecc => Sys2Proof.Machine.execHostCoreAccess hart machine uncached addr size access ecc s
  | .hostAtomic hart addr size op value ecc => Sys2Proof.Machine.execHostAtomic hart addr size op value ecc s
  | .lrGrantExpiry hart => Sys2Proof.Machine.execLrGrantExpiry hart s
  | .mailboxInternalWrite req word value ext => Sys2Proof.Machine.execMailboxInternalWrite req word value s ext
  | .mailboxSetAliasWrite req word value ext => Sys2Proof.Machine.execMailboxSetAliasWrite req word value s ext
  | .mailboxClearAliasWrite req word value ext => Sys2Proof.Machine.execMailboxClearAliasWrite req word value s ext
  | .mailboxRead index count intl bad => Sys2Proof.Machine.execMailboxRead index count intl bad s
  | .mailboxWrite index data intl => Sys2Proof.Machine.execMailboxWrite index data intl s
  | .mailboxSet index data intl => Sys2Proof.Machine.execMailboxSet index data intl s
  | .mailboxClear index data intl => Sys2Proof.Machine.execMailboxClear index data intl s
  | .mbClaim claim => Sys2Proof.Machine.execMbClaim claim s
  | .i3cTransferEnd => Sys2Proof.Machine.execI3cTransferEnd s
  | .claimTimeout => Sys2Proof.Machine.execClaimTimeout s
  | .gnorm fid => Sys2Proof.Machine.execGnorm fid s
  | .update fid => Sys2Proof.Machine.execUpdate fid s
  | .wcopy fid => Sys2Proof.Machine.execWcopy fid s
  | .slotload fid => Sys2Proof.Machine.execSlotload fid s
  | .paramGroupValidate die slot value => Sys2Proof.Machine.execParamGroupValidate die slot value s
  | .dcAbortWrite die value => Sys2Proof.Machine.execDcAbortWrite die value s
  | .spill fid => Sys2Proof.Machine.execSpill fid s
  | .slotRecall fid => Sys2Proof.Machine.execRecall fid s
  | .commit fid => Sys2Proof.Machine.execCommit fid s
  | .commitTimeout fid => Sys2Proof.Machine.execCommitTimeout fid s
  | .slotimg fid => Sys2Proof.Machine.execSlotimg fid s
  | .portEnable port => Sys2Proof.Machine.execPortEnable port s
  | .portDisable port => Sys2Proof.Machine.execPortDisable port s
  | .portRetrain port => Sys2Proof.Machine.execPortRetrain port s
  | .portTrained port lanes reversed => Sys2Proof.Machine.execPortTrained port lanes reversed s
  | .linkRepeat port => Sys2Proof.Machine.execLinkRepeat port s
  | .link port f => Sys2Proof.Machine.execLink port f s
  | .credit port f => Sys2Proof.Machine.execCredit port f s
  | .frameForward port f => Sys2Proof.Machine.execFrameForward port f s
  | .write port f => Sys2Proof.Machine.execWrite port f s
  | .msopFrame port f => Sys2Proof.Machine.execMsopFrame port f s
  | .read port f => Sys2Proof.Machine.execRead port f s
  | .signal port f => Sys2Proof.Machine.execSignal port f s
  | .sync port f => Sys2Proof.Machine.execSync port f s
  | .arrive port f => Sys2Proof.Machine.execArrive port f s
  | .red port f => Sys2Proof.Machine.execRed port f s
  | .res port f => Sys2Proof.Machine.execRes port f s
  | .ack port f => Sys2Proof.Machine.execAck port f s
  | .nak port f => Sys2Proof.Machine.execNak port f s
  | .readRsp port f => Sys2Proof.Machine.execReadRsp port f s
  | .fault port f => Sys2Proof.Machine.execFault port f s
  | .grant port f => Sys2Proof.Machine.execGrant port f s
  | .syncAck port f => Sys2Proof.Machine.execSyncAck port f s
  | .capo port f => Sys2Proof.Machine.execCapo port f s
  | .shift port f => Sys2Proof.Machine.execShift port f s
  | .ackTimer flow => Sys2Proof.Machine.execAckTimer flow s
  | .retransmitTimeout flow => Sys2Proof.Machine.execRetransmitTimeout flow s
  | .flowEnable flow => Sys2Proof.Machine.execFlowEnable flow s
  | .flowSyncRetry flow => Sys2Proof.Machine.execFlowSyncRetry flow s
  | .flowDisable flow => Sys2Proof.Machine.execFlowDisable flow s
  | .flowDisablingDone flow => Sys2Proof.Machine.execFlowDisablingDone flow s
  | .put fid => Sys2Proof.Machine.execPut fid s
  | .gred fid => Sys2Proof.Machine.execGred fid s
  | .grantRepeat fid => Sys2Proof.Machine.execGrantRepeat fid s
  | .capoSend group => Sys2Proof.Machine.execCapoSend group s
  | .capoEntryExpiry group sender => Sys2Proof.Machine.execCapoEntryExpiry group sender s
  | .shiftOffer group => Sys2Proof.Machine.execShiftOffer group s
  | .shiftLeaseExpiry group sender seq => Sys2Proof.Machine.execShiftLeaseExpiry group sender seq s
  | .interruptMessage srcDie target => Sys2Proof.Machine.execInterruptMessage srcDie target s
  | .imsicStore req hostDie offset value => Sys2Proof.Machine.execImsicStore req hostDie offset value s
  | .snpShr agent line => Sys2Proof.Machine.execSnpShr agent line s
  | .snpInv agent line => Sys2Proof.Machine.execSnpInv agent line s
  | .snpOwn agent line => Sys2Proof.Machine.execSnpOwn agent line s
  | .snpGfl agent granule => Sys2Proof.Machine.execSnpGfl agent granule s
  | .biasflip fid => Sys2Proof.Machine.execBiasflip fid s
  | .hfill fid => Sys2Proof.Machine.execHfill fid s
  | .biasInit home => Sys2Proof.Machine.execBiasInit home s
  | .biasInitDone home => Sys2Proof.Machine.execBiasInitDone home s
  | .pcieModeWrite io mode => Sys2Proof.Machine.execPcieModeWrite io mode s
  | .pcieOutboundAccess req io offset access => Sys2Proof.Machine.execPcieOutboundAccess req io offset access s
  | .pcieCompletionTimeout io tag => Sys2Proof.Machine.execPcieCompletionTimeout io tag s
  | .pcieInboundRequest io addr access tph => Sys2Proof.Machine.execPcieInboundRequest io addr access tph s
  | .pcieMsiWrite io addr data => Sys2Proof.Machine.execPcieMsiWrite io addr data s
  | .cxlDecoderCommit io => Sys2Proof.Machine.execCxlDecoderCommit io s
  | .bisnp io line => Sys2Proof.Machine.execBisnp io line s
  | .bisnpTimeout io line => Sys2Proof.Machine.execBisnpTimeout io line s
  | .cxlLoss io => Sys2Proof.Machine.execCxlLoss io s
  | .cxlWalkDone io => Sys2Proof.Machine.execCxlWalkDone io s
  | .cxlRearm io => Sys2Proof.Machine.execCxlRearm io s
  | .perst io => Sys2Proof.Machine.execPerst io s
  | .coursePairEnable die pair => Sys2Proof.Machine.execCoursePairEnable die pair s
  | .courseTrainingTimeout die pair => Sys2Proof.Machine.execCourseTrainingTimeout die pair s
  | .courseEnablingDone die pair r => Sys2Proof.Machine.execCourseEnablingDone die pair r s
  | .courseFlitReplay die pair flit => Sys2Proof.Machine.execCourseFlitReplay die pair flit s
  | .courseRetrain die pair => Sys2Proof.Machine.execCourseRetrain die pair s
  | .courseRetrainDone die pair r => Sys2Proof.Machine.execCourseRetrainDone die pair r s
  | .coursePairDisable die pair => Sys2Proof.Machine.execCoursePairDisable die pair s
  | .courseDisablingDone die pair => Sys2Proof.Machine.execCourseDisablingDone die pair s
  | .refSourceLost die secondary both => Sys2Proof.Machine.execRefSourceLost die secondary s both
  | .refPrimaryReturn die => Sys2Proof.Machine.execRefPrimaryReturn die s
  | .cpRefWrite die value primQ secQ => Sys2Proof.Machine.execCpRefWrite die value primQ secQ s
  | .refclkCheck bad => Sys2Proof.Machine.execRefclkCheck bad s
  | .refclkRelock => Sys2Proof.Machine.execRefclkRelock s
  | .tdStart => Sys2Proof.Machine.execTdStart s
  | .dieClockLost die => Sys2Proof.Machine.execDieClockLost die s
  | .dieLossAnswer die => Sys2Proof.Machine.execDieLossAnswer die s
  | .dieReset die => Sys2Proof.Machine.execDieReset die s
  | .dieReadmit die => Sys2Proof.Machine.execDieReadmit die s
  | .dieReadmitDone die ok => Sys2Proof.Machine.execDieReadmitDone die ok s
  | .lehrBinStart => Sys2Proof.Machine.execLehrBinStart s
  | .powerSample r => Sys2Proof.Machine.execPowerSample r s
  | .opDividerStep die => Sys2Proof.Machine.execOpDividerStep die s
  | .voltageSlewDone die => Sys2Proof.Machine.execVoltageSlewDone die s
  | .droopDetect die => Sys2Proof.Machine.execDroopDetect die s
  | .droopEnd die => Sys2Proof.Machine.execDroopEnd die s
  | .longDroop die => Sys2Proof.Machine.execLongDroop die s
  | .thermalSample r => Sys2Proof.Machine.execThermalSample r s
  | .groupEntryValidate group value => Sys2Proof.Machine.execGroupEntryValidate group value s
  | .domainEnable die => Sys2Proof.Machine.execDomainEnable die s
  | .domainEnablingDone die tests => Sys2Proof.Machine.execDomainEnablingDone die s tests
  | .domainDisable die => Sys2Proof.Machine.execDomainDisable die s
  | .domainDisablingDone die => Sys2Proof.Machine.execDomainDisablingDone die s
  | .pwrEnHigh volt => Sys2Proof.Machine.execPwrEnHigh volt s
  | .pwrEnLow volts => Sys2Proof.Machine.execPwrEnLow s volts
  | .moduleStart env => Sys2Proof.Machine.execModuleStart env s
  | .modResetAssert => Sys2Proof.Machine.execModResetAssert s
  | .modResetRelease => Sys2Proof.Machine.execModResetRelease s
  | .modResetHeld => Sys2Proof.Machine.execModResetHeld s
  | .throttleNChange active => Sys2Proof.Machine.execThrottleNChange active s
  | .throttleIntervalEnd reset => Sys2Proof.Machine.execThrottleIntervalEnd s reset
  | .throttleStuck => Sys2Proof.Machine.execThrottleStuck s
  | .pwAlertClear value => Sys2Proof.Machine.execPwAlertClear value s
  | .readStatusBlock => Sys2Proof.Machine.execReadStatusBlock s
  | .clearAlerts value bytes => Sys2Proof.Machine.execClearAlerts value s bytes
  | .i3cTransferTimeout => Sys2Proof.Machine.execI3cTransferTimeout s
  | .setdasa mctp addr dest => Sys2Proof.Machine.execSetdasa mctp addr s dest
  | .entdaa mctp addr => Sys2Proof.Machine.execEntdaa mctp addr s
  | .rstdaa => Sys2Proof.Machine.execRstdaa s
  | .getpid mctp => Sys2Proof.Machine.execGetpid mctp s
  | .getbcr mctp => Sys2Proof.Machine.execGetbcr mctp s
  | .getdcr mctp => Sys2Proof.Machine.execGetdcr mctp s
  | .getmxds mctp => Sys2Proof.Machine.execGetmxds mctp s
  | .enec events target => Sys2Proof.Machine.execEnec events s target
  | .disec events target => Sys2Proof.Machine.execDisec events s target
  | .getVersion path busy => Sys2Proof.Machine.execGetVersion path s busy
  | .negotiateAlgorithms path extAsym busy => Sys2Proof.Machine.execNegotiateAlgorithms path extAsym s busy
  | .getCertificate path slot offset length busy => Sys2Proof.Machine.execGetCertificate path slot offset length s busy
  | .challenge path slot nonce busy => Sys2Proof.Machine.execChallenge path slot nonce s busy
  | .getMeasurements path index nonce busy => Sys2Proof.Machine.execGetMeasurements path index nonce s busy
  | .smRbCommit => Sys2Proof.Machine.execSmRbCommit s
  | .fwupGo => Sys2Proof.Machine.execFwupGo s
  | .fwupDone eraseOk writeOk => Sys2Proof.Machine.execFwupDone eraseOk writeOk s
  | .setupAclWrite req value => Sys2Proof.Machine.execSetupAclWrite req value s
  | .jrWrite => Sys2Proof.Machine.execJrWrite s
  | .jrRead => Sys2Proof.Machine.execJrRead s
  | .jrDelete => Sys2Proof.Machine.execJrDelete s
  | .compactionDone => Sys2Proof.Machine.execCompactionDone s
  | .culletEraseDone => Sys2Proof.Machine.execCulletEraseDone s
  | .trstN => Sys2Proof.Machine.execTrstN s
  | .extest cells => Sys2Proof.Machine.execExtest cells s
  | .idcode => Sys2Proof.Machine.execIdcode s
  | .samplePreload cells => Sys2Proof.Machine.execSamplePreload cells s
  | .highz => Sys2Proof.Machine.execHighz s
  | .bypass code => Sys2Proof.Machine.execBypass code s
  | .portLinkDown port => Sys2Proof.Machine.execPortLinkDown port s
  | .tdAliveLost => Sys2Proof.Machine.execTdAliveLost s
  | .cxlMemRequest io addr access exclusive => Sys2Proof.Machine.execCxlMemRequest io addr access exclusive s
  | .cxlBar0Access io offset access => Sys2Proof.Machine.execCxlBar0Access io offset access s
  | .bisnpResponse io line data => Sys2Proof.Machine.execBisnpResponse io line data s
  | .pcieLinkUp io width speed => Sys2Proof.Machine.execPcieLinkUp io width speed s
  | .pcieLinkDown io => Sys2Proof.Machine.execPcieLinkDown io s
  | .pcieCompletion io tag data => Sys2Proof.Machine.execPcieCompletion io tag data s
  | .mctpControlMessage data => Sys2Proof.Machine.execMctpControlMessage data s
  | .getCapabilities path busy => Sys2Proof.Machine.execGetCapabilities path s busy
  | .counterWriteDone => Sys2Proof.Machine.execCounterWriteDone s
  | .jrOpDone flashOk => Sys2Proof.Machine.execJrOpDone flashOk s
  | .mbxBusyPulseEnd => Sys2Proof.Machine.execMbxBusyPulseEnd s
  | .stimecmpExpiry hart cmp => Sys2Proof.Machine.execStimecmpExpiry hart s cmp
  | .remoteGangDescriptor c => Sys2Proof.Machine.execRemoteGangDescriptor c s
  | .i3cUnknownCommand first reads => Sys2Proof.Machine.execI3cUnknownCommand first reads s

end Sys2Proof.Machine
end

