-- ==== Sys2Proof/Safety.lean ====
section
/-! DEFINITION. What counts as a good state and a safe run: memory, registers and buffers keep their one canonical form, and a
step answers a next state; the frames statements are written in; and when no access of a descriptor has to wait. -/

namespace Sys2Proof

open Machine

/-- The memory is in its one canonical form. -/
abbrev Memory.wf (m : List Host.Cell) : Prop := Canonical memDefault m

/-- The registers are in their one canonical form. -/
abbrev Registers.wf (m : List (Nat × Word)) : Prop := Canonical regReset m

/-- Every sparse map of the state is in its one canonical form, and the poisoned lines rise. -/
structure Machine.State.Wf (s : State) : Prop where
  mem : Memory.wf s.mem
  regs : Registers.wf s.regs
  poison : s.poison.Pairwise (· < ·)
  tb : Canonical word0 s.tb
  vr : Canonical word0 s.vr
  wAct : Canonical word0 s.wAct
  wShd : Canonical word0 s.wShd
  mbx : Canonical mbxDefault s.mbx
  flash : Canonical flashErased s.sm.imgFlash
  journal : Canonical jrErased s.sm.journal

/-- A state whose next step answers a next state. -/
def Safe.steps (s : State) : Prop := ∃ t, step s = .next t

/-- The address of a ring's context (R28, R31). -/
def ringContext (ring : Nat) : Nat := 0x0E0000000000 + 0x1000000 * ringDie ring + 0x10000 + 0x40 * ringLocal ring

/-! ### Answers and frames -/

/-- The command answers a next state, and that state is as `P` says. -/
def Answers (c : Instr) (s : State) (P : State → Prop) : Prop := ∃ t, exec c s = .next t ∧ P t

/-- Registers other than those listed read as before. -/
def RegsBut (as : List Nat) (s t : State) : Prop := ∀ a, regAlias a ∉ as → t.reg a = s.reg a

/-- Nothing changes but the listed registers. -/
def OnlyRegs (as : List Nat) (s t : State) : Prop := { t with regs := s.regs } = s ∧ RegsBut as s t

/-- A function's control register after a request or an end (R66): its state, pend and err as given; its other bits, and
everything beside it, as before. -/
def Switched (ctrl state : Nat) (pend err : Bool) (s t : State) : Prop :=
  OnlyRegs [ctrl] s t ∧ t.fnState ctrl = state ∧ t.flag ctrl 3 = pend ∧ t.flag ctrl 2 = err ∧
  ∀ i, i < 2 ∨ 6 < i → t.flag ctrl i = s.flag ctrl i

/-- A register field set, the register's other bits and everything beside it as before. -/
def FieldSet (a hi lo v : Nat) (s t : State) : Prop :=
  OnlyRegs [a] s t ∧ t.fld a hi lo = v ∧ ∀ i, i < lo ∨ hi < i → t.flag a i = s.flag a i

/-- Nothing changes but the descriptor that carries f's number, which is f afterwards. -/
def FlightSet (f : Flight) (s t : State) : Prop :=
  { t with flights := s.flights } = s ∧ t.flights.map (·.fid) = s.flights.map (·.fid) ∧ t.flight f.fid = some f ∧
  ∀ i, i ≠ f.fid → t.flight i = s.flight i

/-- The descriptor as it is when it has ended with a status and a detail, having touched nothing. -/
def Ended (f : Flight) (status : BitVec 8) (detail : Word) : Flight :=
  { f with phase := .done, res := { Flight.noRes with status := status, detail := detail } }

/-- Of the descriptors, those that `p` holds of end with STEP_ABORTED (0x50), and the others stay. -/
def AbortedIn (p : Flight → Bool) (s t : State) : Prop :=
  t.flights.map (·.fid) = s.flights.map (·.fid) ∧
  ∀ g ∈ t.flights, (g ∈ s.flights ∧ p g = false) ∨ ∃ f ∈ s.flights, p f = true ∧ g = Ended f 0x50 0

/-- The weight registers of an engine pair read +0; those of every other read as before. -/
def WeightsCleared (die ep : Nat) (s t : State) : Prop :=
  ∀ d e r c h, e < 6 → r < 256 → c < 256 → h < 2 →
    lookup word0 t.wAct (cellKey d e r c h) = (if d = die ∧ e = ep then 0 else lookup word0 s.wAct (cellKey d e r c h)) ∧
    lookup word0 t.wShd (cellKey d e r c h) = (if d = die ∧ e = ep then 0 else lookup word0 s.wShd (cellKey d e r c h))

/-- The tile buffers, vector registers and H of an engine pair read +0; those of every other read as before. -/
def BuffersCleared (die ep : Nat) (s t : State) : Prop :=
  (∀ d e b row lane, e < 6 → b < 4 → row < 256 → lane < 256 →
    lookup word0 t.tb (tbKey d e b row lane) = if d = die ∧ e = ep then 0 else lookup word0 s.tb (tbKey d e b row lane)) ∧
  ∀ d e r lane, e < 6 → r < 33 → lane < 256 →
    lookup word0 t.vr (vrKey d e r lane) = if d = die ∧ e = ep then 0 else lookup word0 s.vr (vrKey d e r lane)

/-- The descriptor that a run carries out is done with the run's result, the memory, the poisoned lines and the buffers of the
engine pairs are those the run leaves, and the other descriptors are as before. -/
def RunDone (f : Flight) (x : Run × Nat) (s t : State) : Prop :=
  t.flight f.fid = some { f with phase := .done, res := x.1.result x.2 } ∧ (∀ i, i ≠ f.fid → t.flight i = s.flight i) ∧
  t.mem = x.1.s.mem ∧ t.poison = x.1.s.poison ∧ t.tb = x.1.s.tb ∧ t.vr = x.1.s.vr ∧ t.wAct = x.1.s.wAct

/-- The run meets no fault that stops its unit and waits for nothing outside the module. -/
def Served (x : Run × Nat) : Prop := x.1.stop = false ∧ x.1.far = [] ∧ x.1.ext = []

/-- A started descriptor of a class, whose turn it is at its unit (R113, R129). -/
def Started (c : Nat) (f : Flight) (s : State) : Prop :=
  s.flight f.fid = some f ∧ f.phase = .started ∧ hGang f.target = false ∧ dClass f.desc = c ∧ s.held f = false

/-- Every byte outside the n bytes from `lo` reads as before, to every coherent requester (R22). -/
def BytesBut (lo n : Nat) (s t : State) : Prop := ∀ a, a < lo ∨ lo + n ≤ a → t.byte a = s.byte a

/-- A good routed frame of a type, received on a port that is up, has reached its end, and its flow takes it (R326, R330). -/
def Delivered (port type : Nat) (f : Frame) (s : State) : Prop :=
  s.portUp port = true ∧ f.type = type ∧ frameGood f = true ∧ f.hop f.hp = 63 ∧ f.dst = s.moduleId ∧ s.flowLive f.flow = true

/-- The frame has been handed to a port: it waits there for credits, or has left. -/
def Handed (port : Nat) (f : Frame) (t : State) : Prop := (∃ x ∈ t.fab.txq, x.port = port ∧ x.frame = f) ∨ .frame port f ∈ t.out

/-- No gang of this module waits for reports of its members. -/
def NoGangWaits (s : State) : Prop := ∀ g ∈ s.flights, hGang g.target = true → g.running = false ∨ g.remote.isSome = true

/-- The port the frames of a flow leave on (R326). -/
def portOf (s : State) (flow : Nat) : Nat := s.flowRoute flow % 64

end Sys2Proof
end

