-- ==== Sys2Proof/WellFormed.lean ====
section
/-! DEFINITION. Which commands are well formed: every number names something the module has. -/

namespace Sys2Proof

def Requester.wf : Requester → Bool
  | .smFirmware => true
  | .hostMachine h => decide (h < 192)
  | .hostUser h => decide (h < 192)
  | .dieCore d => decide (d < 98)
  | .extHost io => decide (io < 2)

def MbAccess.wf (a : MbAccess) : Bool := decide (a.word < 16384)

/-- Payload units: the plen field of a routed frame; LINK and CREDIT carry none (R319, R320). -/
def Frame.units (f : Frame) : Nat :=
  if f.hdr.toNat % 256 = 1 ∨ f.hdr.toNat % 256 = 2 then 0 else f.hdr.toNat / 2 ^ 192 % 16

/-- A frame holds at most 8 payload units of 64 bytes, as its plen field says (R318, R319). -/
def Frame.wf (f : Frame) : Bool := decide (f.payload.length = 64 * f.units) && decide (f.units ≤ 8)

/-- An access lies within one line of `unit` bytes (R234, R242). -/
def BusAccess.within (a : BusAccess) (addr unit : Nat) : Bool :=
  match a with
  | .read n => decide (0 < n ∧ addr % unit + n ≤ unit)
  | .write d => decide (0 < d.length ∧ addr % unit + d.length ≤ unit)

def LaneEcc.wf (e : LaneEcc) : Bool := decide (e.row < 1057 ∧ e.lane < 256)

def wfRing (ring : Nat) : Bool := decide (ring < 4096)
def wfFid (_ : Nat) : Bool := true
def wfHome (home : Nat) : Bool := decide (home < 40 ∨ 80 ≤ home ∧ home < 88)
def wfRingBearing (die : Nat) : Bool := decide (die < 40 ∨ 80 ≤ die ∧ die < 98)
def wfGangSlot (die slot : Nat) : Bool := decide (die < 40 ∧ slot < 103 ∧ (slot = 102 → die < 16))
def wfRmSlot (die slot : Nat) : Bool := decide (die < 40 ∧ slot < 1024 ∨ 88 ≤ die ∧ die < 98 ∧ slot < 64)
def wfPair (die pair : Nat) : Bool := decide (die < 40 ∧ pair < 16 ∨ 88 ≤ die ∧ die < 98 ∧ pair < 4)
def wfPort (port : Nat) (f : Frame) : Bool := decide (port < 40) && f.wf

/-- Every number of the command names something the module has. -/
def Instr.wf : Instr → Bool
  | .registerWrite req addr _ => req.wf && decide (0x0E0000000000 ≤ addr ∧ addr < 0x0E0064000000 ∧ addr % 4 = 0)
  | .doorbell die _ _ => wfRingBearing die
  | .ringEnable r => wfRing r
  | .ringEnablingDone r => wfRing r
  | .ringDisable r => wfRing r
  | .ringDisablingDone r => wfRing r
  | .ringResume r => wfRing r
  | .cplRdWrite r _ => wfRing r
  | .descriptorFetch r => wfRing r
  | .descriptorStart f => wfFid f
  | .nop f => wfFid f
  | .descriptorComplete f => wfFid f
  | .completionWriteFault f => wfFid f
  | .fenceSignal die ctr => wfRingBearing die && decide (ctr < 256)
  | .fenceWrite die ctr _ => wfRingBearing die && decide (ctr < 256)
  | .gangFanout f => wfFid f
  | .gangMemberReport g _ _ => wfFid g
  | .gangEntryValidate die slot _ => wfGangSlot die slot
  | .rmClose die slot => wfRmSlot die slot
  | .rmRevert die slot => wfRmSlot die slot
  | .matmul f es => wfFid f && es.all LaneEcc.wf
  | .matmulMxfp4 f es => wfFid f && es.all LaneEcc.wf
  | .elementwiseFma f => wfFid f
  | .partitionFault f _ => wfFid f
  | .enginePairEnable die ep => decide (die < 40 ∧ ep < 6)
  | .enginePairEnablingDone die ep => decide (die < 40 ∧ ep < 6)
  | .enginePairDisable die ep => decide (die < 40 ∧ ep < 6)
  | .enginePairDisablingDone die ep => decide (die < 40 ∧ ep < 6)
  | .fusedChain f es => wfFid f && es.all LaneEcc.wf
  | .fallbackProgram f es => wfFid f && es.all LaneEcc.wf
  | .veAccessFault f => wfFid f
  | .smrow f => wfFid f
  | .smmerge f => wfFid f
  | .norm f => wfFid f
  | .xent f => wfFid f
  | .attstep f es => wfFid f && es.all LaneEcc.wf
  | .conv f es => wfFid f && es.all LaneEcc.wf
  | .resample f => wfFid f
  | .regroup f => wfFid f
  | .decode f _ => wfFid f
  | .hbmRequest addr a _ _ => decide (addr < 0x0C0000000000) && a.within addr 64
  | .msopRequest addr _ _ data _ _ => decide (addr < 0x050000000000 ∧ addr % 64 = 0 ∧ data.length = 64)
  | .hbmRefresh home => wfHome home
  | .hbmScrubStep home _ => wfHome home
  | .hbmMaintEnter stack => decide (stack < 40)
  | .hbmMaintDrained stack => decide (stack < 40)
  | .hbmMaintExit stack => decide (stack < 40)
  | .w1500Go stack => decide (stack < 40)
  | .w1500ShiftDone stack _ => decide (stack < 40)
  | .pprGo stack _ => decide (stack < 40)
  | .pprDone stack r => decide (stack < 40 ∧ r ≠ 0)
  | .wmAccess die off a _ _ _ => decide (die < 40 ∧ off < 0x8000000) && a.within off 128
  | .wmInit die => decide (die < 40)
  | .wmInitDone die => decide (die < 40)
  | .move f => wfFid f
  | .msop f => wfFid f
  | .moverFault f => wfFid f
  | .moverEnable die n => decide (die < 40 ∧ n < 4)
  | .moverEnablingDone die n => decide (die < 40 ∧ n < 4)
  | .moverDisable die n => decide (die < 40 ∧ n < 4)
  | .moverDisablingDone die n => decide (die < 40 ∧ n < 4)
  | .hostCoreAccess hart _ _ addr size acc _ =>
      decide (hart < 192 ∧ addr < 2 ^ 48 ∧ 0 < size ∧ addr % 64 + size ≤ 64) &&
      (match acc with | .store d => decide (d.length = size) | _ => true)
  | .hostAtomic hart addr size _ _ _ => decide (hart < 192 ∧ addr < 2 ^ 48 ∧ (size = 4 ∨ size = 8) ∧ addr % size = 0)
  | .lrGrantExpiry hart => decide (hart < 192)
  | .mailboxInternalWrite req w _ e => req.wf && decide (w < 16384) && e.all MbAccess.wf
  | .mailboxSetAliasWrite req w _ e => req.wf && decide (w < 16384) && e.all MbAccess.wf
  | .mailboxClearAliasWrite req w _ e => req.wf && decide (w < 16384) && e.all MbAccess.wf
  | .mailboxRead ix _ _ _ => decide (ix < 16384)
  | .mailboxWrite ix _ _ => decide (ix < 16384)
  | .mailboxSet ix _ _ => decide (ix < 16384)
  | .mailboxClear ix _ _ => decide (ix < 16384)
  | .mbClaim _ => true
  | .i3cTransferEnd => true
  | .claimTimeout => true
  | .gnorm f => wfFid f
  | .update f => wfFid f
  | .wcopy f => wfFid f
  | .slotload f => wfFid f
  | .paramGroupValidate die slot _ => wfGangSlot die slot
  | .dcAbortWrite die _ => wfRingBearing die
  | .spill f => wfFid f
  | .slotRecall f => wfFid f
  | .commit f => wfFid f
  | .commitTimeout f => wfFid f
  | .slotimg f => wfFid f
  | .portEnable p => decide (p < 40)
  | .portDisable p => decide (p < 40)
  | .portRetrain p => decide (p < 40)
  | .portTrained p _ _ => decide (p < 40)
  | .linkRepeat p => decide (p < 40)
  | .link p f => wfPort p f
  | .credit p f => wfPort p f
  | .frameForward p f => wfPort p f
  | .write p f => wfPort p f
  | .msopFrame p f => wfPort p f
  | .read p f => wfPort p f
  | .signal p f => wfPort p f
  | .sync p f => wfPort p f
  | .arrive p f => wfPort p f
  | .red p f => wfPort p f
  | .res p f => wfPort p f
  | .ack p f => wfPort p f
  | .nak p f => wfPort p f
  | .readRsp p f => wfPort p f
  | .fault p f => wfPort p f
  | .grant p f => wfPort p f
  | .syncAck p f => wfPort p f
  | .capo p f => wfPort p f
  | .shift p f => wfPort p f
  | .ackTimer fl => decide (fl < 65536)
  | .retransmitTimeout fl => decide (fl < 65536)
  | .flowEnable fl => decide (fl < 65536)
  | .flowSyncRetry fl => decide (fl < 65536)
  | .flowDisable fl => decide (fl < 65536)
  | .flowDisablingDone fl => decide (fl < 65536)
  | .put f => wfFid f
  | .gred f => wfFid f
  | .grantRepeat f => wfFid f
  | .capoSend g => decide (g < 4096)
  | .capoEntryExpiry g m => decide (g < 4096 ∧ m < 2048)
  | .shiftOffer g => decide (g < 4096)
  | .shiftLeaseExpiry g m _ => decide (g < 4096 ∧ m < 2048)
  | .interruptMessage src _ => decide (src < 100)
  | .imsicStore req hd off _ => req.wf && decide (80 ≤ hd ∧ hd < 88 ∧ off < 0x100000 ∧ off % 4 = 0)
  | .snpShr ag line => decide (ag < 58 ∧ line < 2 ^ 42)
  | .snpInv ag line => decide (ag < 58 ∧ line < 2 ^ 42)
  | .snpOwn ag line => decide (ag < 58 ∧ line < 2 ^ 42)
  | .snpGfl ag g => decide (ag < 58 ∧ g < 2 ^ 32)
  | .biasflip f => wfFid f
  | .hfill f => wfFid f
  | .biasInit home => wfHome home
  | .biasInitDone home => wfHome home
  | .pcieModeWrite io _ => decide (io < 10)
  | .pcieOutboundAccess req io off _ => req.wf && decide (io < 10 ∧ 0xA0000 ≤ off ∧ off < 0x100000)
  | .pcieCompletionTimeout io _ => decide (io < 10)
  | .pcieInboundRequest io addr a _ => decide (io < 10 ∧ addr < 2 ^ 48) && a.within addr 64
  | .pcieMsiWrite io addr _ => decide (io < 10 ∧ addr % 4 = 0)
  | .cxlDecoderCommit io => decide (io < 2)
  | .bisnp io _ => decide (io < 2)
  | .bisnpTimeout io _ => decide (io < 2)
  | .cxlLoss io => decide (io < 2)
  | .cxlWalkDone io => decide (io < 2)
  | .cxlRearm io => decide (io < 10)
  | .perst io => decide (io < 10)
  | .coursePairEnable die p => wfPair die p
  | .courseTrainingTimeout die p => wfPair die p
  | .courseEnablingDone die p _ => wfPair die p
  | .courseFlitReplay die p _ => wfPair die p
  | .courseRetrain die p => wfPair die p
  | .courseRetrainDone die p _ => wfPair die p
  | .coursePairDisable die p => wfPair die p
  | .courseDisablingDone die p => wfPair die p
  | .refSourceLost die _ _ => decide (die < 40 ∨ 88 ≤ die ∧ die < 98)
  | .refPrimaryReturn die => decide (die < 40 ∨ 88 ≤ die ∧ die < 98)
  | .cpRefWrite die _ _ _ => decide (die < 40 ∨ 88 ≤ die ∧ die < 98)
  | .refclkCheck _ => true
  | .refclkRelock => true
  | .tdStart => true
  | .dieClockLost die => wfRingBearing die || die == 99
  | .dieLossAnswer die => wfRingBearing die
  | .dieReset die => wfRingBearing die
  | .dieReadmit die => wfRingBearing die
  | .dieReadmitDone die _ => wfRingBearing die
  | .lehrBinStart => true
  | .powerSample _ => true
  | .opDividerStep die => decide (die < 40)
  | .voltageSlewDone die => decide (die < 40)
  | .droopDetect die => decide (die < 40)
  | .droopEnd die => decide (die < 40)
  | .longDroop die => decide (die < 40)
  | .thermalSample _ => true
  | .groupEntryValidate g _ => decide (g < 4096)
  | .domainEnable die => wfRingBearing die
  | .domainEnablingDone die ts => wfRingBearing die && ts.all (fun t => wfPair t.die t.pair)
  | .domainDisable die => wfRingBearing die
  | .domainDisablingDone die => wfRingBearing die
  | .pwrEnHigh _ => true
  | .pwrEnLow _ => true
  | .moduleStart e => decide (e.puf.length = 16384) && e.failed.all wfRingBearing && e.pairs.all (fun t => wfPair t.die t.pair)
  | .modResetAssert => true
  | .modResetRelease => true
  | .modResetHeld => true
  | .throttleNChange _ => true
  | .throttleIntervalEnd _ => true
  | .throttleStuck => true
  | .pwAlertClear _ => true
  | .readStatusBlock => true
  | .clearAlerts _ n => decide (n ≤ 4)
  | .i3cTransferTimeout => true
  | .setdasa _ _ _ => true
  | .entdaa _ _ => true
  | .rstdaa => true
  | .getpid _ => true
  | .getbcr _ => true
  | .getdcr _ => true
  | .getmxds _ => true
  | .enec _ _ => true
  | .disec _ _ => true
  | .getVersion _ _ => true
  | .negotiateAlgorithms _ _ _ => true
  | .getCertificate _ _ _ _ _ => true
  | .challenge _ _ _ _ => true
  | .getMeasurements _ _ _ _ => true
  | .smRbCommit => true
  | .fwupGo => true
  | .fwupDone _ _ => true
  | .setupAclWrite req _ => req.wf
  | .jrWrite => true
  | .jrRead => true
  | .jrDelete => true
  | .compactionDone => true
  | .culletEraseDone => true
  | .trstN => true
  | .extest _ => true
  | .idcode => true
  | .samplePreload _ => true
  | .highz => true
  | .bypass code => decide (4 ≤ code.toNat)
  | .portLinkDown p => decide (p < 40)
  | .tdAliveLost => true
  | .cxlMemRequest io addr a _ => decide (io < 2) && a.within addr 64
  | .cxlBar0Access io off a => decide (io < 2 ∧ off < 0x80000000) && a.within off 64
  | .bisnpResponse io _ d => decide (io < 2) && d.all (fun x => decide (x.length = 64))
  | .pcieLinkUp io _ _ => decide (io < 10)
  | .pcieLinkDown io => decide (io < 10)
  | .pcieCompletion io _ _ => decide (io < 10)
  | .mctpControlMessage _ => true
  | .getCapabilities _ _ => true
  | .counterWriteDone => true
  | .jrOpDone _ => true
  | .mbxBusyPulseEnd => true
  | .stimecmpExpiry hart _ => decide (hart < 192)
  | .remoteGangDescriptor c => decide (c.origin < 2048 ∧ c.gang < 4096)
  | .i3cUnknownCommand _ _ => true

end Sys2Proof
end

