-- ==== Sys2Proof/Certificates/Slice0/Obligations.lean ====
section
/-! DEFINITION. The statements for the provers. -/

open Sys2Proof

open Sys2Proof.Machine

/-- A step takes the command at the front of the queue and runs it on the state with the rest of the queue. That commands wait
in one queue and run whole, one at a time, is the model's choice (log entries 15, 20 and 120). -/
def Obligations.StepRunsFront : Prop :=
  ∀ (s : State) (c : Instr) (rest : List Instr), s.pending = c :: rest →
    step s = exec c { s with pending := rest }

/-- R348 and R67. That the idle step is a cycle is the model's choice (log entry 4, DESIGN CHOICE); a latched enable beginning
in the cycle after OFF is log entry 27. -/
def Obligations.IdleStepCountsTimers : Prop :=
  let timers := (List.range 8).flatMap (fun h => [Reg.hxMtimeLo (80 + h), Reg.hxMtimeHi (80 + h)])
  (∀ s : State, s.pending = [] → s.latched = [] → (∀ g ∈ s.fab.guards, s.guardDue g = false) →
    ∃ t, step s = .next t ∧ OnlyRegs timers s { t with host := { t.host with stip := s.host.stip } } ∧
      (∀ hart cmp, (hart, cmp) ∈ s.host.stimecmp → (∀ p ∈ s.host.stimecmp, p.1 = hart → p = (hart, cmp)) →
        s.dieState (hartDie hart) = 2 → (hart ∈ t.host.stip ↔ cmp.toNat ≤ t.mtime (hartDie hart))) ∧
      (∀ hart, (s.dieState (hartDie hart) ≠ 2 ∨ ∀ p ∈ s.host.stimecmp, p.1 ≠ hart) →
        (hart ∈ t.host.stip ↔ hart ∈ s.host.stip)) ∧
      ∀ h, h < 8 →
        (t.reg (Reg.hxMtimeLo (80 + h))).toNat + 2 ^ 32 * (t.reg (Reg.hxMtimeHi (80 + h))).toNat =
          ((s.reg (Reg.hxMtimeLo (80 + h))).toNat + 2 ^ 32 * (s.reg (Reg.hxMtimeHi (80 + h))).toNat +
            (if s.dieState (80 + h) = 2 then 1 else 0)) % 2 ^ 64) ∧
  (∀ (s : State) (fn : Fn) (c : Nat), s.Wf → s.pending = [] → s.latched = [fn] → (∀ g ∈ s.fab.guards, s.guardDue g = false) →
    (∃ ring, fn = .ring ring ∧ c = ringContext ring + 0x18) ∨ (∃ die n, fn = .mover die n ∧ c = Reg.mvCtrl die n) →
    ∃ t, step s = .next t ∧ OnlyRegs (c :: timers) s { t with host := { t.host with stip := s.host.stip } } ∧
      t.fnState c = 1 ∧ t.flag c 3 = false ∧ t.flag c 2 = false) ∧
  (∀ (s : State) (die ep : Nat), s.Wf → s.pending = [] → s.latched = [.enginePair die ep] →
    (∀ g ∈ s.fab.guards, s.guardDue g = false) →
    let c := Reg.maCtrl die ep
    let bad := decide (s.fld c 9 8 = 3)
    ∃ t, step s = .next t ∧
      OnlyRegs (c :: (if bad = true then [Reg.maErr die ep] else []) ++
          timers) s { t with host := { t.host with stip := s.host.stip } } ∧
      t.fnState c = (if bad = true then 0 else 1) ∧ t.flag c 3 = false ∧ t.flag c 2 = bad ∧
      (bad = true → t.flag (Reg.maErr die ep) 1 = true)) ∧
  (∀ (s : State) (die pair : Nat), s.Wf → s.pending = [] → s.latched = [.coursePair die pair] →
    (∀ g ∈ s.fab.guards, s.guardDue g = false) → pairAttached die pair = true →
    let c := Reg.cpCtrl die pair
    ∃ t, step s = .next t ∧ OnlyRegs (c :: Reg.cpStatus die pair :: Reg.cpFault die pair :: timers) s
        { t with host := { t.host with stip := s.host.stip } } ∧
      t.fnState c = 1 ∧ t.flag c 3 = false ∧ t.flag c 2 = false ∧ t.fld (Reg.cpStatus die pair) 11 8 = 2 ∧
      t.reg (Reg.cpFault die pair) = 0)

/-- No rule of the spec stops the module (R24 answers every access): every command answers a next state. That a command whose
event cannot happen answers the state unchanged is the model's choice (log entry 15), as are commands that run whole (log
entries 20 and 120). -/
def Obligations.EveryStepAnswers : Prop :=
  ∀ s : State, Safe.steps s

/-- The invariant of StepKeepsWf holds after reset. -/
def Obligations.ResetIsWellFormed : Prop :=
  State.reset.Wf

/-- Every command, whatever its operands, and the idle step keep the one canonical form of all the memories. -/
def Obligations.StepKeepsWf : Prop :=
  ∀ s t : State, s.Wf → step s = .next t → t.Wf

/-- A command acts on everything but the queue of waiting commands. -/
def Obligations.CommandsKeepQueue : Prop :=
  ∀ (c : Instr) (s t : State), exec c s = .next t → t.pending = s.pending

/-- R36, by the offsets of R32 in the context of the ring named. -/
def Obligations.DoorbellFollowsR36 : Prop :=
  ∀ (s : State) (die : Nat) (wide : Bool) (v : DWord), s.dieDown die = false →
    let ring := v.toNat % 4096
    let prod : Word := BitVec.ofNat 32 (v.toNat / 2 ^ 32)
    let base := ringContext ring
    Answers (.doorbell die wide v) s (fun t =>
      if wide = false ∨ v.toNat / 2 ^ 12 % 2 ^ 20 ≠ 0 ∨ ringDie ring ≠ die then
        { t with flog := s.flog } = s ∧ t.flog = s.flog ++ [logEntry die .badDoorbell ring prod.toNat]
      else if 2 ^ 31 ≤ (prod - s.reg (base + 0x20)).toNat then t = s
      else if 2 ^ s.fld (base + 0x08) 4 0 < (prod - s.reg (base + 0x24)).toNat then FieldSet (base + 0x30) 3 3 1 s t
      else if s.fld (base + 0x18) 6 4 = 1 ∨ s.fld (base + 0x18) 6 4 = 2 then
        OnlyRegs [base + 0x20] s t ∧ t.reg (base + 0x20) = prod
      else FieldSet (base + 0x30) 2 2 1 s t)

/-- R67, the enable column, in the layout of R66; R124 refuses parts = 3. R67, the disable column; R68 and R69 say which
descriptors end with STEP_ABORTED. -/
def Obligations.RequestsFollowR67 : Prop :=
  (
  (∀ (s : State) (ring : Nat), ring < 4096 → s.dieDown (ringDie ring) = false →
    let c := ringContext ring + 0x18
    Answers (.ringEnable ring) s (Switched c (if s.fnState c = 0 then 1 else s.fnState c) (s.flag c 3 && s.fnState c != 0 || s.fnState c == 3) false s)) ∧
  (∀ (s : State) (die n : Nat), die < 40 → n < 4 → s.dieDown die = false →
    let c := Reg.mvCtrl die n
    Answers (.moverEnable die n) s (Switched c (if s.fnState c = 0 then 1 else s.fnState c) (s.flag c 3 && s.fnState c != 0 || s.fnState c == 3) false s)) ∧
  (∀ (s : State) (die ep : Nat), die < 40 → ep < 6 → s.dieDown die = false →
    let c := Reg.maCtrl die ep
    Answers (.enginePairEnable die ep) s (fun t =>
      if s.fnState c = 0 ∧ s.fld c 9 8 = 3 then
        OnlyRegs [Reg.maErr die ep, c] s t ∧ t.reg (Reg.maErr die ep) = s.reg (Reg.maErr die ep) ||| 2 ∧
        ∀ i, t.flag c i = (if i = 2 then true else if i = 3 then false else s.flag c i)
      else Switched c (if s.fnState c = 0 then 1 else s.fnState c) (s.flag c 3 && s.fnState c != 0 || s.fnState c == 3) false s t))) ∧
  (
  (∀ (s : State) (ring : Nat), ring < 4096 → s.dieDown (ringDie ring) = false →
    let c := ringContext ring + 0x18
    Answers (.ringDisable ring) s (fun t =>
      Switched c (if s.fnState c = 1 ∨ s.fnState c = 2 then 3 else s.fnState c) (s.flag c 3 && s.fnState c != 3) (s.flag c 2) s
        { t with flights := s.flights } ∧
      AbortedIn (fun f => decide (1 ≤ s.fnState c ∧ s.fnState c ≤ 3) && decide (f.ring = ring ∧ f.parent = none ∧
          f.remote = none) &&
        f.waits) s t)) ∧
  (∀ (s : State) (die n : Nat), die < 40 → n < 4 → s.dieDown die = false →
    let c := Reg.mvCtrl die n
    Answers (.moverDisable die n) s (fun t =>
      Switched c (if s.fnState c = 1 ∨ s.fnState c = 2 then 3 else s.fnState c) (s.flag c 3 && s.fnState c != 3) (s.flag c 2) s
        { t with flights := s.flights } ∧
      AbortedIn (fun f => decide (1 ≤ s.fnState c ∧ s.fnState c ≤ 3) && onMover die n f && s.ready f) s t)) ∧
  (∀ (s : State) (die ep : Nat), die < 40 → ep < 6 → s.dieDown die = false →
    let c := Reg.maCtrl die ep
    Answers (.enginePairDisable die ep) s (fun t =>
      Switched c (if s.fnState c = 1 ∨ s.fnState c = 2 then 3 else s.fnState c) (s.flag c 3 && s.fnState c != 3) (s.flag c 2) s
        { t with flights := s.flights } ∧
      AbortedIn (fun f => decide (1 ≤ s.fnState c ∧ s.fnState c ≤ 3) && onEp die ep f && s.ready f) s t)))

/-- R34 with the layout of R32; what a valid target is stands in R29 and R55. R67, the last column, with what R124 and R166 say
an engine pair clears. The cycle between OFF and ENABLING is log entry 27. -/
def Obligations.FunctionsEndAsR67 : Prop :=
  (
  ∀ (s : State) (ring : Nat), ring < 4096 → s.dieDown (ringDie ring) = false → s.fnState (ringContext ring + 0x18) = 1 →
    let c := ringContext ring
    let l := s.fld (c + 0x08) 4 0
    let m := s.fld (c + 0x08) 20 16
    let base (lo a : Nat) := 2 ^ 32 * s.fld (c + lo + 4) 15 0 + a * ((s.reg (c + lo)).toNat / a)
    let lies (b n : Nat) : Prop := n ∣ b ∧ populated b = true ∧ populated (b + n - 1) = true ∧ ownerDie b = ownerDie (b + n - 1)
    let h := s.reg (c + 0x0C)
    let setup := 4 ≤ l ∧ l ≤ 16 ∧ 4 ≤ m ∧ m ≤ 16 ∧ lies (base 0x00 64) (64 * 2 ^ l) ∧ lies (base 0x10 32) (32 * 2 ^ m)
    let target := handleValid h = true ∧ hModule h = s.moduleId ∧
      (if hGang h = true then gangHome (hGangNo h) = ringDie ring else hDie h = ringDie ring)
    Answers (.ringEnablingDone ring) s (fun t =>
      (setup ∧ target → Switched (c + 0x18) 2 (s.flag (c + 0x18) 3) (s.flag (c + 0x18) 2) s t) ∧
      (¬ (setup ∧ target) →
        OnlyRegs [c + 0x18, c + 0x30] s { t with flog := s.flog } ∧
            t.flog = s.flog ++ [logEntry (ringDie ring) .ringRefused ring 0] ∧
        t.fnState (c + 0x18) = 0 ∧ t.flag (c + 0x18) 2 = true ∧
        (t.flag (c + 0x30) 5 = true ↔ (s.flag (c + 0x30) 5 = true ∨ ¬ setup)) ∧
        (t.flag (c + 0x30) 4 = true ↔ (s.flag (c + 0x30) 4 = true ∨ ¬ target)) ∧
        ∀ i, i ≠ 4 → i ≠ 5 → t.flag (c + 0x30) i = s.flag (c + 0x30) i))) ∧
  (
  (∀ (s : State) (ring : Nat), ring < 4096 → s.dieDown (ringDie ring) = false → s.ringFlights ring = [] →
    let c := ringContext ring + 0x18
    s.fnState c = 3 → Answers (.ringDisablingDone ring) s (Switched c 0 (s.flag c 3) (s.flag c 2) s)) ∧
  (∀ (s : State) (die n : Nat), die < 40 → n < 4 → s.dieDown die = false →
    let c := Reg.mvCtrl die n
    (s.fnState c = 1 → Answers (.moverEnablingDone die n) s (Switched c 2 (s.flag c 3) (s.flag c 2) s)) ∧
    (s.fnState c = 3 → (∀ f ∈ s.flights, onMover die n f = true → f.inWork = false) →
      Answers (.moverDisablingDone die n) s (Switched c 0 (s.flag c 3) (s.flag c 2) s))) ∧
  (∀ (s : State) (die ep : Nat), die < 40 → ep < 6 → s.dieDown die = false →
    let c := Reg.maCtrl die ep
    (s.fnState c = 1 → s.fld c 9 8 = 3 → Answers (.enginePairEnablingDone die ep) s (fun t =>
      OnlyRegs [Reg.maErr die ep, c] s t ∧ t.flag (Reg.maErr die ep) 1 = true ∧ t.fnState c = 0 ∧ t.flag c 2 = true)) ∧
    (s.fnState c = 1 → s.fld c 9 8 ≠ 3 → Answers (.enginePairEnablingDone die ep) s (fun t =>
      OnlyRegs [c, Reg.veStatus die ep] s { t with wAct := s.wAct, wShd := s.wShd, tb := s.tb, tbMarks := s.tbMarks, vr := s.vr, vrMarks := s.vrMarks } ∧
      t.fnState c = 2 ∧ t.flag (Reg.veStatus die ep) 12 = false ∧ WeightsCleared die ep s t ∧ BuffersCleared die ep s t)) ∧
    (s.fnState c = 3 → (∀ f ∈ s.flights, onEp die ep f = true → f.inWork = false) →
      Answers (.enginePairDisablingDone die ep) s (fun t =>
        Switched c 0 (s.flag c 3) (s.flag c 2) s { t with wAct := s.wAct, wShd := s.wShd } ∧
        WeightsCleared die ep s t))))

/-- R33 on DC_RING_CPL_RD, R32 on resume, R45 on the fence counters. -/
def Obligations.RingCountersFollowR33 : Prop :=
  (∀ (s : State) (ring : Nat) (v : Word), ring < 4096 → s.dieDown (ringDie ring) = false →
    let c := ringContext ring
    Answers (.cplRdWrite ring v) s (fun t =>
      if 1 ≤ (v - s.reg (c + 0x28)).toNat ∧ (v - s.reg (c + 0x28)).toNat < 2 ^ 31 then FieldSet (c + 0x30) 1 1 1 s t
      else OnlyRegs [c + 0x2C] s t ∧ t.reg (c + 0x2C) = v) ∧
    Answers (.ringResume ring) s (FieldSet (c + 0x18) 9 9 0 s)) ∧
  (∀ (s : State) (die ctr : Nat) (v : Word), ringBearing die = true → ctr < 256 → s.dieDown die = false →
    Answers (.fenceWrite die ctr v) s (fun t => OnlyRegs [Reg.dcFence die ctr] s t ∧ t.reg (Reg.dcFence die ctr) = v) ∧
    ((die, ctr) ∈ s.sigQ → Answers (.fenceSignal die ctr) s (fun t =>
      OnlyRegs [Reg.dcFence die ctr] { s with sigQ := s.sigQ.erase (die, ctr) } t ∧
      t.reg (Reg.dcFence die ctr) = s.reg (Reg.dcFence die ctr) + 1)))

/-- R37, the slot by note 1 of R32; the premise on the numbers of the descriptors holds in every state a run reaches (entry 5).
-/
def Obligations.FetchFollowsR37 : Prop :=
  ∀ (s : State) (ring : Nat), ring < 4096 →
    let c := ringContext ring
    let cons := s.reg (c + 0x24)
    let ahead := (s.reg (c + 0x20) - cons).toNat
    let slot := 2 ^ 32 * s.fld (c + 0x04) 15 0 + 64 * ((s.reg c).toNat / 64) + 64 * (cons.toNat % 2 ^ s.fld (c + 0x08) 4 0)
    (s.fnState (c + 0x18) ≠ 2 ∨ s.flag (c + 0x18) 9 = true ∨ ahead = 0 ∨ 2 ^ 31 ≤ ahead →
      Answers (.descriptorFetch ring) s (fun t => t = s)) ∧
    ∀ u bs, s.mayFetch ring = true → s.dcRead (ringDie ring) slot 64 = .data u bs →
      (∀ g ∈ s.flights, g.fid < s.nextFid) →
      Answers (.descriptorFetch ring) s (fun t => ∃ f : Flight,
        f.fid = s.nextFid ∧ f.ring = ring ∧ f.index = cons ∧ f.desc = BitVec.ofNat 512 (leNat bs) ∧
        f.target = s.reg (c + 0x0C) ∧ f.parent = none ∧
        t.flights = s.flights ++ [if s.stepAborted (ringDie ring) f.desc = true then Ended f 0x50 0 else f] ∧ f.phase = .waiting ∧
        t.nextFid = s.nextFid + 1 ∧ t.reg (c + 0x24) = cons + 1 ∧
        ∀ a, regAlias a ≠ c + 0x24 → t.reg a = s.reg a)

/-- R465, points 1 to 3. R466. -/
def Obligations.RingFaultsFollowR465 : Prop :=
  (
  ∀ (s : State) (ring status : Nat), ring < 4096 →
    let c := ringContext ring
    let cons := s.reg (c + 0x24)
    let slot := 2 ^ 32 * s.fld (c + 0x04) 15 0 + 64 * ((s.reg c).toNat / 64) + 64 * (cons.toNat % 2 ^ s.fld (c + 0x08) 4 0)
    s.mayFetch ring = true → s.dcRead (ringDie ring) slot 64 = .bad status →
    Answers (.descriptorFetch ring) s (fun t =>
      OnlyRegs [c + 0x18, c + 0x30] s { t with flog := s.flog, irqQ := s.irqQ, pcie := s.pcie, answered := s.answered } ∧
      t.pcie = { s.pcie with waiters := t.pcie.waiters, exempt := t.pcie.exempt } ∧
      t.reg (c + 0x18) = s.reg (c + 0x18) ||| 0x200 ∧ t.reg (c + 0x30) = s.reg (c + 0x30) ||| 0x40 ∧
      t.flog = s.flog ++ [logEntry (ringDie ring) (.fetchFault status) slot cons.toNat (.controller (ringDie ring)) .read] ∧
      t.irqQ = s.irqQ ++ (if s.flag (c + 0x18) 11 = true then [(ringDie ring, BitVec.ofNat 24 (s.fld (c + 0x1C) 23 0))] else []))) ∧
  (
  ∀ (s : State) (f : Flight), f.ring < 4096 → s.flight f.fid = some f → f.phase = .completed →
    s.ringFlights f.ring = [f] → recordDue (dCmpl f.desc) f.res.status.toNat = true → s.recordFault f.ring = true →
    let c := ringContext f.ring
    Answers (.completionWriteFault f.fid) s (fun t =>
      OnlyRegs [c + 0x18, c + 0x28, c + 0x30] s
        { t with flights := s.flights, flog := s.flog, irqQ := s.irqQ, pcie := s.pcie, answered := s.answered } ∧
      t.pcie = { s.pcie with waiters := t.pcie.waiters, exempt := t.pcie.exempt } ∧
      t.reg (c + 0x28) = s.reg (c + 0x28) + 1 ∧ t.reg (c + 0x30) = s.reg (c + 0x30) ||| 0x80 ∧
      t.reg (c + 0x18) = s.reg (c + 0x18) ||| 0x200 ∧
      t.flog = s.flog ++ [logEntry (ringDie f.ring) .cplFault f.index.toNat f.res.status.toNat (.desc f.fid) .write] ∧
      t.flights = s.flights.filter (fun g => g.fid != f.fid) ∧
      t.irqQ = s.irqQ ++ (if s.flag (c + 0x18) 11 = true then [(ringDie f.ring, BitVec.ofNat 24 (s.fld (c + 0x1C) 23 0))] else [])))

/-- R39, R40 and R464 on the checks; R69, R293 and R393 on what comes before them. The order in which an aborted step, a lost
die, OFF or DISABLING and ENABLING are looked at is the model's reading (log entry 25; log entry 29 on the unit that waits). -/
def Obligations.StartFollowsR39 : Prop :=
  ∀ (s : State) (f : Flight), s.flight f.fid = some f → hGang f.target = false → s.ready f = true →
    let die := hDie f.target
    let dom := s.fnState (Reg.pwDom die)
    let here (t : State) : Prop := t.mem = s.mem ∧ ∀ i, i ≠ f.fid → t.flight i = s.flight i
    let invalid (d : Word) (t : State) : Prop := here t ∧
      ∃ r : Result, t.flight f.fid = some { f with phase := .done, res := r } ∧ r.status.toNat = stDescInvalid ∧ r.detail = d ∧
          r.merges = []
    (s.stepAborted die f.desc = true → Answers (.descriptorStart f.fid) s (FlightSet (Ended f 0x50 0) s)) ∧
    (s.stepAborted die f.desc = false →
      (s.dieState die = 3 ∨ s.dieState die = 4 →
        Answers (.descriptorStart f.fid) s (FlightSet (Ended f (BitVec.ofNat 8 stDieLost) (BitVec.ofNat 32 die)) s)) ∧
      (s.dieState die ≠ 3 → s.dieState die ≠ 4 →
        (dom = 3 ∨ (dom ≠ 1 ∧ (s.dieState die = 0 ∨ s.unitState f = 0 ∨ s.unitState f = 3)) →
          Answers (.descriptorStart f.fid) s (FlightSet (Ended f 0x50 0) s)) ∧
        (dom = 1 ∨ (dom ≠ 3 ∧ s.dieState die ≠ 0 ∧ s.unitState f = 1) → Answers (.descriptorStart f.fid) s (fun t => t = s))) ∧
      (s.dieState die = 2 → dom ≠ 1 → dom ≠ 3 → s.unitState f = 2 → s.myTurn f = true → s.controllerBusy f = false →
        (s.bodyChecks f = none → Answers (.descriptorStart f.fid) s (invalid 0xFFFFFFFF)) ∧
        (∀ body b, s.bodyChecks f = some body → ¬ (dClass f.desc = 0x68 ∧ (f.parent.isSome ∨ f.remote.isSome)) →
          s.groupLost f = false → s.peekWaits f (headerChecks f.desc ++ body) = none →
          lowest (headerChecks f.desc ++ body ++ s.peekChecks f (headerChecks f.desc ++ body)) = some b →
          Answers (.descriptorStart f.fid) s (invalid (BitVec.ofNat 32 b))) ∧
        (∀ body, s.bodyChecks f = some body → ¬ (dClass f.desc = 0x68 ∧ (f.parent.isSome ∨ f.remote.isSome)) →
          s.groupLost f = false → lowest (headerChecks f.desc ++ body ++ s.peekChecks f (headerChecks f.desc ++ body)) = none →
          firstReads f = [] → groupField f.desc = none →
          Answers (.descriptorStart f.fid) s (fun t => here t ∧ ∃ vals,
            t.flight f.fid = some { f with phase := .started, recs := [], vals := vals, start := s.nextStart } ∧
            t.nextStart = s.nextStart + 1))))

/-- The runs are those of the chapters on matrix arrays and convolution. -/
def Obligations.MatrixClassesComplete : Prop :=
  ∀ (s : State) (f : Flight) (errs : List LaneEcc),
    (Started 0x10 f s → Served (s.matmulRun f none errs) → Answers (.matmul f.fid errs) s (RunDone f (s.matmulRun f none errs) s)) ∧
    (Started 0x11 f s → Served (s.matmulMxRun f none errs) →
      Answers (.matmulMxfp4 f.fid errs) s (RunDone f (s.matmulMxRun f none errs) s)) ∧
    (Started 0x12 f s → Served (s.elementwiseRun f) → Answers (.elementwiseFma f.fid) s (RunDone f (s.elementwiseRun f) s)) ∧
    (Started 0x40 f s → Served (s.convRun f none errs) → Answers (.conv f.fid errs) s (RunDone f (s.convRun f none errs) s))

/-- The runs are those of the chapters on vector engines, softmax and norms, convolution and the parameter update. -/
def Obligations.VectorClassesComplete : Prop :=
  ∀ (s : State) (f : Flight) (errs : List LaneEcc),
    (Started 0x20 f s → Served (s.vectorRun f errs) → Answers (.fusedChain f.fid errs) s (RunDone f (s.vectorRun f errs) s)) ∧
    (Started 0x21 f s → Served (s.vectorRun f errs) → Answers (.fallbackProgram f.fid errs) s (RunDone f (s.vectorRun f errs) s)) ∧
    (Started 0x30 f s → Served (s.smrowRun f) → Answers (.smrow f.fid) s (RunDone f (s.smrowRun f) s)) ∧
    (Started 0x31 f s → Served (s.smmergeRun f) → Answers (.smmerge f.fid) s (RunDone f (s.smmergeRun f) s)) ∧
    (Started 0x32 f s → Served (s.normRun f) → Answers (.norm f.fid) s (RunDone f (s.normRun f) s)) ∧
    (Started 0x33 f s → Served (s.xentRun f) → Answers (.xent f.fid) s (RunDone f (s.xentRun f) s)) ∧
    (Started 0x34 f s → Served (s.attstepRun f errs) → Answers (.attstep f.fid errs) s (RunDone f (s.attstepRun f errs) s)) ∧
    (Started 0x41 f s → Served (s.resampleRun f) → Answers (.resample f.fid) s (RunDone f (s.resampleRun f) s)) ∧
    (Started 0x42 f s → Served (s.regroupRun f) → Answers (.regroup f.fid) s (RunDone f (s.regroupRun f) s)) ∧
    (Started 0x60 f s → Served (s.gnormRun f) → Answers (.gnorm f.fid) s (RunDone f (s.gnormRun f) s)) ∧
    (Started 0x61 f s → Served (s.updateRun f) → Answers (.update f.fid) s (RunDone f (s.updateRun f) s)) ∧
    (Started 0x62 f s → Served (s.wcopyRun f) → Answers (.wcopy f.fid) s (RunDone f (s.wcopyRun f) s))

/-- The runs are those of the chapters on memory, the parameter update, the step, the fabric, host coupling and video. -/
def Obligations.OtherClassesComplete : Prop :=
  ∀ (s : State) (f : Flight) (scratch : Option Nat),
    (Started 0x50 f s → s.movesFar f = false → Served (s.moveRun f) → Answers (.move f.fid) s (RunDone f (s.moveRun f) s)) ∧
    (let x := ((movePlan f).fin (s.moveFarRow f), (movePlan f).cycles)
     Started 0x50 f s → s.movesFar f = true → s.awaitsAck f.fid = false → stopsMover f.res.status.toNat = false →
      lastFarRow f = true → Served x → Answers (.move f.fid) s (RunDone f x s)) ∧
    (Started 0x00 f s → Answers (.nop f.fid) s (FlightSet (Ended f 0 0) s)) ∧
    (Started 0x51 f s → Served (s.msopDescRun f) → Answers (.msop f.fid) s (RunDone f (s.msopDescRun f) s)) ∧
    (Started 0x54 f s → Served (s.spillRun f) → Answers (.spill f.fid) s (RunDone f (s.spillRun f) s)) ∧
    (Started 0x55 f s → Served (s.recallRun f) → Answers (.slotRecall f.fid) s (RunDone f (s.recallRun f) s)) ∧
    (Started 0x63 f s → Served (s.slotloadRun f) → Answers (.slotload f.fid) s (RunDone f (s.slotloadRun f) s)) ∧
    (Started 0x69 f s → Served (s.slotimgRun f) → Answers (.slotimg f.fid) s (RunDone f (s.slotimgRun f) s)) ∧
    (Started 0x70 f s → Served (s.putRun f) → Answers (.put f.fid) s (RunDone f (s.putRun f) s)) ∧
    (Started 0x81 f s → Served (s.hfillRun f) → Answers (.hfill f.fid) s (RunDone f (s.hfillRun f) s)) ∧
    (Started 0x80 f s → s.flag (biasCtrl (hDie f.target)) 31 = false → Served ((s.biasflipRun f).1.1, (s.biasflipRun f).2) →
      Answers (.biasflip f.fid) s (RunDone f ((s.biasflipRun f).1.1, (s.biasflipRun f).2) s)) ∧
    let u := s.putFld (Reg.vdFault (hDie f.target) (hSlot f.target)) 27 24 0
    (Started 0x48 f s → Served (u.decodeRun f scratch) → Answers (.decode f.fid scratch) s (RunDone f (u.decodeRun f scratch) s))

/-- R44, R46, R49 to R52 on one descriptor of a ring that holds no other; R88 and R90 on its maximum. -/
def Obligations.CompletionFollowsR44 : Prop :=
  ∀ (s : State) (f : Flight), f.ring < 4096 → s.flight f.fid = some f → f.phase = .done → s.awaitsAck f.fid = false →
    f.parent = none → f.remote = none → s.ringFlights f.ring = [f] →
    let c := ringContext f.ring
    let st := f.res.status.toNat
    let sig := if dSigEn f.desc = true ∧ ringBearing (dSigDie f.desc) = true then [(dSigDie f.desc, dSigCtr f.desc)] else []
    let halts := 0x10 ≤ st ∧ s.flag (c + 0x18) 10 = true
    let m := if st = 0x10 ∨ st = 0x50 then s else s.applyMerges f.res.merges
    let u := (m.setFlight { f with phase := .completed }).evalDie (hDie f.target)
    (∀ die slot x close, f.res.merges = [(die, slot, x, close)] → slot < rmSlotsOn die →
      let cur := Reg.ruRmCur die slot
      x.toNat ≤ 0x7F800000 → (s.reg cur).toNat ≤ 0x7F800000 →
      Answers (.descriptorComplete f.fid) s (fun t =>
        (st = 0x10 ∨ st = 0x50 → t.reg cur = s.reg cur) ∧
        (st ≠ 0x10 → st ≠ 0x50 → close = false → (t.reg cur).toNat = max (s.reg cur).toNat x.toNat) ∧
        (st ≠ 0x10 → st ≠ 0x50 → close = true →
          t.reg cur = 0 ∧ (t.reg (Reg.ruRmHist die slot 0)).toNat = max (s.reg cur).toNat x.toNat ∧
          (∀ k, k < 15 → t.reg (Reg.ruRmHist die slot (k + 1)) = s.reg (Reg.ruRmHist die slot k)) ∧
          t.reg (Reg.ruRmShadow die slot) = s.reg (Reg.ruRmHist die slot 15) ∧
          (t.reg (Reg.ruRmDepth die slot)).toNat = min 16 (s.fld (Reg.ruRmDepth die slot) 4 0 + 1) ∧
          (t.reg (Reg.ruRmPrev die slot)).toNat =
            2 ^ 16 * s.fld (Reg.ruRmDepth die slot) 4 0 + s.fld (Reg.ruRmCtrl die slot) 15 0 ∧
          t.flag (Reg.ruRmCtrl die slot) 28 = true)))  ∧
    (recordDue (dCmpl f.desc) st = false → Answers (.descriptorComplete f.fid) s (fun t =>
      t.flights = s.flights.filter (fun g => g.fid != f.fid) ∧ t.sigQ = s.sigQ ++ sig ∧ t.mem = s.mem ∧
      t.reg (c + 0x28) = s.reg (c + 0x28) ∧ (halts → t.flag (c + 0x18) 9 = true) ∧
      (¬ halts → t.reg (c + 0x18) = s.reg (c + 0x18)))) ∧
    (recordDue (dCmpl f.desc) st = true → ¬ halts → u.recordFault f.ring = false →
      u.extHolder (u.recordAddr f.ring / 64) (some (.controller (ringDie f.ring))) = none →
      let wr := (s.reg (c + 0x28)).toNat
      let a := 2 ^ 32 * s.fld (c + 0x14) 15 0 + 32 * ((s.reg (c + 0x10)).toNat / 32) + 32 * (wr % 2 ^ s.fld (c + 0x08) 20 16)
      Answers (.descriptorComplete f.fid) s (fun t =>
        t.bytes a 32 = leBytes 32 (recordBits (decide (wr / 2 ^ s.fld (c + 0x08) 20 16 % 2 = 0)) f.res.runMax f.res.sat f.res.detail
          f.res.member.toNat (dTag f.desc) (dStepLo f.desc) (dPhase f.desc) st f.index f.target) ∧
        BytesBut a 32 s t ∧ t.reg (c + 0x28) = s.reg (c + 0x28) + 1 ∧ t.sigQ = s.sigQ ++ sig ∧
        t.flights = s.flights.filter (fun g => g.fid != f.fid) ∧
        t.irqQ = s.irqQ ++ (if dIrq f.desc = true ∧ s.flag (c + 0x18) 11 = true then
          [(ringDie f.ring, BitVec.ofNat 24 (s.fld (c + 0x1C) 23 0))] else [])))

/-- R50, every row of its table. -/
def Obligations.RecordsHaveTheLayoutOfR50 : Prop :=
  ∀ (lap : Bool) (rm : Option Word) (sat : Nat) (detail : Word) (member tag stepLo phase status : Nat) (index handle : Word),
    member < 256 → tag < 256 → stepLo < 65536 → phase < 64 → status < 256 →
    let r := recordBits lap rm sat detail member tag stepLo phase status index handle
    let bits (hi lo : Nat) := r / 2 ^ lo % 2 ^ (hi + 1 - lo)
    r < 2 ^ 256 ∧ bits 31 0 = handle.toNat ∧ bits 63 32 = index.toNat ∧ bits 71 64 = status ∧ bits 77 72 = phase ∧ bits 79 78 = 0 ∧
    bits 95 80 = stepLo ∧ bits 103 96 = tag ∧ bits 111 104 = member ∧ bits 112 112 = (if rm.isSome then 1 else 0) ∧
    bits 127 113 = 0 ∧ bits 159 128 = detail.toNat ∧ bits 191 160 = min sat 0xFFFFFFFF ∧ bits 223 192 = (rm.getD 0).toNat ∧
    bits 254 224 = 0 ∧ bits 255 255 = (if lap then 1 else 0)

/-- R90, points 2 and 3; what R91 makes of exp and eref after a close is left open here. -/
def Obligations.SlotsFollowR90 : Prop :=
  ∀ (s : State) (die slot : Nat), die < 98 → slot < rmSlotsOn die → s.dieDown die = false →
    let ctrl := Reg.ruRmCtrl die slot
    let hist := Reg.ruRmHist die slot
    Answers (.rmClose die slot) s (fun t =>
      OnlyRegs ([ctrl, Reg.ruRmPrev die slot, Reg.ruRmShadow die slot, Reg.ruRmDepth die slot, Reg.ruRmCur die slot] ++
        (List.range 16).map hist) s t ∧
      t.fld (Reg.ruRmPrev die slot) 20 16 = s.fld (Reg.ruRmDepth die slot) 4 0 ∧
          t.fld (Reg.ruRmPrev die slot) 15 8 = s.fld ctrl 15 8 ∧
      t.fld (Reg.ruRmPrev die slot) 7 0 = s.fld ctrl 7 0 ∧ t.reg (Reg.ruRmShadow die slot) = s.reg (hist 15) ∧
      (∀ k, k < 15 → t.reg (hist (k + 1)) = s.reg (hist k)) ∧ t.reg (hist 0) = s.reg (Reg.ruRmCur die slot) ∧
      t.fld (Reg.ruRmDepth die slot) 4 0 = min 16 (s.fld (Reg.ruRmDepth die slot) 4 0 + 1) ∧ t.reg (Reg.ruRmCur die slot) = 0 ∧
      t.flag ctrl 28 = true ∧
      Answers (.rmRevert die slot) t (fun u =>
        (∀ k, k < 16 → u.reg (hist k) = s.reg (hist k)) ∧ u.fld (Reg.ruRmDepth die slot) 4 0 = s.fld (Reg.ruRmDepth die slot) 4 0 ∧
        u.fld ctrl 15 8 = s.fld ctrl 15 8 ∧ u.fld ctrl 7 0 = s.fld ctrl 7 0 ∧ u.reg (Reg.ruRmCur die slot) = 0 ∧
        u.flag ctrl 28 = false)) ∧
    (s.flag ctrl 28 = false → Answers (.rmRevert die slot) s (fun t =>
      OnlyRegs [Reg.ruRmCur die slot] s t ∧ t.reg (Reg.ruRmCur die slot) = 0))

/-- R58, R268 and R412. -/
def Obligations.EntriesFollowR58 : Prop :=
  (∀ (s : State) (die slot : Nat) (v : Word), die < 98 → slot < gangSlotsOn die → s.dieDown die = false →
    let a := Reg.dcGangCtrl die slot
    let g := slot * 40 + die
    let span := s.reg (Reg.dcGangSpan (gangHome g) (gangSlot g))
    let count := wfld v 5 0
    let errs := s.gangErrs g v
    Answers (.gangEntryValidate die slot v) s (fun t => OnlyRegs [a] s t ∧
      if bit v 31 = false then t.flag a 31 = false ∧ t.fld a 13 8 = s.fld a 13 8
      else if errs = [] then t.flag a 31 = true ∧ t.fld a 13 8 = 0 ∧ t.fld a 5 0 = count ∧ t.fld a 25 24 = wfld v 25 24
      else t.flag a 31 = false ∧ t.fld a 13 8 ∈ errs ∧ ∀ e ∈ errs, t.fld a 13 8 ≤ e) ∧
    (5 ∈ errs ↔ count = 0 ∨ 48 < count) ∧ (8 ∈ errs ↔ 2 ≤ wfld v 25 24) ∧
    (4 ∈ errs ↔ 1 ≤ wfld span 22 11 ∧ (wfld span 31 23 = 0 ∨ 2048 ≤ wfld span 10 0 + (wfld span 22 11 - 1) * wfld span 31 23)) ∧
    (1 ∈ errs ↔ ∃ j, j < count ∧ j < 48 ∧ (handleValid (s.gangMember g j) = false ∨ wfld (s.gangMember g j) 31 21 ≠ 0)) ∧
    (let names (h n k : Nat) : Prop := ∃ j, j < n ∧ j < 48 ∧ hGang (s.gangMember h j) = true ∧ hGangNo (s.gangMember h j) = k ∧
       (h = g → handleValid (s.gangMember h j) = true)
     let chain (hs : List Nat) : Prop := (∀ h, hs.head? = some h → names g count h) ∧
       hs.IsChain (fun a b => a ≠ g ∧ s.gangValid a = true ∧ names a (s.gangCount a) b)
     (2 ∈ errs ↔ ∃ hs h, chain hs ∧ hs.length = 4 ∧ hs.getLast? = some h ∧ (h = g ∨ s.gangValid h = true)) ∧
     (3 ∈ errs ↔ ∃ hs, chain hs ∧ hs.length ≤ 4 ∧ hs.getLast? = some g) ∧
     (6 ∈ errs ↔ ∃ hs h, chain hs ∧ hs.length ≤ 3 ∧ hs.getLast? = some h ∧ h ≠ g ∧ s.gangValid h = true ∧ s.gangMcount h ≠ 0))) ∧
  (∀ (s : State) (die slot : Nat) (v : Word), die < 40 → slot < gangSlotsOn die → s.dieDown die = false →
    let a := Reg.dcPgCtrl die slot
    let beta (f : Nat → Nat → Nat) := betaOk (s.reg (f die slot))
    let ok (f : Nat → Nat → Nat) := nonNegFinite (s.reg (f die slot))
    let eps := sgn8 (wfld v 7 0)
    Answers (.paramGroupValidate die slot v) s (fun t => OnlyRegs [a] s t ∧
      if bit v 31 = false then t.flag a 31 = false ∧ t.fld a 13 8 = s.fld a 13 8
      else if ¬ (beta Reg.dcPgBeta1 = true ∧ beta Reg.dcPgBeta2 = true) then t.flag a 31 = false ∧ t.fld a 13 8 = 1
      else if ¬ (ok Reg.dcPgLr = true ∧ ok Reg.dcPgDecay = true ∧ ok Reg.dcPgClip = true) then t.flag a 31 = false ∧
          t.fld a 13 8 = 2
      else if ¬ (-126 ≤ eps ∧ eps ≤ -1) then t.flag a 31 = false ∧ t.fld a 13 8 = 3
      else t.flag a 31 = true ∧ t.fld a 13 8 = 0)) ∧
  (∀ (s : State) (g : Nat) (v : Word), g < 4096 → s.controls = true →
    let a := Reg.pwGrpCtrl g
    let errs := s.grpErrs g v
    Answers (.groupEntryValidate g v) s (fun t => t.mem = s.mem ∧ t.flights = s.flights ∧
      if bit v 31 = false then t.flag a 31 = false ∧ t.fld a 13 8 = s.fld a 13 8
      else if errs = [] then t.flag a 31 = true ∧ t.fld a 13 8 = 0
      else t.flag a 31 = false ∧ t.fld a 13 8 ∈ errs ∧ ∀ e ∈ errs, t.fld a 13 8 ≤ e) ∧
    (let span := s.reg (Reg.pwGrpSpan g)
     let share := s.fld (Reg.pwGrpShare g) 15 0
     let has (h d : Nat) : Bool := if d < 32 then s.flag (Reg.pwGrpDiesLo h) d else s.flag (Reg.pwGrpDiesHi h) (d - 32)
     (s.Wf → (1 ∈ errs ↔ ∃ h d, h < 4096 ∧ h ≠ g ∧ s.flag (Reg.pwGrpCtrl h) 31 = true ∧ d < 40 ∧ has g d = true ∧ has h d = true)) ∧
     (2 ∈ errs ↔ 1 ≤ wfld span 22 11 ∧ (wfld span 31 23 = 0 ∨ 2048 ≤ wfld span 10 0 + (wfld span 22 11 - 1) * wfld span 31 23)) ∧
     (3 ∈ errs ↔ bit v 30 = true ∧ ¬ (6000 ≤ share ∧ share ≤ 16000))))

/-- R59 to R61 with R63; R393 on a lost home die, R464 on the detail words. That a lost home die is ranked ahead of an aborted
step and of a home die that is off is the model's reading (log entry 191), as is how REMOTE_GANG_DESCRIPTOR brings a descriptor
to this module (log entry 34), and that a module to which no flow is ON does not answer (log entry 157). -/
def Obligations.FanoutFollowsR61 : Prop :=
  (∀ (s : State) (f : Flight), s.flight f.fid = some f → hGang f.target = true → s.ready f = true →
    let g := hGangNo f.target
    let home := gangHome g
    let dom := s.fnState (Reg.pwDom home)
    let detail (d : Word) : Word := if definedClass (dClass f.desc) = true then d else 0xFFFFFFFF
    let invalid (d : Word) := Answers (.gangFanout f.fid) s (FlightSet (Ended f (BitVec.ofNat 8 stDescInvalid) (detail d)) s)
    (s.dieLost home = true → Answers (.gangFanout f.fid) s (FlightSet (Ended f (BitVec.ofNat 8 stDieLost) (BitVec.ofNat 32 home)) s)) ∧
    (s.dieLost home = false → s.domainGone home = true ∨ s.stepAborted home f.desc = true →
      Answers (.gangFanout f.fid) s (FlightSet (Ended f 0x50 0) s)) ∧
    (s.dieLost home = false → dom = 1 → s.stepAborted home f.desc = false → Answers (.gangFanout f.fid) s (fun t => t = s)) ∧
    (s.dieLost home = false → s.domainGone home = false → dom ≠ 1 → s.stepAborted home f.desc = false →
      (s.gangRefuses f = true → invalid 0xFFFFFFFD) ∧
      (∀ b, s.gangRefuses f = false → badSignal f = true → lowest (headerChecks f.desc) = some b → invalid (BitVec.ofNat 32 b)) ∧
      (s.gangRefuses f = false → badSignal f = false → s.hasRoom f = false → Answers (.gangFanout f.fid) s (fun t => t = s))) ∧
    (s.dieLost home = false → s.domainGone home = false → dom ≠ 1 → s.stepAborted home f.desc = false → s.gangRefuses f = false →
      badSignal f = false → s.hasRoom f = true → s.gangCount g ≤ 48 →
      let L := s.gangCount g
      let M := s.gangMcount g
      let ix := dShardIx f.desc
      let n := dShardN f.desc
      let split := s.gangRule g = 1
      let refused (c : Flight) (st : Nat) (d : Word) : Prop :=
        c.phase = .done ∧ c.res = { Flight.noRes with status := BitVec.ofNat 8 st, detail := d }
      let copies (p m : Nat) (cs : List Flight) : Prop := cs.length = L ∧ ∀ j c, cs[j]? = some c →
        c.fid = s.nextFid + j ∧ c.parent = some (f.fid, p * L + j) ∧ wfld c.target 20 0 = wfld (s.gangMember g j) 20 0 ∧
        dSigEn c.desc = false ∧ dIrq c.desc = false ∧ dCmpl c.desc = 0 ∧
        (∀ b, b ≠ 48 → b ≠ 35 → b ≠ 36 → b ≠ 37 → b < 88 ∨ 127 < b → c.desc.getLsbD b = f.desc.getLsbD b) ∧
        (split → n * m ≤ 1048575 → dShardIx c.desc = min (ix * m + (p * L + j)) 0xFFFFF ∧ dShardN c.desc = n * m) ∧
        (¬ split → dShardIx c.desc = ix ∧ dShardN c.desc = n) ∧
        if split ∧ 1048575 < n * m then refused c stDescInvalid (detail 0xFFFFFFFD)
        else if hGang (s.gangMember g j) = false then c.phase = .waiting
        else
          let h := hGangNo (s.gangMember g j)
          if s.dieLost (gangHome h) = true then refused c stDieLost (BitVec.ofNat 32 (gangHome h))
          else if s.domainGone (gangHome h) = true then refused c 0x50 0
          else if s.gangValid h = false ∨ s.gangMcount h ≠ 0 ∨ 3 < f.level + 1 ∨ h ∈ s.gangPath f 5 then
            refused c stDescInvalid (detail 0xFFFFFFFD)
          else c.phase = .waiting
      let joined (t : State) (h : Flight) (cs : List Flight) : Prop :=
        t.flights = s.flights.map (fun x => if x.fid = f.fid then h else x) ++ cs ∧ t.nextFid = s.nextFid + cs.length ∧
            t.mem = s.mem
      (f.remote = none → M = 0 → Answers (.gangFanout f.fid) s (fun t => ∃ cs, copies 0 L cs ∧
        joined t { f with phase := .started, expect := L } cs)) ∧
      (∀ p r, f.remote = some r → (s.ownPositions g).headD 0 = p → Answers (.gangFanout f.fid) s (fun t => ∃ cs,
        copies p (max M 1 * L) cs ∧ joined t { f with phase := .started, expect := L } cs)) ∧
      (f.remote = none → 1 ≤ M → 1 ≤ L → (s.ownPositions g).length ≤ 1 → (∀ x ∈ s.reports, x.gang ≠ f.fid) →
        (∀ q, s.gangModule g q = wfld (s.gangSpan g) 10 0 + q * wfld (s.gangSpan g) 31 23) ∧
        (∀ q, q ∈ s.ownPositions g ↔ q < M ∧ s.gangModule g q = s.moduleId) ∧
        (∀ q, q ∈ s.otherPositions g ↔ q < M ∧ s.gangModule g q ≠ s.moduleId) ∧
        ((∀ q, q < M → s.gangModule g q ≠ s.moduleId ∧ s.spanFlow home (s.gangModule g q) = none) →
          Answers (.gangFanout f.fid) s (fun t => ∃ r : Result, r.status = 0x40 ∧ r.detail = 0 ∧
              r.member = BitVec.ofNat 8 stFlowTimeout ∧
            t.flight f.fid =
              some { f with phase := .done, expect := M * L, mods := (List.range M).map (s.gangModule g), res := r })) ∧
        ((∃ q ∈ s.ownPositions g ++ s.otherPositions g, s.gangModule g q = s.moduleId ∨
            (s.spanFlow home (s.gangModule g q)).isSome) →
        Answers (.gangFanout f.fid) s (fun t => ∃ cs,
          (s.ownPositions g = [] → cs = []) ∧ (∀ p ∈ s.ownPositions g, copies p (M * L) cs) ∧
          joined t { f with phase := .started, expect := M * L, mods := (List.range M).map (s.gangModule g) } cs ∧
          (let sent := (s.otherPositions g).filterMap (fun q =>
            (s.spanFlow home (s.gangModule g q)).map (fun fl => (s.gangModule g q, fl)))
           t.fab.gangOut = s.fab.gangOut ++ sent.map (fun x => ⟨f.fid, x.1, x.2, 1⟩) ∧
           t.out = s.out ++ sent.map (fun x => .gangSend x.1 (s.gangCopyOf f g))) ∧
          ∀ q ∈ s.otherPositions g, s.spanFlow home (s.gangModule g q) = none → ∀ j, j < L →
            ⟨f.fid, q * L + j, { Flight.noRes with status := BitVec.ofNat 8 stFlowTimeout, detail := 0 }⟩ ∈ t.reports))))) ∧
  (∀ (s : State) (c : GangCopy), Answers (.remoteGangDescriptor c) s (fun t => ∃ f : Flight,
    { t with flights := s.flights, nextFid := s.nextFid } = s ∧ t.flights = s.flights ++ [f] ∧ t.nextFid = s.nextFid + 1 ∧
    f.fid = s.nextFid ∧ f.desc = c.desc ∧ f.step = c.step ∧ f.seed = c.seed ∧ f.stream = c.stream ∧
    f.remote = some (c.origin, c.ref) ∧ f.phase = .waiting ∧ hGang f.target = true ∧ hGangNo f.target = c.gang % 4096))

/-- R63 and R64; the statuses are those of R53. How another module's report comes in is log entry 34, and that its copy is then
sent no more is log entry 157. -/
def Obligations.ReportsFollowR63 : Prop :=
  (∀ (s : State) (g c : Flight) (member : Nat), s.flight g.fid = some g → g.phase = .started → hGang g.target = true →
      g.remote = none →
    g.parent = none → (∀ x ∈ s.reports, ¬ (x.gang = g.fid ∧ x.member = member)) →
    s.flights.find? (fun x => decide (x.parent = some (g.fid, member)) && x.completed) = some c → c.fid ≠ g.fid →
    let mine := s.reports.filter (fun x => decide (x.gang = g.fid)) ++ [⟨g.fid, member, c.res⟩]
    Answers (.gangMemberReport g.fid member none) s (fun t => t.flight c.fid = none ∧ t.mem = s.mem ∧
      if mine.length < g.expect then t.reports = s.reports ++ [⟨g.fid, member, c.res⟩] ∧ t.flight g.fid = some g
      else t.reports = s.reports.filter (fun x => decide (x.gang ≠ g.fid)) ∧
        t.flight g.fid = some { g with phase := .done, res := combine mine })) ∧
  (∀ (s : State) (g : Flight) (member : Nat) (r : RemoteReport), s.flight g.fid = some g → g.phase = .started →
      hGang g.target = true → g.remote = none → g.parent = none → (∀ x ∈ s.reports, ¬ (x.gang = g.fid ∧ x.member = member)) →
    s.ownShare g.fid member = false →
    let res := { Flight.noRes with status := r.status, detail := r.detail, sat := r.sat, runMax := r.runMax }
    let mine := s.reports.filter (fun x => decide (x.gang = g.fid)) ++ [⟨g.fid, member, res⟩]
    Answers (.gangMemberReport g.fid member (some r)) s (fun t =>
      if g.expect ≤ member then t = s
      else { t with flights := s.flights, reports := s.reports, fab := { t.fab with gangOut := s.fab.gangOut } } = s ∧
        (∀ i, i ≠ g.fid → t.flight i = s.flight i) ∧
        if mine.length < g.expect then t.reports = s.reports ++ [⟨g.fid, member, res⟩] ∧ t.flight g.fid = some g ∧
          t.fab.gangOut = s.fab.gangOut.map (fun x =>
            if x.fid = g.fid ∧ g.mods[member / perModule g]? = some x.module then { x with sends := 0 } else x)
        else t.reports = s.reports.filter (fun x => decide (x.gang ≠ g.fid)) ∧
          t.flight g.fid = some { g with phase := .done, res := combine mine } ∧
          ∀ x, x ∈ t.fab.gangOut → x.fid ≠ g.fid)) ∧
  (∀ rs : List Report, rs ≠ [] →
    let st (r : Report) := r.res.status.toNat
    let c := combine rs
    c.sat = min ((rs.map (·.res.sat)).sum) 0xFFFFFFFF ∧
    (c.runMax = none ↔ ∀ r ∈ rs, r.res.runMax = none) ∧
    ((∀ r ∈ rs, ∀ x, r.res.runMax = some x → x.toNat ≤ 0x7F800000) → ∀ m, c.runMax = some m →
      (∃ r ∈ rs, r.res.runMax = some m) ∧ ∀ r ∈ rs, ∀ x, r.res.runMax = some x → x.toNat ≤ m.toNat) ∧
    ((∃ r ∈ rs, 0x10 ≤ st r) → c.status = 0x40 ∧ ∃ r ∈ rs, 0x10 ≤ st r ∧ c.detail = BitVec.ofNat 32 r.member ∧
        c.member = r.res.status ∧
      ∀ q ∈ rs, 0x10 ≤ st q → r.member ≤ q.member) ∧
    ((∀ r ∈ rs, st r < 0x10) → c.member = 0 ∧ c.detail = 0 ∧
      ((∃ r ∈ rs, st r = 3) → c.status = 3) ∧ ((∀ r ∈ rs, st r ≠ 3) → (∃ r ∈ rs, st r = 1) → c.status = 1) ∧
      ((∀ r ∈ rs, st r = 2) → c.status = 2) ∧ ((∀ r ∈ rs, st r ≠ 3 ∧ st r ≠ 1) → (∃ r ∈ rs, st r ≠ 2) → c.status = 0)))

/-- R126, R169 and R249, with the registers of R123, R165 and R249; that a parity error is met at a beat the command gives,
while the descriptor executes, is the model's reading (log entry 144). -/
def Obligations.UnitFaultsEnd : Prop :=
  (∀ (s : State) (f : Flight) (st : BitVec 8) (detail : Word) (lines : List Nat),
    s.flight f.fid = some f → f.phase = .faulted st detail lines → hGang f.target = false → matClass (dClass f.desc) = true →
    matKeeps f.desc = false →
    (∀ l ∈ lines, 64 * l / 2 ^ 48 = s.moduleId) → hDie f.target < 40 → hSlot f.target < 6 →
    let die := hDie f.target
    let ep := hSlot f.target
    let j := matPart f.desc
    let w := s.partWidth die ep
    Answers (.partitionFault f.fid) s (fun t =>
      t.flight f.fid = some { f with phase := .done } ∧ (∀ i, i ≠ f.fid → t.flight i = s.flight i) ∧ BytesBut 0 0 s t ∧
      t.flag (Reg.maStatus die ep) (8 + j) = false ∧ t.flag (Reg.maStatus die ep) j = true ∧
      t.fld (Reg.maFault die ep j) 7 0 = st.toNat ∧ t.reg (Reg.maFaultIx die ep j) = f.index ∧
      (∀ d e r c h, e < 6 → r < 256 → c < 256 → h < 2 →
        let cleared := d = die ∧ e = ep ∧ j * w ≤ c ∧ c < j * w + w
        lookup word0 t.wAct (cellKey d e r c h) = (if cleared then 0 else lookup word0 s.wAct (cellKey d e r c h)) ∧
        lookup word0 t.wShd (cellKey d e r c h) = (if cleared then 0 else lookup word0 s.wShd (cellKey d e r c h))) ∧
      ∀ l, t.linePoisoned l = true ↔ s.linePoisoned l = true ∨ ∃ x ∈ lines, l = x % 2 ^ 42)) ∧
  (∀ (s : State) (f : Flight), Started (dClass f.desc) f s → matClass (dClass f.desc) = true → hDie f.target < 40 →
    hSlot f.target < 6 →
    let run (parity : Option Nat) := if dClass f.desc = 0x10 then s.matmulRun f parity
      else if dClass f.desc = 0x11 then s.matmulMxRun f parity
      else if dClass f.desc = 0x12 then s.elementwiseRun f parity else s.convRun f parity
    Served (run none) → (run none).1.code = 0 → (run (some 1)).1.stop = true →
    let die := hDie f.target
    let ep := hSlot f.target
    let j := matPart f.desc
    Answers (.partitionFault f.fid) s (fun t =>
      (∃ r : Result, t.flight f.fid = some { f with phase := .done, res := r } ∧ r.status = 0x20 ∧ r.detail = s.nextSeq die) ∧
      (∀ i, i ≠ f.fid → t.flight i = s.flight i) ∧ BytesBut 0 0 s t ∧ t.poison = s.poison ∧
      t.flag (Reg.maStatus die ep) j = true ∧ t.fld (Reg.maFault die ep j) 7 0 = 0x20 ∧
      t.reg (Reg.maFaultIx die ep j) = f.index ∧
      t.flog = s.flog ++ [logEntry die .weightParity ep 0 (.desc f.fid)])) ∧
  (∀ (s : State) (f : Flight) (st : BitVec 8) (detail : Word) (lines : List Nat),
    s.flight f.fid = some f → f.phase = .faulted st detail lines → 0x10 ≤ f.res.status.toNat → f.res.status ≠ 0x50 → f.ring < 4096 →
    let die := hDie f.target
    (matClass (dClass f.desc) = false → die < 40 → hSlot f.target < 6 → Answers (.veAccessFault f.fid) s (fun t =>
      t.flight f.fid = some { f with phase := .done } ∧ (∀ i, i ≠ f.fid → t.flight i = s.flight i) ∧ t.mem = s.mem ∧
      t.flag (Reg.veStatus die (hSlot f.target)) 0 = true ∧ t.fld (Reg.veFault die (hSlot f.target)) 19 8 = f.ring ∧
      t.fld (Reg.veFault die (hSlot f.target)) 7 0 = f.res.status.toNat ∧ t.reg (Reg.veFaultIx die (hSlot f.target)) = f.index)) ∧
    (moverClass (dClass f.desc) = true → die < 40 → Answers (.moverFault f.fid) s (fun t =>
      t.flight f.fid = some { f with phase := .done } ∧ (∀ i, i ≠ f.fid → t.flight i = s.flight i) ∧ t.mem = s.mem ∧
      t.fld (Reg.mvFault die f.mover.toNat) 19 8 = f.ring ∧ t.fld (Reg.mvFault die f.mover.toNat) 7 0 = f.res.status.toNat ∧
      t.reg (Reg.mvFaultIx die f.mover.toNat) = f.index)))

/-- R234 and R236 for both memories, with the errors of R235 and R244; when a request is served stands in R24, R238 and R357. -/
def Obligations.RequestsFollowR234 : Prop :=
  ∀ (s : State) (c : Instr) (a : Nat) (acc : BusAccess) (mark : Bool) (ecc : Ecc),
    (c = .hbmRequest a acc mark ecc ∧ isHbm a = true ∧ s.meets (ownerDie a) a (some (.home (ownerDie a))) = none ∧
       s.extHolder (a / 64) (some (.home (ownerDie a))) = none ∨
     ∃ die off next, c = .wmAccess die off acc mark ecc next ∧ die < 40 ∧ off < 0x8000000 ∧ s.dieDown die = false ∧
       s.flag (Reg.wmCtrl die) 1 = false ∧ a = 0x0C0000000000 + 0x100000000 * die + off) →
    let unit := if isHbm a = true then 64 else 8
    let reads : Bool := match acc with
      | .read _ => true
      | .write bs => decide (a % unit ≠ 0 ∨ (a + bs.length) % unit ≠ 0)
    let bad := s.linePoisoned (a / 64) || reads && ecc == .uncorrectable
    match acc with
    | .read n => 0 < n → a % 64 + n ≤ 64 → Answers c s (fun t =>
        BytesBut 0 0 s t ∧ t.linePoisoned (a / 64) = bad ∧ t.out = s.out ++ [.memData (s.bytes a n) bad] ∧ t.flights = s.flights)
    | .write bs => 0 < bs.length → a % 64 + bs.length ≤ 64 →
      let refused := decide (bs.length < 64) && bad && (s.modifiedCopy (a / 64)).isNone
      Answers c s (fun t =>
        (∀ x, t.byte x = if refused = false ∧ a ≤ x ∧ x < a + bs.length then bs.getD (x - a) 0 else s.byte x) ∧
        t.linePoisoned (a / 64) = (refused || mark) ∧ (∀ l, l ≠ a / 64 → t.linePoisoned l = s.linePoisoned l) ∧
        t.out = s.out ++ [.memAck refused] ∧ t.flights = s.flights)

/-- R235, R237, R244 and R349. Log entry 141 says which requester an entry names; that an uncorrectable line of working memory
makes one is log entry 142, and that the scrub stops in maintenance is log entry 190. -/
def Obligations.ErrorsFollowR235 : Prop :=
  let counted (s : State) (line off ce ue lo hi home : Nat) (who : LogBy) (wm : Bool) (ecc : Ecc) (t : State) : Prop :=
    if s.linePoisoned line = true ∨ ecc = .clean then t.regs = s.regs ∧ t.flog = s.flog
    else if ecc = .corrected then RegsBut [ce] s t ∧ (t.reg ce).toNat = min ((s.reg ce).toNat + 1) 0xFFFFFFFF ∧
      t.flog = if wm = true then s.flog else s.flog ++ [logEntry home .corrected (64 * line) 0 who .read]
    else RegsBut [ue, lo, hi] s t ∧ (t.reg ue).toNat = min ((s.reg ue).toNat + 1) 0xFFFFFFFF ∧
      (t.reg lo).toNat + (if wm = true then 0 else 2 ^ 32 * (t.reg hi).toNat) = off ∧
      t.flog = s.flog ++ [logEntry home .uncorrectable (64 * line) 0 who .read]
  (∀ (s : State) (home : Nat), Answers (.hbmRefresh home) s (fun t => t = s)) ∧
  (∀ (s : State) (home : Nat) (ecc : Ecc), home < 40 ∨ 80 ≤ home ∧ home < 88 → s.dieDown home = false →
    let stack := decide (home < 40)
    let hours := s.fld (if stack = true then Reg.hcScrub home else Reg.hxScrub home) 15 0
    let lines := if stack = true then 1610612736 else 8589934592
    let line := (if stack = true then 2147483648 * home else 137438953472 + 8589934592 * (home - 80)) + s.scrubAt home
    let ce := if stack = true then Reg.hcCeCount home else Reg.hxCeCount home
    let ue := if stack = true then Reg.hcUeCount home else Reg.hxUeCount home
    let lo := if stack = true then Reg.hcLastUeLo home else Reg.hxLastUeLo home
    let hi := if stack = true then Reg.hcLastUeHi home else Reg.hxLastUeHi home
    s.scrubAt home < lines → Answers (.hbmScrubStep home ecc) s (fun t =>
      if hours = 0 ∨ stack = true ∧ s.flag (Reg.hcCtrl home) 0 = true then t = s
      else BytesBut 0 0 s t ∧ t.flights = s.flights ∧ t.scrubAt home = (s.scrubAt home + 1) % lines ∧
        counted s line (64 * s.scrubAt home) ce ue lo hi home .scrub false ecc t ∧
        ∀ l, t.linePoisoned l = (s.linePoisoned l || decide (l = line) && ecc == .uncorrectable))) ∧
  (∀ (s : State) (c : Instr) (a : Nat) (acc : BusAccess) (mark : Bool) (ecc : Ecc),
    let home := ownerDie a
    let wm := isWorkMem a
    (c = .hbmRequest a acc mark ecc ∧ (isHbm a = true ∨ isHostMem a = true) ∧ s.meets home a (some (.home home)) = none ∧
       s.extHolder (a / 64) (some (.home home)) = none ∨
     ∃ die off next, c = .wmAccess die off acc mark ecc next ∧ die < 40 ∧ off < 0x8000000 ∧ s.dieDown die = false ∧
       s.flag (Reg.wmCtrl die) 1 = false ∧ a = 0x0C0000000000 + 0x100000000 * die + off) →
    let unit := if wm = true then 8 else 64
    let n := match acc with
      | .read n => n
      | .write bs => bs.length
    let reads : Bool := match acc with
      | .read _ => true
      | .write bs => decide (a % unit ≠ 0 ∨ (a + bs.length) % unit ≠ 0)
    let ce := if wm = true then Reg.wmCeCount home else if isHbm a = true then Reg.hcCeCount home else Reg.hxCeCount home
    let ue := if wm = true then Reg.wmUeCount home else if isHbm a = true then Reg.hcUeCount home else Reg.hxUeCount home
    let lo := if wm = true then Reg.wmLastUe home else if isHbm a = true then Reg.hcLastUeLo home else Reg.hxLastUeLo home
    let hi := if wm = true then Reg.wmLastUe home else if isHbm a = true then Reg.hcLastUeHi home else Reg.hxLastUeHi home
    let base := if wm = true then 0x0C0000000000 + 0x100000000 * home else if isHbm a = true then 0x2000000000 * home
      else 0x080000000000 + 0x8000000000 * (home - 80)
    0 < n → a % 64 + n ≤ 64 → Answers c s (fun t =>
      counted s (a / 64) (a / 64 * 64 - base) ce ue lo hi home (.controller home) wm (if reads = true then ecc else .clean) t ∧
      (accWrites acc = false → ecc = .uncorrectable → s.modifiedCopy (a / 64) = none → t.linePoisoned (a / 64) = true)))

/-- R250 to R252 with R236; R251 does not say what a request with a reserved code does: that it changes nothing and is
acknowledged is log entry 150. -/
def Obligations.OperationsFollowR252 : Prop :=
  (∀ (s : State) (a : Nat) (op : BitVec 8) (size : Nat) (mask : BitVec 32) (data : List Byte) (mark : Bool) (ecc : Ecc),
    isHbm a = true → a % 64 = 0 → data.length = 64 → msopSize op.toNat = some size →
    s.meets (ownerDie a) a (some (.home (ownerDie a))) = none → s.extHolder (a / 64) (some (.home (ownerDie a))) = none →
    let bad := (s.linePoisoned (a / 64) || (!mark && ecc == .uncorrectable)) && (s.modifiedCopy (a / 64)).isNone
    Answers (.msopRequest a op mask data mark ecc) s (fun t =>
      t.out = s.out ++ [.memAck (bad || mark)] ∧ t.linePoisoned (a / 64) = (bad || mark) ∧
      (∀ l, l ≠ a / 64 → t.linePoisoned l = s.linePoisoned l) ∧
      if (bad || mark) = true then BytesBut 0 0 s t
      else BytesBut a 64 s t ∧ ∀ i, i < 64 / size →
        leNat (t.bytes (a + i * size) size) =
          if mask.getLsbD i = true then
            msopElem op.toNat (leNat (s.bytes (a + i * size) size)) (leNat ((data.drop (i * size)).take size)) % 2 ^ (8 * size)
          else leNat (s.bytes (a + i * size) size))) ∧
  (∀ (s : State) (a : Nat) (op : BitVec 8) (mask : BitVec 32) (data : List Byte) (mark : Bool) (ecc : Ecc),
    isHbm a = true → msopSize op.toNat = none → s.meets (ownerDie a) a (some (.home (ownerDie a))) = none →
    s.extHolder (a / 64) (some (.home (ownerDie a))) = none → Answers (.msopRequest a op mask data mark ecc) s (fun t =>
      { t with out := s.out, pcie := s.pcie, answered := s.answered } = s ∧ t.out = s.out ++ [.memAck false])) ∧
  (∀ m v : BitVec 32, let r (op : Nat) := msopElem op m.toNat v.toNat
    r 1 = (m.toNat + v.toNat) % 2 ^ 32 ∧ ((r 2 : Nat) : Int) % 2 ^ 32 = min m.toInt v.toInt % 2 ^ 32 ∧
    ((r 3 : Nat) : Int) % 2 ^ 32 = max m.toInt v.toInt % 2 ^ 32 ∧ r 4 = m.toNat &&& v.toNat ∧ r 5 = m.toNat ||| v.toNat ∧
    r 6 = m.toNat ^^^ v.toNat ∧ r 0x21 = (canon32 (fpAdd m v)).toNat) ∧
  (∀ m v : BitVec 64, let r (op : Nat) := msopElem op m.toNat v.toNat
    r 0x11 = (m.toNat + v.toNat) % 2 ^ 64 ∧ ((r 0x12 : Nat) : Int) % 2 ^ 64 = min m.toInt v.toInt % 2 ^ 64 ∧
    ((r 0x13 : Nat) : Int) % 2 ^ 64 = max m.toInt v.toInt % 2 ^ 64 ∧ r 0x14 = m.toNat &&& v.toNat ∧ r 0x15 = m.toNat ||| v.toNat ∧
    r 0x16 = m.toNat ^^^ v.toNat ∧ r 0x31 = (gMemAdd m v).toNat)

/-- R238; the log entry is that of note 1 of R24. R239. R240; what the code finds on the 16 lines is the model's free value
(R235). -/
def Obligations.StackServiceFollowsR238 : Prop :=
  (
  ∀ (s : State) (stack : Nat), stack < 40 → s.dieDown stack = false →
    let c := Reg.hcCtrl stack
    Answers (.hbmMaintEnter stack) s (FieldSet c 0 0 1 s) ∧
    Answers (.hbmMaintExit stack) s (FieldSet c 1 0 0 s) ∧
    (s.flag c 0 = true → Answers (.hbmMaintDrained stack) s (FieldSet c 1 1 1 s) ∧
      ∀ (off : Nat) (acc : BusAccess) (mark : Bool) (ecc : Ecc), off < 0x1800000000 →
        let a := 0x2000000000 * stack + off
        Answers (.hbmRequest a acc mark ecc) s (fun t =>
          t = { s with flog := s.flog ++ [logEntry stack .maintenance a 0 (.controller stack) (busAcc acc)], out := s.out ++
              [.memFault (BitVec.ofNat 8 stAddrFault)] }))) ∧
  (
  ∀ (s : State) (stack : Nat), stack < 40 → s.dieDown stack = false →
    let c := Reg.hcW1500Ctrl (stack + 40)
    let dr := Reg.hcW1500Dr (stack + 40)
    let len := s.fld c 10 0
    Answers (.w1500Go stack) s (fun t =>
      if s.flag (Reg.hcCtrl stack) 1 = false ∨ s.flag c 16 = true then FieldSet c 17 17 1 s t
      else FieldSet c 16 16 1 { s with wir := t.wir } t ∧
        t.wir.find? (fun p => decide (p.1 = stack)) = some (stack, BitVec.ofNat 16 (s.fld (Reg.hcW1500Ir (stack + 40)) 15 0))) ∧
    (s.flag c 16 = true → ∀ captured : BitVec 1024, Answers (.w1500ShiftDone stack captured) s (fun t =>
      OnlyRegs (c :: (List.range 32).map dr) s t ∧ t.flag c 16 = false ∧ t.fld c 10 0 = len ∧ t.flag c 17 = s.flag c 17 ∧
      ∀ b, b < 1024 → t.flag (dr (b / 32)) (b % 32) =
        if b < (if 1 ≤ len ∧ len ≤ 1024 then len else 1024) then captured.getLsbD b else s.flag (dr (b / 32)) (b % 32)))) ∧
  (
  (∀ (s : State) (stack : Nat) (hard : Bool), stack < 40 → s.dieDown stack = false →
    let c := Reg.hcPprCtrl stack
    let o := 2 ^ 32 * s.fld (Reg.hcPprAddrHi stack) 4 0 + 64 * s.fld (Reg.hcPprAddrLo stack) 31 6
    Answers (.pprGo stack hard) s (fun t => t.flag c 0 = hard ∧
      if s.flag (Reg.hcCtrl stack) 1 = false ∨ s.flag c 30 = true ∨ 0x1800000000 ≤ o then
        OnlyRegs [c] s t ∧ t.fld c 29 28 = 3 ∧ t.flag c 30 = s.flag c 30
      else RegsBut [c, Reg.hcCeCount stack, Reg.hcUeCount stack, Reg.hcLastUeLo stack, Reg.hcLastUeHi stack] s t ∧
        t.mem = s.mem ∧ t.flights = s.flights ∧ t.fld c 29 28 = 0 ∧ t.flag c 30 = true ∧
        ∃ r : Repair, t.ppr.find? (fun x => decide (x.stack = stack)) = some r ∧ r.hard = hard ∧ r.buffer.length = 16 ∧
          (∀ x ∈ r.buffer, x.2.2 = t.linePoisoned x.1 ∧ x.2.1 = (List.range 64).map (fun i => s.memByte (x.1 * 64 + i))) ∧
          ∀ l, s.linePoisoned l = true ∨ t.linePoisoned l = false ∨ ∃ x ∈ r.buffer, x.1 = l)) ∧
  (∀ (s : State) (r : Repair) (result : BitVec 2), r.stack < 40 → s.dieDown r.stack = false →
    s.ppr.find? (fun x => decide (x.stack = r.stack)) = some r → (r.buffer.map (·.1)).Nodup →
    (∀ x ∈ r.buffer, x.2.1.length = 64) →
    let c := Reg.hcPprCtrl r.stack
    let o := 2 ^ 32 * s.fld (Reg.hcPprAddrHi r.stack) 4 0 + 64 * s.fld (Reg.hcPprAddrLo r.stack) 31 6
    Answers (.pprDone r.stack result) s (fun t =>
      (r.hard = false → RegsBut [c] s t ∧ t.sm = s.sm) ∧ t.flag c 30 = false ∧ t.fld c 29 28 = result.toNat ∧
          t.flag c 0 = s.flag c 0 ∧
      t.ppr = s.ppr.filter (fun x => decide (x.stack ≠ r.stack)) ∧
      t.flog = s.flog ++
        [logEntry r.stack .ppr (0x2000000000 * r.stack + o) (2 * result.toNat + (if r.hard then 1 else 0)) (.controller r.stack)] ∧
      (∀ x ∈ r.buffer, t.linePoisoned x.1 = x.2.2 ∧
        (x.2.2 = false → ∀ i, i < 64 → t.memByte (64 * x.1 + i) = x.2.1.getD i 0)) ∧
      ∀ a, (∀ x ∈ r.buffer, x.1 ≠ a / 64) → t.memByte a = s.memByte a ∧ t.linePoisoned (a / 64) = s.linePoisoned (a / 64))))

/-- R245 with its note 1; R369 and the layout of R356. -/
def Obligations.InitialisationFollowsR245 : Prop :=
  (∀ (s : State) (die : Nat), die < 40 → s.dieDown die = false →
    let c := Reg.wmCtrl die
    let base := 0x0C0000000000 + 0x100000000 * die
    Answers (.wmInit die) s (FieldSet c 1 1 1 s) ∧
    (s.flag c 1 = true →
      (∀ off acc mark ecc next, off < 0x8000000 → Answers (.wmAccess die off acc mark ecc next) s (fun t =>
        t = { s with wmQ := s.wmQ ++ [⟨die, off, acc, mark, [ecc, next]⟩] })) ∧
      (s.wmQ.filter (fun w => decide (w.die = die)) = [] → Answers (.wmInitDone die) s (fun t =>
        FieldSet c 1 1 0 s { t with mem := s.mem, poison := s.poison, wmQ := s.wmQ } ∧
        (∀ a, t.memByte a = if base ≤ a ∧ a < base + 0x8000000 then 0 else s.memByte a) ∧
        ∀ l, t.linePoisoned l = (s.linePoisoned l && decide (l < base / 64 ∨ (base + 0x8000000) / 64 ≤ l)))))) ∧
  (∀ (s : State) (home : Nat), home < 40 ∨ 80 ≤ home ∧ home < 88 → s.dieDown home = false →
    let c := if home < 40 then Reg.hcBiasCtrl home else Reg.hxBiasCtrl home
    let lo := if home < 40 then Reg.hcBiasBaseLo home else Reg.hxBiasBaseLo home
    let hi := if home < 40 then Reg.hcBiasBaseHi home else Reg.hxBiasBaseHi home
    let base := 2 ^ 32 * s.fld hi 15 0 + 2 ^ 16 * s.fld lo 31 16
    let size := if home < 40 then 0x60000 else 0x200000
    Answers (.biasInit home) s (FieldSet c 31 31 1 s) ∧
    (s.flag c 31 = true → Answers (.biasInitDone home) s (fun t =>
      FieldSet c 31 31 0 s { t with mem := s.mem, poison := s.poison } ∧
      (∀ a, t.memByte a = if base ≤ a ∧ a < base + size then BitVec.ofNat 8 (0x55 * s.fld c 3 2) else s.memByte a) ∧
      ∀ l, t.linePoisoned l = (s.linePoisoned l && decide (l < base / 64 ∨ (base + size) / 64 ≤ l)))))

/-- R257 and the last two rows of the table of R259, with the registers of R261. R258, with R260 on ext_in_claim and R455 on a
part of a word. R259, R260 and R455 with the registers of R261. -/
def Obligations.MailboxFollowsR257 : Prop :=
  (
  ∀ (s : State) (req : Requester) (w : Nat) (v : Word), s.smUp = true → internalReq req = true → w < 16384 →
    let int (k : MbKind) (old : Word) : Word := match k with
      | .read => old | .write => v | .set => old ||| v | .clear => old &&& ~~~ v
    let cmd (k : MbKind) (e : Option MbAccess) : Instr := match k with
      | .set => .mailboxSetAliasWrite req w v e | .clear => .mailboxClearAliasWrite req w v e | _ => .mailboxInternalWrite req w v e
    ∀ k : MbKind, k ≠ .read →
    Answers (cmd k none) s (fun t => t.regs = s.regs ∧ t.out = s.out ∧ t.mem = s.mem ∧ t.mbxWord w = int k (s.mbxWord w) ∧
      ∀ x, x ≠ w → t.mbxWord x = s.mbxWord x) ∧
    ∀ (e : MbKind) (y : Word), Answers (cmd k (some ⟨w, e, y⟩)) s (fun t =>
      t.flag Reg.mbStatus 1 = true ∧ t.reg Reg.mbCollideIx = BitVec.ofNat 32 w ∧ t.flag Reg.pwPins 5 = true ∧
      RegsBut [Reg.mbStatus, Reg.mbCollideIx, Reg.pwPins] s t ∧
      t.mbxWord w = mbApply e (int k (s.mbxWord w)) y ∧ (∀ x, x ≠ w → t.mbxWord x = s.mbxWord x) ∧
      if e = .read then ∃ bs : List Byte, bs.length = 4 ∧ t.out = s.out ++ [.i3cBytes bs] else t.out = s.out)) ∧
  (
  ∀ (s : State) (index : Nat), s.smUp = true → s.sm.mbxServed = true → index < 16384 →
    let begun (bad : Bool) (t : State) : Prop := t.mem = s.mem ∧ RegsBut [Reg.mbStatus] s t ∧ t.flag Reg.mbStatus 0 = true ∧
      t.flag Reg.mbStatus 3 = (s.flag Reg.mbStatus 3 || bad) ∧
      t.flag Reg.mbStatus 4 = (s.flag Reg.mbStatus 4 || (s.sm.i3c.isNone && s.flag Reg.mbClaim 1)) ∧
      (∀ i, i = 1 ∨ i = 2 ∨ i = 5 → t.flag Reg.mbStatus i = s.flag Reg.mbStatus i)
    (∀ data : List Byte, data.length / 4 ≤ 16384 →
      let n := data.length / 4
      let word (i : Nat) : Word := BitVec.ofNat 32 (leNat ((data.drop (4 * i)).take 4))
      let place (x : Nat) := (x + 16384 - index) % 16384
      let done (k : MbKind) (t : State) : Prop := begun false t ∧ t.sm.i3c = some true ∧ t.out = s.out ∧
        ∀ x, x < 16384 → t.mbxWord x = if place x < n then mbApply k (s.mbxWord x) (word (place x)) else s.mbxWord x
      Answers (.mailboxWrite index data []) s (done .write) ∧ Answers (.mailboxSet index data []) s (done .set) ∧
      Answers (.mailboxClear index data []) s (done .clear)) ∧
    (∀ (count : Nat) (bad : List Nat), count ≤ 16384 →
      let at_ (i : Nat) := (index + i) % 16384
      let spoiled (i : Nat) := bad.contains (at_ i) || s.mbxBad.contains (at_ i)
      Answers (.mailboxRead index count [] bad) s (fun t => t.mbx = s.mbx ∧
        begun ((List.range count).any spoiled) t ∧
        t.out = s.out ++ [.i3cBytes ((List.range count).flatMap (fun i =>
          if spoiled i then leBytes 4 0xFFFFFFFF else leBytes 4 (s.mbxWord (at_ i)).toNat))]))) ∧
  (
  ∀ s : State, s.smUp = true →
    let claim := Reg.mbClaim
    let busyIs (u t : State) : Prop := t.flag Reg.pwPins 5 = (t.flag claim 1 || u.pins.mbxPulse)
    let ended (u t : State) : Prop := t.sm.i3c = none ∧ t.flag Reg.mbStatus 0 = false ∧ t.flag claim 0 = u.flag claim 0 ∧
      t.flag claim 1 = (u.flag claim 1 || u.flag claim 0) ∧ (u.flag claim 0 = true → busyIs u t) ∧ t.mbx = u.mbx
    Answers (.mbClaim true) s (fun t => OnlyRegs [claim, Reg.pwPins] s t ∧ t.flag claim 0 = true ∧
      (s.sm.i3c = none → t.flag claim 1 = true ∧ t.flag Reg.pwPins 5 = true) ∧
      (s.sm.i3c ≠ none → t.flag claim 1 = s.flag claim 1 ∧ t.flag Reg.pwPins 5 = s.flag Reg.pwPins 5)) ∧
    Answers (.mbClaim false) s (fun t => OnlyRegs [claim, Reg.pwPins] s t ∧ t.fld claim 1 0 = 0 ∧ busyIs s t) ∧
    (s.flag claim 1 = true → Answers .claimTimeout s (fun t => OnlyRegs [claim, Reg.pwPins, Reg.mbStatus] s t ∧
      t.fld claim 1 0 = 0 ∧ busyIs s t ∧ t.flag Reg.mbStatus 2 = true)) ∧
    (∀ wrote, s.sm.i3c = some wrote →
      Answers .i3cTransferTimeout s (fun t => ended s t ∧ t.irqQ = s.irqQ ∧ t.flag Reg.mbStatus 5 = s.flag Reg.mbStatus 5) ∧
      Answers .i3cTransferEnd s (fun t => ended s t ∧ t.flag Reg.mbStatus 5 = (s.flag Reg.mbStatus 5 || wrote) ∧
        t.irqQ = s.irqQ ++ (if wrote && s.flag Reg.mbIrq 24 then [(99, BitVec.ofNat 24 (s.fld Reg.mbIrq 23 0))] else []))) ∧
    Answers .mbxBusyPulseEnd s (fun t => OnlyRegs [Reg.pwPins] { s with pins := { s.pins with mbxPulse := false } } t ∧
      t.flag Reg.pwPins 5 = s.flag claim 1))

/-- R357 with R22, R346 and R353; the exceptions are those of R24. What a fetch finds in a line that its L1I holds is open (log
entry 176). R467; cause 7 of a store of part of a cacheable line as in its fourth row. -/
def Obligations.HostCoresFollowR357 : Prop :=
  (
  ∀ (s : State) (hart : Nat) (machine uncached : Bool) (a : Nat), hart < 192 → s.dieState (80 + hart / 24) = 2 →
    let load (n : Nat) := Instr.hostCoreAccess hart machine uncached a n .load .clean
    let store (bs : List Byte) := Instr.hostCoreAccess hart machine uncached a bs.length (.store bs) .clean
    let clean (t : State) : Prop := ∀ l, t.linePoisoned l = true → s.linePoisoned l = true
    let zero := Instr.hostCoreAccess hart machine uncached a 64 .cboZero .clean
    (s.coreReach hart a = .ok → s.linePoisoned (a / 64) = false →
      (∀ n, 0 < n → a % 64 + n ≤ 64 → Answers (load n) s (fun t =>
        BytesBut 0 0 s t ∧ clean t ∧ t.regs = s.regs ∧ t.out = s.out ++ [.coreData hart (s.bytes a n)])) ∧
      (∀ n, 0 < n → a % 64 + n ≤ 64 → s.cacheable a (some (.hart hart)) = true → isWorkMem a = false →
        (∀ c ∈ s.host.cores, ¬ (c.cache = .l1i ∧ c.hart = hart ∧ c.line = a / 64)) →
        Answers (.hostCoreAccess hart machine uncached a n .fetch .clean) s (fun t =>
          BytesBut 0 0 s t ∧ clean t ∧ t.regs = s.regs ∧ t.out = s.out ++ [.coreData hart (s.bytes a n)] ∧
          (uncached = false → ∃ c ∈ t.host.cores, c.cache = .l1i ∧ c.hart = hart ∧ c.line = a / 64))) ∧
      (∀ bs : List Byte, 0 < bs.length → a % 64 + bs.length ≤ 64 → Answers (store bs) s (fun t =>
        BytesBut a bs.length s t ∧ t.bytes a bs.length = bs ∧ clean t ∧ t.regs = s.regs ∧
        t.out = s.out ++ [.coreDone hart])) ∧
      (a % 64 = 0 → Answers zero s (fun t => BytesBut a 64 s t ∧ t.bytes a 64 = List.replicate 64 0 ∧
        clean t ∧ t.out = s.out ++ [.coreDone hart]))) ∧
    (s.meets (80 + hart / 24) a (some (.hart hart)) = some (.bias (ownerDie a)) →
      let refused (cause : Nat) (acc : LogAcc) (t : State) : Prop :=
        t = { s with
          flog := s.flog ++ [logEntry (ownerDie a) .bias a 0 (.hart hart) acc]
          out := s.out ++ [.coreFault hart cause]
          pcie := { s.pcie with waiters := t.pcie.waiters, exempt := t.pcie.exempt }
          answered := t.answered }
      (∀ n, a % 64 + n ≤ 64 → Answers (load n) s (refused 5 .read)) ∧
      (∀ bs : List Byte, a % 64 + bs.length ≤ 64 → Answers (store bs) s (refused 7 .write))) ∧
    (isSetup a = true → a % 4 = 0 → outboundAt a = none → mailboxWordAt a = none →
      s.setupMeets (if machine then .hostMachine hart else .hostUser hart) false a = none →
      Answers (load 4) s (fun t => t = { s with out := s.out ++ [.coreData hart (leBytes 4 (s.reg a).toNat)] }))) ∧
  (
  ∀ (s : State) (hart : Nat) (machine : Bool) (a : Nat), hart < 192 → s.dieState (80 + hart / 24) = 2 →
    s.coreReach hart a = .ok → s.linePoisoned (a / 64) = true →
    let cmd (acc : CoreAccess) (n : Nat) := Instr.hostCoreAccess hart machine false a n acc .clean
    let same (t : State) : Prop := BytesBut 0 0 s t ∧ t.poison = s.poison ∧ t.regs = s.regs
    let raised (cause : Nat) (acc : LogAcc) (t : State) : Prop :=
      same t ∧ t.flog = s.flog ++ [logEntry (ownerDie a) .poisonRead a 0 (.hart hart) acc] ∧
      t.out = s.out ++ [.coreFault hart cause]
    (∀ d n, s.modifiedCopy (a / 64) = some d → 0 < n → a % 64 + n ≤ 64 → Answers (cmd .load n) s (fun t =>
      BytesBut 0 0 s t ∧ t.regs = s.regs ∧ t.out = s.out ++ [.coreData hart (s.bytes a n)])) ∧
    (∀ n, s.modifiedCopy (a / 64) = none → s.copyOf (hart / 24) (a / 64) = none → 0 < n → a % 64 + n ≤ 64 →
      Answers (cmd .load n) s (raised 5 .read) ∧
      (s.cacheable a (some (.hart hart)) = true → isWorkMem a = false →
        (∀ c ∈ s.host.cores, ¬ (c.cache = .l1i ∧ c.hart = hart ∧ c.line = a / 64)) → Answers (cmd .fetch n) s (raised 1 .fetch))) ∧
    (∀ bs : List Byte, 0 < bs.length → a % 64 + bs.length ≤ 64 →
      Answers (cmd (.store bs) bs.length) s (fun t =>
        if bs.length = 64 then t.bytes a 64 = bs ∧ BytesBut a 64 s t ∧ t.linePoisoned (a / 64) = false ∧
          t.out = s.out ++ [.coreDone hart]
        else s.modifiedCopy (a / 64) = none → if s.cacheable a (some (.hart hart)) = true then raised 7 .write t else
          same t ∧ t.flog = s.flog ++ [logEntry (ownerDie a) .poisonedStore a 0 (.hart hart) .write] ∧
              t.out = s.out ++ [.coreDone hart])))

/-- R256, R354 and the third row of R357; what an AMO stores is the arithmetic of its name, as the instructions the rule names
have it. The model's choices are that a failed SC returns 1 (log entry 73, PRESUMED), that a misaligned LR takes cause 4 and
another atomic cause 6 (log entry 72, PRESUMED), that a reservation ends with its grant (log entry 74, DEDUCED), and what else
ends one (log entry 75). -/
def Obligations.AtomicsFollowR256 : Prop :=
  (∀ (s : State) (hart a size : Nat) (op : AtomicOp) (v : DWord), hart < 192 → s.dieState (80 + hart / 24) = 2 →
    (size = 4 ∨ size = 8) → a % size = 0 → s.coreReach hart a = .ok →
    let cmd := Instr.hostAtomic hart a size op v .clean
    let old := leNat (s.bytes a size)
    let new := amoResult op (8 * size) old (v.toNat % 2 ^ (8 * size))
    let clean (t : State) : Prop := ∀ l, t.linePoisoned l = true → s.linePoisoned l = true
    let kept (t : State) : Prop := BytesBut 0 0 s t ∧ clean t
    let stored (t : State) : Prop := BytesBut a size s t ∧ t.bytes a size = leBytes size new ∧ clean t
    (s.cacheable a (some (.hart hart)) = false → Answers cmd s (fun t => kept t ∧
      t.out = s.out ++ [.coreFault hart (if op = .lr then 5 else 7)] ∧
          t.flog = s.flog ++ [logEntry (ownerDie a) .bias a 0 (.hart hart) .atomic])) ∧
    (s.cacheable a (some (.hart hart)) = true → s.linePoisoned (a / 64) = false →
      (isHostMem a = true ∨ (s.host.grants.filter (fun g => decide (g.home = ownerDie a))).length < 64) →
      Answers cmd s (fun t => t.regs = s.regs ∧ match op with
        | .sc => t.host.resv.all (fun p => p.1 != hart) = true ∧
            if (hart, a / 64) ∈ s.host.resv then stored t ∧ t.out = s.out ++ [.coreData hart [0]]
            else kept t ∧ t.out = s.out ++ [.coreData hart [1]]
        | .lr => kept t ∧ t.out = s.out ++ [.coreData hart (leBytes size old)] ∧ (hart, a / 64) ∈ t.host.resv
        | _ => stored t ∧ t.out = s.out ++ [.coreData hart (leBytes size old)]))) ∧
  (∀ (s : State) (hart a size : Nat) (op : AtomicOp) (v : DWord), hart < 192 → s.dieState (80 + hart / 24) = 2 →
    (size = 4 ∨ size = 8) → isSetup a = false → a % size ≠ 0 → Answers (.hostAtomic hart a size op v .clean) s (fun t =>
      t = { s with out := s.out ++ [.coreFault hart (if op = .lr then 4 else 6)] })) ∧
  (∀ (s : State) (hart : Nat) (g : Grant), s.host.grants.find? (fun g => decide (g.hart = hart)) = some g →
    Answers (.lrGrantExpiry hart) s (fun t => t.host.grants = s.host.grants.erase g ∧
      t.host.resv = s.host.resv.filter (fun p => decide (p ≠ (hart, g.line))) ∧ t.mem = s.mem ∧ t.regs = s.regs)) ∧
  (∀ o v : BitVec 64, let r (op : AtomicOp) := amoResult op 64 o.toNat v.toNat
    r .amoswap = v.toNat ∧ r .amoadd = (o + v).toNat ∧ r .amoxor = (o ^^^ v).toNat ∧ r .amoand = (o &&& v).toNat ∧
    r .amoor = (o ||| v).toNat ∧ r .amomin = (if v.slt o = true then v else o).toNat ∧
    r .amomax = (if o.slt v = true then v else o).toNat ∧ r .amominu = min o.toNat v.toNat ∧ r .amomaxu = max o.toNat v.toNat ∧
    r .sc = v.toNat ∧ ∀ e : BitVec 64, r (.cas e.toNat) = if o = e then v.toNat else o.toNat)

/-- R352; the premises say what R351 and R353 say of copies: one modified copy of a line, one copy of a line at an agent, and
data kept for modified copies only. -/
def Obligations.SnoopsFollowR352 : Prop :=
  ∀ (s : State) (agent line : Nat), agent < 58 →
    (∀ c ∈ s.host.copies, ∀ d ∈ s.host.copies, c.line = d.line → c.state = .modified → d.state = .modified → c = d) →
    (∀ c ∈ s.host.copies, ∀ d ∈ s.host.copies, c.line = d.line → c.agent = d.agent → c = d) →
    (∀ c ∈ s.host.copies, c.data.length = if c.state = .modified then 64 else 0) →
    let die := if agent < 18 then 80 + agent else agent - 18
    let others (p : Copy → Bool) (t : State) : Prop := BytesBut 0 0 s t ∧ t.regs = s.regs ∧
      t.host.copies.filter (fun c => !p c) = s.host.copies.filter (fun c => !p c)
    let mine (c : Copy) : Bool := decide (c.agent = agent ∧ c.line = line)
    let gone (t : State) : Prop := others mine t ∧ t.copyOf agent line = none ∧
      t.out = s.out ++ [match s.copyOf agent line with
        | some c => if c.state = .modified then .snoopData agent line c.data else .snoopInvalid agent line
        | none => .snoopInvalid agent line]
    (s.dieDown die = true → ∀ c, c = .snpShr agent line ∨ c = .snpInv agent line ∨ c = .snpOwn agent line →
      Answers c s (fun t => t = { s with out := s.out ++ [.snoopLost agent line] })) ∧
    (s.dieDown die = false →
      Answers (.snpShr agent line) s (fun t => others mine t ∧ match s.copyOf agent line with
        | some c => t.copyOf agent line = some { c with state := .shared, data := [] } ∧
            t.out = s.out ++ [if c.state = .shared then .snoopInvalid agent line else .snoopData agent line (s.bytes (64 * line) 64)]
        | none => t.copyOf agent line = none ∧ t.out = s.out ++ [.snoopInvalid agent line]) ∧
      Answers (.snpInv agent line) s gone ∧ Answers (.snpOwn agent line) s gone ∧
      ∀ granule, Answers (.snpGfl agent granule) s (fun t =>
        others (fun c => decide (c.agent = agent ∧ c.line / 1024 = granule)) t ∧
        (∀ c ∈ t.host.copies, ¬ (c.agent = agent ∧ c.line / 1024 = granule)) ∧
        t.out = s.out ++ [.snoopInvalid agent (1024 * granule)]))

/-- R350, R370 note 1 and the timers of R348. That a message to a host die that is down is dropped and noted in the source die's
log is the model's reading (log entry 78), and which messages are noted so is log entry 77. -/
def Obligations.InterruptsFollowR350 : Prop :=
  (∀ (s : State) (src : Nat) (x : BitVec 24), (src, x) ∈ s.irqQ →
    let id := x.toNat % 65536
    let hart := x.toNat / 65536 % 32
    let hd := x.toNat / 2097152
    Answers (.interruptMessage src x) s (fun t => t.irqQ = s.irqQ.erase (src, x) ∧ t.regs = s.regs ∧ t.mem = s.mem ∧
      if 1 ≤ id ∧ id ≤ 2047 ∧ hart ≤ 23 ∧ s.dieDown (80 + hd) = false then
        t.flog = s.flog ∧ ∀ k, k ∈ t.host.imsicPend ↔ k ∈ s.host.imsicPend ∨ k = imsicKey (24 * hd + hart) id
      else t.host = s.host ∧ t.flog = s.flog ++ [logEntry src .interruptLost x.toNat 0 (.controller src) .write])) ∧
  (∀ (s : State) (req : Requester) (hd hart : Nat) (v : Word), hd < 8 → hart < 24 → 1 ≤ v.toNat → v.toNat ≤ 2047 →
    let base := 0x0E0000000000 + 0x1000000 * (80 + hd) + 0x100000
    let key := imsicKey (24 * hd + hart) v.toNat
    (s.setupMeets req true (base + (0x40000 + 0x1000 * hart)) = none →
      Answers (.imsicStore req (80 + hd) (0x40000 + 0x1000 * hart) v) s (fun t => t = { s with host := t.host } ∧
        t.host.imsicM = s.host.imsicM ∧ ∀ k, k ∈ t.host.imsicPend ↔ k ∈ s.host.imsicPend ∨ k = key)) ∧
    (s.setupMeets req true (base + (0x60000 + 0x1000 * hart)) = none →
      Answers (.imsicStore req (80 + hd) (0x60000 + 0x1000 * hart) v) s (fun t => t = { s with host := t.host } ∧
        t.host.imsicPend = s.host.imsicPend ∧ ∀ k, k ∈ t.host.imsicM ↔ k ∈ s.host.imsicM ∨ k = key))) ∧
  (∀ (s : State) (hart : Nat) (cmp : DWord), hart < 192 → s.dieState (80 + hart / 24) = 2 →
    Answers (.stimecmpExpiry hart (some cmp)) s (fun t =>
      t = { s with host := { s.host with stimecmp := t.host.stimecmp, stip := t.host.stip } } ∧ t.stimecmp hart = cmp ∧
      (∀ h, h ≠ hart → t.stimecmp h = s.stimecmp h) ∧
      ∀ k, k ∈ t.host.stip ↔ if k = hart then cmp.toNat ≤ s.mtime (80 + hart / 24) else k ∈ s.host.stip) ∧
    Answers (.stimecmpExpiry hart none) s (fun t =>
      t = { s with host := { s.host with stimecmp := t.host.stimecmp, stip := t.host.stip } } ∧ (∀ h, t.stimecmp h = s.stimecmp h) ∧
      ∀ k, k ∈ t.host.stip ↔ if k = hart then (s.stimecmp hart).toNat ≤ s.mtime (80 + hart / 24) else k ∈ s.host.stip))

/-- R293, and the layout of R292. R306 and R341; the premise on the numbers of the descriptors is an invariant
(NumbersStayDistinct). That the detail of FLOW_TIMEOUT is the flow DC_FDEST gives to the lowest module missing is the model's
reading (log entry 58; R306 says the flow's number). -/
def Obligations.StepsFollowR306 : Prop :=
  (
  ∀ (s : State) (die : Nat) (v : Word), ringBearing die = true → s.dieDown die = false →
    Answers (.dcAbortWrite die v) s (fun t =>
      OnlyRegs [Reg.dcAbort die] s { t with flights := s.flights } ∧ t.reg (Reg.dcAbort die) = v &&& 0x8000FFFF ∧
      AbortedIn (fun f => bit v 31 && f.waits && decide (dStepLo f.desc = wfld v 15 0) &&
        (if f.parent.isSome then !hGang f.target && decide (hDie f.target = die)
         else f.remote.isNone && decide (ringDie f.ring = die))) s t)) ∧
  (
  ∀ (s : State) (f : Flight), Started 0x68 f s → (s.flights.map (·.fid)).Nodup → hDie f.target < 40 →
      s.dieDown (hDie f.target) = false →
    let die := hDie f.target
    let cid := dfld f.desc 191 176
    let io := 88 + cid % 10
    let here (m : Nat) : Bool := (s.arrivedFor f).contains m || decide (m = s.moduleId)
    let c := Reg.dcCommitState die
    (s.commits = [] → s.dieDown io = false →
      ((∃ b ∈ s.fab.barriers, b.io = io ∧ b.cid = cid ∧ b.step = f.step) ∨
        s.fab.barriers.length < 64 ∧ ∀ b ∈ s.fab.barriers, b.cid ≠ cid) →
      Answers (.commit f.fid) s (fun t =>
        let n := ((participants f.desc).filter here).length
        t.fld c 15 0 = dStepLo f.desc ∧ t.fld c 27 16 = n % 4096 ∧ t.mem = s.mem ∧
        if n = dfld f.desc 159 148 then
          t.fld c 31 30 = 2 ∧ t.flight f.fid = some (Ended f 0 0) ∧
          ∀ d k, ringBearing d = true → k < 256 → t.reg (Reg.dcFence d k) =
            if dbit f.desc 200 = true ∧ k = dfld f.desc 199 192 ∧ s.dieDown d = false then s.reg (Reg.dcFence d k) + 1
            else s.reg (Reg.dcFence d k)
        else t.fld c 31 30 = 1 ∧ t.flight f.fid = some f)) ∧
    (s.commits.contains f.fid = true → s.known f ≠ dfld f.desc 159 148 →
      (∃ m ∈ participants f.desc, m < 2048 ∧ (s.arrivedFor f).contains m = false) →
      Answers (.commitTimeout f.fid) s (fun t => ∃ m ∈ participants f.desc, (s.arrivedFor f).contains m = false ∧
        (∀ x ∈ participants f.desc, (s.arrivedFor f).contains x = false → m ≤ x) ∧
        t.fld c 31 30 = 3 ∧ t.reg (Reg.dcCommitMiss die) = BitVec.ofNat 32 m ∧ t.mem = s.mem ∧
        (∀ d, ringBearing d = true → s.dieDown d = false → t.reg (Reg.dcAbort d) = BitVec.ofNat 32 (2 ^ 31 + dStepLo f.desc)) ∧
        t.flight f.fid = some (Ended f (BitVec.ofNat 8 stFlowTimeout) (BitVec.ofNat 32 (s.fld (Reg.dcFdest die m) 15 0))))))

/-- R317, R322 and R323 with the credits of R324; the LINK frame has the layout of R320. R322 and R324 with the fields of R320;
bad frames as R321 says. -/
def Obligations.LinksFollowR323 : Prop :=
  (
  ∀ (s : State) (p : Nat), p < 40 → s.dieDown (88 + p / 4) = false →
    let ctrl := Reg.fbPortCtrl (88 + p / 4) (p % 4)
    let stat := Reg.fbPortStat (88 + p / 4) (p % 4)
    let peer := Reg.fbPortPeer (88 + p / 4) (p % 4)
    let link := s.fld stat 1 0
    let now (l w lanes : Nat) (t : State) : Prop := t.fld stat 1 0 = l ∧ t.fld stat 9 8 = w ∧ t.fld stat 15 12 = lanes ∧
      t.flag stat 3 = (s.flag stat 3 || decide (link ≠ l ∨ s.fld stat 9 8 ≠ w)) ∧
          (link ≠ l → t.flog = s.flog ++ [logEntry (88 + p / 4) .portChanged p l])
    let fallen (l : Nat) (t : State) : Prop := now l 0 0 t ∧ t.flag peer 31 = false ∧ t.mem = s.mem ∧
      RegsBut [ctrl, stat, peer] s t ∧ ∀ x ∈ t.fab.txq, x.port ≠ p
    let hello := mkLinkFrame 0x01 (s.moduleId + 2 ^ 16 * p + 2 ^ 32 * (4096 + 2 ^ 16 * 4096 + 2 ^ 32 * 2048 + 2 ^ 48 * 2048 + 2 ^ 64 * 64 + 2 ^ 80 * 64))
    Answers (.portEnable p) s (fun t => t.flag ctrl 0 = true ∧ if link = 0 then fallen 1 t else OnlyRegs [ctrl] s t) ∧
    Answers (.portDisable p) s (fun t => t.flag ctrl 0 = false ∧ if link = 0 then OnlyRegs [ctrl] s t else fallen 0 t) ∧
    Answers (.portRetrain p) s (fun t => if s.flag ctrl 0 = true then fallen 1 t else t = s) ∧
    (2 ≤ link → Answers (.portLinkDown p) s (fallen 1)) ∧
    (link = 1 → ∀ (lanes : BitVec 4) (reversed : Bool),
      let low := lanes.getLsbD 0 && lanes.getLsbD 1
      let high := lanes.getLsbD 2 && lanes.getLsbD 3
      Answers (.portTrained p lanes reversed) s (fun t => RegsBut [stat] s t ∧ t.flag stat 4 = reversed ∧
        if low = true ∨ high = true then
          now 2 (if low = true ∧ high = true then 1 else if low = true then 2 else 3) lanes.toNat t ∧
              t.out = s.out ++ [.frame p hello]
        else now 1 0 lanes.toNat t ∧ t.out = s.out)) ∧
    (link = 2 → Answers (.linkRepeat p) s (fun t => t = { s with out := s.out ++ [.frame p hello] }))) ∧
  (
  ∀ (s : State) (p : Nat) (f : Frame), p < 40 → s.dieDown (88 + p / 4) = false →
    let stat := Reg.fbPortStat (88 + p / 4) (p % 4)
    let peer := Reg.fbPortPeer (88 + p / 4) (p % 4)
    let drop := Reg.fbPortDrop (88 + p / 4) (p % 4)
    let dropped (t : State) : Prop := RegsBut [drop] s t ∧ t.fab = s.fab ∧
      (t.reg drop).toNat = min ((s.reg drop).toNat + 1) 0xFFFFFFFF ∧
          t.flog = s.flog ++ [logEntry (88 + p / 4) .frameDropped f.type f.seq]
    (f.type = 0x01 → s.fld stat 1 0 = 2 → frameGood f = true → Answers (.link p f) s (fun t =>
      t.portUp p = true ∧ t.fld stat 9 8 = s.fld stat 9 8 ∧ RegsBut [stat, peer] s t ∧ t.flag peer 31 = true ∧
      t.fld peer 15 0 = f.fld 143 128 ∧ t.fld peer 21 16 = f.fld 149 144 ∧
      ∀ i, i < 6 → (t.pools p).getD i 0 = f.fld (175 + 16 * i) (160 + 16 * i))) ∧
    (f.type = 0x02 → s.portUp p = true → frameGood f = true → (s.fab.txq.filter (fun x => decide (x.port = p))) = [] →
      (s.pools p).length = 6 → Answers (.credit p f) s (fun t => t.regs = s.regs ∧ t.out = s.out ∧
        ∀ i, i < 6 → (t.pools p).getD i 0 = (s.pools p).getD i 0 + f.fld (143 + 16 * i) (128 + 16 * i))) ∧
    (frameGood f = false → (f.type = 0x01 → 2 ≤ s.fld stat 1 0 → Answers (.link p f) s dropped) ∧
      (f.type = 0x02 → s.portUp p = true → Answers (.credit p f) s dropped)))

/-- R326 with the drops of R320 and R321 and the credits of R324. That a dropped frame gives its credits back is the model's
reading (log entry 64), as is the drop of one whose output port cannot be reached over the mesh (log entry 65). -/
def Obligations.ForwardingFollowsR326 : Prop :=
  ∀ (s : State) (p : Nat) (f : Frame), s.portUp p = true → linkLocal f.type = false → p < 40 →
    let drop := Reg.fbPortDrop (88 + p / 4) (p % 4)
    let vlIn := if f.hp = 0 then 0 else f.hop (f.hp - 1) / 64
    let back : OutEvent := .frame p (mkLinkFrame 0x02 (2 ^ (16 * (2 * f.cls + vlIn)) * (2 + 2 * f.plen)))
    let q := f.hop f.hp % 64
    let pool := 2 * f.cls + f.hop f.hp / 64
    let dropped (t : State) : Prop := RegsBut [drop] s t ∧ t.fab = s.fab ∧ t.out = s.out ++ [back] ∧
      (t.reg drop).toNat = min ((s.reg drop).toNat + 1) 0xFFFFFFFF ∧
          t.flog = s.flog ++ [logEntry (88 + p / 4) .frameDropped f.type f.seq]
    (frameGood f = true → f.hop f.hp ≠ 63 → f.hp < 15 → s.portUp q = true → (s.path (88 + p / 4) (88 + q / 4)).miss = none →
      s.isSafe = false → s.fab.txq.filter (fun x => decide (x.port = q)) = [] → 2 + 2 * f.plen ≤ (s.pools q).getD pool 0 →
      Answers (.frameForward p f) s (fun t => t.out = s.out ++ [.frame q (f.setHp (f.hp + 1)), back] ∧ t.regs = s.regs ∧
          t.mem = s.mem ∧
        (∀ i, (t.pools q).getD i 0 = if i = pool then (s.pools q).getD i 0 - (2 + 2 * f.plen) else (s.pools q).getD i 0))) ∧
    ((frameGood f = false ∨ f.hop f.hp ≠ 63 ∧ (s.portUp q = false ∨ 15 ≤ f.hp ∨
        (s.path (88 + p / 4) (88 + q / 4)).miss.isSome = true) ∨ f.hop f.hp = 63 ∧ f.dst ≠ s.moduleId) →
      Answers (.frameForward p f) s dropped)

/-- R333 with R331, R376 and R388 on the way back; the fields are those of R320. -/
def Obligations.RequestsFollowR333 : Prop :=
  ∀ (s : State) (p : Nat) (f : Frame),
    let rx := Reg.fbFlowRx (88 + f.flow % 10) (f.flow / 10)
    let q := portOf s f.flow
    let next (t : State) : Prop := t.fld rx 23 0 = (f.seq + 1) % 2 ^ 24 ∧ t.flights = s.flights
    f.seq = s.fld rx 23 0 → s.portUp q = true →
    (Delivered p 0x10 f s →
      let bs := writeBytes f
      (s.firstMiss (88 + f.flow % 10) (linesOf f.addr bs.length) (some (.frame f.flow)) = none →
        s.firstHeld (linesOf f.addr bs.length) (.frame f.flow) = none →
        (bs.length % 64 = 0 ∨ s.linePoisoned ((f.addr + bs.length) / 64) = false) →
        let stored (t : State) : Prop := next t ∧ RegsBut [rx] s t ∧ BytesBut f.addr bs.length s t ∧ t.bytes f.addr bs.length = bs ∧
          ∀ l, t.linePoisoned l = if f.addr / 64 ≤ l ∧ l < (f.addr + bs.length + 63) / 64 then f.poison else s.linePoisoned l
        (s.answerFails (88 + f.flow % 10) (linesOf f.addr bs.length) = none → Answers (.write p f) s stored) ∧
        ∀ m a, s.answerFails (88 + f.flow % 10) (linesOf f.addr bs.length) = some (m, a) →
            Answers (.write p f) s (fun t => stored t ∧
          ∃ r : Frame, Handed q r t ∧ r.type = 0x23 ∧ r.flow = f.flow ∧ r.seq = f.seq ∧ r.aux = missCode m)) ∧
      ∀ m a, s.firstMiss (88 + f.flow % 10) (linesOf f.addr bs.length) (some (.frame f.flow)) = some (m, a) →
        Answers (.write p f) s (fun t => next t ∧ BytesBut 0 0 s t ∧ t.poison = s.poison ∧
          ∃ r : Frame, Handed q r t ∧ r.type = 0x23 ∧ r.flow = f.flow ∧ r.seq = f.seq ∧ r.aux = missCode m)) ∧
    (Delivered p 0x11 f s → ∀ size, msopSize f.aux = some size → isHbm f.addr = true →
      s.meets (88 + f.flow % 10) f.addr (some (.frame f.flow)) = none → s.extHolder (f.addr / 64) (some (.frame f.flow)) = none →
      s.linePoisoned (f.addr / 64) = false → s.answerMiss (88 + f.flow % 10) f.addr = none →
      Answers (.msopFrame p f) s (fun t => next t ∧ RegsBut [rx] s t ∧ t.linePoisoned (f.addr / 64) = f.poison ∧
        if f.poison = true then BytesBut 0 0 s t
        else BytesBut f.addr 64 s t ∧ t.bytes f.addr 64 = msopLine f.aux size f.mask.toNat (s.bytes f.addr 64) f.payload)) ∧
    (Delivered p 0x12 f s → s.firstMiss (88 + f.flow % 10) (linesOf f.addr (64 * f.aux)) (some (.frame f.flow)) = none →
      s.firstHeld (linesOf f.addr (64 * f.aux)) (.frame f.flow) = none →
          s.answerFails (88 + f.flow % 10) (linesOf f.addr (64 * f.aux)) = none →
      (∀ a ∈ linesOf f.addr (64 * f.aux), s.linePoisoned (a / 64) = true → s.modifiedCopy (a / 64) = none) →
      Answers (.read p f) s (fun t => next t ∧ BytesBut 0 0 s t ∧ t.poison = s.poison ∧ RegsBut [rx] s t ∧
        ∃ r : Frame, Handed q r t ∧ r.type = 0x22 ∧ r.flow = f.flow ∧ r.seq = f.seq ∧ r.addr = f.addr ∧
          r.payload = s.bytes f.addr (64 * f.aux) ∧ r.poison = s.anyPoison f.addr (64 * f.aux))) ∧
    (Delivered p 0x13 f s → ringBearing (f.fld 206 200) = true → s.dieDown (f.fld 206 200) = false →
      let fence := Reg.dcFence (f.fld 206 200) (f.fld 214 207)
      Answers (.signal p f) s (fun t => next t ∧ t.mem = s.mem ∧ RegsBut [rx, fence] s t ∧ t.reg fence = s.reg fence + 1))

/-- R331; that a NAK goes out once for each gap until a frame in sequence arrives is the model's reading. -/
def Obligations.SequenceFollowsR331 : Prop :=
  (∀ (s : State) (p : Nat) (f : Frame), Delivered p 0x10 f s → s.portUp (portOf s f.flow) = true →
    let rx := Reg.fbFlowRx (88 + f.flow % 10) (f.flow / 10)
    let want := s.fld rx 23 0
    let same (t : State) : Prop := t.mem = s.mem ∧ t.poison = s.poison ∧ t.regs = s.regs ∧ t.flights = s.flights
    (2 ^ 23 ≤ (f.seq + 2 ^ 24 - want) % 2 ^ 24 → Answers (.write p f) s (fun t => same t ∧
      ∃ r : Frame, Handed (portOf s f.flow) r t ∧ r.type = 0x20 ∧ r.flow = f.flow ∧ r.seq = want)) ∧
    (1 ≤ (f.seq + 2 ^ 24 - want) % 2 ^ 24 → (f.seq + 2 ^ 24 - want) % 2 ^ 24 < 2 ^ 23 → Answers (.write p f) s (fun t => same t ∧
      ((∀ x ∈ s.fab.nakGap, x.1 ≠ f.flow) →
        ∃ r : Frame, Handed (portOf s f.flow) r t ∧ r.type = 0x21 ∧ r.flow = f.flow ∧ r.seq = want)))) ∧
  (∀ (s : State) (flow : Nat), s.flowLive flow = true → s.portUp (portOf s flow) = true → (∃ n, (flow, n) ∈ s.fab.rxVis) →
    Answers (.ackTimer flow) s (fun t => t.regs = s.regs ∧ t.mem = s.mem ∧ (∀ x ∈ t.fab.rxVis, x.1 ≠ flow) ∧
      ∃ r : Frame, Handed (portOf s flow) r t ∧ r.type = 0x20 ∧ r.flow = flow ∧
        r.seq = s.fld (Reg.fbFlowRx (88 + flow % 10) (flow / 10)) 23 0))

/-- R331 to R333, with the keeping of the highest status by R53 and the end of a drain by R126. When the second plane of a block
is written is log entry 170 (DEDUCED from R84). In the part on FAULT the detail of the status is left open (entry 1). That a
frame which computes its data goes out again as first formed is the model's reading (log entry 147). R332; a READ that fails
ends its descriptor when it next runs. That a frame which computes its data, or moves none of a source, goes out again as first
formed is the model's reading (log entry 147; R332 has a frame formed again from its source), as is a gang's copy being sent
again like a frame (log entry 157). -/
def Obligations.AnswersFollowR332 : Prop :=
  (
  ∀ (s : State) (p : Nat) (f : Frame), (∀ u ∈ s.fab.unacked, u.flow = f.flow → u.sends ≠ 0) →
    let copies := [0x42, 0x50, 0x51, 0x54, 0x55, 0x62, 0x69, 0x70]
    let acked (u : Sent) : Bool := decide (u.flow = f.flow ∧ u.frame.type ≠ 0x12 ∧
      2 ^ 23 ≤ (u.seq.toNat + 2 ^ 24 - f.seq) % 2 ^ 24)
    let named (u : Sent) : Bool := decide (u.flow = f.flow ∧ u.seq.toNat = f.seq)
    let fixed (u : Sent) : Prop := u.frame.type ≠ 0x10 ∧ u.frame.type ≠ 0x11 ∨
      ∀ d, u.fid.bind s.flight = some d → dClass d.desc ∉ copies
    let txack := Reg.fbFlowTxack (88 + f.flow % 10) (f.flow / 10)
    let oldest (t : State) : Prop := t.fld txack 23 0 = match t.fab.unacked.find? (fun u => decide (u.flow = f.flow)) with
      | some u => u.seq.toNat
      | none => s.fld (Reg.fbFlowTx (88 + f.flow % 10) (f.flow / 10)) 23 0
    (Delivered p 0x20 f s → s.fab.guards = [] → Answers (.ack p f) s (fun t => RegsBut [txack] s t ∧ oldest t ∧
        t.flights = s.flights ∧ t.mem = s.mem ∧
      t.fab.unacked = s.fab.unacked.filter (fun u => !acked u))) ∧
    (∀ g : Guard, Delivered p 0x20 f s → s.fab.guards = [g] → g.frame = none →
      g.mark = false → 0 < g.bytes.length → g.addr % 64 + g.bytes.length ≤ 64 →
      s.extHolder (g.addr / 64) (some (.desc g.fid)) = none → s.linePoisoned (g.addr / 64) = false →
      let left := s.fab.unacked.any (fun u => !acked u && decide (u.fid = some g.fid ∧ u.frame.type ≠ 0x12 ∧ u.ix ∈ g.after))
      Answers (.ack p f) s (fun t => t.flights = s.flights ∧
        if left = true then t.mem = s.mem ∧ t.fab.guards = [g]
        else BytesBut g.addr g.bytes.length s t ∧ t.bytes g.addr g.bytes.length = g.bytes ∧ t.fab.guards = [])) ∧
    (Delivered p 0x21 f s → s.fab.guards = [] → s.portUp (portOf s f.flow) = true →
      (∀ u ∈ s.fab.unacked, u.flow = f.flow → fixed u ∧ portOf s f.flow = u.frame.hop 0 % 64 ∧
        u.sends < s.fld (Reg.fbFlowCtrl (88 + f.flow % 10) (f.flow / 10)) 15 12 + 1) →
      let due (u : Sent) : Bool := decide (u.flow = f.flow ∧ (u.seq.toNat + 2 ^ 24 - f.seq) % 2 ^ 24 < 2 ^ 23)
      Answers (.nak p f) s (fun t => t.flights = s.flights ∧ t.mem = s.mem ∧
        t.fab.unacked = (s.fab.unacked.filter (fun u => !acked u)).map (fun u => if due u then { u with sends := u.sends + 1 } else u) ∧
        ∀ u ∈ s.fab.unacked, due u = true → Handed (portOf s f.flow) u.frame t)) ∧
    (∀ (u : Sent) (d : Flight), s.fab.unacked.find? named = some u → u.fid = some d.fid → s.flight d.fid = some d →
      (Delivered p 0x22 f s → s.fab.guards = [] → u.frame.type = 0x12 → Answers (.readRsp p f) s (fun t => RegsBut [txack] s t ∧
          oldest t ∧ t.mem = s.mem ∧
        t.flights = s.flights ∧ t.fab.unacked = s.fab.unacked.filter (fun u => !named u) ∧
        t.fab.remoteRd = s.fab.remoteRd ++ (List.range f.plen).map (fun k =>
          ⟨d.fid, f.flow, 2 ^ 48 * s.flowPeer f.flow + f.addr + 64 * k, (f.payload.drop (64 * k)).take 64, f.poison, 0, none⟩))) ∧
      (Delivered p 0x23 f s → f.aux < 256 → (∀ g ∈ s.fab.guards, g.fid = d.fid ∧ u.ix ∈ g.after ∧ u.frame.type ≠ 0x12) →
        let mover := moverClass (dClass d.desc)
        let acted := decide (d.phase = .done) && stopsPartition d.res.status.toNat
        let drain := !mover && matClass (dClass d.desc) && !hGang d.target && !acted
        let halts := stopsMover f.aux && (mover || drain)
        let halted (x : Sent) : Bool := decide (x.fid = some d.fid ∧ x.sends = 0)
        let gone := if halts = true ∧ mover = false then (s.fab.unacked.filter (fun x => halted x && decide (x.frame.type = 0x10))).map
          (fun x => (2 ^ 48 * s.flowPeer x.flow + x.frame.addr) / 64) else []
        let lines := d.res.lines.diff gone
        Answers (.fault p f) s (fun t => t.mem = s.mem ∧ oldest t ∧ t.fab.guards = [] ∧
          t.fab.unacked = s.fab.unacked.filter (fun x => !named x && !(halts && halted x)) ∧
          if u.frame.type = 0x12 then (halts = false ∨ mover = true → t.flights = s.flights) ∧
            (∃ e, t.flight d.fid = some e ∧ e.res = { d.res with lines := lines }) ∧
            ∃ v, t.fab.remoteRd = s.fab.remoteRd ++
              [⟨d.fid, f.flow, 2 ^ 48 * s.flowPeer f.flow + u.frame.addr, [], false, f.aux, some v⟩]
          else ∃ e, t.flight d.fid = some e ∧ e.res.status.toNat = max d.res.status.toNat f.aux ∧ e.res.lines = lines ∧
            (f.aux ≤ d.res.status.toNat → e.res = { d.res with lines := lines }) ∧
            (d.phase = .done → d.res.status.toNat < f.aux → hGang d.target = false →
              if matClass (dClass d.desc) = true ∧ stopsPartition f.aux = true then
                e.phase = .faulted (BitVec.ofNat 8 f.aux) e.res.detail lines
              else e.phase = .done))))) ∧
  (
  (∀ (s : State) (flow : Nat) (u : Sent), s.flowLive flow = true → (∀ x ∈ s.fab.unacked, x.flow = flow → x.sends ≠ 0) →
    s.fab.unacked.find? (fun x => decide (x.flow = flow)) = some u →
    let ctrl := Reg.fbFlowCtrl (88 + flow % 10) (flow / 10)
    let due (x : Sent) : Bool := decide (x.flow = flow ∧ (x.seq.toNat + 2 ^ 24 - u.seq.toNat) % 2 ^ 24 < 2 ^ 23)
    let fixed (x : Sent) : Prop := x.frame.type ≠ 0x10 ∧ x.frame.type ≠ 0x11 ∨
      ∀ d, x.fid.bind s.flight = some d → dClass d.desc ∉ [0x42, 0x50, 0x51, 0x54, 0x55, 0x62, 0x69, 0x70]
    ((∀ x ∈ s.fab.unacked, due x = true → fixed x ∧ x.sends < s.fld ctrl 15 12 + 1 ∧ s.portUp (x.frame.hop 0 % 64) = true) →
      Answers (.retransmitTimeout flow) s (fun t => t.regs = s.regs ∧ t.mem = s.mem ∧ t.flights = s.flights ∧
        t.fab.unacked = s.fab.unacked.map (fun x => if due x then { x with sends := x.sends + 1 } else x) ∧
        ∀ x ∈ s.fab.unacked, due x = true → Handed (x.frame.hop 0 % 64) x.frame t)) ∧
    (s.fab.unacked.filter (fun x => decide (x.flow = flow)) = [u] → u.sends < s.fld ctrl 15 12 + 1 →
      let s1 := { s with fab := { s.fab with
        unacked := s.fab.unacked.map (fun x => if due x then { x with sends := x.sends + 1 } else x) } }
      let v := s1.reform { u with sends := u.sends + 1 }
      s.portUp (v.frame.hop 0 % 64) = true →
      Answers (.retransmitTimeout flow) s (fun t => t.mem = s.mem ∧ Handed (v.frame.hop 0 % 64) v.frame t ∧
        t.fab.unacked = s.fab.unacked.map (fun x => if due x then v else x) ∧
        ∀ d, u.fid = some d.fid → s.flight d.fid = some d → v.frame.poison = true → u.frame.poison = false →
          ∃ e, t.flight d.fid = some e ∧ e.res.status.toNat = max d.res.status.toNat stFabricPoison)) ∧
    ((∃ x ∈ s.fab.unacked, due x = true ∧ s.fld ctrl 15 12 + 1 ≤ x.sends) → (∀ x ∈ s.fab.unacked, x.sends ≠ 0) →
        s.fab.greds = [] → (s.flights.map (·.fid)).Nodup →
      NoGangWaits s →
      Answers (.retransmitTimeout flow) s (fun t => t.mem = s.mem ∧ t.flag ctrl 11 = true ∧ t.fnState ctrl = 3 ∧
        t.fab.unacked = s.fab.unacked.filter (fun x => decide (x.flow ≠ flow)) ∧
        ∀ x ∈ s.fab.unacked, x.flow = flow → x.frame.type ≠ 0x12 → ∀ d, x.fid = some d → ∀ g, s.flight d = some g →
          ∃ h, t.flight d = some h ∧ h.res.status.toNat = max g.res.status.toNat stFlowTimeout ∧
            (g.res.status.toNat < stFlowTimeout → h.res.detail = BitVec.ofNat 32 flow)))) ∧
  (∀ (s : State) (flow : Nat) (x : GangOut) (g : Flight), s.flowLive flow = true → (∀ u ∈ s.fab.unacked, u.flow ≠ flow) →
    s.fab.gangOut = [x] → x.flow = flow → s.flight x.fid = some g → g.phase = .started → hGang g.target = true → g.remote = none →
    let ctrl := Reg.fbFlowCtrl (88 + flow % 10) (flow / 10)
    if x.sends = 0 then Answers (.retransmitTimeout flow) s (fun t => t = s)
    else if x.sends < s.fld ctrl 15 12 + 1 then
      Answers (.retransmitTimeout flow) s (fun t =>
        t = { s with fab := { s.fab with gangOut := [{ x with sends := x.sends + 1 }] },
                     out := s.out ++ [.gangSend x.module (s.gangCopyOf g (hGangNo g.target))] })
    else
      s.fab.greds = [] → x.module ≠ s.moduleId → ∀ q, g.mods[q]? = some x.module → (∀ r, g.mods[r]? = some x.module → r = q) →
      (∀ r ∈ s.reports, r.gang ≠ g.fid) → perModule g < g.expect →
      Answers (.retransmitTimeout flow) s (fun t => t.flag ctrl 11 = true ∧ t.fnState ctrl = 3 ∧ t.mem = s.mem ∧
          t.fab.gangOut = [] ∧
        t.flights = s.flights ∧ t.reports = s.reports ++ (List.range (perModule g)).map (fun j =>
          ⟨g.fid, q * perModule g + j, { Flight.noRes with status := BitVec.ofNat 8 stFlowTimeout, detail := BitVec.ofNat 32 flow }⟩))))

/-- R330 with R67; that route[0] is compared with 39 as a whole is the model's reading. When the next cycle is stands in log
entries 4 and 27. -/
def Obligations.SynchronisingFollowsR330 : Prop :=
  (∀ (s : State) (flow : Nat), flow < 65536 → s.dieDown (88 + flow % 10) = false →
    let ctrl := Reg.fbFlowCtrl (88 + flow % 10) (flow / 10)
    let hop (h : Nat) := s.flowRoute flow / 2 ^ (7 * h) % 128
    let ok : Prop := s.fld (Reg.fbFlowPeer (88 + flow % 10) (flow / 10)) 10 0 ≠ s.moduleId ∧ hop 0 ≤ 39 ∧ ∃ h, 1 ≤ h ∧ h ≤ 15 ∧
        hop h = 63
    let synced (t : State) : Prop := t.syncCount flow = s.syncCount flow + 1 ∧
      ∃ r : Frame, Handed (portOf s flow) r t ∧ r.type = 0x14 ∧ r.flow = flow
    let now (state : Nat) (pend err : Bool) (t : State) : Prop := t.fnState ctrl = state ∧ t.flag ctrl 3 = pend ∧
        t.flag ctrl 2 = err ∧
      RegsBut [ctrl] s t ∧ t.mem = s.mem ∧ t.flights = s.flights
    (s.fnState ctrl = 0 → s.syncCount flow = 0 → s.portUp (portOf s flow) = true →
      (ok → Answers (.flowEnable flow) s (fun t => now 1 false false t ∧ synced t)) ∧
      (¬ ok → Answers (.flowEnable flow) s (now 0 false true))) ∧
    (s.fnState ctrl = 1 → s.portUp (portOf s flow) = true → Answers (.flowSyncRetry flow) s (fun t =>
      if s.syncCount flow < s.fld ctrl 15 12 + 1 then synced t ∧ t.regs = s.regs else now 0 (s.flag ctrl 3) true t)) ∧
    Answers (.flowDisable flow) s (fun t => t.syncCount flow = 0 ∧
      now (if s.fnState ctrl = 1 ∨ s.fnState ctrl = 2 then 3 else s.fnState ctrl) (s.flag ctrl 3 && s.fnState ctrl != 3) (s.flag ctrl 2) t) ∧
    (s.fnState ctrl = 3 → (∀ u ∈ s.fab.unacked, u.flow ≠ flow) → s.fab.greds = [] → NoGangWaits s →
      Answers (.flowDisablingDone flow) s (now 0 (s.flag ctrl 3) (s.flag ctrl 2))) ∧
    (s.Wf → s.pending = [] → s.latched = [.flow flow] → (∀ g ∈ s.fab.guards, s.guardDue g = false) → s.syncCount flow = 0 → ok →
      s.portUp (portOf s flow) = true → ∃ t, step s = .next t ∧ t.fnState ctrl = 1 ∧ t.flag ctrl 3 = false ∧ synced t)) ∧
  (∀ (s : State) (p : Nat) (f : Frame), s.portUp p = true → frameGood f = true → f.hop f.hp = 63 → f.dst = s.moduleId →
    s.dieDown (88 + f.flow % 10) = false →
    let r (g : Nat → Nat → Nat) := g (88 + f.flow % 10) (f.flow / 10)
    let zero (t : State) : Prop := t.fld (r Reg.fbFlowTx) 23 0 = 0 ∧ t.fld (r Reg.fbFlowTxack) 23 0 = 0 ∧
        t.fld (r Reg.fbFlowRx) 23 0 = 0
    (f.type = 0x14 → s.portUp (portOf s f.flow) = true → s.fnState (r Reg.fbFlowCtrl) = 1 ∨ s.fnState (r Reg.fbFlowCtrl) = 2 →
      Answers (.sync p f) s (fun t => t.mem = s.mem ∧ (∃ a : Frame, Handed (portOf s f.flow) a t ∧ a.type = 0x25 ∧
          a.flow = f.flow) ∧
        t.reg (r Reg.fbFlowCtrl) = s.reg (r Reg.fbFlowCtrl) ∧ (s.fnState (r Reg.fbFlowCtrl) = 2 → zero t))) ∧
    (f.type = 0x25 → s.fnState (r Reg.fbFlowCtrl) = 1 → Answers (.syncAck p f) s (fun t =>
      t.fnState (r Reg.fbFlowCtrl) = 2 ∧ zero t ∧ t.mem = s.mem ∧
      RegsBut [r Reg.fbFlowCtrl, r Reg.fbFlowTx, r Reg.fbFlowTxack, r Reg.fbFlowRx] s t)))

/-- R337 to R341; what gredStore writes is the finalising of R339 step 5. That a GRANT is announced for each RED is the model's
reading (log entry 66). -/
def Obligations.CollectivesFollowR339 : Prop :=
  (∀ (s : State) (f : Flight), Started 0x71 f s → s.gredOf f.fid = none →
    let p : Plan := ⟨f.recs⟩
    let n := dfld f.desc 503 480
    let ends (status : Nat) (detail : Word) (t : State) : Prop := ∃ r : Result, FlightSet { f with phase := .done, res := r } s t ∧
      r.status = BitVec.ofNat 8 status ∧ r.detail = detail ∧ r.sat = 0 ∧
      r.runMax = if (dFmt f.desc 416).gather = true then some 0 else none
    (∀ fl, p.flows.find? (fun x => !s.flowOn x) = some fl →
      Answers (.gred f.fid) s (ends stFlowTimeout (BitVec.ofNat 32 fl))) ∧
    ((∀ fl ∈ p.flows, s.flowOn fl = true) →
      (n = 0 → Answers (.gred f.fid) s (ends stEmpty 0)) ∧
      (n ≠ 0 → p.inFlows ≠ [] → (∀ fl ∈ p.inFlows, s.portUp (portOf s fl) = true) →
        let x := (Run.start s (hDie f.target) f.fid).gredParts f n
        x.1.far = [] → x.1.ext = [] → x.1.stop = false → x.2 ≠ [] → x.2.any (·.poison) = false →
        Answers (.gred f.fid) s (fun t => BytesBut 0 0 s t ∧
          (∃ g, t.gredOf f.fid = some g ∧ g.parts = x.2 ∧ g.resDone = 0 ∧ g.sentUp = 0 ∧
              ∀ fl ∈ p.inFlows, pairGet g.granted fl = 1024) ∧
          ∀ fl ∈ p.inFlows, ∃ r : Frame, Handed (portOf s fl) r t ∧ r.type = 0x24 ∧ r.flow = fl % 65536 ∧ r.fld 223 200 = 1024 ∧
            r.fld 247 232 = p.cid)))) ∧
  (∀ (s : State) (p : Nat) (f : Frame) (g : Gred),
    let rx := Reg.fbFlowRx (88 + f.flow % 10) (f.flow / 10)
    let plan := s.gredPlan g
    let next (t : State) : Prop := t.fld rx 23 0 = (f.seq + 1) % 2 ^ 24
    s.gredAt f.flow (f.fld 247 232) = some g → s.gredOf g.fid = some g → g.parts ≠ [] → g.resDone = 0 →
    (∃ fl ∈ plan.inFlows, fl ≠ f.flow ∧ pairGet g.recv fl = 0) →
    (Delivered p 0x1A f s → f.seq = s.fld rx 23 0 → f.poison = false → f.flow ∈ plan.inFlows →
        f.fld 223 200 = 6 * pairGet g.recv f.flow →
      pairGet g.recv f.flow + f.plen ≤ pairGet g.granted f.flow → s.portUp (portOf s f.flow) = true →
      Answers (.red p f) s (fun t => next t ∧ t.mem = s.mem ∧ (∃ h, t.gredOf g.fid = some h ∧ h.parts.length = g.parts.length ∧
          pairGet h.recv f.flow = pairGet g.recv f.flow + f.plen ∧
              pairGet h.granted f.flow = pairGet g.recv f.flow + f.plen + 1024 ∧
          ∀ e a, g.parts[e]? = some a →
            let k := e - f.fld 223 200
            h.parts[e]? = some (if f.fld 223 200 ≤ e ∧ k < 6 * f.plen then
              ⟨a.sum + BitVec.ofNat 80 (leNat ((f.payload.drop (64 * (k / 6) + 10 * (k % 6))).take 10)),
               a.gnan || (leNat ((f.payload.drop (64 * (k / 6) + 60)).take 1)).testBit (k % 6), a.poison⟩ else a)) ∧
        ∃ r : Frame, Handed (portOf s f.flow) r t ∧ r.type = 0x24 ∧ r.flow = f.flow ∧
          r.fld 223 200 = (pairGet g.recv f.flow + f.plen + 1024) % 2 ^ 24)) ∧
    (Delivered p 0x24 f s → plan.up = f.flow → plan.root = false → Answers (.grant p f) s (fun t => t.mem = s.mem ∧
        t.regs = s.regs ∧
      t.gredOf g.fid = some { g with upGrant := max g.upGrant (f.fld 223 200) })) ∧
    (s.dieDown g.die = false → Answers (.grantRepeat g.fid) s (fun t => t.mem = s.mem ∧ t.fab.greds = s.fab.greds ∧
      ∀ fl ∈ plan.inFlows, s.flowLive fl = true → s.portUp (portOf s fl) = true →
        ∃ r : Frame, Handed (portOf s fl) r t ∧ r.type = 0x24 ∧ r.flow = fl ∧ r.fld 223 200 = pairGet g.granted fl % 2 ^ 24))) ∧
  (∀ (s : State) (p : Nat) (f : Frame) (g : Gred) (d : Flight),
    let rx := Reg.fbFlowRx (88 + f.flow % 10) (f.flow / 10)
    Delivered p 0x1B f s → f.seq = s.fld rx 23 0 → s.gredAt f.flow (f.fld 247 232) = some g → s.flight g.fid = some d →
    (s.gredPlan g).root = false → (s.gredPlan g).up = f.flow → f.fld 223 200 = g.resDone → f.poison = false →
    let n := min (8 * f.plen) (g.parts.length - g.resDone)
    let ws := (numsOf 8 n f.payload).map (fun w => (BitVec.ofNat 64 w, f.poison))
    let u := s.returnCredits p (poolIx f.cls (if f.hp = 0 then 0 else f.hop (f.hp - 1) / 64)) f.blocks
    let r := (Run.ofFlight u d).gredStore d g.resDone ws
    r.far = [] → r.ext = [] → Answers (.res p f) s (fun t => t.fld rx 23 0 = (f.seq + 1) % 2 ^ 24 ∧ t.mem = r.s.mem ∧
        t.poison = r.s.poison)) ∧
  (∀ (s : State) (p : Nat) (f : Frame),
    let rx := Reg.fbFlowRx (88 + f.flow % 10) (f.flow / 10)
    let step := BitVec.ofNat 48 (leNat (f.payload.take 6))
    let cid := leNat ((f.payload.drop 6).take 2)
    Delivered p 0x18 f s → f.seq = s.fld rx 23 0 → s.commits = [] → s.dieDown (88 + cid % 10) = false →
    ((∃ b ∈ s.fab.barriers, b.io = 88 + cid % 10 ∧ b.cid = cid ∧ b.step = step) ∨
      s.fab.barriers.length < 64 ∧ ∀ b ∈ s.fab.barriers, b.cid ≠ cid) →
    Answers (.arrive p f) s (fun t => t.fld rx 23 0 = (f.seq + 1) % 2 ^ 24 ∧ t.mem = s.mem ∧
      ∃ b ∈ t.fab.barriers, b.cid = cid ∧ b.step = step ∧ f.src ∈ b.arrived))

/-- R342, R410 and R411 with the fields of R320. That the record of an expired offer stays, with watts 0, is the model's reading
(log entry 136). -/
def Obligations.PowerMessagesFollowR342 : Prop :=
  (∀ (s : State) (g : Nat), s.controls = true → s.isCapo g = true → s.reaches 99 (88 + g % 10) = true →
    Answers (.capoSend g) s (fun t => t.fab.capoSeq = s.fab.capoSeq + 1 ∧ t.mem = s.mem ∧ t.flights = s.flights ∧
      ∀ m ∈ s.grpModules g, ∀ fl, s.fdest (88 + g % 10) m = some fl → s.portUp (portOf s fl) = true →
        ∃ r : Frame, Handed (portOf s fl) r t ∧ r.type = 0x30 ∧ r.flow = 0 ∧ r.dst = m % 2048 ∧ r.seq = s.fab.capoSeq.toNat ∧
          r.addr = g + 2 ^ 12 * s.contribution g)) ∧
  (∀ (s : State) (g : Nat), s.controls = true → s.isShift g = true → s.reaches 99 (88 + g % 10) = true → g < 4096 →
    let next := s.fld (Reg.pwGrpShare g) 26 16
    let w := min 0xFFFF s.surplus
    Answers (.shiftOffer g) s (fun t =>
      if w = 0 ∨ s.flag (Reg.pwGrpShare g) 27 = false then t = s
      else t.fab.shiftSeq = s.fab.shiftSeq + 1 ∧ t.pw.given = s.pw.given ++ [⟨g, next, s.fab.shiftSeq, w⟩] ∧
        ∀ fl, s.fdest (88 + g % 10) next = some fl → s.portUp (portOf s fl) = true →
          ∃ r : Frame, Handed (portOf s fl) r t ∧ r.type = 0x31 ∧ r.flow = 0 ∧ r.dst = next ∧ r.seq = s.fab.shiftSeq.toNat ∧
            r.addr = g + 2 ^ 16 * w)) ∧
  (∀ (s : State) (p : Nat) (f : Frame), s.portUp p = true → frameGood f = true → f.hop f.hp = 63 → f.dst = s.moduleId →
    s.controls = true → s.reaches (88 + p / 4) 99 = true →
    let g := f.addr % 4096
    let seq := BitVec.ofNat 24 f.seq
    (f.type = 0x30 → s.isCapo g = true → (s.grpModules g).contains f.src = true →
      let mine (e : Nat × Nat × BitVec 24 × Nat) : Bool := decide (e.1 = g ∧ e.2.1 = f.src)
      Answers (.capo p f) s (fun t => t.mem = s.mem ∧ t.flights = s.flights ∧
        t.pw.capo = if (s.pw.capo.filter mine).all (fun e => seqNewer seq e.2.2.1) = true
          then s.pw.capo.filter (fun e => !mine e) ++ [(g, f.src, seq, f.addr / 4096 % 16)] else s.pw.capo)) ∧
    (f.type = 0x31 → s.isShift g = true →
      let mine (o : Offer) : Bool := decide (o.group = g ∧ o.sender = f.src)
      Answers (.shift p f) s (fun t => t.mem = s.mem ∧ t.flights = s.flights ∧
        t.pw.recv = if (s.pw.recv.filter mine).all (fun o => seqNewer seq o.seq) = true
          then s.pw.recv.filter (fun o => !mine o) ++ [⟨g, f.src, seq, f.addr / 65536 % 65536⟩] else s.pw.recv))) ∧
  (∀ (s : State) (g m : Nat) (q : BitVec 24), s.controls = true →
    Answers (.capoEntryExpiry g m) s (fun t => t.mem = s.mem ∧ t.flights = s.flights ∧
      t.pw.capo = s.pw.capo.filter (fun e => decide (¬ (e.1 = g ∧ e.2.1 = m)))) ∧
    Answers (.shiftLeaseExpiry g m q) s (fun t => { t with pw := s.pw } = s ∧
      t.pw.given = (if m = s.moduleId then s.pw.given.filter (fun o => decide (¬ (o.group = g ∧ o.seq = q))) else s.pw.given) ∧
      t.pw.recv = (if m = s.moduleId then s.pw.recv else s.pw.recv.map (fun o =>
        if o.group = g ∧ o.sender = m ∧ o.seq = q then { o with watts := 0 } else o))))

/-- R402, R413 and R414 with the registers of R420. -/
def Obligations.OperatingPointsFollowR402 : Prop :=
  ∀ (s : State) (die : Nat), die < 40 → s.dieState die = 2 →
    let st := Reg.pwDieStatus die
    let droop := Reg.pwDroop die
    let on (t : State) (c : OpChange) : Prop := t.mem = s.mem ∧ t.flights = s.flights ∧ RegsBut [st] s t ∧
      if s.pw.droops.contains die = true then die ∈ t.pw.deferred ∧ t.change die = some c
      else t.curMhz die = s.opMhz die (s.targetOp die) → t.volt die = s.opMv die (s.targetOp die) →
        t.fld st 3 0 = s.targetOp die ∧ t.flag st 17 = false ∧ t.change die = none
    (∀ c, s.change die = some c → s.pw.deferred.contains die = false →
      (c.slew = false → Answers (.opDividerStep die) s (fun t => on t c ∧ t.volt die = s.volt die ∧
        let f := s.curMhz die
        let g := s.opMhz die c.goal
        t.curMhz die = if f < g then min g (f + 50) else max g (f - 50))) ∧
      (c.slew = true → Answers (.voltageSlewDone die) s (fun t => on t c ∧ t.volt die = c.mv ∧ t.curMhz die = s.curMhz die))) ∧
    (s.pw.droops.contains die = false → Answers (.droopDetect die) s (fun t => RegsBut [st, droop] s t ∧ t.flag st 16 = true ∧
      t.fld droop 30 0 = min (s.fld droop 30 0 + 1) 0x7FFFFFFF ∧ t.flag droop 31 = s.flag droop 31 ∧ die ∈ t.pw.droops ∧
      t.pw.changes = s.pw.changes)) ∧
    (s.pw.droops.contains die = true →
      Answers (.droopEnd die) s (fun t => RegsBut [st] s t ∧ t.flag st 16 = false ∧ t.pw.droops.contains die = false ∧
        t.pw.deferred.contains die = false) ∧
      Answers (.longDroop die) s (fun t => RegsBut (droop :: (List.range 40).map Reg.pwDieStatus) s t ∧ t.flag droop 31 = true ∧
        t.fld st 11 8 = 0 ∧ die ∈ t.pw.longDroop))

/-- R406 to R408; the allowance is the one in force after the sample (R422 on PW_CAP, R411 on the effective cap). -/
def Obligations.LehrFollowsR406 : Prop :=
  let window (s : State) : Nat := min 60 (max 1 (s.fld Reg.pwCap 21 16))
  let allowance (s : State) (bins : List Nat) : Int :=
    let sum : Nat := (bins.take (1000 * window s - 1)).foldl (· + ·) 0
    let a := min (((1000000 * (s.effCap * window s) : Nat) : Int) - (sum : Int)) (37000000 - ((bins.headD 0 : Nat) : Int))
    if s.flag Reg.pwStatus 1 = true ∨ s.flag Reg.pwAlert 4 = true then min a 6000000 else a
  (∀ s : State, s.shiftGroups = [] → s.effCap = min 16000 (max 6000 (s.fld Reg.pwCap 15 0))) ∧
  (∀ s : State, s.controls = true → Answers .lehrBinStart s (fun t =>
    let w := window s
    t.pw.allow = allowance s t.pw.bins ∧
    t.pw.bins = (s.pw.eBin :: s.pw.bins).take 60000 ∧ t.pw.eBin = 0 ∧ t.pw.tLeft = 1000 ∧ t.pw.lowered = false ∧
        t.pw.longDroop = [] ∧
    t.flag Reg.pwStatus 2 = false ∧ t.fld Reg.pwInput 15 0 = min 0xFFFF (s.pw.eBin / 1000) ∧
    t.fld Reg.pwAvg 15 0 = min 0xFFFF ((((s.pw.eBin :: s.pw.bins).take (1000 * w)).foldl (· + ·) 0) / (1000000 * w)) ∧
    t.mem = s.mem ∧ t.flights = s.flights)) ∧
  (∀ (s : State) (r : PowerReading), s.controls = true → r.stageFault = false →
    (s.pw.outRange = 0 ∨ 5000 ≤ r.volt ∧ r.volt ≤ 5950) →
    ((r.watts :: s.pw.samples).take 200).foldl (· + ·) 0 < 3900000 →
    let e := s.pw.eBin + 10 * r.watts
    let left := s.pw.tLeft - 10
    Answers (.powerSample r) s (fun t =>
      let a := t.pw.allow
      a = allowance s s.pw.bins ∧ t.pw.eBin = e ∧ t.pw.tLeft = left ∧ t.fld Reg.pwInput 31 16 = r.volt % 65536 ∧ t.mem = s.mem ∧
          t.flights = s.flights ∧
      t.pw.bins = s.pw.bins ∧
      (a < ((e + r.watts * left : Nat) : Int) → (∀ d, t.lehrLimit d ≤ s.lehrLimit d) ∧
        ((∃ d, d < 40 ∧ s.dieState d = 2 ∧ s.lehrLimit d ≠ 0) →
          ∃ d, d < 40 ∧ s.dieState d = 2 ∧ t.lehrLimit d < s.lehrLimit d)) ∧
      (((100 * e + 105 * r.watts * left : Nat) : Int) < 100 * a → s.pw.lowered = false →
        ∀ d, s.lehrLimit d ≤ t.lehrLimit d ∧ t.lehrLimit d ≤ s.lehrLimit d + 1) ∧
      t.pw.floorOn = (s.pw.floorOn || decide (a ≤ ((e + 5400 * left : Nat) : Int))) ∧
      (t.pw.floorOn = true → ∀ d, d < 40 → s.dieState d = 2 → t.fld (Reg.pwDieStatus d) 11 8 = 0 ∧
          t.fld (Reg.pwDieStatus d) 15 12 = 4)))

/-- R415, R418 and R419, with the input limits of R458; that a report stands for 100 microseconds is R415's, and that the rails
go at the next bin is the model's choice, as is the 2 ms average of R418 being the mean of the last 200 samples (log entry 101,
DESIGN CHOICE). -/
def Obligations.SafeStateFollowsR418 : Prop :=
  (∀ s : State, s.controls = true →
    let safe (cause : Nat) (t : State) : Prop := t.flag Reg.pwStatus 0 = true ∧ t.fld Reg.pwSafeCause 7 0 = cause ∧
      t.flag Reg.pwPins 4 = true ∧ t.pins.powered = s.pins.powered ∧ t.pins.pwrGood = false ∧ t.pins.armed = false ∧
      t.sm.keys = none ∧ t.pw.changes = [] ∧ (∀ f ∈ t.flights, f.executing = false) ∧
      ((s.flights.map (·.fid)).Nodup → ∀ f ∈ s.flights, f.executing = true → ∀ g, t.flight f.fid = some g →
        g.res.status.toNat = stSafeState ∧ g.res.detail = 0)
    (s.firmwareRuns = true → s.fld Reg.pwInput 31 16 ≤ 5950 → 5000 ≤ s.fld Reg.pwInput 31 16 → s.sm.jop = none →
      s.sm.compact = false → s.regionFull = false → Answers .tdAliveLost s (fun t =>
        let starts := match s.standing 0x71 0 with
          | some r => rData r % 2 ^ 32
          | none => 0
        t.sm.journal = (s.appendRecord 0x70 52 false starts (4 + 2 ^ 8 * s.fld Reg.pwInput 31 16 + 2 ^ 32 * starts)).sm.journal)) ∧
    Answers .tdAliveLost s (safe 4) ∧ Answers (.dieClockLost 99) s (safe 4) ∧
    (∀ r : PowerReading,
      let out := s.pw.outRange ≠ 0 ∧ (r.volt < 5000 ∨ 5950 < r.volt)
      (out → Answers (.powerSample r) s (safe 1)) ∧ (¬ out → r.stageFault = true → Answers (.powerSample r) s (safe 3)) ∧
      (¬ out → r.stageFault = false → 199 ≤ s.pw.samples.length →
        3900000 ≤ ((r.watts :: s.pw.samples).take 200).foldl (· + ·) 0 → Answers (.powerSample r) s (safe 5))) ∧
    (∀ r : ThermalReading, thermalLimits r = true → Answers (.thermalSample r) s (safe 2))) ∧
  (∀ s : State, s.pins.powered = true → s.isSafe = true → Answers .lehrBinStart s (fun t =>
    t.pins.powered = false ∧ t.pins.armed = s.pins.armed ∧ t.flights = [] ∧ ∀ d, d < 40 ∨ 80 ≤ d ∧ d < 100 → t.dieState d = 0)) ∧
  (∀ (s : State) (r : ThermalReading), s.controls = true → thermalLimits r = false →
    Answers (.thermalSample r) s (fun t => t.mem = s.mem ∧ t.flights = s.flights ∧
      t.fld Reg.pwCoolant 15 8 = tempByte r.outlet ∧ t.fld Reg.pwCoolant 7 0 = tempByte r.inlet ∧
      (∀ d x, r.dies = [(d, x)] → ringBearing d = true → t.fld (Reg.dieTemp d) 7 0 = tempByte x) ∧
      (∀ n x, r.hbm = [(n, x)] → n < 40 → t.fld (Reg.hcTemp n) 7 0 = tempByte x) ∧
      ∀ d, d < 40 → t.thermalLimit d =
        if atLeast r.dies d 110 = true then 0
        else if atLeast r.dies d 100 = true ∨ atLeast r.hbm d 95 = true then s.thermalLimit d - 1
        else if atMost r.dies d 95 = true ∧ 9 ≤ byDie s.pw.hotTicks 0 d then min 15 (s.thermalLimit d + 1)
        else s.thermalLimit d))

/-- R417, with the requests of R67. The cycle between OFF and a latched ENABLING is log entry 27; that the pairs pass DISABLING
within the command is log entry 178. -/
def Obligations.DomainsFollowR417 : Prop :=
  ∀ (s : State) (die : Nat), ringBearing die = true → s.controls = true →
    let dom := Reg.pwDom die
    let refused : Prop := s.dieState die = 3 ∨ isCd die = false ∧ s.fnState (Reg.pwDom (attachedTo die)) ≠ 2
    let down (d : Nat) (t : State) : Prop :=
      (∀ k, k < ringsOn d → s.fnState (Reg.dcRingCtrl d k) = 2 → t.fnState (Reg.dcRingCtrl d k) = 3) ∧
      (isCd d = true → (∀ e, e < 6 → s.fnState (Reg.maCtrl d e) = 2 → t.fnState (Reg.maCtrl d e) = 3) ∧
        ∀ n, n < 4 → s.fnState (Reg.mvCtrl d n) = 2 → t.fnState (Reg.mvCtrl d n) = 3)
    Answers (.domainEnable die) s (fun t =>
      if s.fnState dom = 0 ∧ refused then Switched dom 0 false true s t
      else if s.fnState dom = 1 then refused ∨ Switched dom 1 (s.flag dom 3) false s t
      else Switched dom (if s.fnState dom = 0 then 1 else s.fnState dom)
        (s.flag dom 3 && s.fnState dom != 0 || s.fnState dom == 3) false s t) ∧
    (s.fnState dom = 1 → ∀ tests : List PairTest, Answers (.domainEnablingDone die tests) s (fun t => t.fnState dom = 2 ∧
        t.dieState die = 2 ∧ t.flights = s.flights ∧
      ∀ o, o < 0x8000000 → isCd die = true → t.memByte (0x0C0000000000 + 0x100000000 * die + o) = 0 ∧
        t.linePoisoned ((0x0C0000000000 + 0x100000000 * die + o) / 64) = false)) ∧
    Answers (.domainDisable die) s (fun t => t.mem = s.mem ∧
      t.fnState dom = (if s.fnState dom = 1 ∨ s.fnState dom = 2 then 3 else s.fnState dom) ∧
      t.flag dom 3 = (s.flag dom 3 && s.fnState dom != 3) ∧
      (s.fnState dom = 2 → (isCd die = true → ∀ d ∈ attachedDies die, s.fnState (Reg.pwDom d) = 2 → t.fnState (Reg.pwDom d) = 3) ∧
        (s.attachedOff die = true → down die t))) ∧
    (s.Wf → s.pending = [] → s.latched = [.domain die] → (∀ g ∈ s.fab.guards, s.guardDue g = false) → ∃ t, step s = .next t ∧
      t.flag dom 3 = false ∧ if s.dieState die = 3 ∨ isCd die = false ∧ s.fnState (Reg.pwDom (attachedTo die)) ≠ 2
        then t.fnState dom = 0 ∧ t.flag dom 2 = true else t.fnState dom = 1 ∧ t.flag dom 2 = false) ∧
    (s.fnState dom = 3 → s.domainIdle die = true → Answers (.domainDisablingDone die) s (fun t =>
      t.fnState dom = 0 ∧ t.flag dom 3 = s.flag dom 3 ∧ t.flag dom 2 = s.flag dom 2 ∧ t.dieState die = 0 ∧
      (∀ a, ¬ (isCd die = true ∧ 0x0C0000000000 + 0x100000000 * die ≤ a ∧ a < 0x0C0000000000 + 0x100000000 * die + 0x8000000) →
        t.byte a = s.byte a) ∧
      (∀ p ∈ pairsTo die, let c := Reg.cpCtrl p.1 p.2
        t.fnState c = 0 ∧ t.flag c 3 = (s.flag c 3 && s.fnState c != 3)) ∧
      if isCd die = false ∧ s.fnState (Reg.pwDom (attachedTo die)) = 3 ∧
          (∀ d ∈ attachedDies (attachedTo die), d ≠ die → s.fnState (Reg.pwDom d) = 0) then down (attachedTo die) t
      else (∀ f ∈ s.flights, f.issued = false) → s.fab.unacked = [] → t.flights = s.flights))

/-- R362, R365, R367 and R446 with the registers of R371. That a mode write of a port in LOST leaves it there is R367's. That
mode 3 is refused with err is the model's reading (log entry 81), as is that a rearm during the walk is ignored (log entry 83)
and the level of PERST# in mode 1 (log entry 167). -/
def Obligations.PortModesFollowR362 : Prop :=
  ∀ (s : State) (io : Nat), io < 10 → s.dieDown (88 + io) = false →
    let ctrl := Reg.hxPcieCtrl (88 + io)
    let st := Reg.hxPcieStat (88 + io)
    let irq := Reg.hxPcieIrq (88 + io)
    let xf := Reg.hxCxlXf (88 + io)
    let mode := s.fld ctrl 1 0
    let cxl := s.fld st 4 3
    let same (t : State) : Prop := t.mem = s.mem ∧ t.poison = s.poison ∧ t.flights = s.flights
    let down (t : State) : Prop := t.flag st 0 = false ∧ (s.flag st 0 = true → t.fld st 10 8 = 0 ∧ t.fld st 7 5 = 0)
    let told (t : State) : Prop := t.flag st 1 = true ∧
      t.irqQ = if s.flag irq 24 = true then s.irqQ ++ [(88 + io, BitVec.ofNat 24 (s.fld irq 23 0))] else s.irqQ
    let lost (t : State) : Prop := t.flag st 0 = false ∧ t.fld st 10 8 = 0 ∧ t.fld st 7 5 = 0 ∧ t.fld st 4 3 = 2 ∧
      t.flag st 1 = s.flag st 1 ∧ io ∈ t.pcie.walk ∧ io ∉ t.pcie.hdm ∧ t.pcie.ext = s.pcie.ext ∧ t.irqQ = s.irqQ
    let fell (t : State) : Prop := down t ∧ told t ∧ t.fld st 4 3 = cxl
    (∀ m : BitVec 2, (mode = 2 → cxl ≠ 2) → Answers (.pcieModeWrite io m) s (fun t =>
      let allowed : Prop := m.toNat < 2 ∨ m = 2 ∧ io < 2 ∧ s.fld (Reg.hxPcieCtrl (88 + (1 - io))) 1 0 ≠ 2
      RegsBut [ctrl, st] s t ∧ same t ∧ down t ∧ (s.flag st 0 = true → if mode = 2 then lost t else told t) ∧
      (if allowed then t.fld ctrl 1 0 = m.toNat ∧ t.flag ctrl 3 = s.flag ctrl 3 else t.fld ctrl 1 0 = 0 ∧ t.flag ctrl 3 = true) ∧
      t.out = s.out ++ [if allowed ∧ m = 1 then .portPins io (some true) true else if allowed ∧ m = 2 then .portPins io none false
        else .portPins io (some false) false] ++
        if allowed ∧ m ≠ 0 ∧ t.fld st 4 3 ≠ 2 then [.linkTraining io m.toNat] else [])) ∧
    (∀ m : BitVec 2, mode = 2 → cxl = 2 → s.flag st 0 = false → Answers (.pcieModeWrite io m) s (fun t =>
      let allowed : Prop := m.toNat < 2 ∨ m = 2 ∧ io < 2 ∧ s.fld (Reg.hxPcieCtrl (88 + (1 - io))) 1 0 ≠ 2
      OnlyRegs [ctrl] s { t with out := s.out } ∧ t.fld st 4 3 = 2 ∧
      (if allowed then t.fld ctrl 1 0 = m.toNat ∧ t.flag ctrl 3 = s.flag ctrl 3 else t.fld ctrl 1 0 = 0 ∧ t.flag ctrl 3 = true) ∧
      t.out = s.out ++ [if allowed ∧ m = 1 then .portPins io (some true) true else if allowed ∧ m = 2 then .portPins io none false
        else .portPins io (some false) false])) ∧
    (∀ w v : BitVec 3, mode ≠ 0 → cxl ≠ 2 → Answers (.pcieLinkUp io w v) s (fun t => OnlyRegs [st] s t ∧ t.flag st 0 = true ∧
      t.fld st 10 8 = w.toNat ∧ t.fld st 7 5 = v.toNat ∧ t.fld st 4 3 = cxl ∧ t.flag st 1 = s.flag st 1)) ∧
    (s.flag st 0 = true → mode ≠ 2 → Answers (.pcieLinkDown io) s (fun t => RegsBut [st] s t ∧ same t ∧ fell t)) ∧
    (mode = 2 → cxl ≠ 2 →
      let loss (t : State) : Prop := RegsBut [st] s t ∧ same t ∧ lost t
      (s.flag st 0 = true → Answers (.pcieLinkDown io) s loss) ∧ Answers (.perst io) s loss ∧ Answers (.cxlLoss io) s loss) ∧
    (mode = 2 → s.flag st 0 = true → cxl = 0 → Answers (.cxlDecoderCommit io) s (fun t => RegsBut [st] s t ∧ same t ∧
      t.fld st 4 3 = 1 ∧ t.flag st 0 = true ∧ io ∈ t.pcie.hdm)) ∧
    (io ∈ s.pcie.walk → Answers (.cxlWalkDone io) s (fun t =>
      let hit (l : Nat) : Prop := ∃ e ∈ s.pcie.ext, e.io = io ∧ e.line = l ∧ e.excl = true ∧ s.dieDown (ownerDie (64 * l)) = false
      RegsBut [st, xf] s t ∧ told t ∧ io ∉ t.pcie.walk ∧ (∀ e ∈ t.pcie.ext, e.io ≠ io) ∧ t.fld xf 22 0 = 0 ∧
      t.fld st 4 3 = cxl ∧ t.flog = s.flog ++ [logEntry (88 + io) .cxlLost io 0] ∧
      (∀ l, t.linePoisoned l = true ↔ hit l ∨ s.linePoisoned l = true) ∧
      ∀ a, ¬ hit (a / 64) → t.memByte a = s.memByte a)) ∧
    Answers (.cxlRearm io) s (fun t =>
      if cxl = 2 ∧ io ∉ s.pcie.walk then RegsBut [st] s t ∧ same t ∧ t.fld st 4 3 = 0 ∧
        t.out = if mode = 0 then s.out else s.out ++ [.linkTraining io mode]
      else t = s)

/-- R363 and R364 with the registers of R371; refused requests end as the PCIe row of R24 says. -/
def Obligations.DevicesFollowR363 : Prop :=
  ∀ (s : State) (io : Nat), io < 10 → s.dieDown (88 + io) = false →
    let die := 88 + io
    (∀ tag, s.npWaits io tag = true →
      let taken (t : State) : Prop := t.regs = s.regs ∧ t.mem = s.mem ∧ t.pcie.ext = s.pcie.ext ∧ ∀ n : NonPosted,
        n ∈ t.pcie.np ↔ n ∈ s.pcie.np ∧ ¬ (n.io = io ∧ n.tag = tag)
      (∀ data, Answers (.pcieCompletion io tag data) s (fun t => taken t ∧ t.flog = s.flog ∧
        t.out = s.out ++ [.outboundData io tag data])) ∧
      Answers (.pcieCompletionTimeout io tag) s (fun t => taken t ∧ t.out = s.out ++ [.pcieOnes io tag] ∧
        t.flog = s.flog ++ [logEntry die .pcieTimeout tag 0 (.device io) .read])) ∧
    (s.fld (Reg.hxPcieCtrl die) 1 0 = 1 → s.flag (Reg.hxPcieStat die) 0 = true →
      (∀ (req : Requester) (off : Nat) (acc : BusAccess), (accSize acc = 4 ∨ accSize acc = 8) → off % accSize acc = 0 →
        s.setupMeets req (accWrites acc) (Reg.setupBase die + off) = none →
        0xA0000 ≤ off ∧ off < 0xA8000 ∨ 0xC0000 ≤ off ∧ off < 0x100000 →
        let config := decide (off < 0xA8000)
        let k := (off - 0xC0000) / 0x10000
        let addr := if config = true then 0x100000 + (off - 0xA0000)
          else 2 ^ 32 * (s.reg (Reg.hxPcieWinHi die k)).toNat + 2 ^ 16 * s.fld (Reg.hxPcieWinLo die k) 31 16 + off % 0x10000
        Answers (.pcieOutboundAccess req io off acc) s (fun t => t.regs = s.regs ∧ t.mem = s.mem ∧
          t.out = s.out ++ [.pcieRequest io s.pcie.nextTag config addr acc] ∧
          t.pcie = { s.pcie with
            nextTag := s.pcie.nextTag + 1
            np := if config = true ∨ accWrites acc = false then s.pcie.np ++ [⟨io, s.pcie.nextTag, req⟩] else s.pcie.np })) ∧
      (∀ (a : Nat) (acc : BusAccess) (tph : Option (BitVec 16)), ¬ (accSize acc = 4 ∧ accWrites acc = true ∧ a = s.msiAddr io) →
        (s.inWindow io a (accSize acc) = false ∨ isSetup a = true → Answers (.pcieInboundRequest io a acc tph) s (fun t =>
          t = { s with flog := s.flog ++ [logEntry die .address a 0 (.device io) (busAcc acc)]
                       out := if accWrites acc = true then s.out else s.out ++ [.deviceUnsupported io] })) ∧
        (s.inWindow io a (accSize acc) = true → s.meetsBoth die a (some (.device io)) = none →
          s.extHolder (a / 64) (some (.device io)) = none →
          s.linePoisoned (a / 64) = false → a % 64 + accSize acc ≤ 64 → 0 < accSize acc →
          Answers (.pcieInboundRequest io a acc tph) s (fun t => t.regs = s.regs ∧
              (∀ l, t.linePoisoned l = true → s.linePoisoned l = true) ∧
            match acc with
            | .read n => BytesBut 0 0 s t ∧ t.out = s.out ++ [.deviceData io (s.bytes a n) false]
            | .write bs => BytesBut a bs.length s t ∧ t.bytes a bs.length = bs ∧ t.out = s.out))) ∧
      ∀ v : Word, Answers (.pcieMsiWrite io (s.msiAddr io) v) s (fun t =>
        if v.toNat < 2 ^ 19 then
          t = { s with irqQ := s.irqQ ++ [(die, BitVec.ofNat 24 (2 ^ 21 * wfld v 18 16 + 2 ^ 16 * wfld v 15 11 + wfld v 10 0))] }
        else t = { s with flog := s.flog ++ [logEntry die .msiDropped v.toNat 0 (.device io) .write] }))

/-- R365 and R366; a BISnp unanswered for 10 ms is a loss by R367. That a non-exclusive write drops the line from the external
filter is the model's reading (log entry 85). -/
def Obligations.EndpointFollowsR366 : Prop :=
  (∀ (s : State) (io : Nat), s.cxlUp io = true →
    (∀ (a : Nat) (acc : BusAccess) (excl : Bool), s.inCxlWindow a = true → s.meetsBoth (88 + io) a = none → s.bias a = 2 →
      s.initBusy a = false → s.flipping a = false → a % 64 + accSize acc ≤ 64 → 0 < accSize acc → s.linePoisoned (a / 64) = false →
      s.holdsExt io (a / 64) = true ∨ (s.pcie.ext.filter (fun e => decide (e.io = io))).length < 4194304 →
      Answers (.cxlMemRequest io a acc excl) s (fun t => (∀ l, t.linePoisoned l = s.linePoisoned l) ∧ t.flog = s.flog ∧
        (∀ e : ExtLine, e.io ≠ io ∨ e.line ≠ a / 64 → (e ∈ t.pcie.ext ↔ e ∈ s.pcie.ext)) ∧
        match acc with
        | .read n => BytesBut 0 0 s t ∧ t.out = s.out ++ [.cxlData io (s.bytes a n) false] ∧ ⟨io, a / 64, excl⟩ ∈ t.pcie.ext
        | .write bs => BytesBut a bs.length s t ∧ t.bytes a bs.length = bs ∧ t.out = s.out ∧ t.holdsExt io (a / 64) = excl)) ∧
    (∀ (a n : Nat) (excl : Bool), s.inCxlWindow a = true → populated a = false →
      Answers (.cxlMemRequest io a (.read n) excl) s (fun t => t.mem = s.mem ∧ t.regs = s.regs ∧ t.pcie = s.pcie ∧
        t.flog = s.flog ++ [logEntry (88 + io) .address a 0 (.device io) .read] ∧
        ∃ bs : List Byte, bs.length = n ∧ t.out = s.out ++ [.cxlData io bs true]) ∧
      ∀ bs, Answers (.cxlMemRequest io a (.write bs) excl) s (fun t =>
        t = { s with flog := s.flog ++ [logEntry (88 + io) .address a 0 (.device io) .write] })) ∧
    ∀ line, (s.holdsExt io line = true → (io, line) ∉ s.pcie.waits → s.extUp = true → io < 100 →
        Answers (.bisnp io line) s (fun t => t = { s with
          pcie := { s.pcie with waits := s.pcie.waits ++ [(io, line)] }
          out := s.out ++ [.bisnp io line] })) ∧
      ((io, line) ∈ s.pcie.waits →
        (∀ data : Option (List Byte), Answers (.bisnpResponse io line data) s (fun t => t.holdsExt io line = false ∧
          (io, line) ∉ t.pcie.waits ∧ t.out = s.out ∧ t.host = s.host ∧ match data with
            | some d => s.dieDown (ownerDie (64 * line)) = false → d.length = 64 →
                (∀ i, i < 64 → t.memByte (64 * line + i) = d.getD i 0) ∧ t.linePoisoned line = false ∧
                ∀ a, a / 64 ≠ line → t.memByte a = s.memByte a
            | none => t.mem = s.mem ∧ t.poison = s.poison)) ∧
        Answers (.bisnpTimeout io line) s (fun t => t.fld (Reg.hxPcieStat (88 + io)) 4 3 = 2 ∧ io ∈ t.pcie.walk ∧
          t.flag (Reg.hxPcieStat (88 + io)) 0 = false ∧ t.mem = s.mem))) ∧
  (∀ (s : State) (io off : Nat), io < 2 → off < 0x80000000 → off % 4 = 0 → s.dieDown (88 + io) = false →
    s.fld (Reg.hxPcieCtrl (88 + io)) 1 0 = 2 → s.flag (Reg.hxPcieStat (88 + io)) 0 = true →
    s.fld (Reg.hxPcieStat (88 + io)) 4 3 ≠ 2 →
    let a := 0x0E0000000000 + off
    (s.setupMeets (.extHost io) false a = none → outboundAt a = none → mailboxWordAt a = none →
      Answers (.cxlBar0Access io off (.read 4)) s (fun t =>
        t = { s with out := s.out ++ [.deviceData io (leBytes 4 (s.reg a).toNat) false] })) ∧
    (∀ d k, isSetup a = true → s.setupMeets (.extHost io) false a = some (d, k) →
      Answers (.cxlBar0Access io off (.read 4)) s (fun t => t = { s with
        flog := s.flog ++ [logEntry d k a 0 (.device io) .read]
        out := s.out ++ [.deviceUnsupported io] })) ∧
    (∀ d k, ∀ v : Word, isSetup a = true → s.setupMeets (.extHost io) true a = some (d, k) →
      Answers (.cxlBar0Access io off (.write (leBytes 4 v.toNat))) s (fun t =>
        t = { s with flog := s.flog ++ [logEntry d k a 0 (.device io) .write] })) ∧
    (∀ v : Word, s.setupMeets (.extHost io) true a = none →
      Answers (.cxlBar0Access io off (.write (leBytes 4 v.toNat))) s (fun t =>
        exec (.registerWrite (.extHost io) a v) s = .next t)))

/-- R375, R377 and R379-R381 with the registers of R395. Which transactions a failed pair answers with COURSE_LOST is open (log
entry 92); that eight replays of a flit are counted and the next failure retrains the pair is log entry 91; the cycle between
OFF and a latched ENABLING is log entry 27. R383 and R387 with the registers of R396 and R397; the alert is bit 0 of R453's
PW_ALERT. That a source which appears by a CP_REF write qualifies as its operand says, and one that the write leaves keeps its
state, is the model's reading (log entry 93), as is how a source is judged between two notices (log entry 154). -/
def Obligations.CoursesAndClocksFollowR379 : Prop :=
  (
  ∀ (s : State) (die pair : Nat), die < 40 ∧ pair < 16 ∨ 88 ≤ die ∧ die < 98 ∧ pair < 4 → s.dieDown die = false →
    let ctrl := Reg.cpCtrl die pair
    let st := Reg.cpStatus die pair
    let flt := Reg.cpFault die pair
    let state := s.fnState ctrl
    let link := s.fld st 11 8
    let same (t : State) : Prop := t.mem = s.mem ∧ t.poison = s.poison ∧ t.flights.map (·.fid) = s.flights.map (·.fid)
    let asm : BitVec 18 := BitVec.ofNat 18 (s.fld (Reg.cpRxAsm die pair) 17 0)
    let bad (m : BitVec 18) : Nat := ((List.range 18).filter (fun i => m.getLsbD i)).length
    let width (m : BitVec 18) (ck : Bool) : Nat := if ck = false ∨ 10 < bad m then 0 else if bad m ≤ 2 then 1 else 2
    let ends := pairEnds die pair
    let far (r : LaneResult) : BitVec 18 := match peerPair die pair with
      | some (d, q) => BitVec.ofNat 18 (s.fld (Reg.cpRxAsm d q) 17 0) ||| r.peerMap
      | none => r.peerMap
    let runs (r : LaneResult) : Prop := width (asm ||| r.newBad) r.ckOk ≠ 0 ∧ width (far r) r.peerOk ≠ 0
    let mapped (r : LaneResult) (t : State) : Prop :=
      t.reg (Reg.cpRxNew die pair) = (r.newBad &&& ~~~ asm).setWidth 32 ∧
          t.reg (Reg.cpRxBad die pair) = (asm ||| r.newBad).setWidth 32 ∧
      t.reg (Reg.cpTxBad die pair) = (far r).setWidth 32 ∧ t.fld st 4 0 = bad (asm ||| r.newBad) ∧
      t.fld st 19 16 = width (asm ||| r.newBad) r.ckOk ∧ t.fld st 23 20 = width (far r) r.peerOk ∧
      ∀ d q, peerPair die pair = some (d, q) → t.reg (Reg.cpRxBad d q) = (far r).setWidth 32 ∧
        t.reg (Reg.cpTxBad d q) = (asm ||| r.newBad).setWidth 32
    let failed (r : LaneResult) (t : State) (e : Nat × Nat) : Prop := t.fnState (Reg.cpCtrl e.1 e.2) = 0 ∧
      t.flag (Reg.cpCtrl e.1 e.2) 2 = true ∧ t.fld (Reg.cpStatus e.1 e.2) 11 8 = 5 ∧
      t.reg (Reg.cpFault e.1 e.2) = if r.ckOk = true ∧ r.peerOk = true then 2 else 1
    let regsOf (e : Nat × Nat) : List Nat := [Reg.cpCtrl e.1 e.2, Reg.cpStatus e.1 e.2, Reg.cpFault e.1 e.2, Reg.cpRxNew e.1 e.2,
      Reg.cpRxBad e.1 e.2, Reg.cpTxBad e.1 e.2]
    let retrained (t : State) : Prop := ∀ e ∈ ends, s.pairOn e.1 e.2 = true → t.fld (Reg.cpStatus e.1 e.2) 11 8 = 2
    (pairAttached die pair = true → Answers (.coursePairEnable die pair) s (fun t =>
      if state = 0 then RegsBut [ctrl, st, flt] s t ∧ { t with regs := s.regs } = s ∧ t.fnState ctrl = 1 ∧ t.flag ctrl 2 = false ∧
        t.flag ctrl 3 = false ∧ t.fld st 11 8 = 2 ∧ t.reg flt = 0
      else Switched ctrl state (s.flag ctrl 3 || state == 3) false s t)) ∧
    Answers (.coursePairDisable die pair) s (Switched ctrl (if state = 1 ∨ state = 2 then 3 else state)
      (s.flag ctrl 3 && state != 3) (s.flag ctrl 2) s) ∧
    (state = 1 →
      Answers (.courseTrainingTimeout die pair) s (fun t => same t ∧ RegsBut [ctrl, st, flt] s t ∧ t.fnState ctrl = 0 ∧
        t.flag ctrl 2 = true ∧ t.reg flt = 5 ∧ t.fld st 11 8 = 1 ∧ t.fld st 19 16 = 0 ∧ t.fld st 23 20 = 0) ∧
      (s.training die pair = true → ∀ r : LaneResult, Answers (.courseEnablingDone die pair r) s (fun t => same t ∧ mapped r t ∧
        (runs r → ∀ e ∈ ends, t.fnState (Reg.cpCtrl e.1 e.2) = 2 ∧ t.fld (Reg.cpStatus e.1 e.2) 11 8 = 3 ∧
          t.flag (Reg.cpCtrl e.1 e.2) 2 = s.flag (Reg.cpCtrl e.1 e.2) 2) ∧
        (¬ runs r → ∀ e ∈ ends, failed r t e) ∧ t.flights = s.flights ∧ RegsBut (ends.flatMap regsOf) s t)) ∧
      (s.training die pair = false → ∀ r : LaneResult, Answers (.courseEnablingDone die pair r) s (fun t => t = s))) ∧
    (state = 2 → link = 3 →
      (∀ flit, Answers (.courseFlitReplay die pair flit) s (fun t => same t ∧
        if s.replays die pair flit < 8 then RegsBut [Reg.cpRetry die pair] s t ∧
            t.replays die pair flit = s.replays die pair flit + 1 ∧
          (t.reg (Reg.cpRetry die pair)).toNat = min ((s.reg (Reg.cpRetry die pair)).toNat + 1) 0xFFFFFFFF
        else RegsBut (flt :: ends.map (fun e => Reg.cpStatus e.1 e.2)) s t ∧ retrained t ∧ t.reg flt = 3 ∧ t.courses = s.courses)) ∧
      Answers (.courseRetrain die pair) s (fun t => OnlyRegs (ends.map (fun e => Reg.cpStatus e.1 e.2)) s t ∧ retrained t)) ∧
    (state = 2 → link = 2 → ∀ r : LaneResult, Answers (.courseRetrainDone die pair r) s (fun t => same t ∧ mapped r t ∧
      (∀ e ∈ ends, s.pairOn e.1 e.2 = true →
        (runs r → t.fnState (Reg.cpCtrl e.1 e.2) = 2 ∧ t.fld (Reg.cpStatus e.1 e.2) 11 8 = 3 ∧ t.reg (Reg.cpFault e.1 e.2) = 0) ∧
        (¬ runs r → failed r t e)) ∧ (runs r → t.flights = s.flights ∧ RegsBut (ends.flatMap regsOf) s t) ∧
      ∀ flit, t.replays die pair flit = 0)) ∧
    (state = 3 → link ≠ 4 → Answers (.courseDisablingDone die pair) s (fun t => same t ∧
      t.fnState ctrl = 0 ∧ t.flag ctrl 3 = s.flag ctrl 3 ∧ t.fld st 19 16 = 0 ∧ t.fld st 23 20 = 0 ∧
      t.fld st 11 8 = 1 ∧ (∀ flit, t.replays die pair flit = 0) ∧
      ((∀ f ∈ s.flights, f.issued = false) → s.fab.unacked = [] → RegsBut [ctrl, st] s t ∧ t.flights = s.flights)))) ∧
  (
  (∀ (s : State) (die : Nat), die < 40 ∨ 88 ≤ die ∧ die < 98 → s.dieDown die = false →
    let r := Reg.cpRef die
    let use := s.fld r 17 16
    let choose (t : State) : Nat := if t.primOk die = true ∧ (use = 0 ∨ use = 1 ∧ t.secOk die = false) then 0
      else if t.secOk die = true then 1 else 2
    let on (v : Nat) (sw hold : Bool) (t : State) : Prop := RegsBut [r] s t ∧ t.mem = s.mem ∧ t.flights = s.flights ∧
      t.fld r 17 16 = v ∧ t.flag r 18 = (sw || (v != use && v != 2)) ∧ t.flag r 19 = (hold || (v != use && v == 2))
    let judged (p q mayP mayQ : Bool) (t : State) : Prop := (p = true → t.primOk die = true) ∧ (q = true → t.secOk die = true) ∧
      (t.primOk die = true → p = true ∨ use = 1 ∧ q = false ∧ mayP = true) ∧
      (t.secOk die = true → q = true ∨ use = 0 ∧ p = false ∧ mayQ = true)
    (use < 3 → ∀ secondary : Bool, let p := s.primOk die && secondary
      let q := s.secOk die && !secondary
      Answers (.refSourceLost die secondary) s (fun t => on (choose t) (s.flag r 18) (s.flag r 19) t ∧
        judged p q (s.flag r 4 && s.goodSource die (s.primPair die)) (s.flag r 12 && s.goodSource die (s.secPair die)) t ∧
        t.fld r 4 0 = s.fld r 4 0 ∧ t.fld r 12 8 = s.fld r 12 8)) ∧
    (∀ secondary : Bool, Answers (.refSourceLost die secondary true) s (fun t => on 2 (s.flag r 18) (s.flag r 19) t ∧
      t.primOk die = false ∧ t.secOk die = false ∧ t.fld r 4 0 = s.fld r 4 0 ∧ t.fld r 12 8 = s.fld r 12 8)) ∧
    (s.flag r 4 = true → s.goodSource die (s.primPair die) = true →
      Answers (.refPrimaryReturn die) s (fun t => on 0 (s.flag r 18) (s.flag r 19) t ∧ t.primOk die = true ∧
        t.secOk die = s.secOk die ∧ t.fld r 4 0 = s.fld r 4 0 ∧ t.fld r 12 8 = s.fld r 12 8)) ∧
    (use < 3 → ∀ (v : Word) (pq sq : Bool), let good := s.goodSource die (wfld v 11 8)
      let goodP := s.goodSource die (wfld v 3 0)
      let p := v.getLsbD 4 && (if wfld v 4 0 = s.fld r 4 0 then (s.refQual die).1 else pq) && goodP
      let q := v.getLsbD 12 && (if wfld v 12 8 = s.fld r 12 8 then (s.refQual die).2 else sq) && good
      Answers (.cpRefWrite die v pq sq) s (fun t => judged p q (v.getLsbD 4 && goodP) (v.getLsbD 12 && good) t ∧
        on (choose t) (s.flag r 18 && !v.getLsbD 18) (s.flag r 19 && !v.getLsbD 19) t ∧
        t.fld r 4 0 = wfld v 4 0 ∧ t.fld r 12 8 = wfld v 12 8))) ∧
  (∀ s : State, s.pins.powered = true →
    Answers (.refclkCheck true) s (fun t => { t with regs := s.regs, flog := s.flog } = s ∧
      RegsBut [Reg.tdRef, Reg.pwAlert, Reg.pwPins] s t ∧ t.fld Reg.tdRef 3 1 = 7 ∧ t.flag Reg.tdRef 0 = s.flag Reg.tdRef 0 ∧
      t.reg Reg.pwAlert = s.reg Reg.pwAlert ||| 1 ∧ t.flag Reg.pwPins 4 = true ∧
      t.flog = if s.flag Reg.tdRef 3 = true then s.flog else s.flog ++ [logEntry 99 .refclkBad 0 0]) ∧
    Answers (.refclkCheck false) s (FieldSet Reg.tdRef 3 3 0 s) ∧
    (s.flag Reg.tdRef 3 = false → Answers .refclkRelock s (fun t => OnlyRegs [Reg.tdRef] s t ∧ t.flag Reg.tdRef 0 = true ∧
      t.fld Reg.tdRef 3 2 = 0 ∧ t.flag Reg.tdRef 1 = s.flag Reg.tdRef 1))))

/-- R384 and R390-R394 with the registers of R397; the model's readings are that a lost die's registers read their reset values
at once (log entry 95), that TD_START writes the sources of every die in reset and enables both (log entry 94), that a
readmitted die's stack and working memory read 0 (log entry 140), and that the routes to a lost die go with DIE_LOSS_ANSWER (log
entry 177). -/
def Obligations.DiesFollowR392 : Prop :=
  (∀ (s : State) (die : Nat), ringBearing die = true →
    let td := Reg.tdDie die
    let lost (reason : Nat) (t : State) : Prop := t.dieState die = 3 ∧ t.fld td 7 4 = reason ∧ t.flag Reg.tdLoss 31 = true ∧
      (isCd die = true → ∀ d ∈ attachedDies die, s.losable d = true → t.dieState d = 3 ∧ t.fld (Reg.tdDie d) 7 4 = 3) ∧
      (∀ f ∈ t.flights, (f.parent = none → f.remote = none → ringDie f.ring ≠ die) ∧
        ((if hGang f.target = true then gangHome (hGangNo f.target) else hDie f.target) = die → f.executing = false ∧
          (f ∈ s.flights ∨ f.phase = .done ∧ f.res.status = BitVec.ofNat 8 stDieLost ∧ f.res.detail = BitVec.ofNat 32 die))) ∧
      (∀ c ∈ t.host.copies, agentDie c.agent ≠ die) ∧ (∃ l ∈ t.losses, l.die = die) ∧
      (∀ a, Reg.setupBase die ≤ a → a < Reg.setupBase (die + 1) → t.reg a = regReset a) ∧
      ∀ p ∈ pairsTo die, t.dieState p.1 ≠ 3 →
        let c := Reg.cpCtrl p.1 p.2
        if s.fnState c = 0 then t.fnState c = 0
        else if s.fnState c = 1 then t.fnState c = 0 ∧ t.flag c 2 = true ∧ t.reg (Reg.cpFault p.1 p.2) = 4
        else t.fnState c = 3 ∧ t.fld (Reg.cpStatus p.1 p.2) 11 8 = 4
    (s.dieState die = 2 ∨ s.dieState die = 4 → Answers (.dieClockLost die) s (lost 1)) ∧
    (s.dieState die = 1 ∨ s.dieState die = 2 ∨ s.dieState die = 4 → Answers (.dieReset die) s (lost 2)) ∧
    (∀ l, s.losses.find? (fun l => decide (l.die = die)) = some l → Answers (.dieLossAnswer die) s (fun t =>
      t.losses = s.losses.erase l ∧
      (∀ fid ∈ l.fids, ∀ f, s.flight fid = some f → f.issued = true → f.res.uses.contains die = true →
        f.res.status.toNat < stDieLost → ∃ g, t.flight fid = some g ∧ g.res.status = BitVec.ofNat 8 stDieLost ∧
          g.res.detail = BitVec.ofNat 32 die ∧
          (f.phase = .done → dClass f.desc / 16 ≠ 1 → dClass f.desc ≠ 0x40 → g.phase = .done)) ∧
      (∀ x v, x ∈ s.runningCds → v < 2 → t.flag (Reg.dcRoute x die v) 31 = false) ∧
      ∀ p ∈ pairsTo die, s.fnState (Reg.cpCtrl p.1 p.2) = 3 → s.fld (Reg.cpStatus p.1 p.2) 11 8 = 4 →
        t.fnState (Reg.cpCtrl p.1 p.2) = 0 ∧ t.flag (Reg.cpCtrl p.1 p.2) 3 = s.flag (Reg.cpCtrl p.1 p.2) 3)) ∧
    (s.dieState die = 3 → Answers (.dieReadmit die) s (FieldSet td 11 8 4 s)) ∧
    (s.dieState die = 4 →
      Answers (.dieReadmitDone die false) s (fun t => RegsBut (td :: (List.range 40).map Reg.pwDieStatus) s t ∧
        t.mem = s.mem ∧ t.flights = s.flights ∧ t.dieState die = 3 ∧ t.fld td 7 4 = 4) ∧
      Answers (.dieReadmitDone die true) s (fun t => t.dieState die = 2 ∧ t.fld td 7 4 = 0 ∧ t.flights = s.flights ∧
        (isCd die = true → ∀ a, if 0x2000000000 * die ≤ a ∧ a < 0x2000000000 * die + 0x1800000000
          then (a < 0x2000000000 * die + 0x17FFC00000 → t.memByte a = 0) ∧ t.linePoisoned (a / 64) = false
          else if 0x0C0000000000 + 0x100000000 * die ≤ a ∧ a < 0x0C0000000000 + 0x100000000 * die + 0x8000000
          then t.memByte a = 0 ∧ t.linePoisoned (a / 64) = false
          else t.memByte a = s.memByte a ∧ t.linePoisoned (a / 64) = s.linePoisoned (a / 64)) ∧
        (isIo die = true → t.mem = s.mem ∧ t.poison = s.poison)))) ∧
  (∀ s : State, Answers .tdStart s (fun t => t.mem = s.mem ∧ t.flights = s.flights ∧
    (∀ a, (∀ d, d < 98 → refDie d = true → s.dieState d = 1 → a ≠ Reg.cpRef d) → t.reg a = s.reg a) ∧
    ∀ d, d < 98 → refDie d = true → s.dieState d = 1 → let r := Reg.cpRef d
      t.flag r 4 = true ∧ t.flag r 12 = true ∧ t.fld r 3 0 = (if isIo d = true then 0 else 8) ∧
      t.fld r 11 8 = if isIo d = true then 1 else if d % 8 < 7 then 4 else 12))

/-- R448-R453 and R462, with the start window of R458. What MOD_RESET_N keeps beside these is the model's reading (log entries
103 and 104), and the forms of its interval and of the samples after PWR_EN falls are log entry 174. -/
def Obligations.PinsFollowR449 : Prop :=
  (∀ (s : State) (volt : Nat), s.pins.powered = false →
    (s.pins.armed = false → Answers (.pwrEnHigh volt) s (fun t => t = s)) ∧
    (s.pins.armed = true → Answers (.pwrEnHigh volt) s (fun t =>
      if 5100 ≤ volt ∧ volt ≤ 5900 then t.pins.powered = true ∧
        (∀ a, regAlias a ≠ Reg.pwPins → t.reg a = regReset (regAlias a)) ∧ t.flag Reg.pwPins 0 = true ∧
        t.flag Reg.pwPins 1 = s.flag Reg.pwPins 1 ∧ t.pins.rst = s.pins.rst ∧ t.flights = [] ∧
        t.sm.imgFlash = s.sm.imgFlash ∧ t.sm.journal = s.sm.journal ∧ t.sm.counter = s.sm.counter ∧ t.sm.keys = none
      else RegsBut [Reg.pwPins] s t ∧ t.flag Reg.pwPins 0 = true ∧
        { t with regs := s.regs } = { s with pins := { s.pins with startWait := true } }))) ∧
  (∀ (s : State) (volts : List Nat), Answers (.pwrEnLow volts) s (fun t => t.pins.armed = true ∧ t.pins.startWait = false ∧
    t.pins.rst = false ∧ t.flag Reg.pwPins 0 = false ∧ t.flag Reg.pwPins 1 = false ∧
    (s.pins.powered = false → RegsBut [Reg.pwPins] s t ∧ t.mem = s.mem ∧ t.sm = s.sm) ∧
    (let inside (v : Nat) : Prop := 5000 ≤ v ∧ v ≤ 5950
     let starts := match s.standing 0x71 0 with
       | some r => rData r % 2 ^ 32
       | none => 0
     s.sm.jop = none → s.sm.compact = false → s.sm.erase = false →
      (s.pw.causeDue = false → (∀ v ∈ volts, inside v) → t.sm.journal = s.sm.journal) ∧
      (s.controls = true → s.firmwareRuns = true → s.regionFull = false → ∀ a b c, volts = [a, b, c] → ¬ inside a → ¬ inside b →
        inside c → t.sm.journal = (s.appendRecord 0x70 52 false starts (1 + 2 ^ 8 * c + 2 ^ 32 * starts)).sm.journal)) ∧
    (s.pins.powered = true → t.pins.powered = false ∧ t.pins.pwrGood = false ∧ t.sm.keys = none ∧ t.flights = [] ∧
      (∀ d, ringBearing d = true → t.dieState d = 0) ∧ (s.sm.fwup = none → t.sm.imgFlash = s.sm.imgFlash) ∧
      ∀ v, s.sm.cwrite = some v → t.sm.counter = v ∨ t.sm.counter = s.sm.counter))) ∧
  (∀ s : State, s.flag Reg.pwPins 0 = true → s.isSafe = false →
    let level := s.flag Reg.pwPins 1
    let reset (t : State) : Prop := t.flag Reg.pwPins 1 = true ∧ t.pins.rst = true ∧ t.pins.rstInt = true ∧ t.pins.rstCol = false ∧
      t.flights = [] ∧ t.pins.pwrGood = false ∧ (∀ d, ringBearing d = true → t.dieState d = 1) ∧ t.fld Reg.smBoot 31 28 = 0 ∧
      t.reg Reg.tdRef = s.reg Reg.tdRef ∧ t.sm.keys = none ∧ t.mem = s.mem ∧ t.poison = s.poison ∧
      (s.sm.jop = none → s.sm.compact = false → s.sm.erase = false → t.sm.journal = s.sm.journal) ∧
      (s.sm.fwup = none → t.sm.imgFlash = s.sm.imgFlash) ∧ (s.sm.cwrite = none → t.sm.counter = s.sm.counter) ∧
      ∀ v, s.sm.cwrite = some v → t.sm.counter = v ∨ t.sm.counter = s.sm.counter
    let showing (on : Bool) (pins : PinsSt) (t : State) : Prop := RegsBut [Reg.pwPins] s t ∧ t.flag Reg.pwPins 1 = on ∧
      { t with regs := s.regs } = { s with pins := pins }
    (level = false →
      (s.pins.rstInt = false → s.pins.rst = false → s.pins.powered = true → Answers .modResetAssert s reset) ∧
      (s.pins.rstInt = false → s.pins.powered = false →
        Answers .modResetAssert s (showing true { s.pins with rst := true, rstInt := true, rstCol := false })) ∧
      (s.pins.rstInt = true → Answers .modResetAssert s (showing true { s.pins with rstCol := true }))) ∧
    (level = true →
      (s.pins.rstInt = false →
        Answers .modResetRelease s (showing false { s.pins with rst := false, rstInt := true, rstCol := false })) ∧
      (s.pins.rstInt = true → Answers .modResetRelease s (showing false { s.pins with rstCol := true }))) ∧
    (s.pins.rstInt = true →
      (s.pins.rstCol = false → Answers (.throttleIntervalEnd true) s (fun t => t = { s with pins := { s.pins with rstInt := false } })) ∧
      (s.pins.rstCol = true → level = true → s.pins.rst = false → s.pins.powered = true →
        Answers (.throttleIntervalEnd true) s reset) ∧
      (s.pins.rstCol = true → level = s.pins.rst ∨ level = false →
        Answers (.throttleIntervalEnd true) s (fun t => t = { s with pins := { s.pins with rst := level, rstCol := false } })))) ∧
  (∀ s : State, s.pins.powered = true →
    let pin (i : Nat) : Bool := s.flag Reg.pwPins i
    let held (bit : Word) (t : State) : Prop := RegsBut [Reg.pwAlert, Reg.pwPins] s t ∧ { t with regs := s.regs } = s ∧
      t.reg Reg.pwAlert = s.reg Reg.pwAlert ||| bit ∧ t.flag Reg.pwPins 4 = true
    let act (rsp now : Bool) (t : State) : Prop := RegsBut [Reg.pwPins, Reg.pwStatus] s t ∧ t.flag Reg.pwPins 3 = rsp ∧
      t.flag Reg.pwStatus 1 = rsp ∧
      { t with regs := s.regs } = { s with pins := { s.pins with thrInt := true, thrSeen := now, thrCol := false } }
    (s.pins.rst = true → Answers .modResetHeld s (held 0x20)) ∧
    (∀ level : Bool, Answers (.throttleNChange level) s (fun t => t.flag Reg.pwPins 2 = level ∧
      (s.pins.thrInt = false → act level level t) ∧
      (s.pins.thrInt = true → RegsBut [Reg.pwPins] s t ∧ t.flag Reg.pwPins 3 = pin 3 ∧
        { t with regs := s.regs } = { s with pins := { s.pins with thrSeen := s.pins.thrSeen || level, thrCol := true } }))) ∧
    (s.pins.thrInt = true → Answers (.throttleIntervalEnd false) s (fun t =>
      let level := pin 2 || s.pins.thrSeen
      if s.pins.thrCol = false ∧ level = pin 3 ∧ level = pin 2 then
        t = { s with pins := { s.pins with thrInt := false, thrSeen := false } }
      else act level (pin 2) t ∧ t.flag Reg.pwPins 2 = pin 2)) ∧
    (pin 3 = true → Answers .throttleStuck s (held 0x10))) ∧
  (∀ (s : State) (v : Word), s.dieState 99 = 2 → s.pins.rst = false → Answers (.pwAlertClear v) s (fun t =>
    OnlyRegs [Reg.pwAlert, Reg.pwPins] s t ∧ t.reg Reg.pwAlert = s.reg Reg.pwAlert &&& ~~~ (v &&& 0x37) ∧
    t.flag Reg.pwPins 4 = (t.reg Reg.pwAlert != 0 || s.flag Reg.pwStatus 0)))

/-- R424-R426, R429, R430 and R432. That the image is chosen before the counter is checked is the model's reading (log entry
107); which die a refused pair leaves unstarted is log entry 166 (DESIGN CHOICE). -/
def Obligations.StartFollowsR424 : Prop :=
  ∀ (s : State) (e : StartEnv), s.mayStart = true →
    let halted (reason : Nat) (t : State) : Prop := t.fld Reg.smBoot 31 28 = 15 ∧ t.fld Reg.smBoot 27 24 = reason ∧
      t.flag Reg.pwAlert 3 = true ∧ t.flag Reg.pwPins 4 = true ∧ t.pins.pwrGood = false ∧ ∀ d, t.dieState d = s.dieState d
    let cmd := Instr.moduleStart e
    (e.romOk = false → Answers cmd s (halted 1)) ∧
    (e.romOk = true → (∀ d ∈ e.failed, d ∈ startDies) → match s.winner with
    | none => Answers cmd s (halted 2)
    | some (r, gen) => match (s.startJournal r gen).identitySeed e.puf with
      | none => Answers cmd s (halted 3)
      | some seed => match s.chooseSlot with
        | none => Answers cmd s (halted 4)
        | some slot => Answers cmd s (fun t =>
            let b := 0x20000000 * slot
            let keys := deriveKeys seed (s.imgBytes b 512)
            if e.counterOk = false ∨ s.counterOpens (keys 0) = false then halted 5 t else
            let starts (d : Nat) : Prop := d ∈ startDies ∧ s.dieState d = 1 ∧ d ∉ e.failed ∧
              ∀ c ∈ e.failed, isCd c = true → d ∉ attachedDies c
            t.fld Reg.smBoot 31 28 = 5 ∧ t.fld Reg.smBoot 17 16 = slot ∧ t.pins.pwrGood = true ∧ t.flag Reg.smSetupAcl 31 = true ∧
            (t.reg Reg.smFwVer).toNat = s.imgNat (b + 8) 4 ∧ (t.reg Reg.smFwSvn).toNat = s.imgNat (b + 12) 4 ∧
            t.mbx = [] ∧ t.mbxBad = [] ∧ (∃ nonce, t.sm.keys = some (keys nonce)) ∧
            t.jtag.ir = (if s.jtag.ir = 0x00 ∨ s.jtag.ir = 0x03 then 0x02 else s.jtag.ir) ∧
            (∀ d ∈ e.failed, t.dieState d = 3 ∧ (isCd d = true → ∀ x ∈ attachedDies d, t.dieState x = 3)) ∧
            (∀ x ∈ e.pairs, x.result = none → (∀ y ∈ e.pairs, (y.die, y.pair) ∈ pairEnds x.die x.pair → y = x) →
              (x.die, x.pair) ∈ pairsOf x.die → starts x.die →
              (∀ d, pairPeer x.die x.pair = some d → starts d ∨ 98 ≤ d ∧ s.dieDown d = false) →
              (∀ y ∈ pairEnds x.die x.pair, s.fnState (Reg.cpCtrl y.1 y.2) = 0) →
              t.dieState (refusedDie x) = 3 ∧ t.flag Reg.smBoot 18 = true ∧ t.flag Reg.pwAlert 1 = true) ∧
            (∀ d, starts d → (∀ x ∈ e.pairs, refusedDie x ≠ d ∧ (isCd (refusedDie x) = true → d ∉ attachedDies (refusedDie x))) →
              t.dieState d = 2) ∧
            let pay := b + 512
            let len := s.imgNat (b + 16) 4
            let off := s.imgNat pay 8
            let n := s.imgNat (pay + 8) 8
            (∀ h, h < 8 → t.dieState (80 + h) = 2 → (∀ k, k < h → t.dieState (80 + k) ≠ 2) →
              64 ≤ len → off % 64 = 0 → 1 ≤ n → n ≤ 67108864 → off + n ≤ len → (∀ i, i < 48 → s.imgByte (pay + 16 + i) = 0) →
              let base := 0x080000000000 + 0x8000000000 * h
              t.host.harts = ((List.range 192).filter (fun i => t.dieState (80 + i / 24) == 2)).map (fun i =>
                ⟨i, true, BitVec.ofNat 64 (base + 0x100000), (List.range 32).map (fun k =>
                  if k = 10 then BitVec.ofNat 64 i else if k = 11 then BitVec.ofNat 64 base else 0)⟩) ∧
              ∀ i, i < n → s.linePoisoned ((base + 0x100000 + i) / 64) = false →
                t.memByte (base + 0x100000 + i) = s.imgByte (pay + off + i))))

/-- R430, R431 and R435 with the registers of R442. -/
def Obligations.CounterAndUpdateFollowR430 : Prop :=
  (∀ s : State, s.pins.powered = true → s.fld Reg.smBoot 31 28 = 5 →
    Answers .smRbCommit s (fun t =>
      if (s.reg Reg.smFwSvn).toNat ≤ s.sm.counter.toNat ∨ s.sm.cwrite ≠ none ∨ s.sm.keys.any s.counterOpens = false then t = s
      else RegsBut [Reg.smRbCtrl] s t ∧ t.flag Reg.smRbCtrl 1 = true ∧ t.sm = { s.sm with cwrite := some (s.reg Reg.smFwSvn) }) ∧
    (s.sm.fwup = none → s.fld Reg.smBoot 17 16 < 2 → Answers .fwupGo s (fun t =>
      let slot := 1 - s.fld Reg.smBoot 17 16
      OnlyRegs [Reg.smFwupCtrl] s { t with sm := s.sm } ∧ t.flag Reg.smFwupCtrl 1 = true ∧ t.fld Reg.smFwupCtrl 3 2 = 0 ∧
      (∃ u, t.sm.fwup = some u ∧ u.slot = slot) ∧
      ∀ a, t.imgByte a = if 0x20000000 * slot ≤ a ∧ a < 0x20000000 * slot + 512 then 0xFF else s.imgByte a))) ∧
  (∀ (s : State) (v : Word), s.sm.cwrite = some v →
      Answers .counterWriteDone s (fun t => RegsBut [Reg.smRbCount, Reg.smRbCtrl] s t ∧
    t.sm = { s.sm with counter := v, cwrite := none } ∧ t.reg Reg.smRbCount = v ∧ t.flag Reg.smRbCtrl 1 = false)) ∧
  (∀ (s : State) (u : FwUpdate) (eraseOk writeOk : Bool), s.sm.fwup = some u → u.image.length ≤ 0x20000000 →
    Answers (.fwupDone eraseOk writeOk) s (fun t =>
      let flashOk := eraseOk && writeOk
      let b := 0x20000000 * u.slot
      let written : State := { s with sm := { s.sm with
        imgFlash := storeRun flashErased (eraseRange s.sm.imgFlash b (b + 0x20000000)) b u.image } }
      let good : Prop := u.readable = true ∧ written.slotOk b = true ∧
        512 + written.imgNat (b + 16) 4 ≤ u.image.length
      OnlyRegs [Reg.smFwupCtrl] s { t with sm := s.sm } ∧ t.flag Reg.smFwupCtrl 1 = false ∧ t.sm.fwup = none ∧
      t.fld Reg.smFwupCtrl 3 2 = (if flashOk = false then 3 else if good then 1 else 2) ∧
      (∀ a, a < b ∨ b + 0x20000000 ≤ a → t.imgByte a = s.imgByte a) ∧
      ∀ i, i < 512 ∨ flashOk = true ∧ good → i < u.image.length →
        t.imgByte (b + i) = if flashOk = true ∧ good then u.image.getD i 0 else 0xFF)) ∧
  (∀ (s : State) (req : Requester) (v : Word), Answers (.setupAclWrite req v) s (fun t =>
    match s.setupMeets req true Reg.smSetupAcl with
    | some (d, k) => t = { s with flog := s.flog ++ [logEntry d k Reg.smSetupAcl 0 (.setup req) .write], out := s.out ++
        [.accessFault req true] }
    | none => if s.flag Reg.smSetupAcl 31 = true then t = s
      else OnlyRegs [Reg.smSetupAcl] s t ∧ t.reg Reg.smSetupAcl = v &&& 0x80000007))

/-- The model's own numbers (log entry 5), by which R63's reports and R49's completions find their descriptor. -/
def Obligations.NumbersStayDistinct : Prop :=
  let inv (s : State) : Prop := (s.flights.map (·.fid)).Nodup ∧ ∀ f ∈ s.flights, f.fid < s.nextFid
  inv State.reset ∧ ∀ s t : State, inv s → step s = .next t → inv t

/-- R8 and R9 with the register tables, R33 for a ring's set-up words, and R24 with R435 for a write that its requester may not
make. That a set-up word written outside OFF sets its error bit even with an equal value is log entry 24. -/
def Obligations.RegisterWritesFollowR8 : Prop :=
  ∀ (s : State) (req : Requester) (v : Word),
    (∀ a d k, (a % 4 ≠ 0 ∧ d = reqDie req ∧ k = .address ∨ a % 4 = 0 ∧ s.setupMeets req true a = some (d, k)) →
      Answers (.registerWrite req a v) s (fun t =>
        t = { s with flog := s.flog ++ [logEntry d k a 0 (.setup req) .write], out := s.out ++ [.accessFault req true] })) ∧
    (∀ c e p io h j, c < 40 → e < 6 → p < 16 → 88 ≤ io → io < 98 → 80 ≤ h → h < 88 → j < 2 →
      ∀ x ∈ ([(Reg.tdRef, 0, 2, 0xD), (Reg.tdLoss, 0, 0x80000000, 0x7F), (Reg.tdLossIrq, 0x1FFFFFF, 0, 0),
        (Reg.cpRxNew c p, 0, 0x3FFFF, 0), (Reg.cpRetry c p, 0xFFFFFFFF, 0, 0), (Reg.veStatus c e, 0, 1, 0x1100),
        (Reg.maErr c e, 0, 3, 0), (Reg.vdStatus io j, 0, 1, 0x100), (Reg.hxPcieStat io, 0, 2, 0x7F9),
        (Reg.hxPcieMsiLo io, 0xFFFFFFFC, 0, 0), (Reg.hxScrub h, 0xFFFF, 0, 0), (Reg.pwCap, 0x3FFFFF, 0, 0), (Reg.jrType, 0xFFFF, 0, 0),
        (Reg.jrKey, 0xFFFFFFFF, 0, 0), (Reg.mbIrq, 0x1FFFFFF, 0, 0), (Reg.smBoot, 0, 0, 0xFF0F0000)] : List (Nat × Word × Word × Word)),
        s.setupMeets req true x.1 = none → Answers (.registerWrite req x.1 v) s (fun t => OnlyRegs [x.1] s t ∧
          t.reg x.1 = (v &&& x.2.1) ||| (s.reg x.1 &&& ~~~v &&& x.2.2.1) ||| (s.reg x.1 &&& x.2.2.2))) ∧
    ∀ ring, ring < 4096 → ∀ x ∈ ([(0x00, 0xFFFFFFC0), (0x04, 0xFFFF), (0x08, 0x1F001F), (0x0C, 0xFFFFFFFF), (0x10, 0xFFFFFFE0),
        (0x14, 0xFFFF), (0x1C, 0xFFFFFF), (0x20, 0xFFFFFFFF), (0x24, 0xFFFFFFFF)] : List (Nat × Word)),
      let c := ringContext ring
      s.setupMeets req true (c + x.1) = none → Answers (.registerWrite req (c + x.1) v) s (fun t =>
        if s.fnState (c + 0x18) = 0 then OnlyRegs [c + x.1] s t ∧ t.reg (c + x.1) = v &&& x.2
        else FieldSet (c + 0x30) 0 0 1 s t)

/-- R437-R441 and R443. That a setting takes effect with its record, so that auto_commit may begin a counter write, is R430.
R440, with R437 for what stands and R439 for a valid region. -/
def Obligations.JournalFollowsR437 : Prop :=
  (
  ∀ s : State, s.Wf → 3 ≤ s.fld Reg.smBoot 31 28 → s.fld Reg.smBoot 31 28 ≤ 5 →
    let ended (err : Nat) (t : State) : Prop := t.sm.jop = none ∧ t.flag Reg.jrStatus 31 = false ∧ t.fld Reg.jrStatus 7 0 = err
    let begun (op : Nat) (t : State) : Prop := OnlyRegs [Reg.jrStatus] s { t with sm := s.sm } ∧ t.flag Reg.jrStatus 31 = true ∧
      ∃ o, t.sm = { s.sm with jop := some o } ∧ o.op = op ∧ o.type.toNat = s.fld Reg.jrType 15 0 ∧ o.key = s.reg Reg.jrKey ∧
        ∀ i, i < 12 → BitVec.ofNat 32 (o.data.toNat / 2 ^ (32 * i)) = s.reg (Reg.jrBuf (i + 3))
    let refused : Prop := s.fld Reg.jrType 15 0 ≠ 0x60 ∨ 255 < (s.reg Reg.jrKey).toNat
    (∀ x ∈ ([(.jrWrite, 1), (.jrRead, 2), (.jrDelete, 3)] : List (Instr × Nat)), Answers x.1 s (fun t =>
      if s.flag Reg.jrStatus 31 = true then t = s
      else (x.2 ≠ 2 ∧ refused → FieldSet Reg.jrStatus 7 0 2 s t) ∧ (¬ (x.2 ≠ 2 ∧ refused) → begun x.2 t))) ∧
    (∀ (o : JournalOp) (flashOk : Bool), s.sm.jop = some o → Answers (.jrOpDone flashOk) s (fun t =>
      (o.op = 2 → { t with regs := s.regs, sm := s.sm } = s ∧ t.sm = { s.sm with jop := none } ∧
        match s.standing o.type.toNat o.key.toNat with
        | none => ended 1 t ∧ RegsBut [Reg.jrStatus] s t
        | some r => ended (if flashOk = true then 0 else 3) t ∧ RegsBut (Reg.jrStatus :: (List.range 16).map Reg.jrBuf) s t ∧
          ∀ i, i < 16 → t.reg (Reg.jrBuf i) = if flashOk = true then BitVec.ofNat 32 (r.toNat / 2 ^ (32 * i)) else s.reg (Reg.jrBuf i)) ∧
      (o.op = 1 ∨ o.op = 3 → o.type = 0x60 →
        (s.sm.compact = true ∨ s.regionFull = true → t = s) ∧
        (s.sm.compact = false → s.regionFull = false → { t with regs := s.regs, sm := s.sm } = s ∧
          (flashOk = false → ended 3 t ∧ t.sm = { s.sm with jop := none } ∧ RegsBut [Reg.jrStatus] s t) ∧
          (flashOk = true → (s.reg Reg.jrSeq).toNat + 1 < 2 ^ 32 → (∀ p ∈ s.sm.journal, rSeq p.2 ≤ (s.reg Reg.jrSeq).toNat) →
            (∀ k, s.nextSlot s.jrRegion ≤ k → k < 524288 * (s.jrRegion + 1) → lookup jrErased s.sm.journal k = BitVec.allOnes 512) →
            ended 0 t ∧ RegsBut [Reg.jrStatus, Reg.jrSeq, Reg.smRbCtrl] s t ∧
                (t.reg Reg.jrSeq).toNat = (s.reg Reg.jrSeq).toNat + 1 ∧
            (∀ k, k ≠ s.nextSlot s.jrRegion → lookup jrErased t.sm.journal k = lookup jrErased s.sm.journal k) ∧
            (o.op = 3 → t.standing 0x60 o.key.toNat = none) ∧
            (o.op = 1 → ∃ r, t.standing 0x60 o.key.toNat = some r ∧ recOk r = true ∧ rData r = o.data.toNat) ∧
            ∀ type key, type ≠ 0x60 ∨ key ≠ o.key.toNat → t.standing type key = s.standing type key))))) ∧
    (s.sm.erase = true → Answers .culletEraseDone s (fun t =>
      let r := 1 - s.jrRegion
      OnlyRegs [Reg.jrStatus] s { t with sm := s.sm } ∧ t.flag Reg.jrStatus 29 = false ∧
      t.sm = { s.sm with journal := t.sm.journal, erase := false, compact := t.sm.compact } ∧
      (t.sm.compact = true ↔ s.sm.compact = true ∨ s.isSafe = false ∧ 393216 ≤ s.nextSlot s.jrRegion - 524288 * s.jrRegion) ∧
      ∀ k, lookup jrErased t.sm.journal k =
        if 524288 * r ≤ k ∧ k < 524288 * (r + 1) then BitVec.allOnes 512 else lookup jrErased s.sm.journal k))) ∧
  (
  ∀ s : State, s.Wf → 3 ≤ s.fld Reg.smBoot 31 28 → s.fld Reg.smBoot 31 28 ≤ 5 → s.sm.compact = true → s.sm.jwait = [] →
    let r := 1 - s.jrRegion
    s.regionSlots r = [] → s.allStanding.length + 2 ≤ 524288 → (s.reg Reg.jrSeq).toNat + s.allStanding.length + 2 < 2 ^ 32 →
    Answers .compactionDone s (fun t => OnlyRegs [Reg.jrStatus, Reg.jrGen, Reg.jrSeq] s { t with sm := s.sm } ∧
      t.jrRegion = r ∧ (t.reg Reg.jrGen).toNat = ((s.reg Reg.jrGen).toNat + 1) % 2 ^ 32 ∧
          t.regionGen r = some (t.reg Reg.jrGen).toNat ∧
      (t.reg Reg.jrSeq).toNat = (s.reg Reg.jrSeq).toNat + s.allStanding.length + 2 ∧
      t.flag Reg.jrStatus 30 = false ∧ t.flag Reg.jrStatus 29 = true ∧ t.sm.compact = false ∧ t.sm.erase = true ∧
      ∀ type key, (t.standing type key).map rData = (s.standing type key).map rData))

/-- R433 and R434 with note 2 of R424 and the unit of R454. The byte layout of the answers, and where the units are cut, are the
model's (log entries 21 and 173), not the spec's. -/
def Obligations.SpdmFollowsR434 : Prop :=
  ∀ (s : State) (p : SpdmPath) (ext busy : Bool) (slot off len ix : Nat) (nonce : BitVec 256),
    let failed (code : Nat) (t : State) : Prop := t = { s with out := s.out ++ [.spdmError p code] }
    let sent (d : List Byte) (t : State) : Prop := ∃ es : List (List Byte), es.flatten = d ∧ t.out = s.out ++ es.map (.spdm p) ∧
      (p ≠ .mctp → es = [d]) ∧ (p = .mctp → ∃ a rest, es = a :: rest ∧ a.length = min 63 d.length ∧
        ∀ x ∈ rest, 0 < x.length ∧ x.length ≤ 64)
    let said (d : List Byte) (t : State) : Prop := { t with out := s.out } = s ∧ sent d t
    let signed (body : List Byte → List Byte) (t : State) : Prop := { t with free := s.free, out := s.out } = s ∧
      ∃ (own : List Byte) (n : Nat), own.length = 32 ∧ sent (body own ++ (match s.sm.keys with
        | some k => ecdsaSign k.aliasD n (sha384 (Config.spdmMessage (body own)))
        | none => [])) t
    let ver : Prop := s.sm.spdmVer.contains p = true
    let alg : Prop := s.sm.spdmAlg.contains p = true
    let all : List Instr := [.getVersion p busy, .getCapabilities p busy, .negotiateAlgorithms p ext busy,
      .getCertificate p slot off len busy, .challenge p slot nonce busy, .getMeasurements p ix nonce busy]
    (s.spdmReach p = false → ∀ c ∈ all, Answers c s (fun t => t = s)) ∧
    (s.spdmReach p = true → s.fld Reg.smBoot 31 28 ≠ 5 → ∀ c ∈ all, Answers c s (failed 0x42)) ∧
    (s.spdmReach p = true → s.fld Reg.smBoot 31 28 = 5 → busy = true → (∃ q, q ≠ p ∧ s.spdmReach q = true) →
      ∀ c ∈ all, Answers c s (failed 0x03)) ∧
    (s.spdmReach p = true → s.fld Reg.smBoot 31 28 = 5 → busy = false ∨ (∀ q, q ≠ p → s.spdmReach q = false) →
      Answers (.getVersion p busy) s (fun t => { t with sm := s.sm, out := s.out } = s ∧ t.sm.spdmVer.contains p = true ∧
        t.sm.spdmAlg.contains p = false ∧ sent [0x10, 0x04, 0, 0, 0, 2, 0, 0x12, 0, 0x13] t) ∧
      (ver → Answers (.getCapabilities p busy) s (said [0x13, 0x61, 0, 0, 0, 0, 0, 0, 0x16, 0, 0, 0]) ∧
        Answers (.negotiateAlgorithms p false busy) s (failed 0x07) ∧
        Answers (.negotiateAlgorithms p true busy) s (fun t => { t with sm := s.sm, out := s.out } = s ∧
          t.sm.spdmAlg.contains p = true ∧ sent [0x13, 0x63, 0, 0, 2, 0, 0, 0, 0, 0, 0, 0, 0xA5, 0xE9, 1, 0] t)) ∧
      (¬ ver → ∀ c ∈ ([.getCapabilities p busy, .negotiateAlgorithms p ext busy] : List Instr), Answers c s (failed 0x04)) ∧
      (¬ alg → ∀ c ∈ ([.getCertificate p slot off len busy, .challenge p slot nonce busy, .getMeasurements p ix nonce busy] :
        List Instr), Answers c s (failed 0x04)) ∧
      (alg → (if slot < 2 then
          let part := ((s.certChain slot).drop off).take len
          Answers (.getCertificate p slot off len busy) s (said ([0x13, 0x02, BitVec.ofNat 8 slot, 0] ++ leBytes 2 part.length ++
            leBytes 2 ((s.certChain slot).length - off - part.length) ++ part)) ∧
          Answers (.challenge p slot nonce busy) s (signed (fun own => [0x13, 0x03, BitVec.ofNat 8 slot, 3] ++
            sha384 (s.certChain slot) ++ own ++ leBytes 32 nonce.toNat))
        else ∀ c ∈ ([.getCertificate p slot off len busy, .challenge p slot nonce busy] : List Instr), Answers c s (failed 0x01)) ∧
        (5 < ix → ix ≠ 255 → Answers (.getMeasurements p ix nonce busy) s (failed 0x01)) ∧
        (ix ≤ 5 ∨ ix = 255 → Answers (.getMeasurements p ix nonce busy) s (signed (fun own =>
          let ns := if ix = 0 then [] else if ix = 255 then [1, 2, 3, 4, 5] else [ix]
          let blocks := ns.flatMap (fun n => BitVec.ofNat 8 n :: leBytes 2 (s.measurement n).length ++ s.measurement n)
          [0x13, 0x60, if ix = 0 then 5 else 0, 0, BitVec.ofNat 8 ns.length] ++ leBytes 3 blocks.length ++ blocks ++ own ++
            leBytes 32 nonce.toNat)))))

/-- R454-R456. The answers to MCTP control requests beyond their header, and the parts of BCR that the spec leaves open, are the
model's (log entries 1 and 21), as is that SETDASA and ENTDAA take any address as sent (log entry 111). -/
def Obligations.ConnectorFollowsR454 : Prop :=
  ∀ s : State,
    let up (mctp : Bool) : Prop := s.dieState 99 = 2 ∧ s.pins.rst = false ∧ s.pins.powered = true ∧
      (mctp = true → s.sm.mctpServed = true)
    let active (regs : List Nat) (t : State) : Prop := RegsBut (Reg.mbStatus :: regs) s t ∧ t.flag Reg.mbStatus 0 = true ∧
      t.sm = { s.sm with i3c := some (s.sm.i3c.getD false) } ∧ t.mem = s.mem ∧ t.mbx = s.mbx
    let said (es : List OutEvent) (t : State) : Prop := t = { s with out := s.out ++ es }
    let named (m : Bool) (a : BitVec 7) (t : State) : Prop := { t with sm := s.sm, out := s.out } = s ∧
      { t.sm with dynAddr := s.sm.dynAddr } = s.sm ∧ (m, a) ∈ t.sm.dynAddr ∧
          ∀ x, x ∈ t.sm.dynAddr → x = (m, a) ∨ x ∈ s.sm.dynAddr ∧ x.1 ≠ m
    (s.dieState 99 = 2 → s.pins.rst = false →
      Answers .readStatusBlock s (fun t => active [] t ∧ t.out = s.out ++ [.i3cBytes
        ([Reg.smBoot, Reg.pwStatus, Reg.pwSafeCause, Reg.pwInput, Reg.pwCoolant, Reg.pwAlert].flatMap (fun a => leBytes 4 (s.reg a).toNat))]) ∧
      (∀ v n, Answers (.clearAlerts v n) s (fun t => active [Reg.pwAlert, Reg.pwPins] t ∧ t.out = s.out ∧
        if n < 4 then active [] t else t.reg Reg.pwAlert = s.reg Reg.pwAlert &&& ~~~ (v &&& 0x37) ∧
          t.flag Reg.pwPins 4 = (t.reg Reg.pwAlert != 0 || s.flag Reg.pwStatus 0))) ∧
      ∀ first n, Answers (.i3cUnknownCommand first n) s (fun t => active [] t ∧
        match first with
        | some b => t.flog = s.flog ++ [logEntry 99 .i3cIgnored b.toNat 0 .nobody (if n = 0 then .write else .read)] ∧
          t.out = if n = 0 then s.out else s.out ++ [.i3cBytes (List.replicate n 0xFF)]
        | none => t.flog = s.flog ∧ t.out = s.out ++ [.i3cBytes (List.replicate n 0xFF)])) ∧
    (s.winner = none → s.staticAddr false = 0x3A) ∧
    (∀ r gen, s.winner = some (r, gen) → let x := (s.putFld Reg.jrStatus 28 28 r).setting 4
      (x = none ∨ (∃ v, x = some v ∧ (v < 0x08 ∨ 0x74 < v)) → s.staticAddr false = 0x3A) ∧
      ∀ v, x = some v → 0x08 ≤ v → v ≤ 0x74 → i3cReserved v = false → i3cReserved (v + 1) = false → s.staticAddr false = v) ∧
    s.staticAddr true = s.staticAddr false + 1 ∧
    (∀ (m : Bool) (a : BitVec 7) (e : Byte) (dest : Option (BitVec 7)) (target : Option Bool),
      (¬ up m → ∀ c ∈ ([.setdasa m a dest, .entdaa m a, .getpid m, .getbcr m, .getdcr m, .getmxds m] : List Instr), Answers c s (said [.i3cNoAck])) ∧
      (¬ up false → Answers .rstdaa s (said [.i3cNoAck])) ∧
      (¬ up (target.getD false) → ∀ c ∈ ([.enec e target, .disec e target] : List Instr), Answers c s (said [.i3cNoAck])) ∧
      (up m →
        Answers (.getpid m) s (said [.i3cBytes (Config.i3cPid m)]) ∧ Answers (.getdcr m) s (said [.i3cBytes [Config.i3cDcr m]]) ∧
        Answers (.getmxds m) s (said [.i3cBytes (Config.i3cMxds m)]) ∧
        Answers (.getbcr m) s (fun t => ∃ b : Byte, b &&& 0xE6 = 0 ∧ said [.i3cBytes [b]] t) ∧
        ((∀ x ∈ s.sm.dynAddr, x.1 ≠ m) →
          (dest = none ∨ (∃ d, dest = some d ∧ d.toNat = s.staticAddr m) →
            Answers (.setdasa m a dest) s (fun t => named m a t ∧ t.out = s.out ++ [.i3cAck])) ∧
          ((∃ d, dest = some d ∧ d.toNat ≠ s.staticAddr m) → Answers (.setdasa m a dest) s (said [.i3cNoAck])) ∧
          Answers (.entdaa m a) s (fun t => named m a t ∧
            t.out = s.out ++ [.i3cBytes (Config.i3cPid m ++ [bcr m, Config.i3cDcr m]), .i3cAck])) ∧
        ((∃ x ∈ s.sm.dynAddr, x.1 = m) → ∀ c ∈ ([.setdasa m a dest, .entdaa m a] : List Instr), Answers c s (said [.i3cNoAck]))) ∧
      (up false → Answers .rstdaa s (fun t => t = { s with sm := { s.sm with dynAddr := [] }, out := s.out ++ [.i3cAck] })) ∧
      (up (target.getD false) → ∀ on : Bool, Answers (if on = true then .enec e target else .disec e target) s (fun t =>
        { t with sm := s.sm, out := s.out } = s ∧ { t.sm with i3cEvents := s.sm.i3cEvents } = s.sm ∧ t.out = s.out ++ [.i3cAck] ∧
        ∀ m, m ∈ t.sm.i3cEvents ↔ if e.getLsbD 0 = true ∧ s.targetUp m = true ∧ (target = none ∨ target = some m) then on = true
          else m ∈ s.sm.i3cEvents))) ∧
    (∀ d : List Byte, s.sm.mctpServed = true → s.pins.rst = false → Answers (.mctpControlMessage d) s (fun t =>
      { t with sm := s.sm, out := s.out } = s ∧ t.sm = { s.sm with mctpEid := t.sm.mctpEid } ∧
      (∃ b, t.out = s.out ++ [.mctp ([d.getD 0 0 &&& 0x1F, d.getD 1 0] ++ b)]) ∧
      t.sm.mctpEid = if d.getD 1 0 = 1 ∧ d.getD 3 0 ≠ 0 ∧ d.getD 3 0 ≠ 0xFF then d.getD 3 0 else s.sm.mctpEid)) ∧
    (s.pins.powered = true →
      let tap (ir : Byte) (t : State) : Prop := { t with jtag := s.jtag, out := s.out, free := s.free } = s ∧ t.jtag.ir = ir
      let pinCells (v : BitVec 13) : Prop := v.getLsbD 0 = s.flag Reg.pwPins 0 ∧ v.getLsbD 1 = !s.flag Reg.pwPins 1 ∧
        v.getLsbD 2 = !s.flag Reg.pwPins 2 ∧ v.getLsbD 3 = s.pins.pwrGood ∧ v.getLsbD 5 = !s.flag Reg.pwPins 4
      let sampled (ir : Byte) (cells : BitVec 13) (t : State) : Prop := tap ir t ∧ t.jtag.upd = cells ∧ pinCells t.jtag.bsr ∧
        t.out = s.out ++ [.jtagData t.jtag.bsr.toNat 13]
      let drives : Prop := s.pins.pwrGood = false ∧ (s.fld Reg.smBoot 31 28 ≤ 2 ∨ s.fld Reg.smBoot 31 28 = 15)
      Answers .trstN s (fun t => tap 0x01 t ∧ t.out = s.out) ∧
      Answers .idcode s (fun t => tap 0x01 t ∧ t.out = s.out ++ [.jtagData 0x3A5C1C4B 32]) ∧
      (∀ code, Answers (.bypass code) s (fun t => tap code t ∧ t.out = s.out ++ [.jtagData 0 1])) ∧
      (∀ cells, Answers (.samplePreload cells) s (sampled 0x02 cells) ∧
        (drives → Answers (.extest cells) s (fun t => tap 0x00 t ∧ t.jtag.upd = cells ∧ pinCells t.jtag.bsr ∧
          t.out = s.out ++ [.jtagData t.jtag.bsr.toNat 13, .pins ((List.range 5).map (fun i =>
            if cells.getLsbD (4 + 2 * i) = true then some (cells.getLsbD (3 + 2 * i)) else none))])) ∧
                (¬ drives → Answers (.extest cells) s (sampled 0x02 cells))) ∧
      (drives → Answers .highz s (fun t => tap 0x03 t ∧
        t.out = s.out ++ [.jtagData 0 1, .pins (List.replicate 5 none)])) ∧
      (¬ drives → Answers .highz s (sampled 0x02 s.jtag.upd)))

/-- R77 to R83 on single values, R103 on FP32 arithmetic, and R121 with R62 on the result of one unit, its status by R82. -/
def Obligations.NumberFormatsFollowR77 : Prop :=
  let value (p : Nat) (qmin : Int) (c : Nat) : ℚ := if c / 2 ^ (p - 1) = 0 then (c : ℚ) * 2 ^ qmin
    else ((c % 2 ^ (p - 1) + 2 ^ (p - 1) : Nat) : ℚ) * 2 ^ (qmin + (c / 2 ^ (p - 1) : Nat) - 1)
  let nearest (p : Nat) (qmin : Int) (top : Nat) (y : ℚ) (c : Nat) : Prop := c ≤ top ∧ ∀ d, d ≤ top → d ≠ c →
    |value p qmin c - y| < |value p qmin d - y| ∨ |value p qmin c - y| = |value p qmin d - y| ∧ c % 2 = 0
  let limit32 : ℚ := 2 ^ 128 - 2 ^ 103
  let isRead (x : Read) (neg : Bool) (y : ℚ) : Prop := x.2 = 0 ∧ ∃ m e, fpVal x.1 = .fin neg m e ∧ (m : ℚ) * 2 ^ e = y
  let rounded (r : ℚ) (w : Word) : Prop := (limit32 ≤ |r| → w = fpInf (decide (r < 0))) ∧
    (|r| < limit32 → ∃ (neg : Bool) (c : Nat), w.toNat = (if neg then 2 ^ 31 else 0) + c ∧ nearest 24 (-149) 0x7F7FFFFF |r| c ∧
      (r ≠ 0 → neg = decide (r < 0)) ∧ (r = 0 → c = 0))
  let num (neg : Bool) (m : Nat) (e : Int) : ℚ := (if neg then -1 else 1) * ((m : ℚ) * 2 ^ e)
  (∀ x ∈ ([(.fp32, 24, -149, 31, 0x7F7FFFFF, some 0x7F800000, 0x7FC00000, limit32, true),
      (.bf16, 8, -133, 15, 0x7F7F, some 0x7F80, 0x7FC0, 2 ^ 128 - 2 ^ 119, true), (.fp16, 11, -24, 15, 0x7BFF, some 0x7C00, 0x7E00, 65520, true),
      (.e5m2, 3, -16, 7, 0x7B, some 0x7C, 0x7F, 61440, true), (.e4m3, 4, -9, 7, 0x7E, none, 0x7F, 464, false)] :
        List (Fmt × Nat × Int × Nat × Nat × Option Nat × Nat × ℚ × Bool)),
    let (f, p, qmin, sign, top, infinity, nan, limit, tie) := x
    (∀ (neg : Bool) (c : Nat), c < 2 ^ sign → let code := (if neg then 2 ^ sign else 0) + c
      (c ≤ top → isRead (readElem f 0 code) neg (value p qmin c)) ∧
      (infinity = some c → readElem f 0 code = (fpInf neg, 0)) ∧
      (top < c → infinity ≠ some c → readElem f 0 code = (0x7FC00000, 0))) ∧
    ∀ v : Int, writeElem f v 0x7FC00000 = (nan, 0) ∧
      (∀ neg : Bool, writeElem f v (fpInf neg) = ((if neg then 2 ^ sign else 0) + infinity.getD top, if infinity = none then 1 else 0)) ∧
      ∀ (w : Word) (neg : Bool) (m : Nat) (e : Int), fpVal w = .fin neg m e → let y : ℚ := (m : ℚ) * 2 ^ (e + v)
        let sat : Prop := limit < y ∨ tie = true ∧ y = limit
        (sat → writeElem f v w = ((if neg then 2 ^ sign else 0) + top, 1)) ∧
        (¬ sat → ∃ c, nearest p qmin top y c ∧
          writeElem f v w = (if c = 0 then 0 else (if neg then 2 ^ sign else 0) + c, 0))) ∧
  (∀ c m : Nat, c < 255 → m < 16 → let y : ℚ := value 2 (-1) (m % 8) * 2 ^ ((c : Int) - 127)
    (y < 2 ^ 128 → isRead (readMx c m) (decide (8 ≤ m)) y) ∧
    (2 ^ 128 ≤ y → readMx c m = (if 8 ≤ m then 0xFF7FFFFF else 0x7F7FFFFF, 1)) ∧ readMx 255 m = (0x7FC00000, 0)) ∧
  (∀ (a b c : Word) (an bn cn : Bool) (am bm cm : Nat) (ae be ce : Int),
    fpVal a = .fin an am ae → fpVal b = .fin bn bm be → fpVal c = .fin cn cm ce →
    rounded (num an am ae * num bn bm be + num cn cm ce) (fpFma a b c) ∧ rounded (num an am ae + num bn bm be) (fpAdd a b) ∧
    rounded (num an am ae * num bn bm be) (fpMul a b)) ∧
  ∀ (s : State) (f : Flight), Started 0x12 f s → Served (s.elementwiseRun f) →
    let die := hDie f.target
    let share := shardPart (dfld f.desc 439 416) (dShardN f.desc) (dShardIx f.desc)
    let beta := dbit f.desc 442
    let size (o : Opnd) : Nat := o.fmt.bits / 8
    let addr (o : Opnd) (e : Nat) : Option Nat := match o.w.at s.moduleId die (e * size o) with
      | .here a => some a
      | _ => none
    let elem (o : Opnd) (e : Nat) : Read := readElem o.fmt o.v (leNat (s.bytes ((addr o e).getD 0) (size o)))
    let x := f.opnd 128 320
    let y := f.opnd 192 352
    let z := f.opnd 256 384
    let result (e : Nat) : Word :=
      let add := if beta = true then (elem z e).1 else 0
      if (dFmt f.desc 320).code = 0 then fpAdd add (fpMul (elem x e).1 (elem y e).1) else fpFma (elem x e).1 (elem y e).1 add
    let sats (e : Nat) : Nat := (elem x e).2 + (elem y e).2 + (if beta = true then (elem z e).2 else 0) + (writeElem z.fmt z.v (result e)).2
    let total := ((List.range (share.2 - share.1)).map (fun i => sats (share.1 + i))).sum
    (∀ o ∈ [x, y, z], o.fmt ≠ .mxfp4 ∧ o.fmt ≠ .g64 ∧ ∀ e, share.1 ≤ e → e < share.2 → (addr o e).isSome = true) →
    (∀ e, share.1 ≤ e → e < share.2 → ∀ i, i < size z → s.linePoisoned (((addr z e).getD 0 + i) / 64) = false) →
    share.1 < share.2 → Answers (.elementwiseFma f.fid) s (fun t =>
      (∀ e, share.1 ≤ e → e < share.2 →
        t.bytes ((addr z e).getD 0) (size z) = leBytes (size z) (writeElem z.fmt z.v (result e)).1) ∧
      ∃ g, t.flight f.fid = some g ∧ g.phase = .done ∧ g.res.sat = total ∧
        g.res.status.toNat = (if total = 0 then 0x00 else 0x01) ∧ g.res.detail = 0)
end

