-- ==== Sys2Proof/Laws/Cores.lean ====
section
/-! SUPPORT. What filling and dropping a line of a core's private caches can do, and the order of a partition's beats. -/

namespace Sys2Proof.Machine

/-- Only the lines of the cores change. -/
theorem State.dropCores_same (s : State) (agent line : Nat) :
    { s.dropCores agent line with host := { (s.dropCores agent line).host with cores := s.host.cores } } = s := rfl

theorem State.mem_dropCores (s : State) (agent line : Nat) (c : CoreLine) :
    c ∈ (s.dropCores agent line).host.cores ↔ c ∈ s.host.cores ∧ ¬ (c.line = line ∧ c.hart / 24 = agent ∧ c.cache ≠ .l1i) := by
  simp only [State.dropCores, List.mem_filter, decide_eq_true_eq]

/-- Only the lines of the cores and the count of free values change. -/
theorem State.coreFill_same (s : State) (k : CoreCache) (hart line : Nat) :
    { s.coreFill k hart line with
      free := s.free, host := { (s.coreFill k hart line).host with cores := s.host.cores } } = s := by
  simp only [State.coreFill]
  split <;> rfl

/-- The cache holds the line then. -/
theorem State.coreFill_has (s : State) (k : CoreCache) (hart line : Nat) :
    ∃ c ∈ (s.coreFill k hart line).host.cores, c.cache = k ∧ c.hart = hart ∧ c.line = line :=
  ⟨⟨k, hart, line, if k = .l1i then s.bytes (64 * line) 64 else []⟩, by simp [State.coreFill], rfl, rfl, rfl⟩

/-- The lines of other caches stay. -/
theorem State.coreFill_keeps (s : State) (k : CoreCache) (hart line : Nat) (c : CoreLine) (h : c ∈ s.host.cores)
    (o : ¬ (c.cache = k ∧ c.hart = hart)) : c ∈ (s.coreFill k hart line).host.cores := by
  have r : c ∈ s.host.cores.filter (fun c => decide (¬ (c.cache = k ∧ c.hart = hart ∧ c.line = line))) :=
    List.mem_filter.2 ⟨h, decide_eq_true (fun x => o ⟨x.1, x.2.1⟩)⟩
  simp only [State.coreFill]
  refine List.mem_append_left _ ?_
  split
  · exact r
  · simp only
    split
    · next x e =>
      have m := List.mem_of_getElem? e
      refine (List.mem_erase_of_ne ?_).2 r
      rintro rfl
      exact o (by simpa using (List.mem_filter.1 m).2)
    · exact r

/-- A pass begins after its tile has begun to load, and after the pass before has taken its vectors (R105). -/
theorem nextBeats_order (w s f m : Nat) :
    s + 256 ≤ (nextBeats w s f m).1 ∧ (nextBeats w s f m).1 < (nextBeats w s f m).2 ∧ f + m ≤ (nextBeats w s f m).2 := by
  simp only [nextBeats]
  omega

theorem length_passBeats (w : Nat) (ms : List Nat) : ∀ s f, (passBeats w s f ms).length = ms.length := by
  induction ms with
  | nil => exact fun _ _ => rfl
  | cons m ms ih => exact fun s f => congrArg (· + 1) (ih _ _)

end Sys2Proof.Machine
end

