-- ==== Sys2Proof/Laws/Maps.lean ====
section
/-! SUPPORT. What the sparse maps read after a store, and that a store keeps their canonical form. -/

namespace Sys2Proof.Machine

section
variable {α : Type}

theorem lookup_append_left (d : Nat → α) (m n : List (Nat × α)) (k : Nat) (h : ∀ p ∈ m, p.1 ≠ k) :
    lookup d (m ++ n) k = lookup d n k := by
  induction m with
  | nil => rfl
  | cons p m ih =>
    have hp : p.1 ≠ k := h p (by simp)
    simp only [List.cons_append, lookup, if_neg hp]
    exact ih (fun q hq => h q (by simp [hq]))

theorem lookup_eq_default (d : Nat → α) (m : List (Nat × α)) (k : Nat) (h : ∀ p ∈ m, p.1 ≠ k) :
    lookup d m k = d k := by
  have := lookup_append_left d m [] k h
  simpa [lookup] using this

theorem lookup_append_right (d : Nat → α) (m n : List (Nat × α)) (k : Nat) (h : ∀ p ∈ n, p.1 ≠ k) :
    lookup d (m ++ n) k = lookup d m k := by
  induction m with
  | nil => simpa [lookup] using lookup_eq_default d n k h
  | cons p m ih => simp only [List.cons_append, lookup, ih]

/-- A filter by key leaves what is read at a kept key. -/
theorem lookup_filter (d : Nat → α) (m : List (Nat × α)) (k : Nat) (f : Nat → Bool) (h : f k = true) :
    lookup d (m.filter (fun p => f p.1)) k = lookup d m k := by
  induction m with
  | nil => rfl
  | cons p m ih =>
    by_cases hp : p.1 = k
    · subst hp; simp [h, lookup]
    · by_cases hf : f p.1 = true
      · simp [hf, lookup, hp, ih]
      · simp [hf, lookup, hp, ih]

variable [DecidableEq α]

theorem runCells_mem (d : Nat → α) (k : Nat) (vs : List α) :
    ∀ p ∈ runCells d k vs, k ≤ p.1 ∧ p.1 < k + vs.length ∧ p.2 ≠ d p.1 := by
  induction vs generalizing k with
  | nil => simp [runCells]
  | cons v vs ih =>
    intro p hp
    simp only [runCells] at hp
    split at hp
    · obtain ⟨a, b, c⟩ := ih (k + 1) p hp
      exact ⟨by omega, by simp only [List.length_cons]; omega, c⟩
    · rename_i hv
      rcases List.mem_cons.1 hp with rfl | hp
      · simpa using hv
      · obtain ⟨a, b, c⟩ := ih (k + 1) p hp
        exact ⟨by omega, by simp only [List.length_cons]; omega, c⟩

theorem runCells_pairwise (d : Nat → α) (k : Nat) (vs : List α) :
    (runCells d k vs).Pairwise (fun p q => p.1 < q.1) := by
  induction vs generalizing k with
  | nil => simp [runCells]
  | cons v vs ih =>
    simp only [runCells]
    split
    · exact ih (k + 1)
    · refine List.pairwise_cons.2 ⟨fun q hq => ?_, ih (k + 1)⟩
      have := runCells_mem d (k + 1) vs q hq
      simp only; omega

theorem lookup_runCells (d : Nat → α) (k : Nat) (vs : List α) (i : Nat) (h : i < vs.length) :
    lookup d (runCells d k vs) (k + i) = vs[i] := by
  induction vs generalizing k i with
  | nil => simp at h
  | cons v vs ih =>
    cases i with
    | zero =>
      simp only [runCells, Nat.add_zero, List.getElem_cons_zero]
      split
      · rename_i hv
        rw [hv]
        refine lookup_eq_default d _ k (fun p hp => ?_)
        have := runCells_mem d (k + 1) vs p hp
        omega
      · simp [lookup]
    | succ i =>
      have hi : i < vs.length := by simpa using h
      have e : k + (i + 1) = (k + 1) + i := by omega
      simp only [runCells, List.getElem_cons_succ]
      split
      · rw [e]; exact ih (k + 1) i hi
      · simp only [lookup]
        rw [if_neg (by simp), e]; exact ih (k + 1) i hi

/-- A read inside a stored run gives the value stored there. -/
theorem lookup_storeRun_in (d : Nat → α) (m : List (Nat × α)) (k : Nat) (vs : List α) (i : Nat) (h : i < vs.length) :
    lookup d (storeRun d m k vs) (k + i) = vs[i] := by
  unfold storeRun
  rw [lookup_append_left _ _ _ _ (by intro p hp; simp only [List.mem_filter, decide_eq_true_eq] at hp; omega),
    lookup_append_right _ _ _ _ (by intro p hp; simp only [List.mem_filter, decide_eq_true_eq] at hp; omega)]
  exact lookup_runCells d k vs i h

/-- A read outside a stored run gives what it gave before. -/
theorem lookup_storeRun_out (d : Nat → α) (m : List (Nat × α)) (k : Nat) (vs : List α) (j : Nat)
    (h : j < k ∨ k + vs.length ≤ j) : lookup d (storeRun d m k vs) j = lookup d m j := by
  unfold storeRun
  rcases h with h | h
  · rw [lookup_append_right _ _ _ _ (by
      intro p hp
      rcases List.mem_append.1 hp with hp | hp
      · have := runCells_mem d k vs p hp; omega
      · simp only [List.mem_filter, decide_eq_true_eq] at hp; omega)]
    exact lookup_filter d m j (fun x => decide (x < k)) (by simpa using h)
  · rw [lookup_append_left _ _ _ _ (by intro p hp; simp only [List.mem_filter, decide_eq_true_eq] at hp; omega),
      lookup_append_left _ _ _ _ (by intro p hp; have := runCells_mem d k vs p hp; omega)]
    exact lookup_filter d m j (fun x => decide (k + vs.length ≤ x)) (by simpa using h)

@[simp] theorem lookup_store_same (d : Nat → α) (m : List (Nat × α)) (k : Nat) (v : α) :
    lookup d (store d m k v) k = v := by
  simpa [store] using lookup_storeRun_in d m k [v] 0 (by simp)

theorem lookup_store_other (d : Nat → α) (m : List (Nat × α)) (k j : Nat) (v : α) (h : j ≠ k) :
    lookup d (store d m k v) j = lookup d m j :=
  lookup_storeRun_out d m k [v] j (by simp only [List.length_singleton]; omega)

theorem storeRun_canonical (d : Nat → α) (m : List (Nat × α)) (k : Nat) (vs : List α) (h : Canonical d m) :
    Canonical d (storeRun d m k vs) := by
  obtain ⟨hp, hd⟩ := h
  refine ⟨?_, ?_⟩
  · unfold storeRun
    refine List.pairwise_append.2 ⟨hp.filter _, List.pairwise_append.2 ⟨runCells_pairwise d k vs, hp.filter _, ?_⟩, ?_⟩
    · intro p hp q hq
      have h1 := runCells_mem d k vs p hp
      simp only [List.mem_filter, decide_eq_true_eq] at hq
      omega
    · intro p hp q hq
      simp only [List.mem_filter, decide_eq_true_eq] at hp
      rcases List.mem_append.1 hq with hq | hq
      · have := runCells_mem d k vs q hq; omega
      · simp only [List.mem_filter, decide_eq_true_eq] at hq; omega
  · intro p hp
    unfold storeRun at hp
    simp only [List.mem_append, List.mem_filter] at hp
    rcases hp with hp | hp | hp
    · exact hd p hp.1
    · exact (runCells_mem d k vs p hp).2.2
    · exact hd p hp.1

theorem store_canonical (d : Nat → α) (m : List (Nat × α)) (k : Nat) (v : α) (h : Canonical d m) :
    Canonical d (store d m k v) := storeRun_canonical d m k [v] h

end

theorem eraseRange_canonical {α : Type} (d : Nat → α) (m : List (Nat × α)) (lo hi : Nat) (h : Canonical d m) :
    Canonical d (eraseRange m lo hi) :=
  ⟨h.1.filter _, fun p hp => h.2 p (List.mem_filter.1 hp).1⟩

end Sys2Proof.Machine
end

