-- ==== Sys2Proof/Laws/State.lean ====
section
/-! SUPPORT. For each named update of the state, one lemma per field: what the update leaves the field at. -/

namespace Sys2Proof.Machine

section setReg
variable (s : State) (a : Nat) (v : Word)

@[simp] theorem State.setReg_pending : (s.setReg a v).pending = s.pending := rfl
@[simp] theorem State.setReg_mem : (s.setReg a v).mem = s.mem := rfl
@[simp] theorem State.setReg_poison : (s.setReg a v).poison = s.poison := rfl
@[simp] theorem State.setReg_moduleId : (s.setReg a v).moduleId = s.moduleId := rfl
@[simp] theorem State.setReg_flights : (s.setReg a v).flights = s.flights := rfl
@[simp] theorem State.setReg_nextFid : (s.setReg a v).nextFid = s.nextFid := rfl
@[simp] theorem State.setReg_nextStart : (s.setReg a v).nextStart = s.nextStart := rfl
@[simp] theorem State.setReg_turns : (s.setReg a v).turns = s.turns := rfl
@[simp] theorem State.setReg_reports : (s.setReg a v).reports = s.reports := rfl
@[simp] theorem State.setReg_sigQ : (s.setReg a v).sigQ = s.sigQ := rfl
@[simp] theorem State.setReg_irqQ : (s.setReg a v).irqQ = s.irqQ := rfl
@[simp] theorem State.setReg_flog : (s.setReg a v).flog = s.flog := rfl
@[simp] theorem State.setReg_out : (s.setReg a v).out = s.out := rfl
@[simp] theorem State.setReg_free : (s.setReg a v).free = s.free := rfl
@[simp] theorem State.setReg_tb : (s.setReg a v).tb = s.tb := rfl
@[simp] theorem State.setReg_tbMarks : (s.setReg a v).tbMarks = s.tbMarks := rfl
@[simp] theorem State.setReg_vr : (s.setReg a v).vr = s.vr := rfl
@[simp] theorem State.setReg_vrMarks : (s.setReg a v).vrMarks = s.vrMarks := rfl
@[simp] theorem State.setReg_wAct : (s.setReg a v).wAct = s.wAct := rfl
@[simp] theorem State.setReg_wShd : (s.setReg a v).wShd = s.wShd := rfl
@[simp] theorem State.setReg_passes : (s.setReg a v).passes = s.passes := rfl
@[simp] theorem State.setReg_scrubPos : (s.setReg a v).scrubPos = s.scrubPos := rfl
@[simp] theorem State.setReg_wir : (s.setReg a v).wir = s.wir := rfl
@[simp] theorem State.setReg_ppr : (s.setReg a v).ppr = s.ppr := rfl
@[simp] theorem State.setReg_wmQ : (s.setReg a v).wmQ = s.wmQ := rfl
@[simp] theorem State.setReg_mbx : (s.setReg a v).mbx = s.mbx := rfl
@[simp] theorem State.setReg_mbxBad : (s.setReg a v).mbxBad = s.mbxBad := rfl
@[simp] theorem State.setReg_host : (s.setReg a v).host = s.host := rfl
@[simp] theorem State.setReg_pcie : (s.setReg a v).pcie = s.pcie := rfl
@[simp] theorem State.setReg_fab : (s.setReg a v).fab = s.fab := rfl
@[simp] theorem State.setReg_commits : (s.setReg a v).commits = s.commits := rfl
@[simp] theorem State.setReg_courses : (s.setReg a v).courses = s.courses := rfl
@[simp] theorem State.setReg_refQ : (s.setReg a v).refQ = s.refQ := rfl
@[simp] theorem State.setReg_losses : (s.setReg a v).losses = s.losses := rfl
@[simp] theorem State.setReg_answered : (s.setReg a v).answered = s.answered := rfl
@[simp] theorem State.setReg_pw : (s.setReg a v).pw = s.pw := rfl
@[simp] theorem State.setReg_pins : (s.setReg a v).pins = s.pins := rfl
@[simp] theorem State.setReg_sm : (s.setReg a v).sm = s.sm := rfl
@[simp] theorem State.setReg_jtag : (s.setReg a v).jtag = s.jtag := rfl

end setReg

section putFld
variable (s : State) (a hi lo v : Nat)

@[simp] theorem State.putFld_pending : (s.putFld a hi lo v).pending = s.pending := rfl
@[simp] theorem State.putFld_mem : (s.putFld a hi lo v).mem = s.mem := rfl
@[simp] theorem State.putFld_poison : (s.putFld a hi lo v).poison = s.poison := rfl
@[simp] theorem State.putFld_moduleId : (s.putFld a hi lo v).moduleId = s.moduleId := rfl
@[simp] theorem State.putFld_flights : (s.putFld a hi lo v).flights = s.flights := rfl
@[simp] theorem State.putFld_nextFid : (s.putFld a hi lo v).nextFid = s.nextFid := rfl
@[simp] theorem State.putFld_nextStart : (s.putFld a hi lo v).nextStart = s.nextStart := rfl
@[simp] theorem State.putFld_turns : (s.putFld a hi lo v).turns = s.turns := rfl
@[simp] theorem State.putFld_reports : (s.putFld a hi lo v).reports = s.reports := rfl
@[simp] theorem State.putFld_sigQ : (s.putFld a hi lo v).sigQ = s.sigQ := rfl
@[simp] theorem State.putFld_irqQ : (s.putFld a hi lo v).irqQ = s.irqQ := rfl
@[simp] theorem State.putFld_flog : (s.putFld a hi lo v).flog = s.flog := rfl
@[simp] theorem State.putFld_out : (s.putFld a hi lo v).out = s.out := rfl
@[simp] theorem State.putFld_free : (s.putFld a hi lo v).free = s.free := rfl
@[simp] theorem State.putFld_tb : (s.putFld a hi lo v).tb = s.tb := rfl
@[simp] theorem State.putFld_tbMarks : (s.putFld a hi lo v).tbMarks = s.tbMarks := rfl
@[simp] theorem State.putFld_vr : (s.putFld a hi lo v).vr = s.vr := rfl
@[simp] theorem State.putFld_vrMarks : (s.putFld a hi lo v).vrMarks = s.vrMarks := rfl
@[simp] theorem State.putFld_wAct : (s.putFld a hi lo v).wAct = s.wAct := rfl
@[simp] theorem State.putFld_wShd : (s.putFld a hi lo v).wShd = s.wShd := rfl
@[simp] theorem State.putFld_passes : (s.putFld a hi lo v).passes = s.passes := rfl
@[simp] theorem State.putFld_scrubPos : (s.putFld a hi lo v).scrubPos = s.scrubPos := rfl
@[simp] theorem State.putFld_wir : (s.putFld a hi lo v).wir = s.wir := rfl
@[simp] theorem State.putFld_ppr : (s.putFld a hi lo v).ppr = s.ppr := rfl
@[simp] theorem State.putFld_wmQ : (s.putFld a hi lo v).wmQ = s.wmQ := rfl
@[simp] theorem State.putFld_mbx : (s.putFld a hi lo v).mbx = s.mbx := rfl
@[simp] theorem State.putFld_mbxBad : (s.putFld a hi lo v).mbxBad = s.mbxBad := rfl
@[simp] theorem State.putFld_host : (s.putFld a hi lo v).host = s.host := rfl
@[simp] theorem State.putFld_pcie : (s.putFld a hi lo v).pcie = s.pcie := rfl
@[simp] theorem State.putFld_fab : (s.putFld a hi lo v).fab = s.fab := rfl
@[simp] theorem State.putFld_commits : (s.putFld a hi lo v).commits = s.commits := rfl
@[simp] theorem State.putFld_courses : (s.putFld a hi lo v).courses = s.courses := rfl
@[simp] theorem State.putFld_refQ : (s.putFld a hi lo v).refQ = s.refQ := rfl
@[simp] theorem State.putFld_losses : (s.putFld a hi lo v).losses = s.losses := rfl
@[simp] theorem State.putFld_answered : (s.putFld a hi lo v).answered = s.answered := rfl
@[simp] theorem State.putFld_pw : (s.putFld a hi lo v).pw = s.pw := rfl
@[simp] theorem State.putFld_pins : (s.putFld a hi lo v).pins = s.pins := rfl
@[simp] theorem State.putFld_sm : (s.putFld a hi lo v).sm = s.sm := rfl
@[simp] theorem State.putFld_jtag : (s.putFld a hi lo v).jtag = s.jtag := rfl

end putFld

section setFlag
variable (s : State) (a i : Nat) (b : Bool)

@[simp] theorem State.setFlag_pending : (s.setFlag a i b).pending = s.pending := rfl
@[simp] theorem State.setFlag_mem : (s.setFlag a i b).mem = s.mem := rfl
@[simp] theorem State.setFlag_poison : (s.setFlag a i b).poison = s.poison := rfl
@[simp] theorem State.setFlag_moduleId : (s.setFlag a i b).moduleId = s.moduleId := rfl
@[simp] theorem State.setFlag_flights : (s.setFlag a i b).flights = s.flights := rfl
@[simp] theorem State.setFlag_nextFid : (s.setFlag a i b).nextFid = s.nextFid := rfl
@[simp] theorem State.setFlag_nextStart : (s.setFlag a i b).nextStart = s.nextStart := rfl
@[simp] theorem State.setFlag_turns : (s.setFlag a i b).turns = s.turns := rfl
@[simp] theorem State.setFlag_reports : (s.setFlag a i b).reports = s.reports := rfl
@[simp] theorem State.setFlag_sigQ : (s.setFlag a i b).sigQ = s.sigQ := rfl
@[simp] theorem State.setFlag_irqQ : (s.setFlag a i b).irqQ = s.irqQ := rfl
@[simp] theorem State.setFlag_flog : (s.setFlag a i b).flog = s.flog := rfl
@[simp] theorem State.setFlag_out : (s.setFlag a i b).out = s.out := rfl
@[simp] theorem State.setFlag_free : (s.setFlag a i b).free = s.free := rfl
@[simp] theorem State.setFlag_tb : (s.setFlag a i b).tb = s.tb := rfl
@[simp] theorem State.setFlag_tbMarks : (s.setFlag a i b).tbMarks = s.tbMarks := rfl
@[simp] theorem State.setFlag_vr : (s.setFlag a i b).vr = s.vr := rfl
@[simp] theorem State.setFlag_vrMarks : (s.setFlag a i b).vrMarks = s.vrMarks := rfl
@[simp] theorem State.setFlag_wAct : (s.setFlag a i b).wAct = s.wAct := rfl
@[simp] theorem State.setFlag_wShd : (s.setFlag a i b).wShd = s.wShd := rfl
@[simp] theorem State.setFlag_passes : (s.setFlag a i b).passes = s.passes := rfl
@[simp] theorem State.setFlag_scrubPos : (s.setFlag a i b).scrubPos = s.scrubPos := rfl
@[simp] theorem State.setFlag_wir : (s.setFlag a i b).wir = s.wir := rfl
@[simp] theorem State.setFlag_ppr : (s.setFlag a i b).ppr = s.ppr := rfl
@[simp] theorem State.setFlag_wmQ : (s.setFlag a i b).wmQ = s.wmQ := rfl
@[simp] theorem State.setFlag_mbx : (s.setFlag a i b).mbx = s.mbx := rfl
@[simp] theorem State.setFlag_mbxBad : (s.setFlag a i b).mbxBad = s.mbxBad := rfl
@[simp] theorem State.setFlag_host : (s.setFlag a i b).host = s.host := rfl
@[simp] theorem State.setFlag_pcie : (s.setFlag a i b).pcie = s.pcie := rfl
@[simp] theorem State.setFlag_fab : (s.setFlag a i b).fab = s.fab := rfl
@[simp] theorem State.setFlag_commits : (s.setFlag a i b).commits = s.commits := rfl
@[simp] theorem State.setFlag_courses : (s.setFlag a i b).courses = s.courses := rfl
@[simp] theorem State.setFlag_refQ : (s.setFlag a i b).refQ = s.refQ := rfl
@[simp] theorem State.setFlag_losses : (s.setFlag a i b).losses = s.losses := rfl
@[simp] theorem State.setFlag_answered : (s.setFlag a i b).answered = s.answered := rfl
@[simp] theorem State.setFlag_pw : (s.setFlag a i b).pw = s.pw := rfl
@[simp] theorem State.setFlag_pins : (s.setFlag a i b).pins = s.pins := rfl
@[simp] theorem State.setFlag_sm : (s.setFlag a i b).sm = s.sm := rfl
@[simp] theorem State.setFlag_jtag : (s.setFlag a i b).jtag = s.jtag := rfl

end setFlag

section count
variable (s : State) (a n : Nat)

@[simp] theorem State.count_pending : (s.count a n).pending = s.pending := rfl
@[simp] theorem State.count_mem : (s.count a n).mem = s.mem := rfl
@[simp] theorem State.count_poison : (s.count a n).poison = s.poison := rfl
@[simp] theorem State.count_moduleId : (s.count a n).moduleId = s.moduleId := rfl
@[simp] theorem State.count_flights : (s.count a n).flights = s.flights := rfl
@[simp] theorem State.count_nextFid : (s.count a n).nextFid = s.nextFid := rfl
@[simp] theorem State.count_nextStart : (s.count a n).nextStart = s.nextStart := rfl
@[simp] theorem State.count_turns : (s.count a n).turns = s.turns := rfl
@[simp] theorem State.count_reports : (s.count a n).reports = s.reports := rfl
@[simp] theorem State.count_sigQ : (s.count a n).sigQ = s.sigQ := rfl
@[simp] theorem State.count_irqQ : (s.count a n).irqQ = s.irqQ := rfl
@[simp] theorem State.count_flog : (s.count a n).flog = s.flog := rfl
@[simp] theorem State.count_out : (s.count a n).out = s.out := rfl
@[simp] theorem State.count_free : (s.count a n).free = s.free := rfl
@[simp] theorem State.count_tb : (s.count a n).tb = s.tb := rfl
@[simp] theorem State.count_tbMarks : (s.count a n).tbMarks = s.tbMarks := rfl
@[simp] theorem State.count_vr : (s.count a n).vr = s.vr := rfl
@[simp] theorem State.count_vrMarks : (s.count a n).vrMarks = s.vrMarks := rfl
@[simp] theorem State.count_wAct : (s.count a n).wAct = s.wAct := rfl
@[simp] theorem State.count_wShd : (s.count a n).wShd = s.wShd := rfl
@[simp] theorem State.count_passes : (s.count a n).passes = s.passes := rfl
@[simp] theorem State.count_scrubPos : (s.count a n).scrubPos = s.scrubPos := rfl
@[simp] theorem State.count_wir : (s.count a n).wir = s.wir := rfl
@[simp] theorem State.count_ppr : (s.count a n).ppr = s.ppr := rfl
@[simp] theorem State.count_wmQ : (s.count a n).wmQ = s.wmQ := rfl
@[simp] theorem State.count_mbx : (s.count a n).mbx = s.mbx := rfl
@[simp] theorem State.count_mbxBad : (s.count a n).mbxBad = s.mbxBad := rfl
@[simp] theorem State.count_host : (s.count a n).host = s.host := rfl
@[simp] theorem State.count_pcie : (s.count a n).pcie = s.pcie := rfl
@[simp] theorem State.count_fab : (s.count a n).fab = s.fab := rfl
@[simp] theorem State.count_commits : (s.count a n).commits = s.commits := rfl
@[simp] theorem State.count_courses : (s.count a n).courses = s.courses := rfl
@[simp] theorem State.count_refQ : (s.count a n).refQ = s.refQ := rfl
@[simp] theorem State.count_losses : (s.count a n).losses = s.losses := rfl
@[simp] theorem State.count_answered : (s.count a n).answered = s.answered := rfl
@[simp] theorem State.count_pw : (s.count a n).pw = s.pw := rfl
@[simp] theorem State.count_pins : (s.count a n).pins = s.pins := rfl
@[simp] theorem State.count_sm : (s.count a n).sm = s.sm := rfl
@[simp] theorem State.count_jtag : (s.count a n).jtag = s.jtag := rfl

end count

section log
variable (s : State) (die : Nat) (k : LogKind) (a i : Nat) (who : LogBy) (acc : LogAcc)

@[simp] theorem State.log_pending : (s.log die k a i who acc).pending = s.pending := rfl
@[simp] theorem State.log_regs : (s.log die k a i who acc).regs = s.regs := rfl
@[simp] theorem State.log_mem : (s.log die k a i who acc).mem = s.mem := rfl
@[simp] theorem State.log_poison : (s.log die k a i who acc).poison = s.poison := rfl
@[simp] theorem State.log_moduleId : (s.log die k a i who acc).moduleId = s.moduleId := rfl
@[simp] theorem State.log_flights : (s.log die k a i who acc).flights = s.flights := rfl
@[simp] theorem State.log_nextFid : (s.log die k a i who acc).nextFid = s.nextFid := rfl
@[simp] theorem State.log_nextStart : (s.log die k a i who acc).nextStart = s.nextStart := rfl
@[simp] theorem State.log_turns : (s.log die k a i who acc).turns = s.turns := rfl
@[simp] theorem State.log_reports : (s.log die k a i who acc).reports = s.reports := rfl
@[simp] theorem State.log_sigQ : (s.log die k a i who acc).sigQ = s.sigQ := rfl
@[simp] theorem State.log_irqQ : (s.log die k a i who acc).irqQ = s.irqQ := rfl
@[simp] theorem State.log_out : (s.log die k a i who acc).out = s.out := rfl
@[simp] theorem State.log_free : (s.log die k a i who acc).free = s.free := rfl
@[simp] theorem State.log_tb : (s.log die k a i who acc).tb = s.tb := rfl
@[simp] theorem State.log_tbMarks : (s.log die k a i who acc).tbMarks = s.tbMarks := rfl
@[simp] theorem State.log_vr : (s.log die k a i who acc).vr = s.vr := rfl
@[simp] theorem State.log_vrMarks : (s.log die k a i who acc).vrMarks = s.vrMarks := rfl
@[simp] theorem State.log_wAct : (s.log die k a i who acc).wAct = s.wAct := rfl
@[simp] theorem State.log_wShd : (s.log die k a i who acc).wShd = s.wShd := rfl
@[simp] theorem State.log_passes : (s.log die k a i who acc).passes = s.passes := rfl
@[simp] theorem State.log_scrubPos : (s.log die k a i who acc).scrubPos = s.scrubPos := rfl
@[simp] theorem State.log_wir : (s.log die k a i who acc).wir = s.wir := rfl
@[simp] theorem State.log_ppr : (s.log die k a i who acc).ppr = s.ppr := rfl
@[simp] theorem State.log_wmQ : (s.log die k a i who acc).wmQ = s.wmQ := rfl
@[simp] theorem State.log_mbx : (s.log die k a i who acc).mbx = s.mbx := rfl
@[simp] theorem State.log_mbxBad : (s.log die k a i who acc).mbxBad = s.mbxBad := rfl
@[simp] theorem State.log_host : (s.log die k a i who acc).host = s.host := rfl
@[simp] theorem State.log_pcie : (s.log die k a i who acc).pcie = s.pcie := rfl
@[simp] theorem State.log_fab : (s.log die k a i who acc).fab = s.fab := rfl
@[simp] theorem State.log_commits : (s.log die k a i who acc).commits = s.commits := rfl
@[simp] theorem State.log_courses : (s.log die k a i who acc).courses = s.courses := rfl
@[simp] theorem State.log_refQ : (s.log die k a i who acc).refQ = s.refQ := rfl
@[simp] theorem State.log_losses : (s.log die k a i who acc).losses = s.losses := rfl
@[simp] theorem State.log_answered : (s.log die k a i who acc).answered = s.answered := rfl
@[simp] theorem State.log_pw : (s.log die k a i who acc).pw = s.pw := rfl
@[simp] theorem State.log_pins : (s.log die k a i who acc).pins = s.pins := rfl
@[simp] theorem State.log_sm : (s.log die k a i who acc).sm = s.sm := rfl
@[simp] theorem State.log_jtag : (s.log die k a i who acc).jtag = s.jtag := rfl

end log

section emit
variable (s : State) (e : OutEvent)

@[simp] theorem State.emit_pending : (s.emit e).pending = s.pending := rfl
@[simp] theorem State.emit_regs : (s.emit e).regs = s.regs := rfl
@[simp] theorem State.emit_mem : (s.emit e).mem = s.mem := rfl
@[simp] theorem State.emit_poison : (s.emit e).poison = s.poison := rfl
@[simp] theorem State.emit_moduleId : (s.emit e).moduleId = s.moduleId := rfl
@[simp] theorem State.emit_flights : (s.emit e).flights = s.flights := rfl
@[simp] theorem State.emit_nextFid : (s.emit e).nextFid = s.nextFid := rfl
@[simp] theorem State.emit_nextStart : (s.emit e).nextStart = s.nextStart := rfl
@[simp] theorem State.emit_turns : (s.emit e).turns = s.turns := rfl
@[simp] theorem State.emit_reports : (s.emit e).reports = s.reports := rfl
@[simp] theorem State.emit_sigQ : (s.emit e).sigQ = s.sigQ := rfl
@[simp] theorem State.emit_irqQ : (s.emit e).irqQ = s.irqQ := rfl
@[simp] theorem State.emit_flog : (s.emit e).flog = s.flog := rfl
@[simp] theorem State.emit_free : (s.emit e).free = s.free := rfl
@[simp] theorem State.emit_tb : (s.emit e).tb = s.tb := rfl
@[simp] theorem State.emit_tbMarks : (s.emit e).tbMarks = s.tbMarks := rfl
@[simp] theorem State.emit_vr : (s.emit e).vr = s.vr := rfl
@[simp] theorem State.emit_vrMarks : (s.emit e).vrMarks = s.vrMarks := rfl
@[simp] theorem State.emit_wAct : (s.emit e).wAct = s.wAct := rfl
@[simp] theorem State.emit_wShd : (s.emit e).wShd = s.wShd := rfl
@[simp] theorem State.emit_passes : (s.emit e).passes = s.passes := rfl
@[simp] theorem State.emit_scrubPos : (s.emit e).scrubPos = s.scrubPos := rfl
@[simp] theorem State.emit_wir : (s.emit e).wir = s.wir := rfl
@[simp] theorem State.emit_ppr : (s.emit e).ppr = s.ppr := rfl
@[simp] theorem State.emit_wmQ : (s.emit e).wmQ = s.wmQ := rfl
@[simp] theorem State.emit_mbx : (s.emit e).mbx = s.mbx := rfl
@[simp] theorem State.emit_mbxBad : (s.emit e).mbxBad = s.mbxBad := rfl
@[simp] theorem State.emit_host : (s.emit e).host = s.host := rfl
@[simp] theorem State.emit_pcie : (s.emit e).pcie = s.pcie := rfl
@[simp] theorem State.emit_fab : (s.emit e).fab = s.fab := rfl
@[simp] theorem State.emit_commits : (s.emit e).commits = s.commits := rfl
@[simp] theorem State.emit_courses : (s.emit e).courses = s.courses := rfl
@[simp] theorem State.emit_refQ : (s.emit e).refQ = s.refQ := rfl
@[simp] theorem State.emit_losses : (s.emit e).losses = s.losses := rfl
@[simp] theorem State.emit_answered : (s.emit e).answered = s.answered := rfl
@[simp] theorem State.emit_pw : (s.emit e).pw = s.pw := rfl
@[simp] theorem State.emit_pins : (s.emit e).pins = s.pins := rfl
@[simp] theorem State.emit_sm : (s.emit e).sm = s.sm := rfl
@[simp] theorem State.emit_jtag : (s.emit e).jtag = s.jtag := rfl

end emit

section interrupt
variable (s : State) (src target : Nat)

@[simp] theorem State.interrupt_pending : (s.interrupt src target).pending = s.pending := rfl
@[simp] theorem State.interrupt_regs : (s.interrupt src target).regs = s.regs := rfl
@[simp] theorem State.interrupt_mem : (s.interrupt src target).mem = s.mem := rfl
@[simp] theorem State.interrupt_poison : (s.interrupt src target).poison = s.poison := rfl
@[simp] theorem State.interrupt_moduleId : (s.interrupt src target).moduleId = s.moduleId := rfl
@[simp] theorem State.interrupt_flights : (s.interrupt src target).flights = s.flights := rfl
@[simp] theorem State.interrupt_nextFid : (s.interrupt src target).nextFid = s.nextFid := rfl
@[simp] theorem State.interrupt_nextStart : (s.interrupt src target).nextStart = s.nextStart := rfl
@[simp] theorem State.interrupt_turns : (s.interrupt src target).turns = s.turns := rfl
@[simp] theorem State.interrupt_reports : (s.interrupt src target).reports = s.reports := rfl
@[simp] theorem State.interrupt_sigQ : (s.interrupt src target).sigQ = s.sigQ := rfl
@[simp] theorem State.interrupt_flog : (s.interrupt src target).flog = s.flog := rfl
@[simp] theorem State.interrupt_out : (s.interrupt src target).out = s.out := rfl
@[simp] theorem State.interrupt_free : (s.interrupt src target).free = s.free := rfl
@[simp] theorem State.interrupt_tb : (s.interrupt src target).tb = s.tb := rfl
@[simp] theorem State.interrupt_tbMarks : (s.interrupt src target).tbMarks = s.tbMarks := rfl
@[simp] theorem State.interrupt_vr : (s.interrupt src target).vr = s.vr := rfl
@[simp] theorem State.interrupt_vrMarks : (s.interrupt src target).vrMarks = s.vrMarks := rfl
@[simp] theorem State.interrupt_wAct : (s.interrupt src target).wAct = s.wAct := rfl
@[simp] theorem State.interrupt_wShd : (s.interrupt src target).wShd = s.wShd := rfl
@[simp] theorem State.interrupt_passes : (s.interrupt src target).passes = s.passes := rfl
@[simp] theorem State.interrupt_scrubPos : (s.interrupt src target).scrubPos = s.scrubPos := rfl
@[simp] theorem State.interrupt_wir : (s.interrupt src target).wir = s.wir := rfl
@[simp] theorem State.interrupt_ppr : (s.interrupt src target).ppr = s.ppr := rfl
@[simp] theorem State.interrupt_wmQ : (s.interrupt src target).wmQ = s.wmQ := rfl
@[simp] theorem State.interrupt_mbx : (s.interrupt src target).mbx = s.mbx := rfl
@[simp] theorem State.interrupt_mbxBad : (s.interrupt src target).mbxBad = s.mbxBad := rfl
@[simp] theorem State.interrupt_host : (s.interrupt src target).host = s.host := rfl
@[simp] theorem State.interrupt_pcie : (s.interrupt src target).pcie = s.pcie := rfl
@[simp] theorem State.interrupt_fab : (s.interrupt src target).fab = s.fab := rfl
@[simp] theorem State.interrupt_commits : (s.interrupt src target).commits = s.commits := rfl
@[simp] theorem State.interrupt_courses : (s.interrupt src target).courses = s.courses := rfl
@[simp] theorem State.interrupt_refQ : (s.interrupt src target).refQ = s.refQ := rfl
@[simp] theorem State.interrupt_losses : (s.interrupt src target).losses = s.losses := rfl
@[simp] theorem State.interrupt_answered : (s.interrupt src target).answered = s.answered := rfl
@[simp] theorem State.interrupt_pw : (s.interrupt src target).pw = s.pw := rfl
@[simp] theorem State.interrupt_pins : (s.interrupt src target).pins = s.pins := rfl
@[simp] theorem State.interrupt_sm : (s.interrupt src target).sm = s.sm := rfl
@[simp] theorem State.interrupt_jtag : (s.interrupt src target).jtag = s.jtag := rfl

end interrupt

section putMem
variable (s : State) (a : Nat) (bs : List Byte)

@[simp] theorem State.putMem_pending : (s.putMem a bs).pending = s.pending := rfl
@[simp] theorem State.putMem_regs : (s.putMem a bs).regs = s.regs := rfl
@[simp] theorem State.putMem_poison : (s.putMem a bs).poison = s.poison := rfl
@[simp] theorem State.putMem_moduleId : (s.putMem a bs).moduleId = s.moduleId := rfl
@[simp] theorem State.putMem_flights : (s.putMem a bs).flights = s.flights := rfl
@[simp] theorem State.putMem_nextFid : (s.putMem a bs).nextFid = s.nextFid := rfl
@[simp] theorem State.putMem_nextStart : (s.putMem a bs).nextStart = s.nextStart := rfl
@[simp] theorem State.putMem_turns : (s.putMem a bs).turns = s.turns := rfl
@[simp] theorem State.putMem_reports : (s.putMem a bs).reports = s.reports := rfl
@[simp] theorem State.putMem_sigQ : (s.putMem a bs).sigQ = s.sigQ := rfl
@[simp] theorem State.putMem_irqQ : (s.putMem a bs).irqQ = s.irqQ := rfl
@[simp] theorem State.putMem_flog : (s.putMem a bs).flog = s.flog := rfl
@[simp] theorem State.putMem_out : (s.putMem a bs).out = s.out := rfl
@[simp] theorem State.putMem_free : (s.putMem a bs).free = s.free := rfl
@[simp] theorem State.putMem_tb : (s.putMem a bs).tb = s.tb := rfl
@[simp] theorem State.putMem_tbMarks : (s.putMem a bs).tbMarks = s.tbMarks := rfl
@[simp] theorem State.putMem_vr : (s.putMem a bs).vr = s.vr := rfl
@[simp] theorem State.putMem_vrMarks : (s.putMem a bs).vrMarks = s.vrMarks := rfl
@[simp] theorem State.putMem_wAct : (s.putMem a bs).wAct = s.wAct := rfl
@[simp] theorem State.putMem_wShd : (s.putMem a bs).wShd = s.wShd := rfl
@[simp] theorem State.putMem_passes : (s.putMem a bs).passes = s.passes := rfl
@[simp] theorem State.putMem_scrubPos : (s.putMem a bs).scrubPos = s.scrubPos := rfl
@[simp] theorem State.putMem_wir : (s.putMem a bs).wir = s.wir := rfl
@[simp] theorem State.putMem_ppr : (s.putMem a bs).ppr = s.ppr := rfl
@[simp] theorem State.putMem_wmQ : (s.putMem a bs).wmQ = s.wmQ := rfl
@[simp] theorem State.putMem_mbx : (s.putMem a bs).mbx = s.mbx := rfl
@[simp] theorem State.putMem_mbxBad : (s.putMem a bs).mbxBad = s.mbxBad := rfl
@[simp] theorem State.putMem_host : (s.putMem a bs).host = s.host := rfl
@[simp] theorem State.putMem_pcie : (s.putMem a bs).pcie = s.pcie := rfl
@[simp] theorem State.putMem_fab : (s.putMem a bs).fab = s.fab := rfl
@[simp] theorem State.putMem_commits : (s.putMem a bs).commits = s.commits := rfl
@[simp] theorem State.putMem_courses : (s.putMem a bs).courses = s.courses := rfl
@[simp] theorem State.putMem_refQ : (s.putMem a bs).refQ = s.refQ := rfl
@[simp] theorem State.putMem_losses : (s.putMem a bs).losses = s.losses := rfl
@[simp] theorem State.putMem_answered : (s.putMem a bs).answered = s.answered := rfl
@[simp] theorem State.putMem_pw : (s.putMem a bs).pw = s.pw := rfl
@[simp] theorem State.putMem_pins : (s.putMem a bs).pins = s.pins := rfl
@[simp] theorem State.putMem_sm : (s.putMem a bs).sm = s.sm := rfl
@[simp] theorem State.putMem_jtag : (s.putMem a bs).jtag = s.jtag := rfl

end putMem

section markPoison
variable (s : State) (line : Nat)

@[simp] theorem State.markPoison_pending : (s.markPoison line).pending = s.pending := rfl
@[simp] theorem State.markPoison_regs : (s.markPoison line).regs = s.regs := rfl
@[simp] theorem State.markPoison_mem : (s.markPoison line).mem = s.mem := rfl
@[simp] theorem State.markPoison_moduleId : (s.markPoison line).moduleId = s.moduleId := rfl
@[simp] theorem State.markPoison_flights : (s.markPoison line).flights = s.flights := rfl
@[simp] theorem State.markPoison_nextFid : (s.markPoison line).nextFid = s.nextFid := rfl
@[simp] theorem State.markPoison_nextStart : (s.markPoison line).nextStart = s.nextStart := rfl
@[simp] theorem State.markPoison_turns : (s.markPoison line).turns = s.turns := rfl
@[simp] theorem State.markPoison_reports : (s.markPoison line).reports = s.reports := rfl
@[simp] theorem State.markPoison_sigQ : (s.markPoison line).sigQ = s.sigQ := rfl
@[simp] theorem State.markPoison_irqQ : (s.markPoison line).irqQ = s.irqQ := rfl
@[simp] theorem State.markPoison_flog : (s.markPoison line).flog = s.flog := rfl
@[simp] theorem State.markPoison_out : (s.markPoison line).out = s.out := rfl
@[simp] theorem State.markPoison_free : (s.markPoison line).free = s.free := rfl
@[simp] theorem State.markPoison_tb : (s.markPoison line).tb = s.tb := rfl
@[simp] theorem State.markPoison_tbMarks : (s.markPoison line).tbMarks = s.tbMarks := rfl
@[simp] theorem State.markPoison_vr : (s.markPoison line).vr = s.vr := rfl
@[simp] theorem State.markPoison_vrMarks : (s.markPoison line).vrMarks = s.vrMarks := rfl
@[simp] theorem State.markPoison_wAct : (s.markPoison line).wAct = s.wAct := rfl
@[simp] theorem State.markPoison_wShd : (s.markPoison line).wShd = s.wShd := rfl
@[simp] theorem State.markPoison_passes : (s.markPoison line).passes = s.passes := rfl
@[simp] theorem State.markPoison_scrubPos : (s.markPoison line).scrubPos = s.scrubPos := rfl
@[simp] theorem State.markPoison_wir : (s.markPoison line).wir = s.wir := rfl
@[simp] theorem State.markPoison_ppr : (s.markPoison line).ppr = s.ppr := rfl
@[simp] theorem State.markPoison_wmQ : (s.markPoison line).wmQ = s.wmQ := rfl
@[simp] theorem State.markPoison_mbx : (s.markPoison line).mbx = s.mbx := rfl
@[simp] theorem State.markPoison_mbxBad : (s.markPoison line).mbxBad = s.mbxBad := rfl
@[simp] theorem State.markPoison_host : (s.markPoison line).host = s.host := rfl
@[simp] theorem State.markPoison_pcie : (s.markPoison line).pcie = s.pcie := rfl
@[simp] theorem State.markPoison_fab : (s.markPoison line).fab = s.fab := rfl
@[simp] theorem State.markPoison_commits : (s.markPoison line).commits = s.commits := rfl
@[simp] theorem State.markPoison_courses : (s.markPoison line).courses = s.courses := rfl
@[simp] theorem State.markPoison_refQ : (s.markPoison line).refQ = s.refQ := rfl
@[simp] theorem State.markPoison_losses : (s.markPoison line).losses = s.losses := rfl
@[simp] theorem State.markPoison_answered : (s.markPoison line).answered = s.answered := rfl
@[simp] theorem State.markPoison_pw : (s.markPoison line).pw = s.pw := rfl
@[simp] theorem State.markPoison_pins : (s.markPoison line).pins = s.pins := rfl
@[simp] theorem State.markPoison_sm : (s.markPoison line).sm = s.sm := rfl
@[simp] theorem State.markPoison_jtag : (s.markPoison line).jtag = s.jtag := rfl

end markPoison

section clearPoison
variable (s : State) (line : Nat)

@[simp] theorem State.clearPoison_pending : (s.clearPoison line).pending = s.pending := rfl
@[simp] theorem State.clearPoison_regs : (s.clearPoison line).regs = s.regs := rfl
@[simp] theorem State.clearPoison_mem : (s.clearPoison line).mem = s.mem := rfl
@[simp] theorem State.clearPoison_moduleId : (s.clearPoison line).moduleId = s.moduleId := rfl
@[simp] theorem State.clearPoison_flights : (s.clearPoison line).flights = s.flights := rfl
@[simp] theorem State.clearPoison_nextFid : (s.clearPoison line).nextFid = s.nextFid := rfl
@[simp] theorem State.clearPoison_nextStart : (s.clearPoison line).nextStart = s.nextStart := rfl
@[simp] theorem State.clearPoison_turns : (s.clearPoison line).turns = s.turns := rfl
@[simp] theorem State.clearPoison_reports : (s.clearPoison line).reports = s.reports := rfl
@[simp] theorem State.clearPoison_sigQ : (s.clearPoison line).sigQ = s.sigQ := rfl
@[simp] theorem State.clearPoison_irqQ : (s.clearPoison line).irqQ = s.irqQ := rfl
@[simp] theorem State.clearPoison_flog : (s.clearPoison line).flog = s.flog := rfl
@[simp] theorem State.clearPoison_out : (s.clearPoison line).out = s.out := rfl
@[simp] theorem State.clearPoison_free : (s.clearPoison line).free = s.free := rfl
@[simp] theorem State.clearPoison_tb : (s.clearPoison line).tb = s.tb := rfl
@[simp] theorem State.clearPoison_tbMarks : (s.clearPoison line).tbMarks = s.tbMarks := rfl
@[simp] theorem State.clearPoison_vr : (s.clearPoison line).vr = s.vr := rfl
@[simp] theorem State.clearPoison_vrMarks : (s.clearPoison line).vrMarks = s.vrMarks := rfl
@[simp] theorem State.clearPoison_wAct : (s.clearPoison line).wAct = s.wAct := rfl
@[simp] theorem State.clearPoison_wShd : (s.clearPoison line).wShd = s.wShd := rfl
@[simp] theorem State.clearPoison_passes : (s.clearPoison line).passes = s.passes := rfl
@[simp] theorem State.clearPoison_scrubPos : (s.clearPoison line).scrubPos = s.scrubPos := rfl
@[simp] theorem State.clearPoison_wir : (s.clearPoison line).wir = s.wir := rfl
@[simp] theorem State.clearPoison_ppr : (s.clearPoison line).ppr = s.ppr := rfl
@[simp] theorem State.clearPoison_wmQ : (s.clearPoison line).wmQ = s.wmQ := rfl
@[simp] theorem State.clearPoison_mbx : (s.clearPoison line).mbx = s.mbx := rfl
@[simp] theorem State.clearPoison_mbxBad : (s.clearPoison line).mbxBad = s.mbxBad := rfl
@[simp] theorem State.clearPoison_host : (s.clearPoison line).host = s.host := rfl
@[simp] theorem State.clearPoison_pcie : (s.clearPoison line).pcie = s.pcie := rfl
@[simp] theorem State.clearPoison_fab : (s.clearPoison line).fab = s.fab := rfl
@[simp] theorem State.clearPoison_commits : (s.clearPoison line).commits = s.commits := rfl
@[simp] theorem State.clearPoison_courses : (s.clearPoison line).courses = s.courses := rfl
@[simp] theorem State.clearPoison_refQ : (s.clearPoison line).refQ = s.refQ := rfl
@[simp] theorem State.clearPoison_losses : (s.clearPoison line).losses = s.losses := rfl
@[simp] theorem State.clearPoison_answered : (s.clearPoison line).answered = s.answered := rfl
@[simp] theorem State.clearPoison_pw : (s.clearPoison line).pw = s.pw := rfl
@[simp] theorem State.clearPoison_pins : (s.clearPoison line).pins = s.pins := rfl
@[simp] theorem State.clearPoison_sm : (s.clearPoison line).sm = s.sm := rfl
@[simp] theorem State.clearPoison_jtag : (s.clearPoison line).jtag = s.jtag := rfl

end clearPoison

@[simp] theorem State.log_flog (s : State) (die : Nat) (k : LogKind) (a i : Nat) (who : LogBy) (acc : LogAcc) :
    (s.log die k a i who acc).flog = s.flog ++ [logEntry die k a i who acc] := rfl
@[simp] theorem State.emit_out (s : State) (e : OutEvent) : (s.emit e).out = s.out ++ [e] := rfl
@[simp] theorem State.interrupt_irqQ (s : State) (src target : Nat) :
    (s.interrupt src target).irqQ = s.irqQ ++ [(src, BitVec.ofNat 24 target)] := rfl
@[simp] theorem State.setReg_regs (s : State) (a : Nat) (v : Word) : (s.setReg a v).regs = store regReset s.regs a v := rfl
@[simp] theorem State.putMem_mem (s : State) (a : Nat) (bs : List Byte) : (s.putMem a bs).mem = storeRun memDefault s.mem a bs := rfl

end Sys2Proof.Machine
end

