-- ==== Sys2Proof/Laws/Registers.lean ====
section
/-! SUPPORT. What registers and their fields read after an update, and what the enable and disable requests make of the state
of a function (R66, R67). -/

namespace Sys2Proof.Machine

/-! ### Fields of words -/

theorem getLsbD_wset (w : Word) (hi lo v i : Nat) (hl : lo ≤ hi) (hi32 : i < 32) :
    (wset w hi lo v).getLsbD i = if i < lo then w.getLsbD i else if i ≤ hi then v.testBit (i - lo) else w.getLsbD i := by
  have hw : w.getLsbD i = w.toNat.testBit i := rfl
  unfold wset
  rw [BitVec.getLsbD_ofNat, hw]
  simp only [hi32, decide_true, Bool.true_and]
  have e : 2 ^ (hi + 1) * (w.toNat / 2 ^ (hi + 1)) + 2 ^ lo * (v % 2 ^ (hi + 1 - lo)) + w.toNat % 2 ^ lo =
      2 ^ (hi + 1) * (w.toNat / 2 ^ (hi + 1)) + (2 ^ lo * (v % 2 ^ (hi + 1 - lo)) + w.toNat % 2 ^ lo) := by ring
  have hb : 2 ^ lo * (v % 2 ^ (hi + 1 - lo)) + w.toNat % 2 ^ lo < 2 ^ (hi + 1) := by
    have h1 : v % 2 ^ (hi + 1 - lo) < 2 ^ (hi + 1 - lo) := Nat.mod_lt _ (by positivity)
    have h2 : w.toNat % 2 ^ lo < 2 ^ lo := Nat.mod_lt _ (by positivity)
    have h3 : 2 ^ (hi + 1) = 2 ^ lo * 2 ^ (hi + 1 - lo) := by rw [← pow_add]; congr 1; omega
    have h4 : 2 ^ lo * (v % 2 ^ (hi + 1 - lo) + 1) ≤ 2 ^ lo * 2 ^ (hi + 1 - lo) := Nat.mul_le_mul_left _ h1
    rw [h3]; linarith
  rw [e, Nat.testBit_two_pow_mul_add _ hb, Nat.testBit_two_pow_mul_add _ (Nat.mod_lt _ (by positivity))]
  by_cases h1 : i < lo
  · have : i < hi + 1 := by omega
    simp [h1, this, Nat.testBit_mod_two_pow]
  · by_cases h2 : i ≤ hi
    · have h3 : i < hi + 1 := by omega
      have h4 : i - lo < hi + 1 - lo := by omega
      simp [h1, h2, h3, Nat.testBit_mod_two_pow, h4]
    · have h3 : ¬ i < hi + 1 := by omega
      simp only [h1, h2, h3, if_false, Nat.testBit_div_two_pow]
      congr 1; omega

theorem testBit_wfld (w : Word) (hi lo j : Nat) :
    (wfld w hi lo).testBit j = (decide (j < hi + 1 - lo) && w.getLsbD (lo + j)) := by
  have hw : w.getLsbD (lo + j) = w.toNat.testBit (lo + j) := rfl
  rw [hw]
  simp only [wfld, Nat.testBit_mod_two_pow, Nat.testBit_div_two_pow, Nat.add_comm]

/-- A field set reads back. -/
theorem wfld_wset_same (w : Word) (hi lo v : Nat) (hl : lo ≤ hi) (h32 : hi < 32) :
    wfld (wset w hi lo v) hi lo = v % 2 ^ (hi + 1 - lo) := by
  refine Nat.eq_of_testBit_eq (fun j => ?_)
  rw [testBit_wfld, Nat.testBit_mod_two_pow]
  by_cases hj : j < hi + 1 - lo
  · rw [getLsbD_wset _ _ _ _ _ hl (by omega)]
    have h1 : ¬ lo + j < lo := by omega
    have h2 : lo + j ≤ hi := by omega
    simp [hj, h1, h2]
  · simp [hj]

/-- A field set leaves the fields beside it. -/
theorem wfld_wset_other (w : Word) (hi lo v hi' lo' : Nat) (hl : lo ≤ hi) (h32 : hi' < 32) (h : hi' < lo ∨ hi < lo') :
    wfld (wset w hi lo v) hi' lo' = wfld w hi' lo' := by
  refine Nat.eq_of_testBit_eq (fun j => ?_)
  rw [testBit_wfld, testBit_wfld]
  by_cases hj : j < hi' + 1 - lo'
  · rw [getLsbD_wset _ _ _ _ _ hl (by omega)]
    rcases h with h | h
    · have h1 : lo' + j < lo := by omega
      simp [h1]
    · have h1 : ¬ lo' + j < lo := by omega
      have h2 : ¬ lo' + j ≤ hi := by omega
      simp [h1, h2]
  · simp [hj]

theorem wfld_lt (w : Word) (hi lo : Nat) : wfld w hi lo < 2 ^ (hi + 1 - lo) := Nat.mod_lt _ (by positivity)

/-! ### Registers -/

/-- A register address that is not one of the copies of TD_DIE the stacks read (R397). -/
theorem regAlias_eq (a : Nat) (h : a < Reg.tdDie 40 ∨ Reg.tdDie 79 < a) : regAlias a = a := by
  unfold regAlias; rw [if_neg]; omega

theorem State.reg_setReg (s : State) (a b : Nat) (v : Word) :
    (s.setReg a v).reg b = if regAlias b = a then v else s.reg b := by
  unfold State.reg
  rw [State.setReg_regs]
  split
  · rename_i h; rw [h]; simp
  · rename_i h; exact lookup_store_other _ _ _ _ _ h

@[simp] theorem State.reg_setReg_same (s : State) (a : Nat) (v : Word) (h : regAlias a = a) : (s.setReg a v).reg a = v := by
  rw [State.reg_setReg, if_pos h]

theorem State.reg_setReg_other (s : State) (a b : Nat) (v : Word) (h : regAlias b ≠ a) : (s.setReg a v).reg b = s.reg b := by
  rw [State.reg_setReg, if_neg h]

/-- What is read of registers depends on the registers only. -/
theorem State.reg_congr {s t : State} (h : t.regs = s.regs) (a : Nat) : t.reg a = s.reg a := by
  unfold State.reg; rw [h]

theorem State.reg_putFld (s : State) (a b hi lo v : Nat) :
    (s.putFld a hi lo v).reg b = if regAlias b = a then wset (s.reg a) hi lo v else s.reg b := State.reg_setReg _ _ _ _

theorem State.fld_putFld_same (s : State) (a hi lo v : Nat) (ha : regAlias a = a) (hl : lo ≤ hi) (h32 : hi < 32) :
    (s.putFld a hi lo v).fld a hi lo = v % 2 ^ (hi + 1 - lo) := by
  unfold State.fld; rw [State.reg_putFld, if_pos ha]; exact wfld_wset_same _ _ _ _ hl h32

theorem State.fld_putFld_beside (s : State) (a hi lo v hi' lo' : Nat) (ha : regAlias a = a) (hl : lo ≤ hi) (h32 : hi' < 32)
    (h : hi' < lo ∨ hi < lo') : (s.putFld a hi lo v).fld a hi' lo' = s.fld a hi' lo' := by
  unfold State.fld; rw [State.reg_putFld, if_pos ha]; exact wfld_wset_other _ _ _ _ _ _ hl h32 h

theorem State.fld_putFld_other (s : State) (a b hi lo v hi' lo' : Nat) (h : regAlias b ≠ a) :
    (s.putFld a hi lo v).fld b hi' lo' = s.fld b hi' lo' := by
  unfold State.fld; rw [State.reg_putFld, if_neg h]

theorem State.flag_putFld_beside (s : State) (a hi lo v i : Nat) (ha : regAlias a = a) (hl : lo ≤ hi) (h32 : i < 32)
    (h : i < lo ∨ hi < i) : (s.putFld a hi lo v).flag a i = s.flag a i := by
  unfold State.flag; rw [State.reg_putFld, if_pos ha, getLsbD_wset _ _ _ _ _ hl h32]
  rcases h with h | h
  · simp [h]
  · have h1 : ¬ i < lo := by omega
    have h2 : ¬ i ≤ hi := by omega
    simp [h1, h2]

theorem State.flag_putFld_other (s : State) (a b hi lo v i : Nat) (h : regAlias b ≠ a) :
    (s.putFld a hi lo v).flag b i = s.flag b i := by
  unfold State.flag; rw [State.reg_putFld, if_neg h]

theorem State.flag_setFlag_same (s : State) (a i : Nat) (b : Bool) (ha : regAlias a = a) (h32 : i < 32) :
    (s.setFlag a i b).flag a i = b := by
  unfold State.setFlag State.flag; rw [State.reg_putFld, if_pos ha, getLsbD_wset _ _ _ _ _ (le_refl i) h32]
  cases b <;> simp

theorem State.flag_setFlag_beside (s : State) (a i j : Nat) (b : Bool) (ha : regAlias a = a) (h32 : j < 32) (h : j ≠ i) :
    (s.setFlag a i b).flag a j = s.flag a j :=
  State.flag_putFld_beside _ _ _ _ _ _ ha (le_refl i) h32 (by omega)

theorem State.fld_setFlag_beside (s : State) (a i hi lo : Nat) (b : Bool) (ha : regAlias a = a) (h32 : hi < 32)
    (h : hi < i ∨ i < lo) : (s.setFlag a i b).fld a hi lo = s.fld a hi lo :=
  State.fld_putFld_beside _ _ _ _ _ _ _ ha (le_refl i) h32 (by omega)

/-! ### The canonical form of the registers is kept -/

theorem State.setReg_canonical (s : State) (a : Nat) (v : Word) (h : Canonical regReset s.regs) :
    Canonical regReset (s.setReg a v).regs := store_canonical _ _ _ _ h

end Sys2Proof.Machine
end

