-- ==== Sys2Proof/Laws/Frames.lean ====
section
/-! SUPPORT. Frames of the register updates, and what a request to a function and its end make of the control register
(R66, R67). -/

namespace Sys2Proof

open Machine

/-! ### Nothing changes but registers -/

theorem OnlyRegs.refl (as : List Nat) (s : State) : OnlyRegs as s s := ⟨rfl, fun _ _ => rfl⟩

theorem onlyRegs_setReg (s : State) (a : Nat) (v : Word) : OnlyRegs [a] s (s.setReg a v) :=
  ⟨rfl, fun _ hb => State.reg_setReg_other _ _ _ _ (fun e => hb (by simp [e]))⟩

theorem onlyRegs_putFld (s : State) (a hi lo v : Nat) : OnlyRegs [a] s (s.putFld a hi lo v) := onlyRegs_setReg _ _ _

theorem onlyRegs_setFlag (s : State) (a i : Nat) (b : Bool) : OnlyRegs [a] s (s.setFlag a i b) := onlyRegs_setReg _ _ _

theorem OnlyRegs.eq {as : List Nat} {s t : State} (h : OnlyRegs as s t) : t = { s with regs := t.regs } := by
  have h1 := congrArg (fun u : State => ({ u with regs := t.regs } : State)) h.1
  exact h1

theorem OnlyRegs.trans {as bs : List Nat} {s t u : State} (h : OnlyRegs as s t) (k : OnlyRegs bs t u) :
    OnlyRegs (as ++ bs) s u := by
  refine ⟨?_, fun a ha => ?_⟩
  · rw [k.eq, h.eq]
  · rw [List.mem_append, not_or] at ha
    rw [k.2 a ha.2, h.2 a ha.1]

theorem OnlyRegs.mono {as bs : List Nat} {s t : State} (h : OnlyRegs as s t) (hs : ∀ a ∈ as, a ∈ bs) : OnlyRegs bs s t :=
  ⟨h.1, fun a ha => h.2 a (fun e => ha (hs _ e))⟩

/-- Two changes of the same registers. -/
theorem OnlyRegs.trans_same {as : List Nat} {s t u : State} (h : OnlyRegs as s t) (k : OnlyRegs as t u) : OnlyRegs as s u :=
  (h.trans k).mono (by simp)

/-! ### Fields -/

theorem fieldSet_putFld (s : State) (a hi lo v : Nat) (ha : regAlias a = a) (hl : lo ≤ hi) (h32 : hi < 32)
    (hv : v < 2 ^ (hi + 1 - lo)) : FieldSet a hi lo v s (s.putFld a hi lo v) := by
  refine ⟨onlyRegs_putFld _ _ _ _ _, ?_, fun i hi' => ?_⟩
  · rw [State.fld_putFld_same _ _ _ _ _ ha hl h32, Nat.mod_eq_of_lt hv]
  · by_cases h : i < 32
    · exact State.flag_putFld_beside _ _ _ _ _ _ ha hl h hi'
    · unfold State.flag; rw [BitVec.getLsbD_of_ge _ _ (by omega), BitVec.getLsbD_of_ge _ _ (by omega)]

theorem fieldSet_setFlag (s : State) (a i : Nat) (b : Bool) (ha : regAlias a = a) (h32 : i < 32) :
    FieldSet a i i (if b then 1 else 0) s (s.setFlag a i b) :=
  fieldSet_putFld _ _ _ _ _ ha (le_refl i) h32 (by cases b <;> simp)

/-! ### The common state machine (R66, R67) -/

theorem State.fnState_putFld (s : State) (c v : Nat) (hc : regAlias c = c) (hv : v < 8) : (s.putFld c 6 4 v).fnState c = v := by
  unfold State.fnState
  rw [State.fld_putFld_same _ _ _ _ _ hc (by omega) (by omega)]
  exact Nat.mod_eq_of_lt hv

theorem State.fnState_setFlag (s : State) (c i : Nat) (b : Bool) (hc : regAlias c = c) (h : i < 4) :
    (s.setFlag c i b).fnState c = s.fnState c :=
  State.fld_setFlag_beside _ _ _ _ _ _ hc (by omega) (Or.inr (by omega))

theorem State.flag_setFlag (s : State) (c i j : Nat) (b : Bool) (hc : regAlias c = c) (hj : j < 32) :
    (s.setFlag c i b).flag c j = if j = i then b else s.flag c j := by
  split
  · rename_i h; subst h; exact State.flag_setFlag_same _ _ _ _ hc hj
  · rename_i h; exact State.flag_setFlag_beside _ _ _ _ _ hc hj h

theorem State.flag_ge (s : State) (a i : Nat) (h : 32 ≤ i) : s.flag a i = false := BitVec.getLsbD_of_ge _ _ h

theorem Switched.intro {c st : Nat} {p e : Bool} {s t : State} (h : OnlyRegs [c] s t) (h1 : t.fnState c = st)
    (h2 : t.flag c 3 = p) (h3 : t.flag c 2 = e) (h4 : ∀ i, i < 32 → i < 2 ∨ 6 < i → t.flag c i = s.flag c i) :
    Switched c st p e s t :=
  ⟨h, h1, h2, h3, fun i hi => by
    by_cases h5 : i < 32
    · exact h4 i h5 hi
    · rw [State.flag_ge _ _ _ (by omega), State.flag_ge _ _ _ (by omega)]⟩

theorem State.flag_state (s : State) (c v i : Nat) (hc : regAlias c = c) (hi : i < 32) (h : i < 4 ∨ 6 < i) :
    (s.putFld c 6 4 v).flag c i = s.flag c i :=
  State.flag_putFld_beside _ _ _ _ _ _ hc (by omega) hi h

/-- An enable request (R67). -/
theorem switched_enableReq (s : State) (c : Nat) (hc : regAlias c = c) :
    Switched c (if s.fnState c = 0 then 1 else s.fnState c) ((s.flag c 3 && s.fnState c != 0) || s.fnState c == 3) false s
      (s.enableReq c) := by
  have h0 : (s.setFlag c 2 false).fnState c = s.fnState c := State.fnState_setFlag _ _ _ _ hc (by omega)
  have hf : ∀ i, i < 32 → (s.setFlag c 2 false).flag c i = if i = 2 then false else s.flag c i :=
    fun i hi => State.flag_setFlag _ _ _ _ _ hc hi
  have o0 : OnlyRegs [c] s (s.setFlag c 2 false) := onlyRegs_setFlag _ _ _ _
  by_cases e0 : s.fnState c = 0
  · have e : s.enableReq c = ((s.setFlag c 2 false).setFlag c 3 false).putFld c 6 4 1 := by simp only [State.enableReq, h0, e0]
    have hg : ∀ i, i < 32 → ((s.setFlag c 2 false).setFlag c 3 false).flag c i =
        if i = 3 then false else (s.setFlag c 2 false).flag c i := fun i hi => State.flag_setFlag _ _ _ _ _ hc hi
    rw [e]
    refine Switched.intro ((o0.trans_same (onlyRegs_setFlag _ _ _ _)).trans_same (onlyRegs_putFld _ _ _ _ _)) ?_ ?_ ?_ ?_
    · rw [State.fnState_putFld _ _ _ hc (by omega)]; simp [e0]
    · rw [State.flag_state _ _ _ _ hc (by omega) (by omega), hg _ (by omega)]; simp [e0]
    · rw [State.flag_state _ _ _ _ hc (by omega) (by omega), hg _ (by omega), hf _ (by omega)]; simp
    · intro i hi h2
      rw [State.flag_state _ _ _ _ hc hi (by omega), hg _ hi, hf _ hi, if_neg (by omega), if_neg (by omega)]
  by_cases e3 : s.fnState c = 3
  · have e : s.enableReq c = (s.setFlag c 2 false).setFlag c 3 true := by simp only [State.enableReq, h0, e3]
    rw [e]
    refine Switched.intro (o0.trans_same (onlyRegs_setFlag _ _ _ _)) ?_ ?_ ?_ ?_
    · rw [State.fnState_setFlag _ _ _ _ hc (by omega), h0, if_neg e0]
    · rw [State.flag_setFlag _ _ _ _ _ hc (by omega)]; simp [e3]
    · rw [State.flag_setFlag _ _ _ _ _ hc (by omega), hf _ (by omega)]; simp
    · intro i hi h2
      rw [State.flag_setFlag _ _ _ _ _ hc hi, hf _ hi, if_neg (by omega), if_neg (by omega)]
  · have e : s.enableReq c = s.setFlag c 2 false := by
      unfold State.enableReq; simp only [h0]
    rw [e]
    refine Switched.intro o0 ?_ ?_ ?_ ?_
    · rw [h0, if_neg e0]
    · have b0 : (s.fnState c != 0) = true := by simpa using e0
      have b3 : (s.fnState c == 3) = false := by simpa using e3
      rw [hf _ (by omega), b0, b3]; simp
    · rw [hf _ (by omega)]; simp
    · intro i hi h2
      rw [hf _ hi, if_neg (by omega)]

/-- A disable request (R67). -/
theorem switched_disableReq (s : State) (c : Nat) (hc : regAlias c = c) :
    Switched c (if s.fnState c = 1 ∨ s.fnState c = 2 then 3 else s.fnState c) (s.flag c 3 && s.fnState c != 3) (s.flag c 2) s
      (s.disableReq c) := by
  by_cases e3 : s.fnState c = 3
  · have e : s.disableReq c = s.setFlag c 3 false := by simp only [State.disableReq, e3]
    rw [e]
    refine Switched.intro (onlyRegs_setFlag _ _ _ _) ?_ ?_ ?_ ?_
    · rw [State.fnState_setFlag _ _ _ _ hc (by omega)]; simp [e3]
    · rw [State.flag_setFlag _ _ _ _ _ hc (by omega)]; simp [e3]
    · rw [State.flag_setFlag _ _ _ _ _ hc (by omega)]; simp
    · intro i hi h2; rw [State.flag_setFlag _ _ _ _ _ hc hi, if_neg (by omega)]
  by_cases e12 : s.fnState c = 1 ∨ s.fnState c = 2
  · have e : s.disableReq c = s.putFld c 6 4 3 := by
      rcases e12 with e | e <;> simp only [State.disableReq, e]
    rw [e]
    refine Switched.intro (onlyRegs_putFld _ _ _ _ _) ?_ ?_ ?_ ?_
    · rw [State.fnState_putFld _ _ _ hc (by omega), if_pos e12]
    · rw [State.flag_state _ _ _ _ hc (by omega) (by omega)]; simp [e3]
    · rw [State.flag_state _ _ _ _ hc (by omega) (by omega)]
    · intro i hi h2; rw [State.flag_state _ _ _ _ hc hi (by omega)]
  · have e : s.disableReq c = s := by
      unfold State.disableReq
      split
      · rename_i h; exact absurd (Or.inl h) e12
      · rename_i h; exact absurd (Or.inr h) e12
      · rename_i h; exact absurd h e3
      · rfl
    rw [e]
    refine Switched.intro (OnlyRegs.refl _ _) ?_ ?_ rfl (fun _ _ _ => rfl)
    · rw [if_neg e12]
    · simp [e3]

/-- ENABLING ends (R67). -/
theorem switched_enablingEnd (s : State) (c : Nat) (ok : Bool) (hc : regAlias c = c) :
    Switched c (if ok then 2 else 0) (s.flag c 3) (s.flag c 2 || !ok) s (s.enablingEnd c ok) := by
  unfold State.enablingEnd
  cases ok
  · simp only [Bool.false_eq_true, if_false]
    refine Switched.intro ((onlyRegs_putFld _ _ _ _ _).trans_same (onlyRegs_setFlag _ _ _ _)) ?_ ?_ ?_ ?_
    · rw [State.fnState_setFlag _ _ _ _ hc (by omega), State.fnState_putFld _ _ _ hc (by omega)]
    · rw [State.flag_setFlag _ _ _ _ _ hc (by omega), State.flag_state _ _ _ _ hc (by omega) (by omega)]; simp
    · rw [State.flag_setFlag _ _ _ _ _ hc (by omega)]; simp
    · intro i hi h2
      rw [State.flag_setFlag _ _ _ _ _ hc hi, State.flag_state _ _ _ _ hc hi (by omega), if_neg (by omega)]
  · simp only [if_true]
    refine Switched.intro (onlyRegs_putFld _ _ _ _ _) ?_ ?_ ?_ ?_
    · rw [State.fnState_putFld _ _ _ hc (by omega)]
    · rw [State.flag_state _ _ _ _ hc (by omega) (by omega)]
    · rw [State.flag_state _ _ _ _ hc (by omega) (by omega)]; simp
    · intro i hi h2; rw [State.flag_state _ _ _ _ hc hi (by omega)]

/-- DISABLING ends: a latched enable stays latched in OFF (R67). -/
theorem switched_disablingEnd (s : State) (c : Nat) (hc : regAlias c = c) :
    Switched c 0 (s.flag c 3) (s.flag c 2) s (s.disablingEnd c) := by
  refine Switched.intro (onlyRegs_putFld _ _ _ _ _) ?_ ?_ ?_ ?_
  · exact State.fnState_putFld _ _ _ hc (by omega)
  · exact State.flag_state _ _ _ _ hc (by omega) (by omega)
  · exact State.flag_state _ _ _ _ hc (by omega) (by omega)
  · intro i hi h2; exact State.flag_state _ _ _ _ hc hi (by omega)

end Sys2Proof
end

