-- ==== Sys2Proof/Tests/Slice0.lean ====
section
/-! SUPPORT. Tests: a state that meets the hypotheses of each statement, ill-formed commands that each check refuses, and single
steps on small states. -/

open Sys2Proof Sys2Proof.Machine

namespace Sys2Proof.Tests

set_option Elab.async false

/-! ### Small states -/

/-- Registers set one after another. -/
def put (s : State) (l : List (Nat × Word)) : State := l.foldl (fun s x => s.setReg x.1 x.2) s

/-- The dies run. -/
def running (l : List Nat) : List (Nat × Word) := l.map (fun d => (Reg.tdDie d, 0x200))

/-- A module at stage 5 in which some dies run. -/
def lab : State := put State.reset ((Reg.smBoot, 0x50000000) :: running [0, 16, 23, 80, 88])

/-- A state that lists nothing but registers is well formed when they are. -/
theorem wf_of_regs {s : State} (h : Registers.wf s.regs) (e : s.mem = [] ∧ s.poison = [] ∧ s.tb = [] ∧ s.vr = [] ∧ s.wAct = [] ∧
    s.wShd = [] ∧
    s.mbx = [] ∧ s.sm.imgFlash = [] ∧ s.sm.journal = []) : s.Wf := by
  obtain ⟨e1, e2, e3, e4, e5, e6, e7, e8, e9⟩ := e
  constructor <;> first | exact h | simp only [e1, e2, e3, e4, e5, e6, e7, e8, e9] <;> decide

/-- A course pair is ON with its link up, at both ends. -/
def trained (s : State) (l : List (Nat × Nat)) : State :=
  put s (l.flatMap (fun e => (pairEnds e.1 e.2).flatMap (fun x => [(Reg.cpCtrl x.1 x.2, 0x20), (Reg.cpStatus x.1 x.2, 0x300)])))

/-- IO0 reaches CD0 and CD0 answers. -/
def wired : State := (trained lab [(88, 0)]).loadRoute 0 88

/-- A descriptor of one shard with these fields, by their lowest bits. -/
def desc (l : List (Nat × Nat)) : Desc := BitVec.ofNat 512 (2 ^ 108 + (l.map (fun x => 2 ^ x.1 * x.2)).sum)

/-- A descriptor of ring 5, number 7, in the module. -/
def work (target : Word) (d : Desc) (ph : Phase) : Flight :=
  { fid := 7, ring := 5, place := (0, 5, 7), start := 1, index := 0, desc := d, target := target, step := 0, lenSrc := false,
    seed := 0, stream := 0, mover := 0, parent := none, level := 0, remote := none, expect := 0, mods := [], phase := ph,
    res := Flight.noRes, recs := [], vals := [], rows := 0 }

/-- The state holds this descriptor alone. -/
def holding (s : State) (f : Flight) : State := { s with flights := [f], nextFid := 8 }

/-- EP0 of CD0, its mover group and its die controller. -/
def ep0 : Word := 0
def mv0 : Word := 0x1800
def dc0 : Word := 0x1C00
/-! ### Witnesses: the queue, rings and units -/

theorem test_wit_StepRunsFront : ({ lab with pending := [.hbmRefresh 0] } : State).pending = .hbmRefresh 0 :: [] := rfl
theorem test_wit_IdleStepCountsTimers : lab.pending = [] ∧ lab.latched = [] ∧ lab.fab.guards = [] ∧ lab.dieState 80 = 2 ∧
    lab.dieState 81 ≠ 2 ∧
    (let s : State := { lab with host := { lab.host with stimecmp := [(0, 5)] } }
     (0, 5) ∈ s.host.stimecmp ∧ (∀ p ∈ s.host.stimecmp, p.1 = 0 → p = (0, 5)) ∧ s.dieState (hartDie 0) = 2 ∧
     s.dieState (hartDie 24) ≠ 2 ∧
     ∀ p ∈ s.host.stimecmp, p.1 ≠ 1) := by decide +kernel
theorem test_wit_IdleStepCountsTimers_latched :
    (put lab [(ringContext 5 + 0x18, 0x8)]).latched = [.ring 5] ∧ (put lab [(Reg.mvCtrl 0 3, 0x8)]).latched = [.mover 0 3] ∧
    (put lab [(ringContext 5 + 0x18, 0x8)]).Wf ∧ (put lab [(Reg.mvCtrl 0 3, 0x8)]).Wf :=
  ⟨by decide +kernel, by decide +kernel, wf_of_regs (by decide +kernel) (by decide +kernel),
    wf_of_regs (by decide +kernel) (by decide +kernel)⟩
theorem test_wit_IdleStepCountsTimers_pairs :
    (put lab [(Reg.maCtrl 0 3, 0x208)]).latched = [.enginePair 0 3] ∧
    (put lab [(Reg.maCtrl 0 3, 0x208)]).fld (Reg.maCtrl 0 3) 9 8 ≠ 3 ∧
    (put lab [(Reg.maCtrl 0 3, 0x308)]).latched = [.enginePair 0 3] ∧
    (put lab [(Reg.maCtrl 0 3, 0x308)]).fld (Reg.maCtrl 0 3) 9 8 = 3 ∧
    (put lab [(Reg.cpCtrl 88 0, 0x8)]).latched = [.coursePair 88 0] ∧ pairAttached 88 0 = true ∧
    (put lab [(Reg.maCtrl 0 3, 0x208)]).Wf ∧ (put lab [(Reg.maCtrl 0 3, 0x308)]).Wf ∧ (put lab [(Reg.cpCtrl 88 0, 0x8)]).Wf :=
  ⟨by decide +kernel, by decide +kernel, by decide +kernel, by decide +kernel, by decide +kernel, by decide +kernel,
    wf_of_regs (by decide +kernel) (by decide +kernel), wf_of_regs (by decide +kernel) (by decide +kernel),
    wf_of_regs (by decide +kernel) (by decide +kernel)⟩
theorem test_wit_StepKeepsWf : State.reset.Wf ∧ ∃ t, step State.reset = .next t :=
  ⟨⟨by decide, by decide, by decide, by decide, by decide, by decide, by decide, by decide, by decide, by decide⟩, _, rfl⟩
theorem test_wit_CommandsKeepQueue : ∃ t, exec (.hbmRefresh 0) lab = .next t := ⟨_, rfl⟩
theorem test_wit_DoorbellFollowsR36 : lab.dieDown 97 = false := by decide +kernel
theorem test_wit_RequestsFollowR67 : (4095 < 4096 ∧ lab.dieDown (ringDie 4095) = false) ∧ (39 < 40 ∧ 3 < 4 ∧
    lab.dieDown 39 = false) ∧
    (39 < 40 ∧ 5 < 6 ∧ lab.dieDown 39 = false) := by decide +kernel
theorem test_wit_FunctionsEndAsR67_enabling : lab.dieDown (ringDie 4095) = false ∧
    (put lab [(ringContext 4095 + 0x18, 0x10)]).fnState (ringContext 4095 + 0x18) = 1 := by decide +kernel
theorem test_wit_FunctionsEndAsR67_ring : lab.dieDown (ringDie 5) = false ∧ lab.ringFlights 5 = [] ∧
    (put lab [(ringContext 5 + 0x18, 0x30)]).fnState (ringContext 5 + 0x18) = 3 := by decide +kernel
theorem test_wit_FunctionsEndAsR67_mover : (put lab [(Reg.mvCtrl 39 3, 0x10)]).fnState (Reg.mvCtrl 39 3) = 1 ∧
    (put lab [(Reg.mvCtrl 39 3, 0x30)]).fnState (Reg.mvCtrl 39 3) = 3 ∧
    (∀ f ∈ lab.flights, onMover 39 3 f = true → f.inWork = false) := by decide +kernel
theorem test_wit_FunctionsEndAsR67_enginePair :
    ((put lab [(Reg.maCtrl 39 5, 0x310)]).fnState (Reg.maCtrl 39 5) = 1 ∧
    (put lab [(Reg.maCtrl 39 5, 0x310)]).fld (Reg.maCtrl 39 5) 9 8 = 3) ∧
    ((put lab [(Reg.maCtrl 39 5, 0x210)]).fnState (Reg.maCtrl 39 5) = 1 ∧
    (put lab [(Reg.maCtrl 39 5, 0x210)]).fld (Reg.maCtrl 39 5) 9 8 ≠ 3) ∧
    (put lab [(Reg.maCtrl 39 5, 0x30)]).fnState (Reg.maCtrl 39 5) = 3 ∧
    (∀ f ∈ lab.flights, onEp 39 5 f = true → f.inWork = false) := by decide +kernel
theorem test_wit_RingCountersFollowR33 : ringBearing 97 = true ∧ ringBearing 79 = false ∧ lab.dieDown (ringDie 4095) = false ∧
    lab.dieDown 97 = false ∧
    (97, 255) ∈ ({ lab with sigQ := [(97, 255)] } : State).sigQ := by decide +kernel

/-- Ring 5 of CD0 is ON with one descriptor of 64 bytes ahead, at the bottom of the die's HBM. -/
def ringOn : State := put lab [(ringContext 5 + 0x18, 0x20), (ringContext 5 + 0x08, 0x40004), (ringContext 5 + 0x20, 1),
  (ringContext 5, 0x1000), (ringContext 5 + 0x10, 0x2000)]

theorem test_wit_FetchFollowsR37 : ((lab.fnState (ringContext 5 + 0x18) ≠ 2) ∧ ringOn.mayFetch 5 = true ∧
    ∀ g ∈ ringOn.flights, g.fid < ringOn.nextFid) ∧ ∃ u, ringOn.dcRead (ringDie 5) 0x1000 64 = .data u (List.replicate 64 0) := by
  have k : (match ringOn.dcRead (ringDie 5) 0x1000 64 with
    | .data _ b => b == List.replicate 64 0
    | _ => false) = true := by decide +kernel
  refine ⟨by decide +kernel, ?_⟩
  revert k
  cases ringOn.dcRead (ringDie 5) 0x1000 64 with
  | data u b => exact fun k => ⟨u, by rw [eq_of_beq k]⟩
  | _ => exact fun k => by cases k
theorem test_wit_RingFaultsFollowR465_fetch : (put ringOn [(ringContext 5 + 4, 0xFFFF)]).mayFetch 5 = true ∧
    (put ringOn [(ringContext 5 + 4, 0xFFFF)]).dcRead (ringDie 5) 0xFFFF00001000 64 = .bad stAddrFault := by decide +kernel
/-- A NOP for EP0, and one that asks for a record. -/
def nopWork (ph : Phase) : Flight := work ep0 (desc []) ph
def recWork (ph : Phase) : Flight := work ep0 (desc [(36, 1)]) ph

theorem test_wit_RingFaultsFollowR465_record :
    let s := holding (put ringOn [(ringContext 5 + 0x14, 0xFFFF)]) (recWork .completed)
    let f := recWork .completed
    f.ring < 4096 ∧ s.flight f.fid = some f ∧ f.phase = .completed ∧ s.ringFlights f.ring = [f] ∧
    recordDue (dCmpl f.desc) f.res.status.toNat = true ∧ s.recordFault f.ring = true := by decide +kernel

/-- The engine pair is ON, and so is every domain. -/
def epOn : State := put ringOn [(Reg.maCtrl 0 0, 0x20)]

theorem test_wit_StartFollowsR39_abort : (holding epOn (nopWork .waiting)).ready (nopWork .waiting) = true ∧
    (put (holding epOn (nopWork .waiting)) [(Reg.dcAbort 0, 0x80000000)]).stepAborted 0 (nopWork .waiting).desc = true ∧
    (holding epOn (nopWork .waiting)).stepAborted 0 (nopWork .waiting).desc = false := by decide +kernel
theorem test_wit_StartFollowsR39_lost : (put (holding epOn (nopWork .waiting)) [(Reg.tdDie 0, 0x300)]).dieState 0 = 3 :=
    by decide +kernel
theorem test_wit_StartFollowsR39_states : epOn.fnState (Reg.pwDom 0) ≠ 1 ∧ epOn.fnState (Reg.pwDom 0) ≠ 3 ∧
    epOn.unitState (nopWork .waiting) = 2 ∧ lab.unitState (nopWork .waiting) = 0 ∧
    (put epOn [(Reg.maCtrl 0 0, 0x10)]).unitState (nopWork .waiting) = 1 ∧
    (put epOn [(Reg.pwDom 0, 0x10)]).fnState (Reg.pwDom 0) = 1 := by
  decide +kernel
theorem test_wit_StartFollowsR39_runs :
    let f := nopWork .waiting
    let s := holding epOn f
    s.myTurn f = true ∧ s.controllerBusy f = false ∧ s.bodyChecks f = some [none] ∧ s.groupLost f = false ∧
    lowest (headerChecks f.desc ++ [none] ++ s.peekChecks f (headerChecks f.desc ++ [none])) = none ∧ firstReads f = [] ∧
    groupField f.desc = none := by
  decide +kernel
theorem test_wit_StartFollowsR39_invalid :
    let f := work ep0 (desc [(14, 1)]) .waiting
    let s := holding epOn f
    s.myTurn f = true ∧ s.bodyChecks f = some [none] ∧ s.peekWaits f (headerChecks f.desc ++ [none]) = none ∧
    lowest (headerChecks f.desc ++ [none] ++ s.peekChecks f (headerChecks f.desc ++ [none])) = some 14 ∧
    (holding epOn (work ep0 (desc [(0, 0x77)]) .waiting)).bodyChecks (work ep0 (desc [(0, 0x77)]) .waiting) = none := by
  decide +kernel

/-! ### Witnesses: what the classes do, completion, records, slots, entries, gangs -/

/-- A started descriptor of a class on EP0 of CD0; its other fields are zero. -/
def started (c : Nat) : Flight := work ep0 (desc [(0, c)]) .started
/-- The state that holds it, with the unit ON. -/
def starts (c : Nat) : State := holding epOn (started c)
/-- A run is served, as the statements on the classes ask. -/
def serves (x : Run × Nat) : Bool := !x.1.stop && x.1.far.isEmpty && x.1.ext.isEmpty

theorem test_wit_MatrixClassesComplete :
    ([0x10, 0x11, 0x12, 0x40] : List Nat).all (fun c => (starts c).flight 7 == some (started c) && dClass (started c).desc == c &&
      !(starts c).held (started c)) = true ∧
    serves ((starts 0x10).matmulRun (started 0x10)) = true ∧ serves ((starts 0x11).matmulMxRun (started 0x11)) = true ∧
    serves ((starts 0x12).elementwiseRun (started 0x12)) = true ∧ serves ((starts 0x40).convRun (started 0x40)) = true := by
  decide +kernel
theorem test_wit_VectorClassesComplete_engine :
    ([0x20, 0x21, 0x30, 0x31, 0x32, 0x33, 0x34] : List Nat).all (fun c => (starts c).flight 7 == some (started c) &&
      dClass (started c).desc == c && !(starts c).held (started c)) = true ∧
    serves ((starts 0x20).vectorRun (started 0x20) []) = true ∧ serves ((starts 0x21).vectorRun (started 0x21) []) = true ∧
    serves ((starts 0x30).smrowRun (started 0x30)) = true ∧ serves ((starts 0x31).smmergeRun (started 0x31)) = true ∧
    serves ((starts 0x32).normRun (started 0x32)) = true ∧ serves ((starts 0x33).xentRun (started 0x33)) = true ∧
    serves ((starts 0x34).attstepRun (started 0x34) []) = true := by decide +kernel
theorem test_wit_VectorClassesComplete_rest :
    ([0x41, 0x42, 0x60, 0x61, 0x62] : List Nat).all (fun c => (starts c).flight 7 == some (started c) &&
      dClass (started c).desc == c && !(starts c).held (started c)) = true ∧
    serves ((starts 0x41).resampleRun (started 0x41)) = true ∧ serves ((starts 0x42).regroupRun (started 0x42)) = true ∧
    serves ((starts 0x60).gnormRun (started 0x60)) = true ∧ serves ((starts 0x61).updateRun (started 0x61)) = true ∧
    serves ((starts 0x62).wcopyRun (started 0x62)) = true := by decide +kernel
theorem test_wit_OtherClassesComplete_memory :
    ([0x50, 0x51, 0x54, 0x55, 0x63, 0x69] : List Nat).all (fun c => (starts c).flight 7 == some (started c) &&
      dClass (started c).desc == c && !(starts c).held (started c)) = true ∧ (starts 0x50).movesFar (started 0x50) = false ∧
    serves ((starts 0x50).moveRun (started 0x50)) = true ∧ serves ((starts 0x51).msopDescRun (started 0x51)) = true ∧
    serves ((starts 0x54).spillRun (started 0x54)) = true ∧ serves ((starts 0x55).recallRun (started 0x55)) = true ∧
    serves ((starts 0x63).slotloadRun (started 0x63)) = true ∧ serves ((starts 0x69).slotimgRun (started 0x69)) = true := by
  decide +kernel
theorem test_wit_OtherClassesComplete_rest :
    ([0x00, 0x48, 0x70, 0x80, 0x81] : List Nat).all (fun c => (starts c).flight 7 == some (started c) &&
      dClass (started c).desc == c && !(starts c).held (started c)) = true ∧
    serves ((starts 0x70).putRun (started 0x70)) = true ∧ serves ((starts 0x81).hfillRun (started 0x81)) = true ∧
    (starts 0x80).flag (biasCtrl 0) 31 = false ∧ (let x := (starts 0x80).biasflipRun (started 0x80); serves (x.1.1, x.2) = true) ∧
    serves (((starts 0x48).putFld (Reg.vdFault 0 0) 27 24 0).decodeRun (started 0x48) none) = true := by decide +kernel

/-- Port 0 is up with credits; flow 10 (context 1 of IO0) is ON to module 1 over it; CD0 and IO0 reach one another. -/
def net : State :=
  let s := put wired [(Reg.fbPortStat 88 0, 3), (Reg.fbFlowCtrl 88 1, 0x3020), (Reg.fbFlowPeer 88 1, 1),
    (Reg.fbFlowRoute 88 1 0, 8064), (Reg.dcFdest 0 1, 0x8000000A), (Reg.maCtrl 0 0, 0x20)]
  { s with fab := { s.fab with credits := [(0, [4096, 4096, 2048, 2048, 64, 64])] } }

/-- A MOVE that fills 64 bytes of module 1's HBM. -/
def farFill : Flight := work mv0 (desc [(0, 0x50), (192, 2 ^ 48), (384, 64), (408, 1), (496, 1), (497, 1)]) .started

theorem test_wit_OtherClassesComplete_far :
    let s := holding net farFill
    let x := ((movePlan farFill).fin (s.moveFarRow farFill), (movePlan farFill).cycles)
    s.flight 7 = some farFill ∧ s.held farFill = false ∧ s.movesFar farFill = true ∧ s.awaitsAck 7 = false ∧
    stopsMover farFill.res.status.toNat = false ∧ lastFarRow farFill = true ∧ serves x = true := by decide +kernel

/-- Ended with FLOW_TIMEOUT (0x30). -/
def failed (f : Flight) : Flight := { f with phase := .done, res := { Flight.noRes with status := 0x30 } }
def stops (s : State) : State := s.setFlag (ringContext 5 + 0x18) 10 true

theorem test_wit_CompletionFollowsR44_plain :
    let f := nopWork .done
    let s := holding ringOn f
    f.ring < 4096 ∧ s.flight 7 = some f ∧ s.awaitsAck 7 = false ∧ f.parent = none ∧ f.remote = none ∧ f.res.merges = [] ∧
    s.ringFlights 5 = [f] ∧ recordDue (dCmpl f.desc) f.res.status.toNat = false ∧
    (stops (holding ringOn (failed f))).flag (ringContext 5 + 0x18) 10 = true ∧
    0x10 ≤ (failed f).res.status.toNat := by decide +kernel
theorem test_wit_CompletionFollowsR44_record :
    let f := recWork .done
    let s := holding ringOn f
    let u := (s.setFlight { f with phase := .completed }).evalDie (hDie f.target)
    s.ringFlights 5 = [f] ∧ recordDue (dCmpl f.desc) f.res.status.toNat = true ∧
    ¬ (0x10 ≤ f.res.status.toNat ∧ s.flag (ringContext 5 + 0x18) 10 = true) ∧
    u.recordFault f.ring = false ∧ u.extHolder (u.recordAddr f.ring / 64) (some (.controller (ringDie f.ring))) = none :=
    by decide +kernel
theorem test_wit_RecordsHaveTheLayoutOfR50 : (255 < 256 ∧ 65535 < 65536 ∧ 63 < 64) ∧ (0 < 256 ∧ 0 < 65536 ∧ 0 < 64) := by decide
theorem test_wit_SlotsFollowR90 : 97 < 98 ∧ 63 < rmSlotsOn 97 ∧ lab.dieDown 97 = false ∧
    lab.flag (Reg.ruRmCtrl 97 63) 28 = false := by decide +kernel
theorem test_wit_EntriesFollowR58 : (0 < 98 ∧ 102 < gangSlotsOn 0 ∧ lab.dieDown 0 = false) ∧
    (39 < 40 ∧ 101 < gangSlotsOn 39 ∧ lab.dieDown 39 = false) ∧ (4095 < 4096 ∧ lab.controls = true) := by decide +kernel

/-- Gang 0 of CD0 has two members, EP0 and EP1 of CD0, and the split rule. -/
def ganged : State := put epOn [(Reg.dcGangCtrl 0 0, 0x81000002), (Reg.dcGangMember 0 0 0, 0), (Reg.dcGangMember 0 0 1, 0x400)]
/-- A NOP for gang 0. -/
def gangWork (l : List (Nat × Nat)) (ph : Phase) : Flight := work 0x100000 (desc l) ph

theorem test_wit_FanoutFollowsR61_general :
    let f := gangWork [] .waiting
    let s := holding ganged f
    s.flight 7 = some f ∧ hGang f.target = true ∧ s.ready f = true ∧ (put s [(Reg.tdDie 0, 0x300)]).dieLost 0 = true ∧
    (put s [(Reg.tdDie 0, 0x300)]).ready f = true ∧ (put s [(Reg.dcAbort 0, 0x80000000)]).stepAborted 0 f.desc = true ∧
    s.dieLost 0 = false ∧ (put s [(Reg.pwDom 0, 0x10)]).fnState (Reg.pwDom 0) = 1 ∧ s.stepAborted 0 f.desc = false ∧
    (put s [(Reg.pwDom 0, 0x30)]).domainGone 0 = true := by decide +kernel
theorem test_wit_FanoutFollowsR61_refused :
    let f := gangWork [] .waiting
    let g := gangWork [(48, 1), (49, 79)] .waiting
    (put (holding ganged f) [(Reg.dcGangCtrl 0 0, 0)]).gangRefuses f = true ∧ (holding ganged f).gangRefuses f = false ∧
    (holding ganged g).gangRefuses g = false ∧ badSignal g = true := by decide +kernel
theorem test_wit_FanoutFollowsR61_fans :
    let f := gangWork [] .waiting
    let s := holding ganged f
    s.domainGone 0 = false ∧ s.fnState (Reg.pwDom 0) ≠ 1 ∧ s.gangValid 0 = true ∧ badSignal f = false ∧
    s.gangMcount 0 = 0 ∧ f.remote = none ∧ s.gangCount 0 = 2 ∧ hGang (s.gangMember 0 0) = false ∧ hGang (s.gangMember 0 1) = false ∧
    dShardN f.desc * 2 ≤ 1048575 ∧ dShardIx f.desc < dShardN f.desc := by decide +kernel
theorem test_wit_FanoutFollowsR61_room : (holding ganged (gangWork [] .waiting)).hasRoom (gangWork [] .waiting) = true := by
  have h : (holding ganged (gangWork [] .waiting)).reserved 0 + (holding ganged (gangWork [] .waiting)).reportsOf (gangWork [] .waiting)
      ≤ 98304 := by decide +kernel
  exact decide_eq_true (Nat.le_trans h (Nat.le_add_right _ _))
/-- A gang that has taken all the report space of CD0. -/
def gangFull : Flight := { gangWork [] .started with fid := 8, expect := reportSpace 0 }
theorem test_wit_FanoutFollowsR61_full :
    ({ ganged with flights := [gangWork [] .waiting, gangFull] } : State).hasRoom (gangWork [] .waiting) = false := by
  have h : ({ ganged with flights := [gangWork [] .waiting, gangFull] } : State).reportsOf (gangWork [] .waiting) = 2 :=
    by decide +kernel
  have e : ({ ganged with flights := [gangWork [] .waiting, gangFull] } : State).reserved 0 = reportSpace 0 := Nat.add_zero _
  have k : ¬ reportSpace 0 + 2 ≤ reportSpace 0 := by omega
  exact decide_eq_false (fun x => k (h ▸ e ▸ x : reportSpace 0 + 2 ≤ reportSpace 0))

/-- The gang's descriptor waits for two reports; its first member has completed. -/
def gangWaits : Flight := { gangWork [] .started with expect := 2 }
def member0 : Flight := { work ep0 (desc []) .completed with fid := 8, parent := some (7, 0) }
def reported : State := { ganged with flights := [gangWaits, member0], nextFid := 9 }

theorem test_wit_ReportsFollowR63_first : reported.flight 7 = some gangWaits ∧ gangWaits.phase = .started ∧
    hGang gangWaits.target = true ∧
    gangWaits.remote = none ∧ gangWaits.parent = none ∧ (∀ x ∈ reported.reports, ¬ (x.gang = 7 ∧ x.member = 0)) ∧
    reported.flights.find? (fun x => decide (x.parent = some (7, 0)) && x.completed) = some member0 ∧ member0.fid ≠ 7 ∧
    (reported.reports.filter (fun x : Report => decide (x.gang = 7)) ++ [(⟨7, 0,
    member0.res⟩ : Report)]).length < gangWaits.expect := by decide +kernel
theorem test_wit_ReportsFollowR63_last :
    let s : State := { reported with reports := [⟨7, 1, Flight.noRes⟩] }
    (∀ x ∈ s.reports, ¬ (x.gang = 7 ∧ x.member = 0)) ∧
    ¬ (s.reports.filter (fun x : Report => decide (x.gang = 7)) ++ [(⟨7, 0, member0.res⟩ : Report)]).length < gangWaits.expect :=
    by decide +kernel
theorem test_wit_ReportsFollowR63_statuses :
    let r (st : BitVec 8) : Report := ⟨7, 0, { Flight.noRes with status := st }⟩
    (∃ x ∈ [r 0x10], 0x10 ≤ x.res.status.toNat) ∧ (∀ x ∈ [r 3], x.res.status.toNat < 0x10) ∧ (∃ x ∈ [r 3], x.res.status.toNat = 3) ∧
    (∀ x ∈ [r 1], x.res.status.toNat ≠ 3) ∧ (∃ x ∈ [r 1], x.res.status.toNat = 1) ∧ (∀ x ∈ [r 2], x.res.status.toNat = 2) ∧
    (∀ x ∈ [r 0, r 2], x.res.status.toNat ≠ 3 ∧ x.res.status.toNat ≠ 1) ∧
    (∃ x ∈ [r 0, r 2], x.res.status.toNat ≠ 2) := by decide +kernel

theorem test_wit_UnitFaultsEnd_matrix :
    let f := { started 0x10 with phase := .faulted 0x60 0 [5] }
    (holding epOn f).flight 7 = some f ∧ matClass (dClass f.desc) = true ∧ matKeeps f.desc = false ∧
    (∀ l ∈ ([5] : List Nat), 64 * l / 2 ^ 48 = (holding epOn f).moduleId) ∧ hDie f.target < 40 ∧ hSlot f.target < 6 ∧
    (starts 0x10).held (started 0x10) = false := by decide +kernel
theorem test_wit_UnitFaultsEnd_rest :
    let v := { failed (started 0x20) with phase := .faulted 0x60 0 [] }
    let m := { failed (work mv0 (desc [(0, 0x50)]) .started) with phase := .faulted 0x60 0 [] }
    (holding epOn v).flight 7 = some v ∧ 0x10 ≤ v.res.status.toNat ∧ v.res.status ≠ 0x50 ∧ v.ring < 4096 ∧
    matClass (dClass v.desc) = false ∧ hDie v.target < 40 ∧ hSlot v.target < 6 ∧ (holding epOn m).flight 7 = some m ∧
    moverClass (dClass m.desc) = true ∧ hDie m.target < 40 := by decide +kernel

/-! ### Witnesses: memory, mailbox, host cores -/

theorem test_wit_RequestsFollowR234 : (isHbm 0x40 = true ∧ lab.meets (ownerDie 0x40) 0x40 (some (.home (ownerDie 0x40))) = none ∧
    lab.extHolder 1 (some (.home (ownerDie 0x40))) = none ∧ 0x40 % 64 + 64 ≤ 64) ∧
    (39 < 40 ∧ 0x7FFFFFF < 0x8000000 ∧ (put lab (running [39])).dieDown 39 = false ∧
    (put lab (running [39])).flag (Reg.wmCtrl 39) 1 = false ∧
      (0x0C0000000000 + 0x100000000 * 39 + 0x7FFFFFF) % 64 + 1 ≤ 64) := by decide +kernel
theorem test_wit_ErrorsFollowR235 : lab.dieDown 0 = false ∧ lab.flag (Reg.hcCtrl 0) 0 = false ∧ lab.scrubAt 0 < 1610612736 ∧
    lab.flag (Reg.wmCtrl 0) 1 = false ∧ lab.linePoisoned ((0x0C0000000000 + 0x7FFFFFF) / 64) = false ∧
    ({ lab with scrubPos := [(0, 1610612735)] } : State).scrubAt 0 = 1610612735 := by decide +kernel
theorem test_wit_OperationsFollowR252 : isHbm 0x40 = true ∧ (List.replicate 64 (0 : Byte)).length = 64 ∧ msopSize 0x31 = some 8 ∧
    msopSize 0x21 = some 4 ∧ msopSize 0x01 = some 4 ∧ msopSize 0x16 = some 8 ∧ msopSize 0 = none ∧
    lab.meets (ownerDie 0x40) 0x40 (some (.home (ownerDie 0x40))) = none ∧
    lab.extHolder 1 (some (.home (ownerDie 0x40))) = none := by
  decide +kernel

/-- Stack 0 is in maintenance, and drained. -/
def maint : State := put lab [(Reg.hcCtrl 0, 3)]
/-- A repair of 16 lines of stack 0 runs. -/
def repair : Repair := ⟨0, true, (List.range 16).map (fun l => (l, List.replicate 64 0, false))⟩
theorem test_wit_StackServiceFollowsR238 : maint.dieDown 0 = false ∧ maint.flag (Reg.hcCtrl 0) 0 = true ∧
    maint.flag (Reg.hcCtrl 0) 1 = true ∧
    (put maint [(Reg.hcW1500Ctrl 40, 0x10400)]).flag (Reg.hcW1500Ctrl 40) 16 = true ∧
    (put maint [(Reg.hcW1500Ctrl 40, 0x10400)]).fld (Reg.hcW1500Ctrl 40) 10 0 = 1024 := by decide +kernel
theorem test_wit_StackServiceFollowsR238_repair :
    ({ maint with ppr := [repair] } : State).ppr.find? (fun x => decide (x.stack = 0)) = some repair ∧
    (repair.buffer.map (·.1)).Nodup ∧ (∀ x ∈ repair.buffer, x.2.1.length = 64) := by decide +kernel
theorem test_wit_InitialisationFollowsR245 : (lab.dieDown 0 = false ∧ (put lab [(Reg.wmCtrl 0, 2)]).flag (Reg.wmCtrl 0) 1 = true ∧
      (put lab [(Reg.wmCtrl 0, 2)]).wmQ.filter (fun w => decide (w.die = 0)) = []) ∧
    ((put lab [(Reg.hcBiasCtrl 0, 0x80000000)]).flag (Reg.hcBiasCtrl 0) 31 = true) ∧
    (80 ≤ 87 ∧ 87 < 88 ∧ (put lab (running [87])).dieDown 87 = false ∧
    (put lab [(Reg.hxBiasCtrl 80, 0x80000000)]).flag (Reg.hxBiasCtrl 80) 31 = true) := by
  decide +kernel

/-- SM serves the mailbox. -/
def served : State := let s := put lab ((Reg.mbClaim, 2) :: running [98, 99])
  { s with pins := { s.pins with powered := true }, sm := { s.sm with mbxServed := true, i3c := some true } }
theorem test_wit_MailboxFollowsR257 : served.smUp = true ∧ internalReq .smFirmware = true ∧ internalReq (.hostMachine 0) = true ∧
    16383 < 16384 ∧ served.sm.mbxServed = true ∧ (List.replicate 64 (0 : Byte)).length / 4 ≤ 16384 ∧
    served.flag Reg.mbClaim 1 = true ∧ served.sm.i3c = some true := by decide +kernel

/-- A line of HD0's memory, whose granule has this bias code. -/
def hostLine : Nat := 0x080000001000
def biased (code : Nat) : State := { lab with mem := [(lab.biasBase 80, BitVec.ofNat 8 code)] }

theorem test_wit_HostCoresFollowR357_reach : lab.dieState 80 = 2 ∧ 80 + 23 / 24 = 80 ∧ (biased 1).coreReach 23 hostLine = .ok ∧
    (biased 1).linePoisoned (hostLine / 64) = false ∧ hostLine % 64 = 0 ∧ (biased 1).cacheable hostLine = true ∧
    lab.coreReach 0 hostLine = .ok ∧ lab.cacheable hostLine = false ∧
    (biased 3).meets 80 hostLine = some (.bias (ownerDie hostLine)) := by decide +kernel
theorem test_wit_HostCoresFollowR357_setup : isSetup (Reg.hxMtimeLo 80) = true ∧ Reg.hxMtimeLo 80 % 4 = 0 ∧
    outboundAt (Reg.hxMtimeLo 80) = none ∧ mailboxWordAt (Reg.hxMtimeLo 80) = none ∧
    lab.setupMeets (.hostMachine 0) false (Reg.hxMtimeLo 80) = none := by decide +kernel
theorem test_wit_HostCoresFollowR357_poison :
    let s : State := { biased 1 with poison := [hostLine / 64] }
    s.coreReach 0 hostLine = .ok ∧ s.linePoisoned (hostLine / 64) = true ∧ s.copyOf 0 (hostLine / 64) = none ∧
    s.cacheable hostLine = true ∧ isWorkMem hostLine = false ∧
    ({ lab with poison := [hostLine / 64] } : State).cacheable hostLine = false ∧ s.modifiedCopy (hostLine / 64) = none := by
  decide +kernel
theorem test_wit_AtomicsFollowR256 : (biased 1).dieState 80 = 2 ∧ hostLine % 8 = 0 ∧ (biased 1).coreReach 0 hostLine = .ok ∧
    (biased 1).cacheable hostLine = true ∧ (biased 1).linePoisoned (hostLine / 64) = false ∧ isHostMem hostLine = true ∧
    lab.coreReach 0 hostLine = .ok ∧ lab.cacheable hostLine = false ∧
    ({ lab with host := { lab.host with grants := [⟨80, 1, 80, 0⟩] } } : State).host.grants.find? (fun g => decide (g.hart = 0)) =
      some ⟨80, 1, 80, 0⟩ := by decide +kernel

/-- L3 of host die 0 holds a modified copy of the line. -/
def copied : State := { biased 1 with host := { lab.host with copies := [⟨0, hostLine / 64, .modified, List.replicate 64 5⟩] } }
theorem test_wit_SnoopsFollowR352 : 57 < 58 ∧
    (∀ c ∈ copied.host.copies, ∀ d ∈ copied.host.copies, c.line = d.line → c.state = .modified → d.state = .modified → c = d) ∧
    (∀ c ∈ copied.host.copies, ∀ d ∈ copied.host.copies, c.line = d.line → c.agent = d.agent → c = d) ∧
    (∀ c ∈ copied.host.copies, c.data.length = if c.state = .modified then 64 else 0) ∧ copied.dieDown 80 = false ∧
    (put copied [(Reg.tdDie 39, 0x300)]).dieDown (57 - 18) = true ∧ (copied.copyOf 0 (hostLine / 64)).isSome = true ∧
    copied.copyOf 18 (hostLine / 64) = none := by decide +kernel
theorem test_wit_InterruptsFollowR350 : (0, 5) ∈ ({ lab with irqQ := [(0, 5)] } : State).irqQ ∧ 7 < 8 ∧ 23 < 24 ∧
    (1 ≤ (2047 : Word).toNat ∧ (2047 : Word).toNat ≤ 2047) ∧ lab.dieState (80 + 23 / 24) = 2 ∧
    lab.setupMeets (.hostMachine 0) true (0x0E0000000000 + 0x1000000 * 80 + 0x100000 + (0x40000 + 0x1000 * 23)) = none ∧
    lab.setupMeets (.hostMachine 0) true (0x0E0000000000 + 0x1000000 * 80 + 0x100000 + (0x60000 + 0x1000 * 23)) = none := by
  decide +kernel

/-! ### Witnesses: the step and the fabric -/

theorem test_wit_StepsFollowR306_abort : ringBearing 97 = true ∧ lab.dieDown 97 = false := by decide +kernel

/-- A COMMIT of module 0 alone, cid 1, and one with module 1 as well. -/
def commitOf (n : Nat) : Flight := work dc0 (desc [(0, 0x68), (139, 1), (148, n), (160, 1), (176, 1)]) .started
theorem test_wit_StepsFollowR306_commit :
    let f := commitOf 1
    let s := holding lab f
    s.flight 7 = some f ∧ dClass f.desc = 0x68 ∧ s.held f = false ∧ (s.flights.map (·.fid)).Nodup ∧ hDie f.target < 40 ∧
    s.dieDown (hDie f.target) = false ∧ s.commits = [] ∧ s.dieDown (88 + dfld f.desc 191 176 % 10) = false ∧
    s.fab.barriers.length < 64 ∧ (∀ b ∈ s.fab.barriers, b.cid ≠ dfld f.desc 191 176) := by decide +kernel
theorem test_wit_StepsFollowR306_timeout :
    let f := commitOf 2
    let s : State := { holding lab f with commits := [7] }
    s.held f = false ∧ s.commits.contains f.fid = true ∧ s.known f ≠ dfld f.desc 159 148 ∧
    (∃ m ∈ participants f.desc, m < 2048 ∧ (s.arrivedFor f).contains m = false) := by decide +kernel

/-- A frame from module 1 to this one on flow 10, at its last hop. -/
def fromPeer (seq : Nat) (b : FrameBody) : Frame := mkFrame b 1 0 10 seq 8064
def line5 : List Byte := List.replicate 64 5

theorem test_wit_LinksFollowR323_ports : 39 < 40 ∧ (put lab (running [97])).dieDown (88 + 39 / 4) = false ∧
    lab.fld (Reg.fbPortStat 88 0) 1 0 = 0 ∧ (put lab [(Reg.fbPortStat 88 0, 1)]).fld (Reg.fbPortStat 88 0) 1 0 = 1 ∧
    (put lab [(Reg.fbPortStat 88 0, 2)]).fld (Reg.fbPortStat 88 0) 1 0 = 2 ∧ lab.dieDown 88 = false := by decide +kernel
theorem test_wit_LinksFollowR323_frames :
    let f := mkLinkFrame 0x01 (1 + 2 ^ 32 * 18)
    let g := mkLinkFrame 0x02 2
    f.type = 0x01 ∧ frameGood f = true ∧ g.type = 0x02 ∧ frameGood g = true ∧ net.portUp 0 = true ∧
    net.fab.txq.filter (fun x => decide (x.port = 0)) = [] ∧ (net.pools 0).length = 6 ∧
    frameGood { f with fecBad := true } = false ∧ ({ f with fecBad := true } : Frame).type = 0x01 ∧
    frameGood { g with fecBad := true } = false ∧ ({ g with fecBad := true } : Frame).type = 0x02 := by decide +kernel

/-- Ports 0 and 1 are up. -/
def net2 : State := let s := put net [(Reg.fbPortStat 88 1, 3)]
  { s with fab := { s.fab with credits := s.fab.credits ++ [(1, [4096, 4096, 2048, 2048, 64, 64])] } }
theorem test_wit_ForwardingFollowsR326_forwards :
    let f := mkFrame { type := 0x10, payload := line5 } 1 0 10 0 (2 ^ 7 * 1 + 2 ^ 14 * 63)
    net2.portUp 0 = true ∧ linkLocal f.type = false ∧ frameGood f = true ∧ f.hop f.hp ≠ 63 ∧ f.hp < 15 ∧
    net2.portUp (f.hop f.hp % 64) = true ∧ (net2.path (88 + 0 / 4) (88 + f.hop f.hp % 64 / 4)).miss = none ∧ net2.isSafe = false ∧
    net2.fab.txq.filter (fun x => decide (x.port = f.hop f.hp % 64)) = [] ∧
    2 + 2 * f.plen ≤ (net2.pools (f.hop f.hp % 64)).getD (2 * f.cls + f.hop f.hp / 64) 0 := by decide +kernel
theorem test_wit_ForwardingFollowsR326_drops :
    let f := mkFrame { type := 0x10, payload := line5 } 1 0 10 0 (2 ^ 7 * 1 + 2 ^ 14 * 63)
    let g := mkFrame { type := 0x10, payload := line5 } 1 5 10 0 8064
    net.portUp 0 = true ∧ frameGood { f with fecBad := true } = false ∧ (f.hop f.hp ≠ 63 ∧ net.portUp (f.hop f.hp % 64) = false) ∧
    (g.hop g.hp = 63 ∧ g.dst ≠ net.moduleId) ∧ linkLocal g.type = false := by decide +kernel

/-- What Delivered says of a frame, on port 0 of `net`. -/
def arrives (t : Nat) (f : Frame) (s : State) : Bool :=
    s.portUp 0 && f.type == t && frameGood f && f.hop f.hp == 63 && f.dst == s.moduleId && s.flowLive f.flow
def writeFrame (seq : Nat) : Frame := fromPeer seq { type := 0x10, addr := 0x1000, payload := line5 }

theorem test_wit_RequestsFollowR333_write :
    let f := writeFrame 0
    let out := fromPeer 0 { type := 0x10, addr := 0xFFFF00000000, payload := line5 }
    f.seq = net.fld (Reg.fbFlowRx (88 + f.flow % 10) (f.flow / 10)) 23 0 ∧ net.portUp (portOf net f.flow) = true ∧
    arrives 0x10 f net = true ∧
    net.firstMiss (88 + f.flow % 10) (linesOf f.addr (writeBytes f).length) (some (.frame f.flow)) = none ∧
    net.firstHeld (linesOf f.addr (writeBytes f).length) (.frame f.flow) = none ∧ (writeBytes f).length % 64 = 0 ∧
    arrives 0x10 out net = true ∧
    (net.firstMiss (88 + out.flow % 10) (linesOf out.addr (writeBytes out).length) (some (.frame out.flow))).isSome = true :=
    by decide +kernel
theorem test_wit_RequestsFollowR333_msop :
    let f := fromPeer 0 { type := 0x11, addr := 0x1000, aux := 1, payload := line5, mask := 1 }
    f.seq = 0 ∧ arrives 0x11 f net = true ∧ msopSize f.aux = some 4 ∧ isHbm f.addr = true ∧
    net.meets (88 + f.flow % 10) f.addr (some (.frame f.flow)) = none ∧
    net.extHolder (f.addr / 64) (some (.frame f.flow)) = none ∧ net.linePoisoned (f.addr / 64) = false := by decide +kernel
theorem test_wit_RequestsFollowR333_read :
    let f := fromPeer 0 { type := 0x12, addr := 0x1000, aux := 1 }
    f.seq = 0 ∧ arrives 0x12 f net = true ∧
    net.firstMiss (88 + f.flow % 10) (linesOf f.addr (64 * f.aux)) (some (.frame f.flow)) = none ∧
    net.firstHeld (linesOf f.addr (64 * f.aux)) (.frame f.flow) = none ∧
    (∀ a ∈ linesOf f.addr (64 * f.aux), net.linePoisoned (a / 64) = true → net.modifiedCopy (a / 64) = none) := by decide +kernel
theorem test_wit_RequestsFollowR333_signal :
    let f := fromPeer 0 { type := 0x13, addr := 2 ^ 7 * 255 }
    arrives 0x13 f net = true ∧ ringBearing (f.fld 206 200) = true ∧ net.dieDown (f.fld 206 200) = false ∧
    f.fld 214 207 = 255 := by decide +kernel
theorem test_wit_SequenceFollowsR331 :
    let s := put net [(Reg.fbFlowRx 88 1, 1)]
    arrives 0x10 (writeFrame 0) s = true ∧ s.portUp (portOf s 10) = true ∧
    2 ^ 23 ≤ (0 + 2 ^ 24 - s.fld (Reg.fbFlowRx 88 1) 23 0) % 2 ^ 24 ∧
    arrives 0x10 (writeFrame 2) s = true ∧ (2 + 2 ^ 24 - s.fld (Reg.fbFlowRx 88 1) 23 0) % 2 ^ 24 = 1 ∧
    s.flowLive 10 = true ∧ (10, 1) ∈ ({ s with fab := { s.fab with rxVis := [(10, 1)] } } : State).fab.rxVis := by decide +kernel

/-- A WRITE of descriptor 7 to module 1 awaits its acknowledgement. -/
def sent (type : Nat) : Sent := ⟨10, 0, mkFrame { type := type, addr := 0x1000, aux := if type = 0x12 then 1 else 0, payload :=
    if type = 0x12 then [] else line5 } 0 1 10 0 8064, some 7, 1, 0, [], []⟩
def awaits (type cls : Nat) : State := let s := holding net (started cls); { s with fab := { s.fab with unacked := [sent type] } }

theorem test_wit_AnswersFollowR332_ack :
    let s := awaits 0x10 0x51
    (∀ u ∈ s.fab.unacked, u.flow = 10 → u.sends ≠ 0) ∧ arrives 0x20 (fromPeer 1 { type := 0x20 }) s = true ∧
    arrives 0x21 (fromPeer 0 { type := 0x21 }) s = true ∧ s.portUp (portOf s 10) = true ∧
    (∀ u ∈ s.fab.unacked, portOf s 10 = u.frame.hop 0 % 64 ∧ u.sends < s.fld (Reg.fbFlowCtrl 88 1) 15 12 + 1) ∧
    dClass (started 0x51).desc ≠ 0x50 ∧ dClass (started 0x51).desc ≠ 0x70 := by decide +kernel
theorem test_wit_AnswersFollowR332_read :
    let s := awaits 0x12 0x51
    let f := fromPeer 0 { type := 0x22, addr := 0x1000, payload := line5 }
    s.fab.unacked.find? (fun u => decide (u.flow = f.flow ∧ u.seq.toNat = f.seq)) = some (sent 0x12) ∧ (sent 0x12).fid = some 7 ∧
    s.flight 7 = some (started 0x51) ∧ arrives 0x22 f s = true ∧ (sent 0x12).frame.type = 0x12 ∧
    arrives 0x23 (fromPeer 0 { type := 0x23, aux := 0x60 }) s = true := by decide +kernel
theorem test_wit_AnswersFollowR332_timeout :
    let s := awaits 0x10 0x51
    let t : State := { s with fab := { s.fab with unacked := [{ sent 0x10 with sends := 4 }] } }
    s.flowLive 10 = true ∧ (∀ x ∈ s.fab.unacked, x.flow = 10 → x.sends ≠ 0) ∧
    s.fab.unacked.find? (fun x => decide (x.flow = 10)) = some (sent 0x10) ∧
    (sent 0x10).sends < s.fld (Reg.fbFlowCtrl 88 1) 15 12 + 1 ∧
    s.portUp ((sent 0x10).frame.hop 0 % 64) = true ∧ s.fab.unacked.filter (fun x => decide (x.flow = 10)) = [sent 0x10] ∧
    t.fld (Reg.fbFlowCtrl 88 1) 15 12 + 1 ≤ 4 ∧ t.fab.greds = [] ∧ (t.flights.map (·.fid)).Nodup ∧
    (∀ g ∈ t.flights, hGang g.target = true → g.running = false ∨ g.remote.isSome = true) := by decide +kernel
theorem test_wit_AnswersFollowR332_again :
    let s := awaits 0x10 0x50
    let v := ({ s with fab := { s.fab with unacked := s.fab.unacked.map (fun x => { x with sends :=
    x.sends + 1 }) } } : State).reform { sent 0x10 with sends := 2 }
    s.portUp (v.frame.hop 0 % 64) = true := by decide +kernel

def flowState (n : Nat) : State := put net [(Reg.fbFlowCtrl 88 1, BitVec.ofNat 32 (0x3000 + 16 * n))]
theorem test_wit_SynchronisingFollowsR330_flow : 10 < 65536 ∧ net.dieDown 88 = false ∧
    (flowState 0).fnState (Reg.fbFlowCtrl 88 1) = 0 ∧ (flowState 0).syncCount 10 = 0 ∧
    (flowState 0).portUp (portOf (flowState 0) 10) = true ∧
    (flowState 0).fld (Reg.fbFlowPeer 88 1) 10 0 ≠ (flowState 0).moduleId ∧ (flowState 0).flowRoute 10 % 128 ≤ 39 ∧
    (flowState 0).flowRoute 10 / 2 ^ 7 % 128 = 63 ∧ (put (flowState 0) [(Reg.fbFlowPeer 88 1,
    0)]).fld (Reg.fbFlowPeer 88 1) 10 0 = net.moduleId ∧
    (flowState 1).fnState (Reg.fbFlowCtrl 88 1) = 1 ∧ (flowState 3).fnState (Reg.fbFlowCtrl 88 1) = 3 ∧
    (flowState 3).fab.unacked = [] ∧ (flowState 3).fab.greds = [] ∧ (flowState 3).flights = [] := by decide +kernel
theorem test_wit_SynchronisingFollowsR330_frames :
    let f := fromPeer 0 { type := 0x14 }
    let g := fromPeer 0 { type := 0x25 }
    net.portUp 0 = true ∧ frameGood f = true ∧ f.hop f.hp = 63 ∧ f.dst = net.moduleId ∧ f.type = 0x14 ∧ f.flow = 10 ∧
    frameGood g = true ∧ g.hop g.hp = 63 ∧ g.type = 0x25 ∧ net.fnState (Reg.fbFlowCtrl 88 1) = 2 := by decide +kernel

/-- IO0 holds a GRED of a plan record over G64 elements of CD0's HBM. -/
def planOf (nin : Nat) (up : Nat) : List Byte := leBytes 2 3 ++ [BitVec.ofNat 8 nin, 0] ++ leBytes 2 up ++ [0,
    0] ++ leBytes 2 10 ++ List.replicate 118 0
def gredWork (count : Nat) (plan : List Byte) : Flight :=
  { work 0xB1800 (desc [(0, 0x71), (384, 6), (416, 6), (448, 6), (480, count)]) .started with recs := plan }
def gredOf7 (granted : List (Nat × Nat)) : Gred :=
  { fid := 7, die := 88, cid := 3, parts := List.replicate 6 ⟨0, false, false⟩, recv := [], granted := granted, upGrant :=
    0, sentUp := 0, resDone := 0 }
def greds (s : State) (f : Flight) (g : Gred) : State := let s := holding s f; { s with fab := { s.fab with greds := [g] } }

theorem test_wit_CollectivesFollowR339_start :
    let f := gredWork 6 (planOf 1 0xFFFF)
    let s := holding net f
    let off := put s [(Reg.fbFlowCtrl 88 1, 0)]
    let p : Plan := ⟨f.recs⟩
    let x := (Run.start s (hDie f.target) f.fid).gredParts f 6
    s.flight 7 = some f ∧ dClass f.desc = 0x71 ∧ s.held f = false ∧ s.gredOf 7 = none ∧
    p.flows.find? (fun x => !off.flowOn x) = some 10 ∧ (∀ fl ∈ p.flows, s.flowOn fl = true) ∧ dfld f.desc 503 480 = 6 ∧
    dfld (gredWork 0 (planOf 1 0xFFFF)).desc 503 480 = 0 ∧ p.inFlows = [10] ∧ (∀ fl ∈ p.inFlows, s.portUp (portOf s fl) = true) ∧
    x.1.far = [] ∧ x.1.ext = [] ∧ x.1.stop = false ∧ x.2 ≠ [] ∧ x.2.any (·.poison) = false := by decide +kernel

/-- The plan has two children, on flows 10 and 20. -/
def plan2 : List Byte := leBytes 2 3 ++ [2, 0] ++ leBytes 2 10 ++ [0, 0] ++ leBytes 2 10 ++ leBytes 2 20 ++ List.replicate 116 0
def gred2 : State := greds net (gredWork 6 plan2) (gredOf7 [(10, 1024), (20, 1024)])
theorem test_wit_CollectivesFollowR339_red :
    let f := fromPeer 0 { type := 0x1A, addr := 2 ^ 32 * 3, payload := line5 }
    let g := gredOf7 [(10, 1024), (20, 1024)]
    f.fld 247 232 = 3 ∧ gred2.gredAt f.flow 3 = some g ∧ gred2.gredOf 7 = some g ∧ g.parts ≠ [] ∧ g.resDone = 0 ∧
    (∃ fl ∈ (gred2.gredPlan g).inFlows, fl ≠ f.flow ∧ pairGet g.recv fl = 0) ∧ arrives 0x1A f gred2 = true ∧ f.seq = 0 ∧
    f.poison = false ∧
    f.flow ∈ (gred2.gredPlan g).inFlows ∧ f.fld 223 200 = 6 * pairGet g.recv f.flow ∧
    pairGet g.recv f.flow + f.plen ≤ pairGet g.granted f.flow ∧ gred2.portUp (portOf gred2 f.flow) = true := by decide +kernel
theorem test_wit_CollectivesFollowR339_grant :
    let f := fromPeer 0 { type := 0x24, addr := 2 ^ 32 * 3 + 1024 }
    let g := gredOf7 [(10, 1024), (20, 1024)]
    f.fld 247 232 = 3 ∧ gred2.gredAt f.flow 3 = some g ∧ arrives 0x24 f gred2 = true ∧ (gred2.gredPlan g).up = f.flow ∧
    (gred2.gredPlan g).root = false ∧
    gred2.dieDown g.die = false ∧ (10 ∈ (gred2.gredPlan g).inFlows ∧ gred2.flowLive 10 = true ∧
    gred2.portUp (portOf gred2 10) = true) := by decide +kernel
theorem test_wit_CollectivesFollowR339_res :
    let f := fromPeer 0 { type := 0x1B, addr := 2 ^ 32 * 3, payload := line5 }
    let g := gredOf7 [(10, 1024), (20, 1024)]
    let d := gredWork 6 plan2
    let n := min (8 * f.plen) (g.parts.length - g.resDone)
    let u := gred2.returnCredits 0 (poolIx f.cls (if f.hp = 0 then 0 else f.hop (f.hp - 1) / 64)) f.blocks
    let r := (Run.ofFlight u d).gredStore d g.resDone ((numsOf 8 n f.payload).map (fun w => (BitVec.ofNat 64 w, f.poison)))
    arrives 0x1B f gred2 = true ∧ gred2.gredAt f.flow (f.fld 247 232) = some g ∧ gred2.flight 7 = some d ∧
    (gred2.gredPlan g).root = false ∧ (gred2.gredPlan g).up = f.flow ∧ f.fld 223 200 = g.resDone ∧ f.poison = false ∧
    r.far = [] ∧ r.ext = [] := by decide +kernel
theorem test_wit_CollectivesFollowR339_arrive :
    let f := fromPeer 0 { type := 0x18, payload := leBytes 6 1 ++ leBytes 2 1 ++ List.replicate 56 0 }
    arrives 0x18 f net = true ∧ f.seq = 0 ∧ net.commits = [] ∧
    net.dieDown (88 + leNat ((f.payload.drop 6).take 2) % 10) = false ∧ net.fab.barriers = [] := by decide +kernel

/-- SM controls power, and reaches IO9 and is reached from it; port 36 is up and flow 19 (context 1 of IO9) is ON to module 1. -/
def ctl : State :=
  let s := trained (put lab (running [7, 15, 23, 97, 98, 99])) [(97, 0), (7, 8), (15, 8), (23, 4)]
  let s := [(23, 97), (15, 97), (7, 97), (7, 99), (15, 99), (23, 99)].foldl (fun s x => s.loadRoute x.1 x.2) s
  let s := put s [(Reg.fbPortStat 97 0, 3), (Reg.fbFlowCtrl 97 1, 0x3020), (Reg.fbFlowPeer 97 1, 1), (Reg.fbFlowRoute 97 1 0,
    36 + 8064),
    (Reg.dcFdest 97 1, 0x80000013)]
  { s with fab := { s.fab with credits := [(36, [4096, 4096, 2048, 2048, 64, 64])] }, pins := { s.pins with powered := true } }
/-- Group 9 has modules 0 and 1, and shares watts where bit 30 is set. -/
def group (ctrl : Word) : State := put ctl [(Reg.pwGrpSpan 9, 0x801000), (Reg.pwGrpShare 9, 0x8010000 + 6000), (Reg.pwGrpCtrl 9,
    ctrl)]

theorem test_wit_PowerMessagesFollowR342_send :
    let s := group 0x80000000
    s.controls = true ∧ s.isCapo 9 = true ∧ s.reaches 99 (88 + 9 % 10) = true ∧ s.grpModules 9 = [1] ∧
    s.fdest (88 + 9 % 10) 1 = some 19 ∧ s.portUp (portOf s 19) = true := by decide +kernel
theorem test_wit_PowerMessagesFollowR342_offer :
    let s := group 0xC0000000
    s.controls = true ∧ s.isShift 9 = true ∧ s.reaches 99 (88 + 9 % 10) = true ∧ s.surplus ≠ 0 ∧
    s.flag (Reg.pwGrpShare 9) 27 = true := by decide +kernel
theorem test_wit_PowerMessagesFollowR342_receive :
    let f := mkFrame { type := 0x30, addr := 9 + 2 ^ 12 * 3 } 1 0 0 5 8064
    let g := mkFrame { type := 0x31, addr := 9 + 2 ^ 16 * 100 } 1 0 0 5 8064
    let s := group 0x80000000
    s.portUp 36 = true ∧ frameGood f = true ∧ f.hop f.hp = 63 ∧ f.dst = s.moduleId ∧ s.reaches (88 + 36 / 4) 99 = true ∧
    f.type = 0x30 ∧
    f.addr % 4096 = 9 ∧ s.isCapo 9 = true ∧ (s.grpModules 9).contains f.src = true ∧ frameGood g = true ∧ g.type = 0x31 ∧
    (group 0xC0000000).isShift (g.addr % 4096) = true := by decide +kernel

/-! ### Witnesses: power, ports, courses, dies, pins, start -/

/-- CD0 runs, with a change of its operating point in progress. -/
def changing (slew : Bool) : State := { lab with pw := { lab.pw with changes := [⟨0, 3, 800, slew⟩] } }
theorem test_wit_OperatingPointsFollowR402 : 0 < 40 ∧ lab.dieState 0 = 2 ∧ (changing false).change 0 = some ⟨0, 3, 800, false⟩ ∧
    (changing true).change 0 = some ⟨0, 3, 800, true⟩ ∧ (changing true).pw.deferred.contains 0 = false ∧
    lab.pw.droops.contains 0 = false ∧
    ({ lab with pw := { lab.pw with droops := [0] } } : State).pw.droops.contains 0 = true := by decide +kernel

/-- A power reading of so many watts and tens of millivolts, and temperatures. -/
def watts (w v : Nat) (bad : Bool) : PowerReading := ⟨w, v, bad⟩
def temps (dies : List (Nat × Int)) : ThermalReading := ⟨dies, [], 30, 40⟩
theorem test_wit_LehrFollowsR406 : ctl.controls = true ∧ (watts 0xFFFF 5000 false).stageFault = false ∧
    (((watts 0xFFFF 5000 false).watts :: ctl.pw.samples).take 200).foldl (· + ·) 0 < 3900000 ∧
    (5000 ≤ (watts 0xFFFF 5000 false).volt ∧ (watts 0xFFFF 5950 false).volt ≤ 5950) := by decide +kernel
theorem test_wit_SafeStateFollowsR418 :
    let s : State := { ctl with pw := { ctl.pw with outRange := 1, samples := List.replicate 199 20000 } }
    s.controls = true ∧ (s.pw.outRange ≠ 0 ∧ (watts 0 4999 false).volt < 5000 ∧ 5950 < (watts 0 5951 false).volt) ∧
    (watts 0 5400 true).stageFault = true ∧
    199 ≤ s.pw.samples.length ∧ 3900000 ≤ ((20000 :: s.pw.samples).take 200).foldl (· + ·) 0 ∧
    thermalLimits (temps [(0, 120)]) = true ∧ thermalLimits (temps [(0, 119)]) = false ∧
    (put s [(Reg.pwStatus, 1)]).pins.powered = true ∧ (put s [(Reg.pwStatus, 1)]).isSafe = true := by decide +kernel
theorem test_wit_DomainsFollowR417 : ringBearing 0 = true ∧ ctl.controls = true ∧
    (put ctl [(Reg.pwDom 0, 0x10)]).fnState (Reg.pwDom 0) = 1 ∧
    (put ctl [(Reg.pwDom 80, 0x30)]).fnState (Reg.pwDom 80) = 3 ∧ (put ctl [(Reg.pwDom 80, 0x30)]).domainIdle 80 = true ∧
    (put ctl [(Reg.pwDom 80, 0x30)]).flag (Reg.pwDom 80) 3 = false := by decide +kernel

/-- IO0's port in a mode, with its link up or down and a CXL state. -/
def port (mode cxl up : Nat) : State := put lab [(Reg.hxPcieCtrl 88, BitVec.ofNat 32 mode), (Reg.hxPcieStat 88,
    BitVec.ofNat 32 (up + 8 * cxl))]
theorem test_wit_PortModesFollowR362 : 0 < 10 ∧ lab.dieDown 88 = false ∧
    ((port 2 2 0).fld (Reg.hxPcieCtrl 88) 1 0 = 2 ∧ (port 2 2 0).fld (Reg.hxPcieStat 88) 4 3 = 2) ∧
    ((port 1 0 1).fld (Reg.hxPcieCtrl 88) 1 0 = 1 ∧ (port 1 0 1).flag (Reg.hxPcieStat 88) 0 = true ∧
    (port 1 0 1).fld (Reg.hxPcieStat 88) 4 3 = 0) ∧
    ((port 2 0 1).flag (Reg.hxPcieStat 88) 0 = true ∧ (port 2 0 1).fld (Reg.hxPcieStat 88) 4 3 = 0) ∧
    0 ∈ ({ port 2 2 0 with pcie := { lab.pcie with walk := [0] } } : State).pcie.walk := by decide +kernel
theorem test_wit_DevicesFollowR363_outbound :
    let s := put ctl ((Reg.hxPcieCtrl 97, 1) :: [(Reg.hxPcieStat 97, 1)])
    s.dieDown 97 = false ∧ s.fld (Reg.hxPcieCtrl 97) 1 0 = 1 ∧ s.flag (Reg.hxPcieStat 97) 0 = true ∧
    s.setupMeets .smFirmware false (Reg.setupBase 97 + 0xA7FFC) = none ∧
    s.setupMeets .smFirmware true (Reg.setupBase 97 + 0xC0000) = none ∧
    s.setupMeets .smFirmware true (Reg.setupBase 97 + 0xFFFFC) = none ∧
    (0xA0000 ≤ 0xA7FFC ∧ 0xA7FFC < 0xA8000) ∧ (0xA7FFC % 4 = 0 ∧ 0xFFFFC % 4 = 0) ∧
    ({ s with pcie := { s.pcie with np := [⟨9, 5, .smFirmware⟩] } } : State).npWaits 9 5 = true := by decide +kernel
theorem test_wit_DevicesFollowR363_inbound :
    let s := put (net.loadRoute 0 88) [(Reg.hxPcieCtrl 88, 1), (Reg.hxPcieStat 88, 1), (Reg.hxPcieInLimit 88 0, 0),
    (Reg.hxPcieInBase 88 0, 0)]
    s.fld (Reg.hxPcieCtrl 88) 1 0 = 1 ∧ s.flag (Reg.hxPcieStat 88) 0 = true ∧ s.inWindow 0 0x1000 64 = true ∧
    s.inWindow 0 0xFFC1 64 = false ∧
    s.meetsBoth 88 0x1000 (some (.device 0)) = none ∧ s.extHolder 64 (some (.device 0)) = none ∧ s.linePoisoned 64 = false ∧
    0x1000 % 64 + 64 ≤ 64 ∧
    ¬ (4 = 4 ∧ 0x1000 = s.msiAddr 0) := by decide +kernel

/-- The external host on IO0 is UP, and HBM of CD0 from address 0 is in its window with code 2. -/
def cxl : State :=
  let s := put net [(Reg.hxPcieCtrl 88, 2), (Reg.hxPcieStat 88, 9), (Reg.hxCxlWinBase 88, 0), (Reg.hxCxlWinSize 88, 1)]
  { s with mem := [(s.biasBase 0, 0xAA)] }
/-- It holds the line at 0x1000, which has been asked back. -/
def held : State := { cxl with pcie := { cxl.pcie with ext := [⟨0, 64, true⟩], waits := [(0, 64)] } }
theorem test_wit_EndpointFollowsR366_mem : cxl.cxlUp 0 = true ∧ cxl.inCxlWindow 0x1000 = true ∧
    cxl.meetsBoth (88 + 0) 0x1000 = none ∧
    cxl.bias 0x1000 = 2 ∧ cxl.initBusy 0x1000 = false ∧ cxl.flipping 0x1000 = false ∧ cxl.linePoisoned (0x1000 / 64) = false ∧
    (cxl.pcie.ext.filter (fun e => decide (e.io = 0))).length < 4194304 ∧ held.holdsExt 0 64 = true := by decide +kernel
theorem test_wit_EndpointFollowsR366_snoop :
    ({ held with pcie := { held.pcie with waits := [] } } : State).holdsExt 0 64 = true ∧ held.extUp = true ∧
    (0, 64) ∈ held.pcie.waits ∧
    held.dieDown (ownerDie (64 * 64)) = false ∧ (List.replicate 64 (0 : Byte)).length = 64 ∧
    held.cxlUp 0 = true := by decide +kernel
theorem test_wit_EndpointFollowsR366_bar0 :
    let a := Reg.dcFence 0 255
    cxl.fld (Reg.hxPcieCtrl 88) 1 0 = 2 ∧ cxl.flag (Reg.hxPcieStat 88) 0 = true ∧ cxl.fld (Reg.hxPcieStat 88) 4 3 ≠ 2 ∧
    (put cxl [(Reg.smSetupAcl, 4)]).setupMeets (.extHost 0) false a = none ∧ outboundAt a = none ∧ mailboxWordAt a = none ∧
    a - 0x0E0000000000 < 0x80000000 ∧
    (put cxl [(Reg.smSetupAcl, 4)]).setupMeets (.extHost 0) true a = none := by decide +kernel

/-- A pair of CD0's edge to IO0 in a state, at both ends, with a link state. -/
def paired (fn link : Nat) : State :=
  put lab ((pairEnds 88 0).flatMap (fun x => [(Reg.cpCtrl x.1 x.2, BitVec.ofNat 32 (16 * fn)), (Reg.cpStatus x.1 x.2,
    BitVec.ofNat 32 (256 * link))]))
theorem test_wit_CoursesAndClocksFollowR379_pairs : (88 ≤ 88 ∧ 88 < 98 ∧ 0 < 4) ∧ lab.dieDown 88 = false ∧
    pairAttached 88 0 = true ∧
    (paired 1 2).fnState (Reg.cpCtrl 88 0) = 1 ∧ (paired 1 2).training 88 0 = true ∧
    (put lab [(Reg.cpCtrl 88 0, 0x10)]).training 88 0 = false ∧
    (paired 2 3).fnState (Reg.cpCtrl 88 0) = 2 ∧ (paired 2 3).fld (Reg.cpStatus 88 0) 11 8 = 3 ∧
    (paired 2 2).fld (Reg.cpStatus 88 0) 11 8 = 2 ∧
    (paired 3 3).fnState (Reg.cpCtrl 88 0) = 3 ∧ (paired 3 3).fld (Reg.cpStatus 88 0) 11 8 ≠ 4 ∧
    (paired 3 3).flights = [] := by decide +kernel
theorem test_wit_CoursesAndClocksFollowR379_clocks : (0 < 40 ∧ lab.dieDown 0 = false) ∧ lab.fld (Reg.cpRef 0) 17 16 < 3 ∧
    (let s := put lab [(Reg.cpRef 0, 0x1018)]; s.flag (Reg.cpRef 0) 4 = true ∧ s.goodSource 0 (s.primPair 0) = true) ∧
    ctl.pins.powered = true ∧ ctl.flag Reg.tdRef 3 = false := by decide +kernel
theorem test_wit_DiesFollowR392 : ringBearing 80 = true ∧ lab.dieState 80 = 2 ∧ (put lab [(Reg.tdDie 80, 0x400)]).dieState 80 = 4 ∧
    (put lab [(Reg.tdDie 80, 0x100)]).dieState 80 = 1 ∧ (put lab [(Reg.tdDie 80, 0x300)]).dieState 80 = 3 ∧
    ({ lab with losses := [⟨0, [7], []⟩] } : State).losses.find? (fun l => decide (l.die = 0)) = some ⟨0, [7], []⟩ ∧
    (put lab [(Reg.cpCtrl 88 0, 0x30), (Reg.cpStatus 88 0, 0x400)]).fnState (Reg.cpCtrl 88 0) = 3 := by decide +kernel
/-- Power is off, and may come back or not. -/
def off (armed : Bool) : State := { lab with pins := { lab.pins with powered := false, armed := armed } }
theorem test_wit_PinsFollowR449 : (off true).pins.powered = false ∧ (off true).pins.armed = true ∧ (off false).pins.armed = false ∧
    ctl.pins.powered = true ∧
    ((put ctl [(Reg.pwPins, 1)]).flag Reg.pwPins 0 = true ∧ (put ctl [(Reg.pwPins, 1)]).flag Reg.pwPins 1 = false) ∧
    (put ctl [(Reg.pwPins, 2)]).flag Reg.pwPins 1 = true ∧ (put ctl [(Reg.pwPins, 8)]).flag Reg.pwPins 3 = true ∧
    ({ ctl with pins := { ctl.pins with thrInt := true } } : State).pins.thrInt = true ∧ ctl.dieState 99 = 2 ∧
    ({ ctl with sm := { ctl.sm with cwrite := some 5 } } : State).sm.cwrite = some 5 := by decide +kernel

/-- Power is on and SM has not started. -/
def fresh : State := { State.reset with pins := { State.reset.pins with powered := true } }
def clean : StartEnv := ⟨true, [], true, [], []⟩
theorem test_wit_StartFollowsR424 : (put fresh [(Reg.pwPins, 1)]).mayStart = true ∧
    ({ clean with romOk := false } : StartEnv).romOk = false ∧
    clean.romOk = true ∧ (∀ d ∈ clean.failed, d ∈ startDies) ∧ (put fresh [(Reg.pwPins, 1)]).winner = none := by decide +kernel
theorem test_wit_CounterAndUpdateFollowR430 :
    let s := ctl
    s.pins.powered = true ∧ s.fld Reg.smBoot 31 28 = 5 ∧ s.sm.fwup = none ∧ s.fld Reg.smBoot 17 16 < 2 ∧
    ({ s with sm := { s.sm with cwrite := some 5 } } : State).sm.cwrite = some 5 ∧
    ({ s with sm := { s.sm with fwup := some ⟨1, [5], true⟩ } } : State).sm.fwup = some ⟨1, [5], true⟩ ∧
    s.setupMeets .smFirmware true Reg.smSetupAcl = none := by decide +kernel

/-! ### Witnesses: registers, journal, SPDM, the connector -/

theorem test_wit_RegisterWritesFollowR8 : 5 % 4 ≠ 0 ∧ (ctl.setupMeets (.hostUser 0) true Reg.tdRef).isSome = true ∧
    Reg.tdRef % 4 = 0 ∧
    ctl.setupMeets .smFirmware true Reg.tdRef = none ∧ ctl.setupMeets .smFirmware true (Reg.cpRetry 0 15) = none ∧
    ctl.setupMeets .smFirmware true (Reg.vdStatus 97 1) = none ∧ ctl.setupMeets .smFirmware true (Reg.hxScrub 80) = none ∧
    ctl.setupMeets .smFirmware true (ringContext 5 + 0x24) = none ∧ ctl.fnState (ringContext 5 + 0x18) = 0 ∧
    ringOn.fnState (ringContext 5 + 0x18) ≠ 0 := by decide +kernel

/-- SM runs its image; region 0 of the journal is the active one and nothing stands. -/
def journal : State := put State.reset [(Reg.smBoot, 0x50000000)]
theorem journal_wf : journal.Wf := ⟨by decide, by decide +kernel, by decide, by decide, by decide, by decide, by decide,
    by decide, by decide, by decide⟩
theorem test_wit_JournalFollowsR443 : journal.Wf ∧ (3 ≤ journal.fld Reg.smBoot 31 28 ∧ journal.fld Reg.smBoot 31 28 ≤ 5) ∧
    (put State.reset [(Reg.smBoot, 0x30000000)]).fld Reg.smBoot 31 28 = 3 ∧
    ({ journal with sm := { journal.sm with jop := some ⟨1, 0x60, 255, 5⟩ } } : State).sm.jop = some ⟨1, 0x60, 255, 5⟩ ∧
    ({ journal with sm := { journal.sm with erase := true } } : State).sm.erase = true ∧ journal.sm.compact = false ∧
    journal.regionFull = false ∧ (journal.reg Reg.jrSeq).toNat + 1 < 2 ^ 32 ∧
    (∀ p ∈ journal.sm.journal, rSeq p.2 ≤ (journal.reg Reg.jrSeq).toNat) := ⟨journal_wf, by decide +kernel⟩
theorem test_wit_CompactionFollowsR440 :
    let s : State := { journal with sm := { journal.sm with compact := true } }
    s.Wf ∧ s.sm.compact = true ∧ s.sm.jwait = [] ∧ s.regionSlots (1 - s.jrRegion) = [] ∧ s.allStanding.length + 2 ≤ 524288 ∧
    (s.reg Reg.jrSeq).toNat + s.allStanding.length + 2 < 2 ^ 32 :=
  ⟨⟨journal_wf.1, journal_wf.2, journal_wf.3, journal_wf.4, journal_wf.5, journal_wf.6, journal_wf.7, journal_wf.8, journal_wf.9,
    journal_wf.10⟩,
    by decide +kernel⟩

/-- The SPDM responder on MCTP, after GET_VERSION and NEGOTIATE_ALGORITHMS. -/
def talks : State := { ctl with sm := { ctl.sm with mctpServed := true, spdmVer := [.mctp], spdmAlg := [.mctp] } }
theorem test_wit_SpdmFollowsR434 : talks.spdmReach .mctp = true ∧ talks.fld Reg.smBoot 31 28 = 5 ∧
    talks.sm.spdmVer.contains .mctp = true ∧
    talks.sm.spdmAlg.contains .mctp = true ∧ (put talks [(Reg.smBoot, 0x40000000)]).spdmReach .mctp = true ∧
    (put talks [(Reg.smBoot, 0x40000000)]).fld Reg.smBoot 31 28 ≠ 5 ∧ talks.spdmReach (.doe 5) = false ∧
    ctl.sm.spdmVer.contains .mctp = false := by decide +kernel
theorem test_wit_ConnectorFollowsR454 : talks.dieState 99 = 2 ∧ talks.flag Reg.pwPins 1 = false ∧ talks.pins.powered = true ∧
    talks.sm.mctpServed = true ∧ ctl.sm.mctpServed = false ∧ (∀ x ∈ talks.sm.dynAddr, x.1 ≠ true) ∧
    (∃ x ∈ ({ talks with sm := { talks.sm with dynAddr := [(true, 9)] } } : State).sm.dynAddr, x.1 = true) ∧
    talks.pins.pwrGood = false ∧ (put talks [(Reg.smBoot, 0x20000000)]).fld Reg.smBoot 31 28 ≤ 2 := by decide +kernel
theorem test_wit_NumbersStayDistinct : (State.reset.flights.map (·.fid)).Nodup ∧
    (∀ f ∈ State.reset.flights, f.fid < State.reset.nextFid) ∧
    ∃ t, step State.reset = .next t := ⟨by decide, by decide, _, rfl⟩

/-! ### An ill-formed command for each check, and a well-formed one beside it -/

theorem test_wf_ring : (Instr.ringEnable 4096).wf = false ∧ (Instr.ringEnable 4095).wf = true := by decide
theorem test_wf_requester : (Instr.setupAclWrite (.hostMachine 192) 0).wf = false ∧
    (Instr.setupAclWrite (.hostUser 192) 0).wf = false ∧
    (Instr.setupAclWrite (.dieCore 98) 0).wf = false ∧ (Instr.setupAclWrite (.extHost 2) 0).wf = false ∧
    (Instr.setupAclWrite .smFirmware 0).wf = true := by decide
theorem test_wf_register : (Instr.registerWrite .smFirmware 0x0E0064000000 0).wf = false ∧
    (Instr.registerWrite .smFirmware 0x0E0000000002 0).wf = false ∧
    (Instr.registerWrite .smFirmware 0x0E0000000000 0).wf = true := by decide
theorem test_wf_ring_bearing : (Instr.doorbell 40 true 0).wf = false ∧ (Instr.doorbell 98 true 0).wf = false ∧
    (Instr.dieReset 79).wf = false ∧
    (Instr.dieClockLost 98).wf = false ∧ (Instr.dieClockLost 99).wf = true := by decide
theorem test_wf_counter : (Instr.fenceSignal 0 256).wf = false ∧ (Instr.fenceWrite 97 255 0).wf = true := by decide
theorem test_wf_gang_slot : (Instr.gangEntryValidate 16 102 0).wf = false ∧ (Instr.paramGroupValidate 15 103 0).wf = false ∧
    (Instr.gangEntryValidate 15 102 0).wf = true := by decide
theorem test_wf_rm_slot : (Instr.rmClose 0 1024).wf = false ∧ (Instr.rmRevert 97 64).wf = false ∧
    (Instr.rmClose 97 63).wf = true := by decide
theorem test_wf_unit : (Instr.enginePairEnable 0 6).wf = false ∧ (Instr.moverEnable 0 4).wf = false ∧ (Instr.wmInit 40).wf = false ∧
    (Instr.moverEnable 39 3).wf = true := by decide
theorem test_wf_lane : (Instr.fusedChain 0 [⟨0, 1057, 0, .clean⟩]).wf = false ∧
    (Instr.attstep 0 [⟨0, 0, 256, .clean⟩]).wf = false := by decide
theorem test_wf_memory : (Instr.hbmRequest 60 (.read 8) false .clean).wf = false ∧
    (Instr.msopRequest 8 1 0 [] false .clean).wf = false ∧
    (Instr.wmAccess 0 0x8000000 (.read 1) false .clean).wf = false ∧ (Instr.hbmRefresh 79).wf = false ∧
    (Instr.hbmMaintEnter 40).wf = false ∧
    (Instr.pprDone 0 0).wf = false ∧ (Instr.hbmRequest 56 (.read 8) false .clean).wf = true := by decide
theorem test_wf_core : (Instr.hostCoreAccess 192 true false 0 8 .load .clean).wf = false ∧
    (Instr.hostCoreAccess 0 true false 60 8 .load .clean).wf = false ∧
    (Instr.hostCoreAccess 0 true false 0 8 (.store [1]) .clean).wf = false ∧ (Instr.hostAtomic 0 4 8 .amoadd 0 .clean).wf = false ∧
    (Instr.stimecmpExpiry 192 none).wf = false := by decide
theorem test_wf_mailbox : (Instr.mailboxInternalWrite .smFirmware 16384 0 none).wf = false ∧
    (Instr.mailboxRead 16384 0 [] []).wf = false ∧
    (Instr.mailboxSetAliasWrite .smFirmware 0 0 (some ⟨16384, .read, 0⟩)).wf = false := by decide
theorem test_wf_fabric : (Instr.portEnable 40).wf = false ∧ (Instr.flowEnable 65536).wf = false ∧
    (Instr.write 0 ⟨BitVec.ofNat 256 (0x10 + 2 ^ 192), [], 0, 0, false⟩).wf = false ∧
    (Instr.credit 40 ⟨0x02, [], 0, 0, false⟩).wf = false := by decide +kernel
theorem test_wf_group : (Instr.capoSend 4096).wf = false ∧ (Instr.capoEntryExpiry 0 2048).wf = false := by decide
theorem test_wf_host : (Instr.interruptMessage 100 0).wf = false ∧ (Instr.imsicStore .smFirmware 88 0 0).wf = false ∧
    (Instr.snpShr 58 0).wf = false ∧ (Instr.snpGfl 0 (2 ^ 32)).wf = false := by decide
theorem test_wf_ports : (Instr.pcieModeWrite 10 0).wf = false ∧
    (Instr.pcieOutboundAccess .smFirmware 0 0x9FFFF (.read 4)).wf = false ∧
    (Instr.pcieMsiWrite 0 2 0).wf = false ∧ (Instr.bisnp 2 0).wf = false ∧ (Instr.bisnpResponse 0 0 (some [])).wf = false ∧
    (Instr.cxlBar0Access 0 0x80000000 (.read 4)).wf = false := by decide
theorem test_wf_courses : (Instr.coursePairEnable 0 16).wf = false ∧ (Instr.courseRetrain 88 4).wf = false ∧
    (Instr.coursePairEnable 80 0).wf = false ∧
    (Instr.refPrimaryReturn 80).wf = false := by decide
theorem test_wf_power : (Instr.opDividerStep 40).wf = false ∧ (Instr.groupEntryValidate 4096 0).wf = false ∧
    (Instr.domainEnablingDone 0 [⟨80, 0, none⟩]).wf = false := by decide
theorem test_wf_start : (Instr.moduleStart ⟨true, [], true, [], []⟩).wf = false := by decide
theorem test_wf_other : (Instr.bypass 3).wf = false ∧ (Instr.remoteGangDescriptor ⟨2048, 0, 0, 0, false, 0, 0, 0, 0,
    0⟩).wf = false := by decide

/-! ### One step each; the expected values are worked out by hand from the rules named -/

/-- The state a command leads to. -/
def after (c : Instr) (s : State) : State := match exec c s with
  | .next t => t
  | _ => s

/-- R36: the doorbell writes PROD of the ring in bits 11:0 from bits 63:32. -/
theorem test_doorbell : (after (.doorbell 0 true 0x0000000200000005) ringOn).reg (ringContext 5 + 0x20) = 2 := by decide +kernel
/-- R67: an enable from OFF leads to ENABLING. -/
theorem test_ring_enable : (after (.ringEnable 5) lab).fnState (ringContext 5 + 0x18) = 1 := by decide +kernel
/-- R37: a fetch moves CONS on. -/
theorem test_descriptor_fetch : (after (.descriptorFetch 5) ringOn).reg (ringContext 5 + 0x24) = 1 := by decide +kernel
/-- R52: a descriptor that is done and wants no record leaves its ring. -/
theorem test_descriptor_complete : (after (.descriptorComplete 7) (holding ringOn (nopWork .done))).flights = [] :=
    by decide +kernel
/-- R45: a signal counts the fence counter. -/
theorem test_fence_signal : (after (.fenceSignal 0 3) { lab with sigQ := [(0, 3)] }).reg (Reg.dcFence 0 3) = 1 := by decide +kernel
/-- R251: ADD32 of 5 to 0xFFFFFFFF wraps to 4, and elements the mask leaves out stay. -/
theorem test_msop_wraps :
    let s : State := after (.hbmRequest 0x40 (.write (List.replicate 64 0xFF)) false .clean) lab
    (after (.msopRequest 0x40 1 1 (5 :: List.replicate 63 0) false .clean) s).bytes 0x40 8 = [4, 0, 0, 0, 0xFF, 0xFF, 0xFF,
    0xFF] := by
  decide +kernel
/-- R257: the set alias sets bits and the clear alias clears them. -/
theorem test_mailbox_aliases :
    let s := after (.mailboxInternalWrite .smFirmware 16383 0xF0 none) served
    (after (.mailboxSetAliasWrite .smFirmware 16383 0x0F none) s).mbxWord 16383 = 0xFF ∧
    (after (.mailboxClearAliasWrite .smFirmware 16383 0x30 none) s).mbxWord 16383 = 0xC0 := by decide +kernel
/-- R256: AMOMIN is signed, so -1 is below 1. -/
theorem test_atomic_min :
    let s := after (.hostAtomic 0 hostLine 4 .amoswap 1 .clean) (biased 1)
    (after (.hostAtomic 0 hostLine 4 .amomin 0xFFFFFFFF .clean) s).bytes hostLine 4 = [0xFF, 0xFF, 0xFF, 0xFF] := by decide +kernel
/-- R352: SNP_INV of a modified line answers with its data. -/
theorem test_snoop_modified : (after (.snpInv 0 (hostLine / 64)) copied).out = [.snoopData 0 (hostLine / 64) (List.replicate 64 5)] := by
  decide +kernel
/-- R331: a WRITE ahead of its turn is not performed and is answered with a NAK of the number wanted. -/
theorem test_write_gap : (after (.write 0 (writeFrame 2)) net).byte 0x1000 = 0 ∧
    (after (.write 0 (writeFrame 0)) net).byte 0x1000 = 5 := by decide +kernel
/-- R332: an ACK of 1 takes frame 0 from the window. -/
theorem test_ack : (after (.ack 0 (fromPeer 1 { type := 0x20 })) (awaits 0x10 0x51)).fab.unacked = [] := by decide +kernel
/-- R365: the external host reads what a write left. -/
theorem test_cxl_read :
    let s := after (.cxlMemRequest 0 0x1000 (.write (List.replicate 64 7)) false) cxl
    (after (.cxlMemRequest 0 0x1000 (.read 2) false) s).out = s.out ++ [.cxlData 0 [7, 7] false] := by decide +kernel
/-- R402: a step of the divider moves the frequency by at most 50 MHz. -/
theorem test_divider : (changing false).curMhz 0 ≤ (after (.opDividerStep 0) (changing false)).curMhz 0 + 50 := by decide +kernel
/-- R456: the device identification of the test port. -/
theorem test_idcode : (after .idcode ctl).out = [.jtagData 0x3A5C1C4B 32] := by decide +kernel
/-- R362: a mode that the port does not have gives OFF and err. -/
theorem test_port_mode : (after (.pcieModeWrite 5 2) lab).fld (Reg.hxPcieCtrl 93) 1 0 = 0 ∧
    (after (.pcieModeWrite 5 2) lab).flag (Reg.hxPcieCtrl 93) 3 = true := by decide +kernel
/-- R348: an idle step counts the timer of a host die that runs. -/
theorem test_idle : (match step lab with | .next t => t.reg (Reg.hxMtimeLo 80) | _ => 0) = 1 := by decide +kernel

/-! ### Witnesses of further clauses -/

/-- A descriptor that gathers into slot 5 of CD0, with close, and ends with a status. -/
def gathered (st : BitVec 8) : Flight :=
  { nopWork .done with res := { Flight.noRes with status := st, merges := [(0, 5, 0x3F800000, true)] } }
theorem test_wit_CompletionFollowsR44_merge :
    ([0, 0x10, 0x50, 0x60] : List (BitVec 8)).all (fun st => let f := gathered st
      let s := holding ringOn f
      s.flight 7 == some f && !s.awaitsAck 7 && s.ringFlights 5 == [f] && f.res.merges == [(0, 5, 0x3F800000, true)]) = true ∧
    5 < rmSlotsOn 0 ∧ (0x3F800000 : Word).toNat ≤ 0x7F800000 ∧ (ringOn.reg (Reg.ruRmCur 0 5)).toNat ≤ 0x7F800000 :=
    by decide +kernel

/-- Gang 0 with gang 1, of CD1, as its second member, gang 1 in this state. -/
def nested (ctrl : Word) : State := put ganged [(Reg.dcGangMember 0 0 1, 0x100001), (Reg.dcGangCtrl 1 0, ctrl)]
theorem test_wit_FanoutFollowsR61_nested :
    let f := gangWork [] .waiting
    hGang ((nested 0).gangMember 0 1) = true ∧ (nested 0).gangValid 1 = false ∧ (nested 0x80000001).gangValid 1 = true ∧
    (nested 0x80000001).gangMcount 1 = 0 ∧ 1 ∉ (holding (nested 0x80000001) f).gangPath f 5 ∧ f.level + 1 ≤ 3 ∧
    (put (nested 0) [(Reg.dcGangMember 0 0 1, 0x100000)]).gangMember 0 1 = 0x100000 ∧ 0 ∈ (holding (nested 0) f).gangPath f 5 ∧
    (let g := put (nested 0) [(Reg.dcGangMember 0 0 1, 0x100010)]
     gangHome 16 = 16 ∧ hGangNo (g.gangMember 0 1) = 16 ∧ (put g [(Reg.tdDie 16, 0x300)]).dieLost 16 = true ∧
     (put g [(Reg.pwDom 16, 0x30)]).domainGone 16 = true) := by decide +kernel
theorem test_wit_FanoutFollowsR61_split :
    let f := gangWork [(108, 599999)] .waiting
    ganged.gangRule 0 = 1 ∧ ganged.gangCount 0 = 2 ∧ 1048575 < dShardN f.desc * 2 ∧
    badSignal f = false ∧ (holding ganged f).ready f = true ∧ (holding ganged f).gangRefuses f = false ∧
    (put ganged [(Reg.dcGangCtrl 0 0, 0x80000002)]).gangRule 0 ≠ 1 := by decide +kernel

/-- Gang 0 spans modules from `base` on, `n` of them; this is module 0, and module 1 has a flow. -/
def spanning (base n : Nat) : State := put net [(Reg.dcGangCtrl 0 0, 0x81000002), (Reg.dcGangMember 0 0 0, 0),
    (Reg.dcGangMember 0 0 1, 0x400),
  (Reg.dcGangSpan 0 0, BitVec.ofNat 32 (base + 2 ^ 11 * n + 2 ^ 23)), (Reg.pwDom 0, 0x20)]
theorem test_wit_FanoutFollowsR61_spans :
    let f := gangWork [] .waiting
    let ok (s : State) : Bool := (holding s f).ready f && !s.domainGone 0 && s.fnState (Reg.pwDom 0) != 1 && !(holding s f).gangRefuses f &&
      !s.dieLost 0 && !s.stepAborted 0 f.desc && s.gangCount 0 == 2
    ok (spanning 0 2) = true ∧ (spanning 0 2).ownPositions 0 = [0] ∧ (spanning 0 2).otherPositions 0 = [1] ∧
    (spanning 0 2).gangModule 0 0 = (spanning 0 2).moduleId ∧
    ok (spanning 1 2) = true ∧ (spanning 1 2).ownPositions 0 = [] ∧ (spanning 1 2).spanFlow 0 1 = some 10 ∧
    (spanning 1 2).spanFlow 0 2 = none ∧
    ok (spanning 2 1) = true ∧ (spanning 2 1).gangModule 0 0 ≠ (spanning 2 1).moduleId ∧ (spanning 2 1).spanFlow 0 2 = none ∧
    (let r := { f with remote := some (1, 5) }
     (holding (spanning 0 2) r).ready r = true ∧ ((spanning 0 2).ownPositions 0).headD 0 = 0) := by decide +kernel

/-- ELEMENTWISE_FMA of n FP32 elements, x, y and z of CD0's memory. -/
def elemWork (n : Nat) : Flight := work ep0 (desc [(0, 0x12), (128, 0x1000), (192, 0x2000), (256, 0x3000), (416, n)]) .started
/-- The operands begin with x = 3 and y = 2. -/
def elemState (n : Nat) : State := { holding epOn (elemWork n) with
  mem := [(0x1002, 0x40), (0x1003, 0x40), (0x2003, 0x40)] }
theorem test_wit_NumberFormatsFollowR77 :
    let f := elemWork 1
    let s := elemState 1
    s.flight 7 = some f ∧ f.phase = .started ∧ hGang f.target = false ∧ dClass f.desc = 0x12 ∧ s.held f = false ∧
    serves (s.elementwiseRun f) = true ∧ shardPart (dfld f.desc 439 416) (dShardN f.desc) (dShardIx f.desc) = (0, 1) ∧
    (f.opnd 128 320).w.at s.moduleId 0 0 = .here 0x1000 ∧ (f.opnd 192 352).w.at s.moduleId 0 0 = .here 0x2000 ∧
    (f.opnd 256 384).w.at s.moduleId 0 0 = .here 0x3000 ∧ (f.opnd 256 384).fmt = .fp32 ∧ s.linePoisoned (0x3003 / 64) = false ∧
    fpVal 0x40400000 = .fin false 0xC00000 (-22) ∧ fpVal 0x80000000 = .fin true 0 (-149) := by decide +kernel
theorem test_wit_UnitFaultsEnd_parity :
    let f := elemWork 1
    let s := elemState 1
    matClass (dClass f.desc) = true ∧ hDie f.target < 40 ∧ hSlot f.target < 6 ∧ serves (s.elementwiseRun f none) = true ∧
    (s.elementwiseRun f none).1.code = 0 ∧ (s.elementwiseRun f (some 1)).1.stop = true := by decide +kernel

theorem test_wit_HostCoresFollowR357_modified : copied.modifiedCopy (hostLine / 64) = some (List.replicate 64 5) ∧
    copied.coreReach 0 hostLine = .ok ∧ copied.cacheable hostLine (some (.hart 0)) = true ∧ hostLine % 64 + 8 ≤ 64 ∧
    (biased 3).meets (80 + 0 / 24) hostLine (some (.hart 0)) = some (.bias (ownerDie hostLine)) := by decide +kernel
theorem test_wit_AtomicsFollowR256_misaligned : 191 < 192 ∧ (put lab (running [87])).dieState (80 + 191 / 24) = 2 ∧
    isSetup (hostLine + 2) = false ∧
    (hostLine + 2) % 4 ≠ 0 ∧ lab.cacheable hostLine (some (.hart 0)) = false := by decide +kernel
theorem test_wit_RequestsFollowR333_answers :
    let s := put (trained lab [(88, 0)]) [(Reg.fbPortStat 88 0, 3), (Reg.fbFlowCtrl 88 1, 0x3020), (Reg.fbFlowPeer 88 1, 1),
    (Reg.fbFlowRoute 88 1 0, 8064)]
    net.answerFails 88 (linesOf 0x1000 64) = none ∧ net.answerMiss 88 0x1000 = none ∧
    s.firstMiss 88 (linesOf 0x1000 64) (some (.frame 10)) = none ∧ s.firstHeld (linesOf 0x1000 64) (.frame 10) = none ∧
    s.answerFails 88 (linesOf 0x1000 64) = some (.lost 88, 0x1000) ∧ arrives 0x10 (writeFrame 0) s = true := by decide +kernel

/-- The scale plane of a block waits for frame 0 of descriptor 7. -/
def guarded : State := let s := awaits 0x10 0x51
  { s with fab := { s.fab with guards := [⟨7, [0], none, 1, 0x2000, [5], false⟩] } }
theorem test_wit_AnswersFollowR332_guard : arrives 0x20 (fromPeer 1 { type := 0x20 }) guarded = true ∧
    guarded.fab.guards = [⟨7, [0], none, 1, 0x2000, [5], false⟩] ∧ guarded.flight 7 = some (started 0x51) ∧ guarded.answered = [] ∧
    guarded.extHolder (0x2000 / 64) (some (.desc 7)) = none ∧
    guarded.linePoisoned (0x2000 / 64) = false ∧ (∀ u ∈ guarded.fab.unacked, u.flow = 10 → u.sends ≠ 0) ∧
    arrives 0x23 (fromPeer 0 { type := 0x23, aux := 0x60 }) guarded = true ∧ (∀ g ∈ guarded.fab.guards, g.fid = 7 ∧
    0 ∈ g.after) := by
  decide +kernel
/-- Gang 0 has sent its copy to module 1 and waits. -/
def gangSent (n : Nat) : State :=
  let s := holding (spanning 0 2) { gangWork [] .started with expect := 4, mods := [0, 1] }
  { s with fab := { s.fab with gangOut := [⟨7, 1, 10, n⟩] } }
theorem test_wit_AnswersFollowR332_gangs :
    let g := { gangWork [] .started with expect := 4, mods := [0, 1] }
    (gangSent 1).flowLive 10 = true ∧ (gangSent 1).fab.unacked = [] ∧ (gangSent 1).flight 7 = some g ∧ hGang g.target = true ∧
    1 < (gangSent 1).fld (Reg.fbFlowCtrl 88 1) 15 12 + 1 ∧ ¬ 4 < (gangSent 4).fld (Reg.fbFlowCtrl 88 1) 15 12 + 1 ∧
    (gangSent 4).fab.greds = [] ∧ 1 ≠ (gangSent 4).moduleId ∧ g.mods[1]? = some 1 ∧ perModule g < g.expect ∧
    (gangSent 4).reports = [] := by
  decide +kernel
theorem test_wit_SynchronisingFollowsR330_latched :
    let s := put net [(Reg.fbFlowCtrl 88 1, 0x3008)]
    s.pending = [] ∧ s.latched = [.flow 10] ∧ s.fab.guards = [] ∧ s.syncCount 10 = 0 ∧ s.portUp (portOf s 10) = true ∧ s.Wf :=
  ⟨rfl, by decide +kernel, rfl, by decide +kernel, by decide +kernel, wf_of_regs (by decide +kernel) (by decide +kernel)⟩

theorem test_wit_LehrFollowsR406_cap : ctl.shiftGroups = [] ∧ ctl.flag Reg.pwStatus 1 = false ∧
    (put ctl [(Reg.pwStatus, 2)]).flag Reg.pwStatus 1 = true ∧ (put ctl [(Reg.pwAlert, 0x10)]).flag Reg.pwAlert 4 = true :=
    by decide +kernel
theorem test_wit_SafeStateFollowsR418_record :
    let s := holding (put ctl [(Reg.pwInput, 0x15180000)]) (nopWork .started)
    s.controls = true ∧ s.firmwareRuns = true ∧ s.fld Reg.pwInput 31 16 ≤ 5950 ∧ 5000 ≤ s.fld Reg.pwInput 31 16 ∧ s.sm.jop = none ∧
    s.sm.compact = false ∧ s.regionFull = false ∧ (s.flights.map (·.fid)).Nodup ∧
    (∃ f ∈ s.flights, f.executing = true) := by decide +kernel
theorem test_wit_DomainsFollowR417_latched :
    let s := put ctl [(Reg.pwDom 0, 8)]
    s.pending = [] ∧ s.latched = [.domain 0] ∧ s.fab.guards = [] ∧ s.dieState 0 ≠ 3 ∧ isCd 0 = true ∧
    (let u := put ctl [(Reg.pwDom 88, 8), (Reg.pwDom (attachedTo 88), 0x10)]
     u.latched = [.domain 88] ∧ isCd 88 = false ∧ u.fnState (Reg.pwDom (attachedTo 88)) ≠ 2) ∧ s.Wf :=
  ⟨rfl, by decide +kernel, rfl, by decide +kernel, by decide +kernel, by decide +kernel,
    wf_of_regs (by decide +kernel) (by decide +kernel)⟩
theorem test_wit_EndpointFollowsR366_refused :
    let s := put cxl [(Reg.hxCxlWinSize 88, 0xFFFFFFFF)]
    s.inCxlWindow 0x1800000000 = true ∧ populated 0x1800000000 = false ∧ s.cxlUp 0 = true ∧ isSetup (Reg.dcFence 0 255) = true ∧
    cxl.setupMeets (.extHost 0) false (Reg.dcFence 0 255) = some (99, .setupRights) ∧
    cxl.setupMeets (.extHost 0) true (Reg.dcFence 0 255) = some (99, .setupRights) := by decide +kernel
theorem test_wit_CoursesAndClocksFollowR379_sources : (paired 3 3).fab.unacked = [] ∧
    (let s := put lab [(Reg.cpRef 0, 0x11018)]
     s.fld (Reg.cpRef 0) 17 16 = 1 ∧ s.dieDown 0 = false ∧ s.goodSource 0 (s.primPair 0) = true) := by decide +kernel
/-- A descriptor whose access crossed CD0. -/
def crossed : Flight := { nopWork .done with res := { Flight.noRes with uses := [0] } }
theorem test_wit_DiesFollowR392_answers :
    let s : State := { holding lab crossed with losses := [⟨0, [7], []⟩] }
    s.losses.find? (fun l => decide (l.die = 0)) = some ⟨0, [7], []⟩ ∧ s.flight 7 = some crossed ∧ crossed.issued = true ∧
    crossed.res.uses.contains 0 = true ∧
    crossed.res.status.toNat < stDieLost ∧ dClass crossed.desc / 16 ≠ 1 ∧ dClass crossed.desc ≠ 0x40 := by decide +kernel

/-- PWR_EN is accepted high; MOD_RESET_N at a level, held or not, and an interval of it runs or not,
    with changes collected or not. -/
def resetPin (level held int col : Bool) : State :=
  let s := put ctl [(Reg.pwPins, if level then 3 else 1)]
  { s with pins := { s.pins with rst := held, rstInt := int, rstCol := col } }
theorem test_wit_PinsFollowR449_reset :
    let ok (s : State) (level : Bool) : Bool := s.flag Reg.pwPins 0 && !s.isSafe && s.flag Reg.pwPins 1 == level && s.pins.powered
    ok (resetPin false false false false) false = true ∧ ok (resetPin false false true false) false = true ∧
    ok (resetPin true true false false) true = true ∧ ok (resetPin true true true false) true = true ∧
    ok (resetPin true false true true) true = true ∧ (resetPin true false true true).pins.rst = false ∧
    (resetPin true false true true).pins.rstCol = true ∧
    (resetPin true true true true).flag Reg.pwPins 1 = (resetPin true true true true).pins.rst ∧
    (let s : State := { resetPin false false false false with pins := { ctl.pins with powered := false } }
     s.flag Reg.pwPins 0 = true ∧ s.pins.powered = false) ∧
    ctl.sm.jop = none ∧ ctl.sm.compact = false ∧ ctl.sm.erase = false ∧ ctl.sm.fwup = none := by decide +kernel
theorem test_wit_PinsFollowR449_throttle :
    let s (thr seen col : Bool) : State := { ctl with pins := { ctl.pins with thrInt := thr, thrSeen := seen, thrCol := col } }
    ctl.dieState 99 = 2 ∧ ctl.pins.rst = false ∧ (s true false false).flag Reg.pwPins 2 = false ∧
    (s true false false).flag Reg.pwPins 3 = false ∧
    (s true false false).pins.thrCol = false ∧ (s true true true).pins.thrCol = true ∧
    (s false false false).pins.thrInt = false := by decide +kernel
theorem test_wit_StartFollowsR424_pairs :
    let x : PairTest := ⟨88, 0, none⟩
    let s := put fresh [(Reg.pwPins, 1)]
    let starts (d : Nat) : Bool := startDies.contains d && s.dieState d == 1
    (x.die, x.pair) ∈ pairsOf x.die ∧ pairPeer 88 0 = some 0 ∧ starts 88 = true ∧ starts 0 = true ∧ refusedDie x = 88 ∧
    (∀ y ∈ pairEnds x.die x.pair, s.fnState (Reg.cpCtrl y.1 y.2) = 0) := by decide +kernel
theorem test_wit_CounterAndUpdateFollowR430_opens :
    let s : State := { ctl with sm := { ctl.sm with keys := some ⟨0, 0, 0, ctl.sm.counterKey, []⟩ } }
    s.sm.keys.any s.counterOpens = true := beq_self_eq_true _
theorem test_wit_JournalFollowsR437_erased : ∀ k, lookup jrErased journal.sm.journal k = BitVec.allOnes 512 := fun _ => rfl

/-- The responder is also reached over DOE of IO0. -/
def talksTwice : State := put talks ((Reg.hxPcieCtrl 88, 2) :: (Reg.hxPcieStat 88, 1) :: running [88])
theorem test_wit_SpdmFollowsR434_busy : talksTwice.spdmReach .mctp = true ∧ talksTwice.spdmReach (.doe 0) = true ∧
    talksTwice.fld Reg.smBoot 31 28 = 5 := by decide +kernel
theorem test_wit_ConnectorFollowsR454_addresses : talks.setting 4 = none ∧ talks.staticAddr true = 0x3B ∧ talks.pins.rst = false ∧
    (0x3B : BitVec 7).toNat = talks.staticAddr true ∧ (0x3A : BitVec 7).toNat ≠ talks.staticAddr true ∧
    talks.targetUp true = true := by
  decide +kernel

/-! ### Further steps -/

/-- R103, R121: 3 times 2 plus 0 is 6, in FP32. -/
theorem test_elementwise : (after (.elementwiseFma 7) (elemState 1)).bytes 0x3000 4 = leBytes 4 0x40C00000 := by decide +kernel
/-- R82: 65520 is the least magnitude that saturates FP16; 65519.996 rounds down. -/
theorem test_fp16_threshold : writeElem .fp16 0 0x477FF000 = (0x7BFF, 1) ∧ writeElem .fp16 0 0x477FEFFF = (0x7BFF, 0) ∧
    writeElem .fp16 0 0xC77FF000 = (0xFBFF, 1) := by decide +kernel
/-- R82, R83: E4M3 takes 464 to 448 uncounted and infinity to 448 counted; R81: 0.5 of the smallest E5M2 value is a tie to 0. -/
theorem test_fp8_write : writeElem .e4m3 0 0x43E80000 = (0x7E, 0) ∧ writeElem .e4m3 0 0x7F800000 = (0x7E, 1) ∧
    writeElem .e5m2 0 0x37000000 = (0, 0) ∧ writeElem .e5m2 0 0x37400000 = (1, 0) := by decide +kernel
/-- FIPS 180-4's example: the SHA-384 digest of "abc". -/
theorem test_sha384 : (sha384 [0x61, 0x62, 0x63]).take 8 = [0xCB, 0x00, 0x75, 0x3F, 0x45, 0xA3, 0x5E, 0x8B] := by decide +kernel
/-- RFC 4231, test case 2: HMAC-SHA-256 of "what do ya want for nothing?" under "Jefe". -/
theorem test_hmac256 : (hmac256 [0x4A, 0x65, 0x66, 0x65] [0x77, 0x68, 0x61, 0x74, 0x20, 0x64, 0x6F, 0x20, 0x79, 0x61, 0x20, 0x77,
    0x61, 0x6E,
    0x74, 0x20, 0x66, 0x6F, 0x72, 0x20, 0x6E, 0x6F, 0x74, 0x68, 0x69, 0x6E, 0x67, 0x3F]).take 4 = [0x5B, 0xDC, 0xC1, 0x46] :=
    by decide +kernel
/-- R448, R450: an assertion in an interval waits for its end. -/
theorem test_mod_reset_collected :
    let s := after .modResetAssert (resetPin false false true false)
    s.pins.rst = false ∧ (after (.throttleIntervalEnd true) s).pins.rst = true ∧
    (after (.throttleIntervalEnd true) s).dieState 0 = 1 := by
  decide +kernel
/-- R67: a latched enable stands in OFF for the rest of the cycle, and the next cycle begins ENABLING. -/
theorem test_latched_enable :
    let s := after (.ringDisablingDone 5) (put lab [(ringContext 5 + 0x18, 0x38)])
    s.fnState (ringContext 5 + 0x18) = 0 ∧ (match step s with | .next t => t.fnState (ringContext 5 + 0x18) | _ => 9) = 1 :=
    by decide +kernel
/-- R90: a gathered maximum of 1.0 is merged and the slot closed. -/
theorem test_merge_close : (after (.descriptorComplete 7) (holding ringOn (gathered 0))).reg (Reg.ruRmHist 0 5 0) = 0x3F800000 :=
    by decide +kernel
theorem test_wf_clear_alerts : (Instr.clearAlerts 0 5).wf = false ∧ (Instr.clearAlerts 0 3).wf = true := by decide

/-! ### Witnesses of clauses on errors, entries, reports and snoops -/

/-- Gangs 1 to 4, of CD1 to CD4, each with the next one as its only member; the last one is `last`. -/
def chained (n : Nat) (last : Word) : State :=
  put ganged ((Reg.dcGangMember 0 0 1, 0x100001) :: (List.range n).flatMap (fun i =>
    [(Reg.dcGangCtrl (i + 1) 0, 0x80000001), (Reg.dcGangMember (i + 1) 0 0,
    if i + 1 = n then last else BitVec.ofNat 32 (0x100002 + i))]))
theorem test_wit_EntriesFollowR58_codes :
    2 ∈ (chained 4 0).gangErrs 0 0x80000002 ∧ 2 ∉ (chained 3 0).gangErrs 0 0x80000002 ∧
    3 ∈ (chained 3 0x100000).gangErrs 0 0x80000002 ∧ 3 ∉ (chained 4 0).gangErrs 0 0x80000002 ∧
    6 ∈ (put (chained 3 0) [(Reg.dcGangSpan 3 0, 0x801000)]).gangErrs 0 0x80000002 ∧ 6 ∉ (chained 3 0).gangErrs 0 0x80000002 := by
  decide +kernel
theorem test_wit_EntriesFollowR58_groups :
    let s := put (group 0) [(Reg.pwGrpDiesLo 9, 1), (Reg.pwGrpDiesLo 4095, 1), (Reg.pwGrpCtrl 4095, 0x80000000)]
    s.grpErrs 9 0x80000000 = [1] ∧ s.controls = true ∧ (put s [(Reg.pwGrpSpan 9, 0x1000)]).grpErrs 9 0x80000000 = [1, 2] ∧
    (put s [(Reg.pwGrpShare 9, 0)]).grpErrs 9 0xC0000000 = [1, 3] ∧ s.Wf :=
  ⟨by decide +kernel, by decide +kernel, by decide +kernel, by decide +kernel, wf_of_regs (by decide +kernel) (by decide +kernel)⟩

theorem test_wit_ReportsFollowR63_remote :
    let g := { gangWork [] .started with expect := 4, mods := [0, 1] }
    (gangSent 1).flight 7 = some g ∧ g.phase = .started ∧ hGang g.target = true ∧ g.remote = none ∧ g.parent = none ∧
    (gangSent 1).reports = [] ∧ (gangSent 1).ownShare 7 2 = false ∧ (gangSent 1).ownShare 7 4 = false ∧ perModule g = 2 ∧
    (let s : State := { gangSent 1 with reports := [⟨7, 0, Flight.noRes⟩, ⟨7, 1, Flight.noRes⟩, ⟨7, 3, Flight.noRes⟩] }
     s.ownShare 7 2 = false ∧ ∀ x ∈ s.reports, ¬ (x.gang = 7 ∧ x.member = 2)) := by decide +kernel
theorem test_wit_ReportsFollowR63_runMax :
    let r (m : Option Word) : Report := ⟨7, 0, { Flight.noRes with runMax := m }⟩
    (∀ x ∈ [r none, r (some 0x3F800000), r (some 0)], ∀ w, x.res.runMax = some w → w.toNat ≤ 0x7F800000) ∧
    (combine [r none, r (some 0x3F800000), r (some 0)]).runMax = some 0x3F800000 ∧ (combine [r none]).runMax = none := by
  refine ⟨?_, by decide +kernel, by decide +kernel⟩
  simp

theorem test_wit_ErrorsFollowR235_requests :
    let s := put lab (running [39])
    let home := ownerDie hostLine
    home = 80 ∧ isHostMem hostLine = true ∧ s.meets 80 hostLine (some (.home 80)) = none ∧
    s.extHolder (hostLine / 64) (some (.home 80)) = none ∧
    s.meets 0 0x40 (some (.home 0)) = none ∧ s.dieDown 39 = false ∧ s.flag (Reg.wmCtrl 39) 1 = false ∧
    s.linePoisoned (hostLine / 64) = false ∧ s.modifiedCopy (hostLine / 64) = none ∧ s.fld (Reg.hcScrub 0) 15 0 ≠ 0 ∧
    (put s [(Reg.hcScrub 0, 0)]).fld (Reg.hcScrub 0) 15 0 = 0 ∧ s.fld (Reg.hxScrub 80) 15 0 ≠ 0 ∧ s.scrubAt 80 < 8589934592 ∧
    maint.flag (Reg.hcCtrl 0) 0 = true ∧ maint.dieDown 0 = false := by decide +kernel

theorem test_wit_HostCoresFollowR357_fetch : lab.host.cores = [] ∧ (biased 1).coreReach 23 hostLine = .ok ∧
    (biased 1).cacheable hostLine (some (.hart 23)) = true ∧ isWorkMem hostLine = false := by decide +kernel

/-- A MATMUL that is done and writes D over flow 10, where its frame has gone out, and over flow 20, where it has not. -/
def drain : Flight := { started 0x10 with phase := .done, res := { Flight.noRes with lines := [2 ^ 42 + 0x40, 2 ^ 42 + 0x41] } }
def draining : State :=
  let s := put net [(Reg.fbFlowPeer 88 2, 1)]
  let fr := mkFrame { type := 0x10, addr := 0x1040, payload := line5 } 0 1 20 0 8064
  let x : Sent := { sent 0x10 with flow := 20, frame := fr, ix := 1, sends := 0 }
  { holding s drain with fab := { s.fab with unacked := [sent 0x10, x] } }
theorem test_wit_AnswersFollowR332_drain :
    let f := fromPeer 0 { type := 0x23, aux := stAddrFault }
    (∀ u ∈ draining.fab.unacked, u.flow = f.flow → u.sends ≠ 0) ∧ arrives 0x23 f draining = true ∧ draining.flight 7 = some drain ∧
    draining.fab.unacked.find? (fun u => decide (u.flow = f.flow ∧ u.seq.toNat = f.seq)) = some (sent 0x10) ∧
    draining.fab.guards = [] ∧ moverClass (dClass drain.desc) = false ∧ matClass (dClass drain.desc) = true ∧
    stopsMover stAddrFault = true ∧ stopsPartition drain.res.status.toNat = false ∧
    (2 ^ 48 * draining.flowPeer 20 + 0x1040) / 64 = 2 ^ 42 + 0x41 := by decide +kernel
theorem test_wit_AnswersFollowR332_reported : (gangSent 0).flowLive 10 = true ∧ (gangSent 0).fab.unacked = [] ∧
    (gangSent 0).fab.gangOut = [⟨7, 1, 10, 0⟩] ∧ (gangSent 0).flight 7 = (gangSent 1).flight 7 := by decide +kernel

theorem test_wit_DomainsFollowR417_pairs :
    let s := put ctl [(Reg.pwDom 88, 0x30), (Reg.cpCtrl 0 12, 0x38), (Reg.cpCtrl 88 0, 0x30)]
    s.fnState (Reg.pwDom 88) = 3 ∧ s.domainIdle 88 = true ∧ s.controls = true ∧ (0, 12) ∈ pairsTo 88 ∧ s.fab.unacked = [] := by
  decide +kernel
theorem test_wit_CoursesAndClocksFollowR379_both : lab.dieDown 0 = false ∧
    (put lab [(Reg.cpRef 0, 0x1018)]).fld (Reg.cpRef 0) 17 16 = 0 := by
  decide +kernel
theorem test_wit_PinsFollowR449_shutdown :
    let s := put ctl [(Reg.pwPins, 1)]
    s.controls = true ∧ s.firmwareRuns = true ∧ s.regionFull = false ∧ s.pw.causeDue = false ∧ s.sm.jop = none ∧
    s.sm.compact = false ∧
    s.sm.erase = false ∧ ¬ (5000 ≤ 4999) ∧ 5000 ≤ 5400 ∧ 5400 ≤ 5950 := by decide +kernel
/-- R67: the enable latched at a course pair begins ENABLING in the next cycle, where the link trains. -/
theorem test_latched_pair : (match step (put lab [(Reg.cpCtrl 88 0, 0x8)]) with
    | .next t => (t.fnState (Reg.cpCtrl 88 0), t.fld (Reg.cpStatus 88 0) 11 8)
    | _ => (9, 9)) = (1, 2) := by decide +kernel

/-! ### A start that reaches the running state (R424) -/

/-- A journal record written out, with its crc. -/
def slotOf (seq type len key data crc : Nat) : BitVec 512 :=
  BitVec.ofNat 512 (seq + 2 ^ 32 * type + 2 ^ 48 * len + 2 ^ 64 * key + 2 ^ 96 * data + 2 ^ 480 * crc)
/-- CRC-32C of the 86 records of helper data, which are zero, computed outside the model. -/
def helperCrcs : List Nat :=
  [0x04FAC06A, 0xED5A3FB0, 0x71BEF0E4, 0x4B1CE8A3, 0x4D9B18BD, 0x07D25EAC, 0x9B3691F8, 0xA19489BF, 0x963971C4, 0x7F998E1E,
   0xE37D414A, 0xD9DF590D, 0xDF58A913, 0xD72EEA65, 0x4BCA2531, 0x71683D76, 0x2491D5C7, 0xCD312A1D, 0x51D5E549, 0x6B77FD0E,
   0x6DF00D10, 0x27B94B01, 0xBB5D8455, 0x81FF9C12, 0xB6526469, 0x5FF29BB3, 0xC31654E7, 0xF9B44CA0, 0xFF33BCBE, 0x733BF506,
   0xEFDF3A52, 0xD57D2215, 0x442CEB30, 0xAD8C14EA, 0x3168DBBE, 0x0BCAC3F9, 0x0D4D33E7, 0x470475F6, 0xDBE0BAA2, 0xE142A2E5,
   0xD6EF5A9E, 0x3F4FA544, 0xA3AB6A10, 0x99097257, 0x9F8E8249, 0x97F8C13F, 0x0B1C0E6B, 0x31BE162C, 0x6447FE9D, 0x8DE70147,
   0x1103CE13, 0x2BA1D654, 0x2D26264A, 0x676F605B, 0xFB8BAF0F, 0xC129B748, 0xF6844F33, 0x1F24B0E9, 0x83C07FBD, 0xB96267FA,
   0xBFE597E4, 0x3EFDBD31, 0xA2197265, 0x98BB6A22, 0x855696DE, 0x6CF66904, 0xF012A650, 0xCAB0BE17, 0xCC374E09, 0x867E0818,
   0x1A9AC74C, 0x2038DF0B, 0x17952770, 0xFE35D8AA, 0x62D117FE, 0x58730FB9, 0x5EF4FFA7, 0x5682BCD1, 0xCA667385, 0xF0C46BC2,
   0xA53D8373, 0x4C9D7CA9, 0xD079B3FD, 0xEADBABBA, 0xEC5C5BA4, 0xA6151DB5]
/-- OPEN and CLOSE of generation 9 without a snapshot, and the helper data. -/
def bootRecords : List (Nat × BitVec 512) :=
  (0, slotOf 1 1 8 0 9 0x1BF63CFE) :: (1, slotOf 2 2 12 0 9 0x09BF1A4E) ::
    helperCrcs.zipIdx.map (fun x => (x.2 + 2, slotOf (x.2 + 3) 0x40 48 x.2 0 x.1))
/-- Version 7, svn 3, 128 bytes of payload: the header of R428 with a public key and a signature made outside the model. -/
def imageHead : List Byte :=
  leBytes 48 0xB12FDD6FA5C3A36475DD961A143E64118F93596EC97D64EB000000000000008000000003000000070000000157464C59 ++
  leBytes 48 0x87194EE7E402A978E1B7DE91A850D618DE75B2CE15807143484F2A9DF1BCB4C267192F49D1DEE9BAB00161F669025550 ++
  leBytes 48 0x3A0119FF125CE8708CF5F714A6C61686F28878EF3C43CD6716A8340343E215E16226A0F15E44DE8A52A9D5FAC8FB7127 ++
  leBytes 48 0x6D9D41DE55CF2F5FDE8442E3DD33BDD3230FB00802F80D430AB9BF0BA61947B9A3EDFF81DAFF6F57FAF8D6963D1DCAC8 ++
  leBytes 48 0x8545546E1BA7AF6EA88904AB39E2BBBA43EF11E5F4326E721EFFE691A0BF30B2AEA7F0736BEC4B95EFDEBE301310D561 ++
  leBytes 24 0x3CB8931D90EFA2F9BC41D910100FD7378AD56012A2C65A1E
/-- The payload: a host boot section of 64 bytes at offset 64, and those bytes. -/
def imagePay : List Byte :=
  leBytes 48 0x000000000000000000000000000000000000000000000000000000000000000000000000000000400000000000000040 ++
  leBytes 48 0x1F1E1D1C1B1A191817161514131211100F0E0D0C0B0A0908070605040302010000000000000000000000000000000000 ++
  leBytes 32 0x3F3E3D3C3B3A393837363534333231302F2E2D2C2B2A29282726252423222120
def bootImage : List Byte := imageHead ++ List.replicate 248 0 ++ imagePay
def bootHelper : List Byte := (List.replicate 86 (List.replicate 48 (0 : Byte))).flatten.take 4096
/-- Slot A holds the image, the ROM knows its key, and the counter holds the key that the PUF's seed gives. -/
def bootable : State := { put fresh [(Reg.pwPins, 1)] with
  sm := { fresh.sm with
    imgFlash := bootImage.zipIdx.map (fun x => (x.2, x.1)), journal := bootRecords
    romKeys := [leBytes 48 0xC19D99E580B667310F5262199BD86B5E6C417804A1CE7E461269FB74CD679D3D1E44DD6B3E809776CC1A6EDBA8941857]
    counterKey := hkdf384 (leBytes 32 (Config.pufSeed bootHelper).toNat) infoRpmc 32 } }

theorem lookup_zip {α : Type} (d : Nat → α) : ∀ (l : List α) (n a : Nat), n ≤ a →
    lookup d ((l.zipIdx n).map (fun x => (x.2, x.1))) a = l.getD (a - n) (d a)
  | [], _, _, _ => rfl
  | x :: l, n, a, h => by
    simp only [List.zipIdx_cons, List.map_cons, lookup]
    split
    · next e => subst e; simp
    · next e =>
      have e : n ≠ a := e
      rw [lookup_zip d l (n + 1) a (by omega), show a - n = (a - (n + 1)) + 1 by omega, List.getD_cons_succ]
theorem boot_byte (a : Nat) : bootable.imgByte a = bootImage.getD a 0xFF := lookup_zip flashErased bootImage 0 a (Nat.zero_le a)
theorem boot_bytes (a n : Nat) (h : a + n ≤ 640) : bootable.imgBytes a n = (bootImage.drop a).take n := by
  have len : bootImage.length = 640 := by decide +kernel
  refine List.ext_getElem (by simp [State.imgBytes, len]; omega) (fun i h1 h2 => ?_)
  simp only [State.imgBytes, List.length_map, List.length_range] at h1
  simp only [State.imgBytes, boot_byte, List.getElem_map, List.getElem_range, List.getElem_take, List.getElem_drop]
  exact List.getD_eq_getElem _ _ (by omega)
theorem boot_header : bootable.headerOk 0 = true := by
  simp only [State.headerOk, State.imgNat, boot_bytes, Nat.reduceAdd, Nat.reduceLeDiff]
  decide +kernel
theorem boot_payload : bootable.payloadOk 0 = true := by
  have e : bootable.imgNat 16 4 = 128 := by rw [State.imgNat, boot_bytes _ _ (by omega)]; decide +kernel
  simp only [State.payloadOk, Nat.zero_add, e, boot_bytes, Nat.reduceAdd, Nat.reduceLeDiff]
  decide +kernel
theorem boot_helper : (List.range 86).mapM (fun k => ((bootable.startJournal 0 9).standing 0x40 k).map (fun r => leBytes 48 (rData r))) =
    some (List.replicate 86 (List.replicate 48 0)) := by decide +kernel
theorem wrongBits_self (a : List Byte) : wrongBits a a = 0 := by
  simp [wrongBits, List.zipWith_self]

theorem test_wit_StartFollowsR424_runs :
    let e : StartEnv := { clean with puf := Config.pufOf bootHelper }
    let seed := Config.pufSeed bootHelper
    bootable.mayStart = true ∧ e.romOk = true ∧ (∀ d ∈ e.failed, d ∈ startDies) ∧ bootable.winner = some (0, 9) ∧
    (bootable.startJournal 0 9).identitySeed e.puf = some seed ∧ bootable.chooseSlot = some 0 ∧ e.counterOk = true ∧
    bootable.counterOpens (deriveKeys seed (bootable.imgBytes 0 512) 0) = true ∧ bootable.dieState 80 = 1 := by
  refine ⟨by decide +kernel, rfl, by decide, by decide +kernel, ?_, ?_, rfl, beq_self_eq_true _, by decide +kernel⟩
  · have h : (bootable.startJournal 0 9).helperData = some bootHelper := by
      rw [State.helperData, boot_helper]; rfl
    rw [State.identitySeed, h, Option.bind_some, fuzzySeed, if_pos (by rw [wrongBits_self]; decide)]
  · have h : bootable.slotOk slotSize = false := by
      have m : bootable.imgNat slotSize 4 ≠ 0x57464C59 := by
        simp only [State.imgNat, State.imgBytes, boot_byte]; decide +kernel
      rw [State.slotOk, State.headerOk, beq_false_of_ne m]; rfl
    have g : bootable.slotOk 0 = true := by rw [State.slotOk, boot_header, boot_payload]; rfl
    rw [State.chooseSlot, g, h]; rfl
theorem test_wit_StartFollowsR424_section : 64 ≤ bootable.imgNat 16 4 ∧ bootable.imgNat 512 8 % 64 = 0 ∧ 1 ≤ bootable.imgNat 520 8 ∧
    bootable.imgNat 520 8 ≤ 67108864 ∧ bootable.imgNat 512 8 + bootable.imgNat 520 8 ≤ bootable.imgNat 16 4 ∧
    (bootable.imgBytes 528 48).all (· == 0) = true := by
  simp only [State.imgNat, boot_bytes, Nat.reduceAdd, Nat.reduceLeDiff]
  decide +kernel
theorem test_wit_ConnectorFollowsR454_setting : lab.winner = none ∧
    ({ lab with sm := { lab.sm with journal := bootRecords } } : State).winner = some (0, 9) ∧
    ({ lab with sm := { lab.sm with journal := bootRecords } } : State).setting 4 = none := by decide +kernel

end Sys2Proof.Tests
end

section
/-! SUPPORT. O4: the invariant of the state's maps holds at reset. -/

namespace Sys2Proof

open Machine

/-- A map that lists nothing is in its canonical form. -/
theorem canonical_nil {α : Type} (d : Nat → α) : Canonical d [] :=
  ⟨List.Pairwise.nil, fun _ h => absurd h List.not_mem_nil⟩

/-- Settles O4: every sparse map lists nothing at reset, and no line is poisoned. -/
theorem resetIsWellFormed : Obligations.ResetIsWellFormed where
  mem := canonical_nil memDefault
  regs := canonical_nil regReset
  poison := List.Pairwise.nil
  tb := canonical_nil word0
  vr := canonical_nil word0
  wAct := canonical_nil word0
  wShd := canonical_nil word0
  mbx := canonical_nil mbxDefault
  flash := canonical_nil flashErased
  journal := canonical_nil jrErased

end Sys2Proof
end

section
/-! SUPPORT. Access types as masks of a word (R8, R9), and the row of the register tables that a set-up address names. -/

namespace Sys2Proof.Machine

/-! ### Access types as masks (R8, R9) -/

/-- The bits of the fields of one access type. -/
def accessMask (acc : RegAccess) : List RegField → Word
  | [] => 0
  | f :: fs => (if f.acc = acc then f.mask else 0) ||| accessMask acc fs

/-- What a write makes of a word whose bits are RW, W1C and RO as the masks say; every other bit is 0. -/
def maskedWrite (rw w1c ro old w : Word) : Word := (w &&& rw) ||| (old &&& ~~~w &&& w1c) ||| (old &&& ro)

theorem maskedWrite_rw (m rw w1c ro old w : Word) :
    maskedWrite (m ||| rw) w1c ro old w = (w &&& m) ||| maskedWrite rw w1c ro old w := by
  simp only [maskedWrite, BitVec.and_or_distrib_left, BitVec.or_assoc]

theorem maskedWrite_w1c (m rw w1c ro old w : Word) :
    maskedWrite rw (m ||| w1c) ro old w = (old &&& ~~~w &&& m) ||| maskedWrite rw w1c ro old w := by
  rw [maskedWrite, BitVec.and_or_distrib_left, BitVec.or_comm (old &&& ~~~w &&& m), ← BitVec.or_assoc,
    BitVec.or_comm _ (old &&& ~~~w &&& m), BitVec.or_assoc]
  rfl

theorem maskedWrite_ro (m rw w1c ro old w : Word) :
    maskedWrite rw w1c (m ||| ro) old w = (old &&& m) ||| maskedWrite rw w1c ro old w := by
  rw [maskedWrite, BitVec.and_or_distrib_left, BitVec.or_comm (old &&& m), ← BitVec.or_assoc, BitVec.or_comm _ (old &&& m)]
  rfl

/-- A write acts on each bit by the access type of its field, where no field is W1S. -/
theorem fieldsWrite_eq_maskedWrite (old w : Word) (fs : List RegField) (h : ∀ f ∈ fs, f.acc ≠ .w1s) :
    fieldsWrite old w fs = maskedWrite (accessMask .rw fs) (accessMask .w1c fs) (accessMask .ro fs) old w := by
  induction fs with
  | nil => simp [fieldsWrite, maskedWrite, accessMask]
  | cons f fs ih =>
    obtain ⟨hf, hfs⟩ := List.forall_mem_cons.1 h
    rw [fieldsWrite, ih hfs]
    cases hacc : f.acc with
    | ro => simp [RegField.write, accessMask, hacc, maskedWrite_ro]
    | rw => simp [RegField.write, accessMask, hacc, maskedWrite_rw]
    | wo => simp [RegField.write, accessMask, hacc]
    | w1s => exact absurd hacc hf
    | w1c => simp [RegField.write, accessMask, hacc, maskedWrite_w1c]

/-! ### Rows of the register tables -/

/-- The first die of those that hold the same numbers of registers of every row. -/
def dieClass (die : Nat) : Nat :=
  if die < 16 then 0 else if die < 40 then 16 else if die < 80 then 40 else if die < 88 then 80
  else if die < 94 then 88 else if die < 98 then 94 else die

theorem count_dieClass : ∀ die < 100, ∀ r ∈ regRows, r.count die = r.count (dieClass die) := by decide +kernel

theorem dieClass_eq_sm {die : Nat} : dieClass die = 99 ↔ die = 99 := by
  refine ⟨fun h => ?_, fun h => by rw [h]; rfl⟩
  unfold dieClass at h
  split_ifs at h <;> omega

/-- Which row holds an offset depends on the class of the die only. -/
theorem findRow_dieClass {die : Nat} (hd : die < 100) (off : Nat) : findRow regRows die off = findRow regRows (dieClass die) off := by
  have key : ∀ rows : List RegRow, (∀ r ∈ rows, r.count die = r.count (dieClass die)) →
      findRow rows die off = findRow rows (dieClass die) off := by
    intro rows h
    induction rows with
    | nil => rfl
    | cons r rows ih =>
      obtain ⟨hr, hrows⟩ := List.forall_mem_cons.1 h
      simp only [findRow, RegRow.index, RegRow.exists, hr, ih hrows, dieClass_eq_sm]
      rfl
  exact key regRows (count_dieClass die hd)

theorem regAt_setupBase (die off : Nat) (ho : off < 0x1000000) : regAt (Reg.setupBase die + off) = findRow regRows die off := by
  have hlt : ¬ Reg.setupBase die + off < Reg.setupBase 0 := by unfold Reg.setupBase; omega
  have hdiv : (Reg.setupBase die + off - Reg.setupBase 0) / 0x1000000 = die := by unfold Reg.setupBase; omega
  have hmod : (Reg.setupBase die + off - Reg.setupBase 0) % 0x1000000 = off := by unfold Reg.setupBase; omega
  rw [regAt, if_neg hlt, hdiv, hmod]

/-- The RW, W1C and RO bits of the register at an offset of a die, where it has one and none of its fields is W1S. -/
def rowMasks (die off : Nat) : Option (Word × Word × Word) :=
  (findRow regRows die off).bind fun x =>
    if ∀ f ∈ x.1.fields, f.acc ≠ .w1s then some (accessMask .rw x.1.fields, accessMask .w1c x.1.fields, accessMask .ro x.1.fields)
    else none

theorem rowMasks_dieClass {die : Nat} (hd : die < 100) (off : Nat) : rowMasks die off = rowMasks (dieClass die) off := by
  rw [rowMasks, findRow_dieClass hd, ← rowMasks]

/-- A write by access types, by the masks of the register's row. -/
theorem State.plainWrite_eq_setReg (s : State) {die off : Nat} (v : Word) {rw w1c ro : Word} (ho : off < 0x1000000)
    (h : rowMasks die off = some (rw, w1c, ro)) :
    s.plainWrite (Reg.setupBase die + off) v =
      s.setReg (Reg.setupBase die + off) (maskedWrite rw w1c ro (s.reg (Reg.setupBase die + off)) v) := by
  obtain ⟨⟨r, i, j⟩, hrow, hmasks⟩ := Option.bind_eq_some_iff.1 h
  obtain ⟨hacc, hm⟩ := Option.ite_none_right_eq_some.1 hmasks
  obtain ⟨rfl, rfl, rfl⟩ : accessMask .rw r.fields = rw ∧ accessMask .w1c r.fields = w1c ∧ accessMask .ro r.fields = ro := by
    simpa using hm
  rw [State.plainWrite, regAt_setupBase die off ho, hrow]
  exact congrArg (s.setReg _) (fieldsWrite_eq_maskedWrite _ _ _ hacc)

end Sys2Proof.Machine
end

section
/-! SUPPORT. What a REGISTER_WRITE that may be made reaches: the word it writes, and the registers that have no act of their own. -/

namespace Sys2Proof.Machine

/-! ### A word of set-up space -/

theorem regionOf_setupBase {die off : Nat} (hd : die < 100) (ho : off < 0x1000000) :
    regionOf (Reg.setupBase die + off) = .setup die off := by
  have ha : Reg.setupBase die + off = 0x0E0000000000 + 0x1000000 * die + off := rfl
  have hdiv : (Reg.setupBase die + off - 0x0E0000000000) / 0x1000000 = die := by omega
  have hmod : (Reg.setupBase die + off - 0x0E0000000000) % 0x1000000 = off := by omega
  rw [regionOf, if_neg (by omega), if_neg (by omega), if_neg (by omega), if_pos (by omega), hdiv, hmod]

/-- Outside the windows of R363 no word of set-up space is a device's. -/
theorem outboundAt_setupBase {die off : Nat} (hd : die < 100) (ho : off < 0xA0000 ∨ 0x100000 ≤ off ∧ off < 0x1000000) :
    outboundAt (Reg.setupBase die + off) = none := by
  rw [outboundAt, regionOf_setupBase hd (by omega)]
  have h1 : ¬ (0xA0000 ≤ off ∧ off < 0xA8000) := by omega
  have h2 : ¬ (0xC0000 ≤ off ∧ off < 0x100000) := by omega
  simp [h1, h2]

theorem regAlias_setupBase {die off : Nat} (ho : off < 0x1A0 ∨ 0x240 ≤ off ∧ off < 0x1000000) :
    regAlias (Reg.setupBase die + off) = Reg.setupBase die + off := by
  have h40 : Reg.tdDie 40 = Reg.setupBase 98 + 0x1A0 := rfl
  have h79 : Reg.tdDie 79 = Reg.setupBase 98 + 0x23C := rfl
  refine regAlias_eq _ ?_
  rw [h40, h79]
  unfold Reg.setupBase
  omega

theorem ofNat_leNat_leBytes (v : Word) : BitVec.ofNat 32 (leNat ((leBytes 4 v.toNat).take 4)) = v := by
  refine BitVec.eq_of_toNat_eq ?_
  simp only [leBytes, List.take_succ_cons, List.take_zero, leNat, BitVec.toNat_ofNat]
  omega

/-- A write that may be made writes the word, outside the windows of R363. -/
theorem State.registerWrite_eq_setupWrite {s : State} {req : Requester} {a : Nat} (v : Word) (h4 : a % 4 = 0)
    (hmay : s.setupMeets req true a = none) (hout : outboundAt a = none) : s.registerWrite req a v = s.setupWrite a v := by
  have hlen : ¬ (leBytes 4 v.toNat).length = 8 := by simp [leBytes]
  simp only [State.registerWrite, h4, hmay, State.setupStore, hout, ofNat_leNat_leBytes, hlen, ne_eq, not_true_eq_false, if_false]

/-- The window of a die that a write of set-up space acts in. -/
theorem State.setupWrite_setupBase (s : State) {die off : Nat} (v : Word) (hd : die < 100) (ho : off < 0x1000000) :
    s.setupWrite (Reg.setupBase die + off) v =
      if isStack die then s.stackWrite (die - 40) off v
      else if die = 98 then s.tdWrite off v
      else if die = 99 then s.smWrite off v
      else if off < 0x100000 then s.controllerWrite die off v
      else if isCd die then s.computeWrite die off v
      else if isHd die then s.hostWrite die off v
      else s.ioWrite die off v := by
  rw [State.setupWrite, regionOf_setupBase hd ho]

/-! ### Registers without an act of their own (R8, R9) -/

/-- A word of set-up space that every write changes by the access types of its fields only, given by their masks. -/
structure ActsByFields (die off : Nat) (rw w1c ro : Word) : Prop where
  die_lt : die < 100
  aligned : off % 4 = 0
  inside : off < 0x1A0 ∨ 0x240 ≤ off ∧ off < 0xA0000 ∨ 0x100000 ≤ off ∧ off < 0x1000000
  masks : rowMasks (dieClass die) off = some (rw, w1c, ro)
  plain : ∀ (s : State) (v : Word), s.setupWrite (Reg.setupBase die + off) v = s.plainWrite (Reg.setupBase die + off) v

theorem setupBase_add_mod_four (die off : Nat) : (Reg.setupBase die + off) % 4 = off % 4 := by unfold Reg.setupBase; omega

theorem ActsByFields.registerWrite {die off : Nat} {rw w1c ro : Word} (h : ActsByFields die off rw w1c ro) {s : State}
    {req : Requester} (v : Word) (hmay : s.setupMeets req true (Reg.setupBase die + off) = none) :
    s.registerWrite req (Reg.setupBase die + off) v =
      s.setReg (Reg.setupBase die + off) (maskedWrite rw w1c ro (s.reg (Reg.setupBase die + off)) v) := by
  obtain ⟨hd, h4, hin, hmasks, hplain⟩ := h
  rw [State.registerWrite_eq_setupWrite v (by rw [setupBase_add_mod_four, h4]) hmay (outboundAt_setupBase hd (by omega)), hplain,
    State.plainWrite_eq_setReg s v (by omega) (by rw [rowMasks_dieClass hd, hmasks])]

/-- REGISTER_WRITE of a register without an act of its own sets that register as its masks say, and nothing else. -/
theorem ActsByFields.answers {die off : Nat} {rw w1c ro : Word} (h : ActsByFields die off rw w1c ro) (s : State)
    (req : Requester) (v : Word) (hmay : s.setupMeets req true (Reg.setupBase die + off) = none) :
    Answers (.registerWrite req (Reg.setupBase die + off) v) s (fun t => OnlyRegs [Reg.setupBase die + off] s t ∧
      t.reg (Reg.setupBase die + off) = maskedWrite rw w1c ro (s.reg (Reg.setupBase die + off)) v) := by
  refine ⟨_, congrArg Host.Outcome.next (h.registerWrite v hmay), onlyRegs_setReg _ _ _, State.reg_setReg_same _ _ _ ?_⟩
  obtain ⟨-, -, hin, -, -⟩ := h
  exact regAlias_setupBase (by omega)

/-! ### The die classes -/

theorem dieClass_of_isCd {c : Nat} (hc : c < 40) : dieClass c = 0 ∨ dieClass c = 16 := by unfold dieClass; split_ifs <;> simp_all

theorem dieClass_of_isHd {h : Nat} (h80 : 80 ≤ h) (h88 : h < 88) : dieClass h = 80 := by
  rw [dieClass, if_neg (by omega), if_neg (by omega), if_neg (by omega), if_pos h88]

theorem dieClass_of_isIo {io : Nat} (h88 : 88 ≤ io) (h98 : io < 98) : dieClass io = 88 ∨ dieClass io = 94 := by
  rw [dieClass, if_neg (by omega), if_neg (by omega), if_neg (by omega), if_neg (by omega), if_pos h98]
  exact ite_eq_or_eq _ _ _

end Sys2Proof.Machine
end

section
/-! SUPPORT. The registers of RegisterWritesFollowR8 have no act of their own: the masks of their rows and the arm of the set-up
write that they reach. -/

namespace Sys2Proof.Machine

/-! ### TD and SM (R397, R421, R442, R443, R261) -/

theorem State.tdWrite_of_lt (s : State) (off : Nat) (v : Word) (ho : off < 0xC) :
    s.tdWrite off v = s.plainWrite (Reg.setupBase 98 + off) v := by
  rw [State.tdWrite, if_neg (by omega), if_neg (by omega)]

theorem State.setupWrite_td (s : State) {off : Nat} (v : Word) (ho : off < 0x1000000) :
    s.setupWrite (Reg.setupBase 98 + off) v = s.tdWrite off v := s.setupWrite_setupBase v (by omega) ho

theorem State.setupWrite_sm (s : State) {off : Nat} (v : Word) (ho : off < 0x1000000) :
    s.setupWrite (Reg.setupBase 99 + off) v = s.smWrite off v := s.setupWrite_setupBase v (by omega) ho

theorem actsByFields_td {off : Nat} {rw w1c ro : Word} (ho : off < 0xC) (h4 : off % 4 = 0)
    (hm : rowMasks 98 off = some (rw, w1c, ro)) : ActsByFields 98 off rw w1c ro where
  die_lt := by omega
  aligned := h4
  inside := by omega
  masks := hm
  plain s v := by rw [s.setupWrite_td v (by omega), s.tdWrite_of_lt off v ho]

theorem actsByFields_tdRef : ActsByFields 98 0x0 0 2 0xD := actsByFields_td (by omega) rfl (by decide +kernel)
theorem actsByFields_tdLoss : ActsByFields 98 0x4 0 0x80000000 0x7F := actsByFields_td (by omega) rfl (by decide +kernel)
theorem actsByFields_tdLossIrq : ActsByFields 98 0x8 0x1FFFFFF 0 0 := actsByFields_td (by omega) rfl (by decide +kernel)

theorem actsByFields_sm {off : Nat} {rw w1c ro : Word} (ho : off < 0x1A0 ∨ 0x100000 ≤ off ∧ off < 0x1000000) (h4 : off % 4 = 0)
    (hm : rowMasks 99 off = some (rw, w1c, ro))
    (hp : ∀ (s : State) (v : Word), s.smWrite off v = s.plainWrite (Reg.setupBase 99 + off) v) : ActsByFields 99 off rw w1c ro where
  die_lt := by omega
  aligned := h4
  inside := by omega
  masks := hm
  plain s v := by rw [s.setupWrite_sm v (by omega), hp]

theorem actsByFields_smBoot : ActsByFields 99 0x0 0 0 0xFF0F0000 :=
  actsByFields_sm (by omega) rfl (by decide +kernel) (fun _ _ => rfl)
theorem actsByFields_pwCap : ActsByFields 99 0x100000 0x3FFFFF 0 0 :=
  actsByFields_sm (by omega) rfl (by decide +kernel) (fun _ _ => rfl)
theorem actsByFields_jrType : ActsByFields 99 0x200010 0xFFFF 0 0 :=
  actsByFields_sm (by omega) rfl (by decide +kernel) (fun _ _ => rfl)
theorem actsByFields_jrKey : ActsByFields 99 0x200014 0xFFFFFFFF 0 0 :=
  actsByFields_sm (by omega) rfl (by decide +kernel) (fun _ _ => rfl)
theorem actsByFields_mbIrq : ActsByFields 99 0x33000C 0x1FFFFFF 0 0 :=
  actsByFields_sm (by omega) rfl (by decide +kernel) (fun _ _ => rfl)

/-! ### Compute dies (R123, R165, R395) -/

theorem State.setupWrite_cd (s : State) {c off : Nat} (v : Word) (hc : c < 40) (ho : 0x100000 ≤ off) (ho' : off < 0x1000000) :
    s.setupWrite (Reg.setupBase c + off) v = s.computeWrite c off v := by
  have hstack : isStack c = false := by simp [isStack]; omega
  have hcd : isCd c = true := by simpa [isCd] using hc
  rw [s.setupWrite_setupBase v (by omega) ho', if_neg (by simp [hstack]), if_neg (by omega), if_neg (by omega), if_neg (by omega),
    if_pos hcd]

/-- An engine pair's sub-window. -/
theorem State.computeWrite_ep (s : State) (c : Nat) {e o : Nat} (v : Word) (he : e < 6) (ho : o < 0x100000) :
    s.computeWrite c (0x100000 + o + 0x100000 * e) v = s.epWrite c e o v := by
  have hw : (0x100000 + o + 0x100000 * e) / 0x100000 = e + 1 := by omega
  have hm : (0x100000 + o + 0x100000 * e) % 0x100000 = o := by omega
  simp only [State.computeWrite, hw, hm]
  rw [if_pos (by omega), Nat.add_sub_cancel]

theorem State.epWrite_eq_plainWrite (s : State) (c e : Nat) {o : Nat} (v : Word) (ho : 0 < o ∧ o < 0x10 ∨ 0x20 ≤ o) :
    s.epWrite c e o v = s.plainWrite (Reg.maCtrl c e + o) v := by
  rw [State.epWrite, if_neg (by omega), if_neg (by omega)]

theorem actsByFields_ep {c e o : Nat} {rw w1c ro : Word} (hc : c < 40) (he : e < 6) (h4 : o % 4 = 0)
    (ho : 0 < o ∧ o < 0x10 ∨ 0x20 ≤ o ∧ o < 0x100000)
    (hm : ∀ d ∈ [0, 16], ∀ e < 6, rowMasks d (0x100000 + o + 0x100000 * e) = some (rw, w1c, ro)) :
    ActsByFields c (0x100000 + o + 0x100000 * e) rw w1c ro where
  die_lt := by omega
  aligned := by omega
  inside := by omega
  masks := hm _ (by simpa using dieClass_of_isCd hc) e he
  plain s v := by
    rw [s.setupWrite_cd v hc (by omega) (by omega), s.computeWrite_ep c v he (by omega), s.epWrite_eq_plainWrite c e v (by omega)]
    congr 1
    unfold Reg.maCtrl
    omega

theorem actsByFields_veStatus {c e : Nat} (hc : c < 40) (he : e < 6) :
    ActsByFields c (0x100100 + 0x100000 * e) 0 1 0x1100 :=
  actsByFields_ep (o := 0x100) hc he rfl (by omega) (by decide +kernel)
theorem actsByFields_maErr {c e : Nat} (hc : c < 40) (he : e < 6) :
    ActsByFields c (0x100008 + 0x100000 * e) 0 3 0 :=
  actsByFields_ep (o := 8) hc he rfl (by omega) (by decide +kernel)

/-- The course sub-window. -/
theorem State.computeWrite_course (s : State) (c : Nat) {o : Nat} (v : Word) (ho : o < 0x100000) :
    s.computeWrite c (0xA00000 + o) v = s.courseWrite c o v := by
  have hw : (0xA00000 + o) / 0x100000 = 10 := by omega
  have hm : (0xA00000 + o) % 0x100000 = o := by omega
  simp [State.computeWrite, hw, hm]

theorem State.courseWrite_pair (s : State) {c p o : Nat} (v : Word) (hc : c < 40) (hp : p < 16) (ho : o < 0x40) :
    s.courseWrite c (0x40 * p + o) v = s.pairWrite c p o v := by
  have hpairs : pairsOn c = 16 := by simp [pairsOn, isCd, hc]
  have hdiv : (0x40 * p + o) / 0x40 = p := by omega
  have hmod : (0x40 * p + o) % 0x40 = o := by omega
  rw [State.courseWrite, if_neg (by omega), if_pos (by omega), hdiv, hmod]

theorem State.pairWrite_eq_plainWrite (s : State) (die p : Nat) {o : Nat} (v : Word) (h0 : o ≠ 0) (hasm : o ≠ 0x0C) :
    s.pairWrite die p o v = s.plainWrite (Reg.cpCtrl die p + o) v := by
  rw [State.pairWrite, if_neg h0, if_neg (fun h => hasm h.1)]

theorem cpReg_cd {c : Nat} (hc : c < 40) (o p : Nat) : Reg.cpReg o c p = Reg.setupBase c + (0xA00000 + (0x40 * p + o)) := by
  rw [Reg.cpReg, if_pos (by simpa [isCd] using hc)]
  omega

theorem actsByFields_coursePair {c p o : Nat} {rw w1c ro : Word} (hc : c < 40) (hp : p < 16) (h4 : o % 4 = 0) (ho : o < 0x40)
    (h0 : o ≠ 0) (hasm : o ≠ 0x0C)
    (hm : ∀ d ∈ [0, 16], ∀ p < 16, rowMasks d (0xA00000 + (0x40 * p + o)) = some (rw, w1c, ro)) :
    ActsByFields c (0xA00000 + (0x40 * p + o)) rw w1c ro where
  die_lt := by omega
  aligned := by omega
  inside := by omega
  masks := hm _ (by simpa using dieClass_of_isCd hc) p hp
  plain s v := by
    rw [s.setupWrite_cd v hc (by omega) (by omega), s.computeWrite_course c v (by omega), s.courseWrite_pair v hc hp ho,
      s.pairWrite_eq_plainWrite c p v h0 hasm, Reg.cpCtrl, cpReg_cd hc, Nat.add_zero, Nat.add_assoc, Nat.add_assoc]

theorem actsByFields_cpRxNew {c p : Nat} (hc : c < 40) (hp : p < 16) :
    ActsByFields c (0xA00000 + (0x40 * p + 0x10)) 0 0x3FFFF 0 :=
  actsByFields_coursePair hc hp rfl (by omega) (by omega) (by omega) (by decide +kernel)
theorem actsByFields_cpRetry {c p : Nat} (hc : c < 40) (hp : p < 16) :
    ActsByFields c (0xA00000 + (0x40 * p + 0x18)) 0xFFFFFFFF 0 0 :=
  actsByFields_coursePair hc hp rfl (by omega) (by omega) (by omega) (by decide +kernel)

/-! ### Host dies and I/O dies (R231, R370, R371) -/

theorem actsByFields_hxScrub {h : Nat} (h80 : 80 ≤ h) (h88 : h < 88) : ActsByFields h 0x100010 0xFFFF 0 0 where
  die_lt := by omega
  aligned := rfl
  inside := by omega
  masks := by rw [dieClass_of_isHd h80 h88]; decide +kernel
  plain s v := by
    have hstack : isStack h = false := by simp [isStack]; omega
    have hcd : isCd h = false := by simp [isCd]; omega
    have hhd : isHd h = true := by simp [isHd]; omega
    rw [s.setupWrite_setupBase v (by omega) (by omega), if_neg (by simp [hstack]), if_neg (by omega), if_neg (by omega),
      if_neg (by omega), if_neg (by simp [hcd]), if_pos hhd]
    simp [State.hostWrite]

theorem State.ioWrite_video (s : State) (io : Nat) {j o : Nat} (v : Word) (hj : j < 2) (ho : o < 0x100000) :
    s.ioWrite io (0x200000 + o + 0x100000 * j) v = s.plainWrite (Reg.setupBase io + (0x200000 + o + 0x100000 * j)) v := by
  have hw : (0x200000 + o + 0x100000 * j) / 0x100000 = j + 2 := by omega
  simp only [State.ioWrite, hw]
  rw [if_neg (by omega), if_neg (by omega)]

section
variable {io : Nat} (h88 : 88 ≤ io) (h98 : io < 98)
include h88 h98

theorem isStack_of_io : isStack io = false := by simp [isStack]; omega
theorem isCd_of_io : isCd io = false := by simp [isCd]; omega
theorem isHd_of_io : isHd io = false := by simp [isHd]; omega
theorem isIo_of_io : isIo io = true := by simp [isIo]; omega

/-- The sub-windows of an I/O die above the die controller's. -/
theorem State.setupWrite_io (s : State) {off : Nat} (v : Word) (ho : 0x100000 ≤ off) (ho' : off < 0x1000000) :
    s.setupWrite (Reg.setupBase io + off) v = s.ioWrite io off v := by
  rw [s.setupWrite_setupBase v (by omega) ho', if_neg (by simp [isStack_of_io h88 h98]), if_neg (by omega), if_neg (by omega),
    if_neg (by omega), if_neg (by simp [isCd_of_io h88 h98]), if_neg (by simp [isHd_of_io h88 h98])]

theorem actsByFields_vdStatus {j : Nat} (hj : j < 2) : ActsByFields io (0x200000 + 0x100000 * j) 0 1 0x100 where
  die_lt := by omega
  aligned := by omega
  inside := by omega
  masks := by
    have key : ∀ d ∈ [88, 94], ∀ j < 2, rowMasks d (0x200000 + 0x100000 * j) = some (0, 1, 0x100) := by decide +kernel
    exact key _ (by simpa using dieClass_of_isIo h88 h98) j hj
  plain s v := by
    rw [s.setupWrite_io h88 h98 v (by omega) (by omega)]
    exact s.ioWrite_video io (o := 0) v hj (by omega)

/-- The port registers lie in the die controller's sub-window. -/
theorem State.setupWrite_port (s : State) {off : Nat} (v : Word) (ho : 0x90000 ≤ off) (ho' : off < 0x91000) :
    s.setupWrite (Reg.setupBase io + off) v = s.portRegWrite io off v := by
  rw [s.setupWrite_setupBase v (by omega) (by omega), if_neg (by simp [isStack_of_io h88 h98]), if_neg (by omega), if_neg (by omega),
    if_pos (by omega)]
  have hcd := isCd_of_io h88 h98
  have hio := isIo_of_io h88 h98
  have h16 : ¬ io < 16 := by omega
  simp only [State.controllerWrite, ringsOn, cdRings, gangSlotsOn, rmSlotsOn, hcd, hio, h16, Bool.false_eq_true, if_false, if_true]
  rw [if_neg (by omega), if_neg (by omega), if_neg (by omega), if_neg (by omega), if_neg (by omega), if_neg (by omega),
    if_neg (by omega), if_pos ⟨trivial, ho, ho'⟩]

theorem actsByFields_port {off : Nat} {rw w1c ro : Word} (h4 : off % 4 = 0) (ho : 0x90000 < off) (ho' : off < 0x90050)
    (hm : ∀ d ∈ [88, 94], rowMasks d off = some (rw, w1c, ro)) : ActsByFields io off rw w1c ro where
  die_lt := by omega
  aligned := h4
  inside := by omega
  masks := hm _ (by simpa using dieClass_of_isIo h88 h98)
  plain s v := by
    rw [s.setupWrite_port h88 h98 v (by omega) (by omega)]
    simp only [State.portRegWrite]
    rw [if_neg (by omega), if_neg (by omega)]

theorem actsByFields_hxPcieStat : ActsByFields io 0x90004 0 2 0x7F9 :=
  actsByFields_port h88 h98 rfl (by omega) (by omega) (by decide +kernel)
theorem actsByFields_hxPcieMsiLo : ActsByFields io 0x90020 0xFFFFFFFC 0 0 :=
  actsByFields_port h88 h98 rfl (by omega) (by omega) (by decide +kernel)

end

/-! ### A ring's set-up words (R32, R33) -/

/-- The set-up words of a ring context by their offsets, with their RW bits (R32). -/
def ringSetupWords : List (Nat × Word) :=
  [(0x00, 0xFFFFFFC0), (0x04, 0xFFFF), (0x08, 0x1F001F), (0x0C, 0xFFFFFFFF), (0x10, 0xFFFFFFE0), (0x14, 0xFFFF), (0x1C, 0xFFFFFF),
    (0x20, 0xFFFFFFFF), (0x24, 0xFFFFFFFF)]

theorem ringSetupWords_offset : ∀ x ∈ ringSetupWords, x.1 < 0x28 ∧ x.1 ≠ 0x18 ∧ x.1 % 4 = 0 := by decide

theorem ringsOn_dieClass : ∀ die < 98, ringsOn die = ringsOn (dieClass die) ∧ dieClass die ∈ [0, 16, 40, 80, 88, 94] := by
  decide +kernel

theorem ringsOn_le (die : Nat) : ringsOn die ≤ 96 := by unfold ringsOn; split_ifs <;> omega

theorem rowMasks_ringSetupWord {die k : Nat} (hd : die < 98) (hk : k < ringsOn die) {x : Nat × Word} (hx : x ∈ ringSetupWords) :
    rowMasks die (0x10000 + 0x40 * k + x.1) = some (x.2, 0, 0) := by
  have key : ∀ d ∈ [0, 16, 40, 80, 88, 94], ∀ k < ringsOn d, ∀ x ∈ ringSetupWords,
      rowMasks d (0x10000 + 0x40 * k + x.1) = some (x.2, 0, 0) := by decide +kernel
  obtain ⟨hcount, hclass⟩ := ringsOn_dieClass die hd
  rw [rowMasks_dieClass (by omega)]
  exact key _ hclass k (hcount ▸ hk) x hx

/-- The die of a ring bears rings and holds its context (R28). -/
theorem ringLocal_lt_ringsOn {ring : Nat} (h : ring < 4096) :
    ringDie ring < 98 ∧ isStack (ringDie ring) = false ∧ ringLocal ring < ringsOn (ringDie ring) := by
  have hrings : ringsOn (ringDie ring) = if ring < 3840 then 96 else if ring < 4000 then 16 else 12 := by
    by_cases hcd : ring < 3840
    · have hdie : ring / 96 < 40 := by omega
      simp [ringDie, ringsOn, isCd, hcd, hdie]
    by_cases hio : ring < 4000
    · have hdie : ¬ 88 + (ring - 3840) / 16 < 40 ∧ 88 + (ring - 3840) / 16 < 98 := by omega
      simp [ringDie, ringsOn, isCd, isIo, hcd, hio, hdie]
    · have hdie : ¬ 80 + (ring - 4000) / 12 < 40 ∧ ¬ 88 ≤ 80 + (ring - 4000) / 12 ∧ 80 + (ring - 4000) / 12 < 88 := by omega
      simp [ringDie, ringsOn, isCd, isIo, isHd, hcd, hio, hdie]
  rw [hrings]
  unfold ringDie ringLocal isStack
  split_ifs <;> simp <;> omega

/-- A write of a ring context's word reaches the ring (R31). -/
theorem State.setupWrite_ring (s : State) {die k o : Nat} (v : Word) (hd : die < 98) (hst : isStack die = false)
    (hk : k < ringsOn die) (ho : o < 0x40) :
    s.setupWrite (Reg.setupBase die + (0x10000 + 0x40 * k + o)) v = s.ringWrite die k o v := by
  have hrings := ringsOn_le die
  have hdiv : (0x10000 + 0x40 * k + o - 0x10000) / 0x40 = k := by omega
  have hmod : (0x10000 + 0x40 * k + o - 0x10000) % 0x40 = o := by omega
  rw [s.setupWrite_setupBase v (by omega) (by omega), if_neg (by simp [hst]), if_neg (by omega), if_neg (by omega),
    if_pos (by omega)]
  simp only [State.controllerWrite, hdiv, hmod]
  rw [if_neg (by omega), if_neg (by omega), if_pos (by omega)]

theorem State.ringWrite_setupWord (s : State) (die k : Nat) {o : Nat} (v : Word) (ho : o < 0x28) (h18 : o ≠ 0x18) :
    s.ringWrite die k o v = s.offWrite (Reg.dcRingCtrl die k) (Reg.dcRingErr die k) 0 (Reg.dcRingBaseLo die k + o) v := by
  simp only [State.ringWrite]
  rw [if_neg h18, if_neg (by omega), if_neg (by omega), if_pos ho]

theorem ringContext_add (ring o : Nat) :
    ringContext ring + o = Reg.setupBase (ringDie ring) + (0x10000 + 0x40 * ringLocal ring + o) := by
  unfold ringContext Reg.setupBase
  omega

theorem dcRingCtrl_eq_ringContext (ring : Nat) : Reg.dcRingCtrl (ringDie ring) (ringLocal ring) = ringContext ring + 0x18 := by
  rw [ringContext_add]; unfold Reg.dcRingCtrl; omega

theorem dcRingErr_eq_ringContext (ring : Nat) : Reg.dcRingErr (ringDie ring) (ringLocal ring) = ringContext ring + 0x30 := by
  rw [ringContext_add]; unfold Reg.dcRingErr; omega

theorem dcRingBaseLo_eq_ringContext (ring : Nat) : Reg.dcRingBaseLo (ringDie ring) (ringLocal ring) = ringContext ring := by
  unfold ringContext Reg.dcRingBaseLo Reg.setupBase; omega

theorem regAlias_ringContext {ring o : Nat} (hr : ring < 4096) (ho : o < 0x40) :
    regAlias (ringContext ring + o) = ringContext ring + o := by
  obtain ⟨-, -, hk⟩ := ringLocal_lt_ringsOn hr
  have hrings := ringsOn_le (ringDie ring)
  rw [ringContext_add]
  exact regAlias_setupBase (by omega)

/-- A write of a set-up word that may be made: by access types in OFF, and bit 0 of DC_RING_ERR otherwise (R33). -/
theorem State.registerWrite_ringSetupWord (s : State) {req : Requester} {ring : Nat} (v : Word) (hr : ring < 4096)
    {x : Nat × Word} (hx : x ∈ ringSetupWords) (hmay : s.setupMeets req true (ringContext ring + x.1) = none) :
    s.registerWrite req (ringContext ring + x.1) v =
      if s.fnState (ringContext ring + 0x18) = 0 then s.setReg (ringContext ring + x.1) (v &&& x.2)
      else s.setFlag (ringContext ring + 0x30) 0 true := by
  obtain ⟨hd, hst, hk⟩ := ringLocal_lt_ringsOn hr
  obtain ⟨ho, h18, h4⟩ := ringSetupWords_offset x hx
  have hrings := ringsOn_le (ringDie ring)
  have hset : s.setupWrite (ringContext ring + x.1) v =
      s.offWrite (ringContext ring + 0x18) (ringContext ring + 0x30) 0 (ringContext ring + x.1) v := by
    rw [ringContext_add ring x.1, s.setupWrite_ring v hd hst hk (by omega), s.ringWrite_setupWord _ _ v ho h18,
      dcRingCtrl_eq_ringContext, dcRingErr_eq_ringContext, dcRingBaseLo_eq_ringContext, ringContext_add ring x.1]
  have hplain : s.plainWrite (ringContext ring + x.1) v = s.setReg (ringContext ring + x.1) (v &&& x.2) := by
    rw [ringContext_add, s.plainWrite_eq_setReg v (by omega) (rowMasks_ringSetupWord hd hk hx)]
    simp [maskedWrite]
  have hout : outboundAt (ringContext ring + x.1) = none := by
    rw [ringContext_add]; exact outboundAt_setupBase (by omega) (by omega)
  rw [State.registerWrite_eq_setupWrite v (by rw [ringContext_add, setupBase_add_mod_four]; omega) hmay hout, hset,
    State.offWrite, hplain]

end Sys2Proof.Machine
end

section
/-! SUPPORT. O56: REGISTER_WRITE by R8, R9, R24 and R33. -/

namespace Sys2Proof

open Machine

/-- A write that its requester may not make, or to no word, is logged and answered with an access fault (R24, R435). -/
theorem answers_registerWrite_refused (s : State) (req : Requester) (v : Word) (a d : Nat) (k : LogKind)
    (h : a % 4 ≠ 0 ∧ d = reqDie req ∧ k = .address ∨ a % 4 = 0 ∧ s.setupMeets req true a = some (d, k)) :
    Answers (.registerWrite req a v) s (fun t =>
      t = { s with flog := s.flog ++ [logEntry d k a 0 (.setup req) .write], out := s.out ++ [.accessFault req true] }) := by
  have hw : s.registerWrite req a v = s.refuseSetup req true d k a := by
    rcases h with ⟨h4, rfl, rfl⟩ | ⟨h4, hmeets⟩
    · rw [State.registerWrite, if_pos h4]
    · rw [State.registerWrite, if_neg (by simp [h4]), hmeets]
  exact ⟨_, congrArg Host.Outcome.next hw, rfl⟩

/-- A ring's set-up word by R33. -/
theorem answers_registerWrite_ringSetupWord (s : State) (req : Requester) (v : Word) {ring : Nat} (hr : ring < 4096)
    {x : Nat × Word} (hx : x ∈ ringSetupWords) (hmay : s.setupMeets req true (ringContext ring + x.1) = none) :
    Answers (.registerWrite req (ringContext ring + x.1) v) s (fun t =>
      if s.fnState (ringContext ring + 0x18) = 0 then
        OnlyRegs [ringContext ring + x.1] s t ∧ t.reg (ringContext ring + x.1) = v &&& x.2
      else FieldSet (ringContext ring + 0x30) 0 0 1 s t) := by
  refine ⟨_, congrArg Host.Outcome.next (s.registerWrite_ringSetupWord v hr hx hmay), ?_⟩
  have ho := (ringSetupWords_offset x hx).1
  split
  · exact ⟨onlyRegs_setReg _ _ _, State.reg_setReg_same _ _ _ (regAlias_ringContext hr (by omega))⟩
  · exact fieldSet_setFlag s _ 0 true (regAlias_ringContext hr (by omega)) (by omega)

/-- Settles O56: a refused write by the log entry and answer alone, a register without an act of its own by the masks of its
row's access types, and a ring's set-up word by the state of its ring. -/
theorem registerWritesFollowR8 : Obligations.RegisterWritesFollowR8 := by
  refine fun s req v => ⟨answers_registerWrite_refused s req v, ?_,
    fun ring hr x hx => answers_registerWrite_ringSetupWord s req v hr hx⟩
  intro c e p io h j hc he hp h88 h98 h80 h88' hj x hx hmay
  simp only [List.mem_cons, List.not_mem_nil, or_false] at hx
  rcases hx with rfl | rfl | rfl | rfl | rfl | rfl | rfl | rfl | rfl | rfl | rfl | rfl | rfl | rfl | rfl | rfl
  · exact actsByFields_tdRef.answers s req v hmay
  · exact actsByFields_tdLoss.answers s req v hmay
  · exact actsByFields_tdLossIrq.answers s req v hmay
  · rw [Reg.cpRxNew, cpReg_cd hc] at hmay ⊢
    exact (actsByFields_cpRxNew hc hp).answers s req v hmay
  · rw [Reg.cpRetry, cpReg_cd hc] at hmay ⊢
    exact (actsByFields_cpRetry hc hp).answers s req v hmay
  · rw [Reg.veStatus, Nat.add_assoc] at hmay ⊢
    exact (actsByFields_veStatus hc he).answers s req v hmay
  · rw [Reg.maErr, Nat.add_assoc] at hmay ⊢
    exact (actsByFields_maErr hc he).answers s req v hmay
  · rw [Reg.vdStatus, Nat.add_assoc] at hmay ⊢
    exact (actsByFields_vdStatus h88 h98 hj).answers s req v hmay
  · exact (actsByFields_hxPcieStat h88 h98).answers s req v hmay
  · exact (actsByFields_hxPcieMsiLo h88 h98).answers s req v hmay
  · exact (actsByFields_hxScrub h80 h88').answers s req v hmay
  · exact actsByFields_pwCap.answers s req v hmay
  · exact actsByFields_jrType.answers s req v hmay
  · exact actsByFields_jrKey.answers s req v hmay
  · exact actsByFields_mbIrq.answers s req v hmay
  · exact actsByFields_smBoot.answers s req v hmay

end Sys2Proof
end

section
/-! SUPPORT. O3, O5: a command that answers a next state and keeps the canonical form; how the form passes through `if` and `foldl`,
and the updates of the state that keep it. -/

namespace Sys2Proof.Machine

set_option Elab.async false

/-- The command answers a next state, which keeps the canonical form. -/
def KeepsWf (s : State) (o : Host.Outcome State Fault Refusal) : Prop := ∃ t, o = .next t ∧ (s.Wf → t.Wf)

theorem KeepsWf.next {s t : State} (h : s.Wf → t.Wf) : KeepsWf s (.next t) := ⟨t, rfl, h⟩

/-- The state of a run. -/
def Run.Wf (r : Run) : Prop := r.s.Wf

/-- The state that performing a frame leaves. -/
def Performed.Wf : Performed → Prop
  | .taken s => s.Wf
  | .fails s _ => s.Wf
  | .later s => s.Wf

/-- The state after a line that has been read. -/
def LineRead.Wf : LineRead → Prop
  | .data s _ => s.Wf
  | _ => True

theorem Run.Wf.s {r : Run} (h : r.Wf) : r.s.Wf := h

theorem LineRead.Wf.of_data {l : LineRead} {s : State} {bs} (e : l = .data s bs) (h : l.Wf) : s.Wf := by
  rw [e] at h; exact h

variable {s t : State} {r q : Run}

/-- An update of fields that `State.Wf` does not speak of. -/
theorem State.Wf.same {pending moduleId flights nextFid nextStart turns reports sigQ irqQ flog out free tbMarks vrMarks
    passes scrubPos wir ppr wmQ mbxBad host pcie fab commits courses refQ losses answered pw pins jtag} {sm : SmSt}
    (h : s.Wf) (flash : sm.imgFlash = s.sm.imgFlash := by rfl) (journal : sm.journal = s.sm.journal := by rfl) :
    ({ s with
       pending, moduleId, flights, nextFid, nextStart, turns, reports, sigQ, irqQ, flog, out, free, tbMarks, vrMarks,
       passes, scrubPos, wir, ppr, wmQ, mbxBad, host, pcie, fab, commits, courses, refQ, losses, answered, pw, pins, sm,
       jtag } : State).Wf :=
  ⟨h.mem, h.regs, h.poison, h.tb, h.vr, h.wAct, h.wShd, h.mbx, flash ▸ h.flash, journal ▸ h.journal⟩

theorem State.Wf.run {die fid stop code detail sat rm merges far ext sends guards lines uses pairs hint} (h : s.Wf) :
    Run.Wf ⟨s, die, fid, stop, code, detail, sat, rm, merges, far, ext, sends, guards, lines, uses, pairs, hint⟩ := h

theorem State.Wf.ite {c : Prop} {_ : Decidable c} (h : s.Wf) (k : t.Wf) : (if c then s else t).Wf := by
  split <;> assumption
theorem Run.Wf.ite {c : Prop} {_ : Decidable c} (h : r.Wf) (k : q.Wf) : (if c then r else q).Wf := by
  split <;> assumption
theorem Performed.Wf.ite {p q : Performed} {c : Prop} {_ : Decidable c} (h : p.Wf) (k : q.Wf) :
    (if c then p else q).Wf := by
  split <;> assumption
theorem Performed.Wf.taken {p : Performed} (h : p.Wf) (e : p = .taken s) : s.Wf := by rw [e] at h; exact h
theorem Performed.Wf.fails {p : Performed} {c} (h : p.Wf) (e : p = .fails s c) : s.Wf := by rw [e] at h; exact h
theorem Performed.Wf.later {p : Performed} (h : p.Wf) (e : p = .later s) : s.Wf := by rw [e] at h; exact h
theorem State.Wf.fst_ite {α} {x y : State × α} {c : Prop} {_ : Decidable c} (h : x.1.Wf) (k : y.1.Wf) :
    (if c then x else y).1.Wf := by
  split <;> assumption
theorem State.Wf.pair {α} {a : α} (h : s.Wf) : (s, a).1.Wf := h
theorem Run.Wf.pair {α} {a : α} (h : r.Wf) : (r, a).1.Wf := h
theorem State.Wf.snd_ite {α} {x y : α × State} {c : Prop} {_ : Decidable c} (h : x.2.Wf) (k : y.2.Wf) :
    (if c then x else y).2.Wf := by
  split <;> assumption
theorem Run.Wf.fst_ite {α} {x y : Run × α} {c : Prop} {_ : Decidable c} (h : x.1.Wf) (k : y.1.Wf) :
    (if c then x else y).1.Wf := by
  split <;> assumption
theorem Run.Wf.of_fst {α} {x : Run × α} {a : α} (e : x = (r, a)) (h : x.1.Wf) : r.Wf := by rw [e] at h; exact h
theorem State.Wf.foldl {β} {f : State → β → State} {l : List β} (h : s.Wf) (hf : ∀ s x, s.Wf → (f s x).Wf) :
    (l.foldl f s).Wf :=
  List.foldlRecOn (motive := State.Wf) l f h (fun s hs x _ => hf s x hs)
theorem Run.Wf.foldl {β} {f : Run → β → Run} {l : List β} (h : r.Wf) (hf : ∀ s x, s.Wf → (f s x).Wf) :
    (l.foldl f r).Wf :=
  List.foldlRecOn (motive := Run.Wf) l f h (fun s hs x _ => hf s x hs)
theorem State.Wf.fst_foldl {α β} {f : State × α → β → State × α} {x : State × α} {l : List β} (h : x.1.Wf)
    (hf : ∀ s x, s.1.Wf → (f s x).1.Wf) :
    (l.foldl f x).1.Wf :=
  List.foldlRecOn (motive := fun x : State × α => x.1.Wf) l f h (fun s hs x _ => hf s x hs)
theorem Run.Wf.fst_foldl {α β} {f : Run × α → β → Run × α} {x : Run × α} {l : List β} (h : x.1.Wf)
    (hf : ∀ s x, s.1.Wf → (f s x).1.Wf) :
    (l.foldl f x).1.Wf :=
  List.foldlRecOn (motive := fun x : Run × α => x.1.Wf) l f h (fun s hs x _ => hf s x hs)
theorem Run.Wf.map_ite {α} {g : α → Run} {x y : α} {c : Prop} {_ : Decidable c} (h : (g x).Wf) (k : (g y).Wf) :
    (g (if c then x else y)).Wf := by
  split <;> assumption
theorem Run.Wf.map_foldl {α β} {g : α → Run} {f : α → β → α} {x : α} {l : List β} (h : (g x).Wf)
    (hf : ∀ x b, (g x).Wf → (g (f x b)).Wf) : (g (l.foldl f x)).Wf :=
  List.foldlRecOn (motive := fun x => (g x).Wf) l f h (fun x hx b _ => hf x b hx)

theorem State.Wf.memErased {a b} (h : s.Wf) : ({ s with mem := eraseRange s.mem a b } : State).Wf :=
  { h with mem := eraseRange_canonical _ _ _ _ h.mem }
theorem State.Wf.poisonErased {a b} (h : s.Wf) : ({ s with poison := setEraseRange s.poison a b } : State).Wf :=
  { h with poison := h.poison.filter _ }
theorem State.Wf.tbStored {k ws} (h : s.Wf) : ({ s with tb := storeRun word0 s.tb k ws } : State).Wf :=
  { h with tb := storeRun_canonical _ _ _ _ h.tb }
theorem State.Wf.journalErased {lo hi} {m : List (Nat × BitVec 512)} (h : s.Wf) (k : Canonical jrErased m) :
    ({ s with sm := { s.sm with journal := eraseRange m lo hi } } : State).Wf :=
  { h with journal := eraseRange_canonical _ _ _ _ k }

theorem State.Wf.setReg {a v} (h : s.Wf) : (s.setReg a v).Wf := { h with regs := s.setReg_canonical a v h.regs }
theorem State.Wf.putFld {a hi lo v} (h : s.Wf) : (s.putFld a hi lo v).Wf := h.setReg
theorem State.Wf.setFlag {a i b} (h : s.Wf) : (s.setFlag a i b).Wf := h.putFld
theorem State.Wf.count {a n} (h : s.Wf) : (s.count a n).Wf := h.setReg
theorem State.Wf.log {die kind addr info who acc} (h : s.Wf) : (s.log die kind addr info who acc).Wf := h.same
theorem State.Wf.emit {e} (h : s.Wf) : (s.emit e).Wf := h.same
theorem State.Wf.interrupt {src target} (h : s.Wf) : (s.interrupt src target).Wf := h.same
theorem State.Wf.freeWord (h : s.Wf) : (s.freeWord).2.Wf := h.same
theorem State.Wf.freeCount (h : s.Wf) : (s.freeCount).2.Wf := h.same
theorem State.Wf.freeBytes {n} (h : s.Wf) : (s.freeBytes n).2.Wf := h.same
theorem State.Wf.putMem {a bs} (h : s.Wf) : (s.putMem a bs).Wf :=
  { h with mem := storeRun_canonical _ _ _ _ h.mem }
theorem pairwise_setInsert {m : List Nat} (k : Nat) (h : m.Pairwise (· < ·)) : (setInsert m k).Pairwise (· < ·) := by
  refine List.pairwise_append.2 ⟨h.filter _, List.pairwise_cons.2 ⟨?_, h.filter _⟩, ?_⟩ <;>
    simp only [List.mem_filter, List.mem_cons, decide_eq_true_eq] <;> omega

theorem State.Wf.markPoison {line} (h : s.Wf) : (s.markPoison line).Wf :=
  { h with poison := pairwise_setInsert line h.poison }
theorem State.Wf.clearPoison {line} (h : s.Wf) : (s.clearPoison line).Wf := { h with poison := h.poison.filter _ }
theorem State.Wf.invalidate {line} (h : s.Wf) : (s.invalidate line).Wf := by
  unfold State.invalidate
  cases s.modifiedCopy line with
  | none => exact h.same
  | some d => exact h.putMem.clearPoison.same
theorem State.Wf.writeLine {a bs mark} (h : s.Wf) : (s.writeLine a bs mark).1.Wf :=
  .fst_ite (.ite h.invalidate.putMem.markPoison h.invalidate.putMem.clearPoison) (.fst_ite h.invalidate (.ite
    h.invalidate.putMem.markPoison h.invalidate.putMem))
theorem State.Wf.writeRun {a bs mark fuel} (h : s.Wf) : (s.writeRun a bs mark fuel).1.Wf := by
  induction fuel generalizing s a bs with
  | zero => exact h
  | succ n ih =>
    cases bs with
    | nil => exact h
    | cons b bs => exact ih h.writeLine
theorem State.Wf.write {a bs mark} (h : s.Wf) : (s.write a bs mark).1.Wf := h.writeRun
theorem State.Wf.unwait {who line} (h : s.Wf) : (s.unwait who line).Wf := h.same
theorem State.Wf.enableReq {ctrl} (h : s.Wf) : (s.enableReq ctrl).Wf := by
  unfold State.enableReq
  extract_lets
  split
  · exact h.setFlag.setFlag.putFld
  · exact h.setFlag.setFlag
  · exact h.setFlag
theorem State.Wf.disableReq {ctrl} (h : s.Wf) : (s.disableReq ctrl).Wf := by
  unfold State.disableReq
  split
  · exact h.putFld
  · exact h.putFld
  · exact h.setFlag
  · exact h
theorem State.Wf.enablingEnd {ctrl ok} (h : s.Wf) : (s.enablingEnd ctrl ok).Wf := .ite h.putFld h.putFld.setFlag
theorem State.Wf.disablingEnd {ctrl} (h : s.Wf) : (s.disablingEnd ctrl).Wf := h.putFld
theorem State.Wf.enableByte {ctrl v} (h : s.Wf) : (s.enableByte ctrl v).Wf := .ite h.disableReq (.ite h.enableReq h)
theorem State.Wf.tickTimer {hd} (h : s.Wf) : (s.tickTimer hd).Wf := .ite h.setReg.setReg h
theorem State.Wf.tick (h : s.Wf) : s.tick.Wf := h.foldl (fun _ _ h1 => h1.tickTimer)
theorem State.Wf.setPools {p v} (h : s.Wf) : (s.setPools p v).Wf := h.same
theorem State.Wf.sendLink {p f} (h : s.Wf) : (s.sendLink p f).Wf := h.emit
theorem State.Wf.returnCredits {p i n} (h : s.Wf) : (s.returnCredits p i n).Wf := h.sendLink
theorem State.Wf.payBack {owed} (h : s.Wf) : (s.payBack owed).Wf := by
  unfold State.payBack
  split
  · exact .ite h.returnCredits h
  · exact h
theorem State.Wf.pump {p n q held} (h : s.Wf) : (s.pump p n q held).1.Wf := by
  induction n generalizing s q held with
  | zero => exact h
  | succ n ih =>
    cases q with
    | nil => exact h
    | cons x q => exact .fst_ite (ih h) (ih h.setPools.emit.payBack)
theorem State.Wf.drainPort {p} (h : s.Wf) : (s.drainPort p).Wf := .ite h h.pump.same
theorem State.Wf.sendPort {io p vl f owed} (h : s.Wf) : (s.sendPort io p vl f owed).Wf :=
  .ite h.same.drainPort (.log (.ite h.payBack.count h.payBack))
theorem State.Wf.sendRouted {io f} (h : s.Wf) : (s.sendRouted io f).Wf := h.sendPort
theorem State.Wf.sendPlain {flow seq b} (h : s.Wf) : (s.sendPlain flow seq b).Wf := h.sendRouted
theorem State.Wf.openWindow {flow n} (h : s.Wf) : (s.openWindow flow n).Wf := by
  induction n generalizing s with
  | zero => exact h
  | succ n ih =>
    unfold State.openWindow
    cases s.fab.unacked.find? (fun u => decide (u.flow = flow ∧ u.sends = 0)) with
    | none => exact h
    | some u => exact .ite (ih h.same.setReg.sendRouted) h
theorem State.Wf.sendSeq {flow b fid ix} (h : s.Wf) : (s.sendSeq flow b fid ix).Wf := .ite h.same.openWindow h.same
theorem State.Wf.sendAck {flow} (h : s.Wf) : (s.sendAck flow).Wf := h.same.sendPlain
theorem State.Wf.visible {flow last} (h : s.Wf) : (s.visible flow last).Wf := .ite h.sendAck h.same

end Sys2Proof.Machine
end

section
/-! SUPPORT. O5: the reads and writes of operands and what a run meets keep the canonical form. -/

namespace Sys2Proof.Machine

set_option Elab.async false

variable {s t : State} {r q : Run}

theorem State.Wf.shareCopies {line} (h : s.Wf) : (s.shareCopies line).Wf := by
  unfold State.shareCopies
  exact .ite (.same (by (split; exacts [h.putMem.clearPoison, h]))) h
theorem State.Wf.filterRoom {home} (h : s.Wf) : (s.filterRoom home).Wf := .ite h h.freeCount.invalidate
theorem State.Wf.dropCopy {agent line} (h : s.Wf) : (s.dropCopy agent line).Wf := h.same
theorem State.Wf.dropCores {agent line} (h : s.Wf) : (s.dropCores agent line).Wf := h.same
theorem State.Wf.writeBack {c} (h : s.Wf) : (s.writeBack c).Wf := .ite h.putMem.clearPoison h
theorem State.Wf.setOwner {agent line e} (h : s.Wf) : (s.setOwner agent line e).Wf := h.same
theorem State.Wf.releaseCopy {c} (h : s.Wf) : (s.releaseCopy c).Wf := h.writeBack.dropCopy.dropCores.setOwner.same
theorem State.Wf.cacheRoom {agent} (h : s.Wf) : (s.cacheRoom agent).Wf := by
  unfold State.cacheRoom
  refine .ite h ?_
  dsimp only
  split
  · exact .ite h.freeCount.invalidate h.freeCount.releaseCopy
  · exact h.freeCount
theorem State.Wf.placeShared {agent line} (h : s.Wf) : (s.placeShared agent line).Wf :=
  have k1 := State.Wf.ite h.filterRoom.same h
  .ite k1 k1.cacheRoom.same
theorem State.Wf.coreFill {cache hart line} (h : s.Wf) : (s.coreFill cache hart line).Wf :=
  .same (.snd_ite h h.freeCount)
theorem State.Wf.hintPlace {hint line} (h : s.Wf) : (s.hintPlace hint line).Wf :=
  .ite h (.ite h.freeCount (.ite h.freeCount.placeShared.coreFill h.freeCount.placeShared))
theorem State.Wf.start {die fid hint} (h : s.Wf) : (Run.start s die fid hint).Wf := h.run
theorem Run.Wf.raise {code detail} (h : r.Wf) : (r.raise code detail).Wf := .ite h.s.run h
theorem Run.Wf.raiseLog {code die kind a acc} (h : r.Wf) : (r.raiseLog code die kind a acc).Wf := h.s.log.run.raise
theorem Run.Wf.miss {m a acc} (h : r.Wf) : (r.miss m a acc).Wf := by
  unfold Run.miss
  extract_lets
  split
  · exact h.s.run.raiseLog
  · exact h.s.run.raiseLog
  · exact h.s.run.raiseLog
  · exact h.s.run.raise
  · exact h.s.run.raise
  · refine .ite h.s.run.raise ?_
    split
    · exact h.s.run.raise
    · exact h.s.run.s.freeWord.run.raise
theorem Run.Wf.poisoned {a acc} (h : r.Wf) : (r.poisoned a acc).Wf := .ite h.raise h.raiseLog
theorem Run.Wf.answered {a acc} (h : r.Wf) : (r.answered a acc).Wf := by
  unfold Run.answered
  extract_lets
  split
  · exact h.s.run.miss
  · exact h.s.run
theorem Run.Wf.addSat {n} (h : r.Wf) : (r.addSat n).Wf := h.s.run
theorem Run.Wf.max {x} (h : r.Wf) : (r.max x).Wf := h.s.run
theorem Run.Wf.maxes {xs} (h : r.Wf) : (r.maxes xs).Wf := h.s.run
theorem Run.Wf.usesFlow {f} (h : r.Wf) : (r.usesFlow f).Wf := h.s.run
theorem Run.Wf.farRead {m a acc} (h : r.Wf) : (r.farRead m a acc).1.Wf := by
  unfold Run.farRead
  split
  · exact .fst_ite h.miss (.usesFlow (.ite h.raise h))
  · split
    · exact h.s.run
    · split
      · exact h.miss
      · exact h.s.run
theorem Run.Wf.readLine {p n} (h : r.Wf) : (r.readLine p n).1.Wf := by
  unfold Run.readLine
  split
  · exact h.miss
  · split
    · exact h.miss
    · split
      · exact h.s.run
      · exact .fst_ite h.s.shareCopies.run.answered (.ite h.s.shareCopies.run.answered.poisoned
          h.s.shareCopies.run.answered)
  · split
    · next e => exact .of_fst e h.farRead
    · next e => exact .of_fst e h.farRead
theorem Run.Wf.readRun {w off n fuel} (h : r.Wf) : (r.readRun w off n fuel).1.Wf := by
  induction fuel generalizing r off n with
  | zero => exact h
  | succ k ih => exact .fst_ite h (.fst_ite h.readLine (ih h.readLine))
theorem Run.Wf.read {w off n} (h : r.Wf) : (r.read w off n).1.Wf := h.readRun
theorem Run.Wf.readNat {w off n} (h : r.Wf) : (r.readNat w off n).1.Wf := h.read
theorem Run.Wf.patchFar {m a bs mark} (h : r.Wf) : (r.patchFar m a bs mark).Wf := h.s.same.run
theorem Run.Wf.sendWrite {f m a before bs mark} (h : r.Wf) : (r.sendWrite f m a before bs mark).Wf :=
  h.patchFar.usesFlow.s.run
theorem Run.Wf.writeLine {p bs mark} (h : r.Wf) : (r.writeLine p bs mark).Wf := by
  unfold Run.writeLine
  split
  · exact h.miss
  · split
    · exact h.miss
    · split
      · exact h.s.run
      · exact .answered (.ite (.poisoned (State.Wf.run (.ite h.s.writeLine.hintPlace h.s.writeLine)))
          (State.Wf.run (.ite h.s.writeLine.hintPlace h.s.writeLine)))
  · refine .ite ?_ ?_
    · split
      · exact h.miss
      · exact .sendWrite (.ite h.raise h)
    · split
      · next e => exact .of_fst e h.farRead
      · next e =>
          have k := Run.Wf.of_fst e h.farRead
          split
          · exact k.miss
          · exact .sendWrite (.ite k.raise k)
theorem Run.Wf.writeRun {w off bs mark fuel} (h : r.Wf) : (r.writeRun w off bs mark fuel).Wf := by
  induction fuel generalizing r off bs with
  | zero => exact h
  | succ n ih => exact .ite h (.ite h.writeLine (ih h.writeLine))
theorem Run.Wf.write {w off bs mark} (h : r.Wf) : (r.write w off bs mark).Wf := h.writeRun
theorem Run.Wf.readElems {o off n} (h : r.Wf) : (r.readElems o off n).1.Wf := h.read.addSat
theorem Run.Wf.meeting {go} (h : r.Wf) (hgo : ∀ x1, x1.Wf → (go x1).Wf) : (r.meeting go).1.Wf :=
  have k1 := hgo _ h.s.run
  .ite k1 k1.s.run
theorem Run.Wf.writeElems {o gather off xs mark} (h : r.Wf) : (r.writeElems o gather off xs mark).Wf :=
  .write (.ite h.addSat.maxes h.addSat)
theorem State.Wf.setFlight {f} (h : s.Wf) : (s.setFlight f).Wf := h.same
theorem State.Wf.holdFor {line holder who} (h : s.Wf) : (s.holdFor line holder who).Wf := by
  unfold State.holdFor
  exact .ite h (.ite (by (split; exacts [.ite h h.same, h])) (.ite (.emit (.same (by (split; exacts [.ite h h.same,
    h])))) (.same (by (split; exacts [.ite h h.same, h])))))
theorem State.Wf.askFor {fid far ext} (h : s.Wf) : (s.askFor fid far ext).Wf :=
  .foldl (h.foldl (fun _ _ h1 => .ite h1 h1.sendSeq)) (fun _ _ h1 => h1.holdFor)
theorem State.Wf.unwaitDesc {fid} (h : s.Wf) : (s.unwaitDesc fid).Wf := h.same
theorem State.Wf.sendAll {fid sends} (h : s.Wf) : (s.sendAll fid sends).Wf := h.foldl (fun _ _ h1 => h1.sendSeq)
theorem State.Wf.dropLines {fid} (h : s.Wf) : (s.dropLines fid).Wf := h.same
theorem Run.Wf.finish {s0 : State} {f cycles unitFault} (h : r.Wf) (hs0 : s0.Wf) :
    (r.finish s0 f cycles unitFault).Wf :=
  .ite hs0.askFor (.setFlight (.same (.same (.ite h.s.sendAll.unwaitDesc.dropLines h.s.sendAll.unwaitDesc))))
theorem Run.Wf.ends {x : Run × Nat} {s0 : State} {f unitFault} (h : x.1.Wf) (hs0 : s0.Wf) :
    (Run.ends x s0 f unitFault).Wf :=
  h.finish hs0
theorem State.Wf.finishWith {f status detail} (h : s.Wf) : (s.finishWith f status detail).Wf := h.setFlight

end Sys2Proof.Machine
end

section
/-! SUPPORT. O5: the functions of a descriptor's end, of slots, rings, gangs and tile buffers keep the canonical form. -/

namespace Sys2Proof.Machine

set_option Elab.async false

variable {s t : State} {r q : Run}

theorem State.Wf.msop {a op mask data mark} (h : s.Wf) : (s.msop a op mask data mark).1.Wf := by
  unfold State.msop
  split
  · exact h
  · exact .fst_ite h.invalidate (.fst_ite h.invalidate.markPoison h.invalidate.putMem)
theorem Run.Wf.msop {p op mask data mark} (h : r.Wf) : (r.msop p op mask data mark).Wf := by
  unfold Run.msop
  split
  · exact h.miss
  · refine .ite h.miss ?_
    split
    · exact h.miss
    · split
      · exact h.s.run
      · exact .answered (.ite h.s.msop.run.poisoned h.s.msop.run)
  · refine .ite h.miss ?_
    split
    · exact h.miss
    · exact State.Wf.run (Run.Wf.s (.usesFlow (.ite h.raise h)))
theorem Run.Wf.msopAt {w off op v mark} (h : r.Wf) : (r.msopAt w off op v mark).Wf := by
  unfold Run.msopAt
  split
  · exact h
  · exact h.msop
theorem State.Wf.setChange {die c} (h : s.Wf) : (s.setChange die c).Wf := h.same.setFlag
theorem State.Wf.nextPart {die goal} (h : s.Wf) : (s.nextPart die goal).Wf :=
  .ite h.setChange (.ite h.setChange (.ite h.setChange h.setChange.putFld))
theorem State.Wf.evalDie {die} (h : s.Wf) : (s.evalDie die).Wf := by
  unfold State.evalDie
  refine .ite h ?_
  dsimp only
  refine .ite h.putFld.putFld.putFld ?_
  split
  · exact .ite h.putFld.putFld.putFld.nextPart h.putFld.putFld.putFld
  · exact .ite h.putFld.putFld.putFld h.putFld.putFld.putFld.nextPart
theorem State.Wf.evalAll (h : s.Wf) : s.evalAll.Wf := h.foldl (fun _ _ h1 => h1.evalDie)
theorem State.Wf.goOn {die} (h : s.Wf) : (s.goOn die).Wf := .ite h.same h.nextPart
theorem State.Wf.dividerStep {c} (h : s.Wf) : (s.dividerStep c).Wf := h.putFld.goOn
theorem execOpDividerStep_keepsWf {die} : KeepsWf s (execOpDividerStep die s) := by
  refine .next fun h => ?_
  split
  · exact .ite h h.dividerStep
  · exact h
theorem State.Wf.slewDone {c} (h : s.Wf) : (s.slewDone c).Wf := h.same.goOn
theorem execVoltageSlewDone_keepsWf {die} : KeepsWf s (execVoltageSlewDone die s) := by
  refine .next fun h => ?_
  split
  · exact .ite h.slewDone h
  · exact h
theorem State.Wf.droopDetect {die} (h : s.Wf) : (s.droopDetect die).Wf := h.setFlag.putFld.same
theorem execDroopDetect_keepsWf {die} : KeepsWf s (execDroopDetect die s) := .next fun h => .ite h.droopDetect h
theorem State.Wf.droopEnd {die} (h : s.Wf) : (s.droopEnd die).Wf :=
  .ite h.setFlag.same.nextPart h.setFlag.same.evalDie
theorem execDroopEnd_keepsWf {die} : KeepsWf s (execDroopEnd die s) := .next fun h => .ite h.droopEnd h
theorem State.Wf.longDroop {die} (h : s.Wf) : (s.longDroop die).Wf := h.setFlag.same.evalAll
theorem execLongDroop_keepsWf {die} : KeepsWf s (execLongDroop die s) := .next fun h => .ite h.longDroop h
theorem State.Wf.rmMerge {die slot x} (h : s.Wf) : (s.rmMerge die slot x).Wf := h.setReg
theorem State.Wf.rmRules {die slot} (h : s.Wf) : (s.rmRules die slot).Wf := .ite h.setFlag (.ite h h.putFld.putFld)
theorem State.Wf.rmCloseSlot {die slot} (h : s.Wf) : (s.rmCloseSlot die slot).Wf :=
  .rmRules (.setFlag (.setReg (.setReg (.setReg (h.setReg.setReg.foldl (fun _ _ h1 => h1.setReg))))))
theorem State.Wf.rmRevertSlot {die slot} (h : s.Wf) : (s.rmRevertSlot die slot).Wf :=
  .setReg (.ite (.setFlag (.putFld (.putFld (.setReg (.setReg (h.foldl (fun _ _ h1 => h1.setReg))))))) h)
theorem execRmClose_keepsWf {die slot} : KeepsWf s (execRmClose die slot s) := .next fun h => .ite h.rmCloseSlot h
theorem execRmRevert_keepsWf {die slot} : KeepsWf s (execRmRevert die slot s) := .next fun h => .ite h.rmRevertSlot h
theorem State.Wf.applyMerges {all} (h : s.Wf) : (s.applyMerges all).Wf :=
  .foldl (h.foldl (fun _ _ h1 => h1.rmMerge)) (fun _ _ h1 => h1.rmCloseSlot)
theorem State.Wf.doorbell {die wide v} (h : s.Wf) : (s.doorbell die wide v).Wf :=
  .ite h.log (.ite h (.ite h.setFlag (.ite h.setReg h.setFlag)))
theorem execDoorbell_keepsWf {die wide value} : KeepsWf s (execDoorbell die wide value s) :=
  .next fun h => .ite h h.doorbell
theorem execRingEnable_keepsWf {ring} : KeepsWf s (execRingEnable ring s) := .next fun h => .ite h h.enableReq
theorem execRingEnablingDone_keepsWf {ring} : KeepsWf s (execRingEnablingDone ring s) :=
  .next fun h => have k1 := State.Wf.ite h h.setFlag; .ite (.ite h.enablingEnd (.log (.enablingEnd (.ite k1
    k1.setFlag)))) h
theorem State.Wf.abort {f} (h : s.Wf) : (s.abort f).Wf := h.finishWith
theorem State.Wf.abortAll {fs} (h : s.Wf) : (s.abortAll fs).Wf := h.foldl (fun _ _ h1 => h1.abort)
theorem State.Wf.ringDisable {ring} (h : s.Wf) : (s.ringDisable ring).Wf := .ite h.disableReq.abortAll h.disableReq
theorem execRingDisable_keepsWf {ring} : KeepsWf s (execRingDisable ring s) := .next fun h => .ite h h.ringDisable
theorem execRingDisablingDone_keepsWf {ring} : KeepsWf s (execRingDisablingDone ring s) :=
  .next fun h => .ite h.disablingEnd h
theorem execRingResume_keepsWf {ring} : KeepsWf s (execRingResume ring s) := .next fun h => .ite h h.setFlag
theorem State.Wf.cplRdWrite {ring v} (h : s.Wf) : (s.cplRdWrite ring v).Wf := .ite h.setFlag h.setReg
theorem execCplRdWrite_keepsWf {ring value} : KeepsWf s (execCplRdWrite ring value s) :=
  .next fun h => .ite h h.cplRdWrite
theorem State.Wf.ringIrq {ring} (h : s.Wf) : (s.ringIrq ring).Wf := .ite h.interrupt h
theorem State.Wf.halt {ring} (h : s.Wf) : (s.halt ring).Wf := h.setFlag
theorem State.Wf.fetchFault {ring a status} (h : s.Wf) : (s.fetchFault ring a status).Wf := h.halt.setFlag.log.ringIrq
theorem State.Wf.dcRead {die a n} (h : s.Wf) : (s.dcRead die a n).Wf := by
  unfold State.dcRead
  split
  · trivial
  · split
    · trivial
    · split
      · trivial
      · split
        · trivial
        · exact .unwait (.ite h.shareCopies.placeShared h.shareCopies)
theorem State.Wf.fetch {ring} (h : s.Wf) : (s.fetch ring).Wf := by
  unfold State.fetch
  extract_lets
  split
  · exact h.unwait.fetchFault
  · exact h.holdFor
  · next e =>
      have k := LineRead.Wf.of_data e h.dcRead
      exact .ite k.same.setReg.abort k.same.setReg
theorem execDescriptorFetch_keepsWf {ring} : KeepsWf s (execDescriptorFetch ring s) := .next fun h => .ite h.fetch h
theorem State.Wf.setTurn {f} (h : s.Wf) : (s.setTurn f).Wf := .ite h h.same
theorem execNop_keepsWf {fid} : KeepsWf s (execNop fid s) := by
  refine .next fun h => ?_
  split
  · exact .ite h.finishWith h
  · exact h
theorem State.Wf.dropFlight {fid} (h : s.Wf) : (s.dropFlight fid).Wf := h.same
theorem State.Wf.advanceRecord {f} (h : s.Wf) : (s.advanceRecord f).Wf := h.setReg.dropFlight
theorem State.Wf.dropSilent {ring} (h : s.Wf) : (s.dropSilent ring).Wf := h.foldl (fun _ _ h1 => h1.dropFlight)
theorem State.Wf.recordStep {ring} (h : s.Wf) : (s.recordStep ring).1.Wf := by
  unfold State.recordStep
  split
  · exact h
  · refine .fst_ite h (.fst_ite h ?_)
    split
    · dsimp only
      exact h.holdFor
    · exact .advanceRecord (.ite h.write.unwait.ringIrq h.write.unwait)
theorem State.Wf.writeRecords {ring n} (h : s.Wf) : (s.writeRecords ring n).Wf := by
  induction n generalizing s with
  | zero => exact h
  | succ n ih => exact .ite (ih h.recordStep) h.recordStep
theorem State.Wf.drainRecords {ring} (h : s.Wf) : (s.drainRecords ring).Wf := h.dropSilent.writeRecords
theorem State.Wf.reportRemote {f members origin ref} (h : s.Wf) : (s.reportRemote f members origin ref).Wf :=
  .dropFlight (h.foldl (fun _ _ h1 => h1.emit))
theorem State.Wf.complete {f} (h : s.Wf) : (s.complete f).Wf := by
  unfold State.complete
  extract_lets
  split
  · exact .reportRemote (.evalDie (.setFlight (.dropLines (.ite h h.applyMerges))))
  · exact
      have k1 := State.Wf.ite (.same (.evalDie (.setFlight (.dropLines (.ite h h.applyMerges))))) (.evalDie (.setFlight
        (.dropLines (.ite h h.applyMerges))))
      .ite (.evalDie (.setFlight (.dropLines (.ite h h.applyMerges)))) (.drainRecords (.ite k1.halt k1))
theorem execDescriptorComplete_keepsWf {fid} : KeepsWf s (execDescriptorComplete fid s) := by
  refine .next fun h => ?_
  split
  · exact .ite h.complete (.ite h.drainRecords h)
  · exact h
theorem State.Wf.recordLost {f} (h : s.Wf) : (s.recordLost f).Wf :=
  h.setFlag.log.unwait.ringIrq.halt.advanceRecord.drainRecords
theorem execCompletionWriteFault_keepsWf {fid} : KeepsWf s (execCompletionWriteFault fid s) := by
  refine .next fun h => ?_
  split
  · exact .ite h.recordLost h
  · exact h
theorem execFenceSignal_keepsWf {die ctr} : KeepsWf s (execFenceSignal die ctr s) :=
  .next fun h => .ite (.ite h.same h.same.setReg) h
theorem execFenceWrite_keepsWf {die ctr value} : KeepsWf s (execFenceWrite die ctr value s) :=
  .next fun h => .ite h h.setReg
theorem State.Wf.gangCtrlWrite {die slot v} (h : s.Wf) : (s.gangCtrlWrite die slot v).Wf := by
  unfold State.gangCtrlWrite
  refine .ite ?_ h.setReg
  extract_lets
  split
  · exact h.setReg
  · exact h.setReg
theorem execGangEntryValidate_keepsWf {die slot value} : KeepsWf s (execGangEntryValidate die slot value s) :=
  .next fun h => .ite h.gangCtrlWrite h
theorem State.Wf.addFlights {cs} (h : s.Wf) : (s.addFlights cs).Wf := h.same
theorem State.Wf.sendGang {f g p} (h : s.Wf) : (s.sendGang f g p).Wf := by
  unfold State.sendGang
  extract_lets
  split
  · exact h.emit.same
  · exact h
theorem State.Wf.dropGangOut {p} (h : s.Wf) : (s.dropGangOut p).Wf := h.same
theorem State.Wf.takeReport {g member r} (h : s.Wf) : (s.takeReport g member r).Wf := by
  unfold State.takeReport
  split
  · exact .ite h.emit.dropFlight h.emit.setFlight
  · exact .ite h.same h.same.dropGangOut.same.setFlight
theorem State.Wf.reportSilent {g silent detail} (h : s.Wf) : (s.reportSilent g silent detail).Wf := by
  unfold State.reportSilent
  exact h.foldl (fun _ _ h1 => by (split; exacts [h1.takeReport, h1]))
theorem State.Wf.fanout {f} (h : s.Wf) : (s.fanout f).Wf := by
  unfold State.fanout
  refine .ite h.finishWith ?_
  refine .ite h.finishWith ?_
  refine .ite h ?_
  extract_lets
  split
  · exact h.setFlight.addFlights
  · exact .ite h.setFlight.addFlights (.reportSilent (.setFlight (.foldl (h.foldl (fun _ _ h1 => h1.addFlights)) (fun _
    _ h1 => h1.sendGang))))
theorem execGangFanout_keepsWf {fid} : KeepsWf s (execGangFanout fid s) := by
  refine .next fun h => ?_
  split
  · exact .ite (.ite h.finishWith (.ite h.abort (.ite h h.fanout))) h
  · exact h
theorem execRemoteGangDescriptor_keepsWf {c} : KeepsWf s (execRemoteGangDescriptor c s) := .next fun h => h.same
theorem State.Wf.dropOrphan {gang member} (h : s.Wf) : (s.dropOrphan gang member).Wf := by
  unfold State.dropOrphan
  split
  · exact h.dropFlight
  · exact h
theorem State.Wf.answeredBy {g member} (h : s.Wf) : (s.answeredBy g member).Wf := h.same
theorem execGangMemberReport_keepsWf {gang member remote} :
    KeepsWf s (execGangMemberReport gang member remote s) := by
  refine .next fun h => ?_
  split
  · refine .ite ?_ h.dropOrphan
    split
    · exact .ite h.answeredBy.takeReport h
    · split
      · exact h.dropFlight.takeReport
      · exact h
  · exact h.dropOrphan
theorem State.Wf.vePoisonBit {die ep} (h : s.Wf) : (s.vePoisonBit die ep).Wf := h.setFlag
theorem State.Wf.tbWrite {die ep b row lo ws} (h : s.Wf) : (s.tbWrite die ep b row lo ws).Wf :=
  { h with tb := storeRun_canonical _ _ _ _ h.tb }
theorem State.Wf.tbMark {die ep b row lo hi} (h : s.Wf) : (s.tbMark die ep b row lo hi).Wf := h.same
theorem State.Wf.tbClear {die ep} (h : s.Wf) : (s.tbClear die ep).Wf :=
  { h with tb := eraseRange_canonical _ _ _ _ h.tb }
theorem State.Wf.vrWrite {die ep reg ws} (h : s.Wf) : (s.vrWrite die ep reg ws).Wf :=
  { h with vr := storeRun_canonical _ _ _ _ h.vr }
theorem State.Wf.vrClear {die ep} (h : s.Wf) : (s.vrClear die ep).Wf :=
  { h with vr := eraseRange_canonical _ _ _ _ h.vr }
theorem State.Wf.tbError {die ep fid e} (h : s.Wf) : (s.tbError die ep fid e).Wf := by
  unfold State.tbError
  split
  · exact h
  · exact h.log
  · exact h.same
theorem Run.Wf.laneMet {ep e} (h : r.Wf) : (Run.laneMet ep r e).Wf := by
  unfold Run.laneMet
  split
  · exact h
  · exact h.s.log.run
  · exact h.s.log.run.raise
theorem State.Wf.clearWeights {die ep} (h : s.Wf) : (s.clearWeights die ep).Wf :=
  { h with wAct := eraseRange_canonical _ _ _ _ h.wAct, wShd := eraseRange_canonical _ _ _ _ h.wShd }
theorem canonical_filter {α : Type} {d : Nat → α} {m : List (Nat × α)} (p : Nat × α → Bool) (h : Canonical d m) :
    Canonical d (m.filter p) :=
  ⟨h.1.filter p, fun x hx => h.2 x (List.mem_filter.1 hx).1⟩

theorem State.Wf.clearCols {die ep lo hi} (h : s.Wf) : (s.clearCols die ep lo hi).Wf :=
  { h with wAct := canonical_filter _ h.wAct, wShd := canonical_filter _ h.wShd }
theorem canonical_storeCells {cells m : List (Nat × Word)} (h : Canonical word0 m) :
    Canonical word0 (cells.foldl (fun m c => store word0 m c.1 c.2) m) :=
  List.foldlRecOn (motive := Canonical word0) cells _ h (fun m hm c _ => store_canonical word0 m c.1 c.2 hm)

theorem State.Wf.loadWeights {cells} (h : s.Wf) : (s.loadWeights cells).Wf :=
  { h with wAct := canonical_storeCells h.wAct, wShd := canonical_storeCells h.wShd }
theorem State.Wf.loadActive {cells} (h : s.Wf) : (s.loadActive cells).Wf :=
  { h with wAct := canonical_storeCells h.wAct }
theorem State.Wf.maFaultSet {die ep j status index} (h : s.Wf) : (s.maFaultSet die ep j status index).Wf :=
  h.setReg.setReg.setFlag
theorem State.Wf.veFaultSet {die ep f status} (h : s.Wf) : (s.veFaultSet die ep f status).Wf :=
  h.setFlag.setReg.setReg
theorem State.Wf.mvFaultSet {die n f status} (h : s.Wf) : (s.mvFaultSet die n f status).Wf := h.setReg.setReg
theorem State.Wf.vdFaultSet {die e f status} (h : s.Wf) : (s.vdFaultSet die e f status).Wf := h.setFlag.setReg.setReg

end Sys2Proof.Machine
end

section
/-! SUPPORT. O5: the functions of the matrix and special classes keep the canonical form. -/

namespace Sys2Proof.Machine

set_option Elab.async false

variable {s t : State} {r q : Run}

theorem Run.Wf.wmWait (h : r.Wf) : r.wmWait.Wf := .ite h.s.run h
theorem State.Wf.productLanesMet {p : Product} {ps stop fid} (h : s.Wf) : (p.lanesMet ps stop s fid).Wf :=
  h.foldl (fun _ _ h1 => h1.tbError)
theorem Run.Wf.productDrainMeets {p : Product} {ix cells} (h : r.Wf) : (p.drainMeets ix cells r).1.Wf :=
  have k1 := State.Wf.run (h.s.foldl (fun _ _ h1 => h1.tbError))
  .fst_ite k1.poisoned k1
theorem Run.Wf.stopAt {x : MatRun} {beat} (h : x.r.Wf) : (x.stopAt beat).r.Wf := h
theorem State.Wf.productFill {p : Product} {aVal wVal b nt} (h : s.Wf) : (p.fill aVal wVal b nt s).Wf :=
  h.foldl (fun _ _ h1 => h1.tbWrite)
theorem Run.Wf.productDrainRow {p : Product} {d b nt ix beat} {x : MatRun} {i} (h : x.r.Wf) :
    (p.drainRow d b nt ix beat x i).r.Wf := by
  refine .map_ite h ?_
  dsimp only
  generalize e : (if d.beta = 0 then _ else _ : Run × List Word × Bool) = y
  have k : y.1.Wf := e ▸ .fst_ite h.productDrainMeets h.productDrainMeets.readElems
  have m {b f c} : (y.1.meeting fun r => r.writeElems d.o d.gather b f c).1.Wf :=
    k.meeting fun _ h => h.writeElems
  exact .map_ite k (.map_ite m m)
theorem Run.Wf.productGo {p : Product} {dst aVal wVal fault} {x : MatRun} (h : x.r.Wf) :
    (p.go dst aVal wVal fault x).r.Wf := by
  refine .map_foldl h fun x u h => .map_ite h ?_
  dsimp only
  have k {f b nt} {c : Prop} {_ : Decidable c} {s : State} (hs : s.Wf) :
      (if c then s else (p.fill aVal wVal b nt x.r.s).loadWeights f).Wf :=
    .ite hs h.s.productFill.loadWeights
  have z {g : State → Nat → State} {c e : Prop} {_ : Decidable c} {_ : Decidable e} {l}
      (hg : ∀ s i, s.Wf → (g s i).Wf) : (if c then x.r.s else if e then List.foldl g x.r.s l else x.r.s).Wf :=
    .ite h.s (.ite (h.s.foldl hg) h.s)
  split
  · exact State.Wf.run (k (z fun _ _ h => h.tbWrite))
  · exact .map_foldl (State.Wf.run (k (z fun _ _ h => h.tbWrite))) fun _ _ h => h.productDrainRow
theorem State.Wf.productScramble {p : Product} (h : s.Wf) : (p.scramble s).Wf :=
  .same (h.foldl (fun _ _ h1 => h1.tbWrite.same))
theorem Run.Wf.source {ep e} (h : r.Wf) : (r.source ep e).Wf := by
  unfold Run.source
  split
  · exact h.miss
  · exact h.poisoned.s.run
  · exact h.raiseLog.s.run
theorem Run.Wf.productRun {p : Product} {dst aVal wVal fault} (h : r.Wf) : (p.run dst aVal wVal fault r).1.Wf := by
  unfold Product.run
  exact have k1 := Run.Wf.ite h.productGo.s.productScramble.run h.productGo; .ite (State.Wf.run (Run.Wf.s
    (by (split; exacts [k1.s.productLanesMet.run.source, k1.s.productLanesMet.run]))))
    (by (split; exacts [k1.s.productLanesMet.run.source, k1.s.productLanesMet.run]))
theorem State.Wf.passesEnd {f} (h : s.Wf) : (s.passesEnd f).Wf := h.same
theorem State.Wf.passOn {f passes} (h : s.Wf) : (s.passOn f passes).Wf := by
  unfold State.passOn
  split
  · exact h
  · exact .ite (.ite h.passesEnd h.passesEnd.same) h
theorem Run.Wf.gatherInto {fw} (h : r.Wf) : (r.gatherInto fw).Wf := .ite h.s.run h
theorem State.Wf.matmulRun {f parity errs} (h : s.Wf) : (s.matmulRun f parity errs).1.Wf := by
  have gathers {r : Run} {a b : FmtWord} {c d : Prop} {_ : Decidable c} {_ : Decidable d} (h : r.Wf) :
      (if d then (if c then r.gatherInto a else r).gatherInto b else if c then r.gatherInto a else r).Wf :=
    .ite (.gatherInto (.ite h.gatherInto h)) (.ite h.gatherInto h)
  have maxes {r : Run} {xs : List Word} {c : Prop} {_ : Decidable c} (h : r.Wf) : (if c then r.maxes xs else r).Wf :=
    .ite h.maxes h
  unfold State.matmulRun
  extract_lets
  refine .fst_ite (.raise (gathers h.start)) ?_
  extract_lets
  exact gathers (maxes (.addSat (.productRun (.ite h.start h.start.wmWait))))
theorem State.Wf.matmul {f errs} (h : s.Wf) : (s.matmul f errs).Wf := h.matmulRun.ends h
theorem State.Wf.maBusy {f} (h : s.Wf) : (s.maBusy f).Wf := h.setFlag
theorem State.Wf.matEnd {f} (h : s.Wf) : (s.matEnd f).Wf := by
  unfold State.matEnd
  split
  · extract_lets
    split
    · exact h.vePoisonBit
    · exact h.vePoisonBit.passesEnd.setFlag
    · exact h.vePoisonBit.maBusy
  · exact h
theorem execMatmul_keepsWf {fid errs} : KeepsWf s (execMatmul fid s errs) := by
  refine .next fun h => ?_
  split
  · exact .ite h.matmul.passOn.matEnd h
  · exact h
theorem State.Wf.matmulMxRun {f parity errs} (h : s.Wf) : (s.matmulMxRun f parity errs).1.Wf := by
  unfold State.matmulMxRun
  extract_lets
  refine .fst_ite h.start.raise ?_
  extract_lets
  exact .addSat (.productRun (.ite h.start h.start.wmWait))
theorem State.Wf.matmulMx {f errs} (h : s.Wf) : (s.matmulMx f errs).Wf := h.matmulMxRun.ends h
theorem execMatmulMxfp4_keepsWf {fid errs} : KeepsWf s (execMatmulMxfp4 fid s errs) := by
  refine .next fun h => ?_
  split
  · exact .ite h.matmulMx.passOn.matEnd h
  · exact h
theorem Run.Wf.elemCfgEnter {c : ElemCfg} {g} (h : r.Wf) : (c.enter r g).1.Wf :=
  have k1 := Run.Wf.fst_ite h.readElems.pair h.readElems.readElems
  have k2 := Run.Wf.fst_ite k1.readElems k1.pair
  .fst_ite k1.s.run (.fst_ite k2.s.run k2)
theorem Run.Wf.elemCfgEnterAll {c : ElemCfg} {gs} (h : r.Wf) : (c.enterAll gs r).1.Wf := by
  induction gs generalizing r with
  | nil => exact h
  | cons g gs ih => exact .fst_ite h.elemCfgEnter (ih h.elemCfgEnter)
theorem Run.Wf.elemCfgLeave {c : ElemCfg} {gs} (h : r.Wf) : (c.leave gs r).1.Wf := by
  induction gs generalizing r with
  | nil => exact h
  | cons g gs ih =>
    have k := h.meeting (go := fun r => r.writeElems c.z c.gather ((c.base + g.1) * ElemCfg.size c.z) g.2 false)
      fun _ h => h.writeElems
    exact .fst_ite (State.Wf.run k.s) (ih k)
theorem Run.Wf.elemCfgEnterUntil {c : ElemCfg} {ep parity groups} (h : r.Wf) :
    (c.enterUntil ep parity groups r).1.Wf := by
  unfold ElemCfg.enterUntil
  split
  · exact h.elemCfgEnterAll
  · exact .fst_ite h.elemCfgEnterAll (.ite h.elemCfgEnterAll h.elemCfgEnterAll.source)
theorem Run.Wf.elemCfgRun {c : ElemCfg} {w ep parity groups} (h : r.Wf) : (c.run w ep parity groups r).Wf :=
  .ite h.elemCfgEnterAll.s.run.elemCfgLeave h.elemCfgEnterUntil.s.run.elemCfgLeave.s.run
theorem State.Wf.elementwiseRun {f parity} (h : s.Wf) : (s.elementwiseRun f parity).1.Wf :=
  .fst_ite h.start.gatherInto.raise h.start.elemCfgRun.s.loadActive.run.gatherInto
theorem State.Wf.elementwise {f} (h : s.Wf) : (s.elementwise f).Wf := h.elementwiseRun.ends h
theorem execElementwiseFma_keepsWf {fid} : KeepsWf s (execElementwiseFma fid s) := by
  refine .next fun h => ?_
  split
  · exact .ite (.matEnd (.ite h.elementwise.passesEnd h.elementwise)) h
  · exact h
theorem State.Wf.poisonLine {die fid line} (h : s.Wf) : (s.poisonLine die fid line).Wf := by
  unfold State.poisonLine
  refine .ite h.invalidate.markPoison ?_
  extract_lets
  split
  · exact .ite h.freeBytes.sendSeq h.freeBytes
  · exact h
theorem State.Wf.poisonKept {f} (h : s.Wf) : (s.poisonKept f).Wf := h.foldl (fun _ _ h1 => h1.tbMark)
theorem State.Wf.partitionFault {f status lines} (h : s.Wf) : (s.partitionFault f status lines).Wf :=
  .maBusy (.setFlight (.maFaultSet (.ite h.clearCols.setFlag.poisonKept.vePoisonBit (h.clearCols.setFlag.foldl (fun _ _
    h1 => h1.poisonLine)))))
theorem State.Wf.partitionActs {fid} (h : s.Wf) : (s.partitionActs fid).Wf := by
  unfold State.partitionActs
  split
  · split
    · exact h.partitionFault
    · exact h
  · exact h
theorem State.Wf.epEnable {die ep} (h : s.Wf) : (s.epEnable die ep).Wf := .ite h.setFlag.setFlag.setFlag h.enableReq
theorem execEnginePairEnable_keepsWf {die ep} : KeepsWf s (execEnginePairEnable die ep s) :=
  .next fun h => .ite h h.epEnable
theorem execEnginePairEnablingDone_keepsWf {die ep} : KeepsWf s (execEnginePairEnablingDone die ep s) :=
  .next fun h => .ite (.ite h.setFlag.enablingEnd h.clearWeights.tbClear.vrClear.vePoisonBit.enablingEnd) h
theorem State.Wf.epDisable {die ep} (h : s.Wf) : (s.epDisable die ep).Wf := .ite h.disableReq.abortAll h.disableReq
theorem execEnginePairDisable_keepsWf {die ep} : KeepsWf s (execEnginePairDisable die ep s) :=
  .next fun h => .ite h h.epDisable
theorem execEnginePairDisablingDone_keepsWf {die ep} : KeepsWf s (execEnginePairDisablingDone die ep s) :=
  .next fun h => .ite h.clearWeights.disablingEnd h

end Sys2Proof.Machine
end

section
/-! SUPPORT. O5: the walk over strips and the reductions keep the canonical form. -/

namespace Sys2Proof.Machine

set_option Elab.async false

variable {s t : State} {r q : Run}

theorem Run.Wf.readMxElem {el sc lineBlocks line i0} (h : r.Wf) : (r.readMxElem el sc lineBlocks line i0).1.Wf :=
  .addSat (.fst_ite h.readNat h.readNat.readNat)
theorem Run.Wf.vecPlanReadElem {p : VecPlan} {i hi i0} (h : r.Wf) : (p.readElem i hi r i0).1.Wf :=
  .fst_ite h.readMxElem h.readElems
theorem Run.Wf.vecPlanReadStrip {p : VecPlan} {i st} (h : r.Wf) : (p.readStrip i st r).1.Wf :=
  .fst_ite (.ite h.poisoned h) (h.fst_foldl (fun _ _ h1 => .fst_ite h1 h1.vecPlanReadElem))
theorem Run.Wf.writeMarks {w off bs n} (h : r.Wf) : (r.writeMarks w off bs n).Wf := by
  induction n generalizing r off bs with
  | zero => exact h
  | succ n ih => exact .ite h (ih h.s.run.writeLine.s.run)
theorem Run.Wf.writeRuns {w xs} (h : r.Wf) : (r.writeRuns w xs).Wf := h.foldl (fun _ _ h1 => h1.writeMarks)
theorem Run.Wf.missEach {xs} (h : r.Wf) : (r.missEach xs).Wf := by
  induction xs generalizing r with
  | nil => exact h
  | cons x xs ih => exact ih (.ite h h.miss)
theorem Run.Wf.writeLanes {o gather xs} (h : r.Wf) : (r.writeLanes o gather xs).Wf :=
  .writeRuns (.ite h.missEach.addSat.maxes h.missEach.addSat)
theorem Run.Wf.writeRow {o gather off xs mark} (h : r.Wf) : (r.writeRow o gather off xs mark).Wf := h.writeLanes
theorem Run.Wf.writeAll {w off bs mark} (h : r.Wf) : (r.writeAll w off bs mark).Wf := h.writeMarks
theorem Run.Wf.writeAfter {after w off bs mark} (h : r.Wf) : (r.writeAfter after w off bs mark).Wf := by
  unfold Run.writeAfter
  split
  · exact .ite h.s.run h.s.run
  · exact h.writeMarks.s.run
theorem Run.Wf.writePlanes {w off bs w' off' bs' mark} (h : r.Wf) : (r.writePlanes w off bs w' off' bs' mark).Wf :=
  .ite h.writeMarks.writeMarks h.writeMarks.writeAfter
theorem Run.Wf.writeBlock {el sc gather block xs} (h : r.Wf) : (r.writeBlock el sc gather block xs).Wf := by
  unfold Run.writeBlock
  split
  · exact h.miss
  · exact
      have k1 := Run.Wf.ite h.addSat.maxes h.addSat
      .ite k1.writePlanes k1.writePlanes
theorem State.Wf.tbWriteLanes {die ep row lane xs} (h : s.Wf) : (s.tbWriteLanes die ep row lane xs).Wf := by
  unfold State.tbWriteLanes
  exact .ite (.tbMark (h.foldl (fun _ _ h1 => by (split; exacts [h1.tbWrite, h1])))) (h.foldl (fun _ _ h1 =>
    by (split; exacts [h1.tbWrite, h1])))
theorem Run.Wf.vecPlanWriteStrip {p : VecPlan} {i st xs} (h : r.Wf) : (p.writeStrip i st xs r).Wf := by
  unfold VecPlan.writeStrip
  exact .ite (State.Wf.run (.tbWriteLanes (Run.Wf.s (.ite h.maxes h)))) (.ite (h.foldl (fun _ _ h1 =>
    by (split; exacts [h1.s.run.writeBlock.s.run, h1]))) h.writeLanes)
theorem Run.Wf.vecPlanWriteRow {p : VecPlan} {a row} (h : r.Wf) : (p.writeRow a row r).Wf :=
  have k1 := Run.Wf.ite (.writeAll (.ite h.addSat.maxes h.addSat)) h.addSat
  have k2 := Run.Wf.ite k1.writeAll k1
  .ite k2.writeAll k2

end Sys2Proof.Machine
end

section
/-! SUPPORT. O5: the functions of the vector and softmax classes keep the canonical form. -/

namespace Sys2Proof.Machine

set_option Elab.async false

variable {s t : State} {r q : Run}

theorem Run.Wf.noteFault {x : VecRun} (h : x.r.Wf) : (x.noteFault).r.Wf := by
  unfold VecRun.noteFault
  split
  · extract_lets
    split
    · exact h.s.run
    · exact h.s.run.s.freeCount.run
  · exact h
theorem Run.Wf.vecPlanLaneError {p : VecPlan} {x : VecRun} {e} (h : x.r.Wf) : (p.laneError x e).r.Wf :=
  h.s.tbError.run
theorem Run.Wf.vecPlanLaneErrors {p : VecPlan} {errs ix st} {x : VecRun} (h : x.r.Wf) :
    (p.laneErrors errs ix st x).r.Wf :=
  h.map_foldl (fun _ _ h1 => h1.vecPlanLaneError)
theorem Run.Wf.vecPlanStrip {p : VecPlan} {key errs} {x : VecRun} {st} (h : x.r.Wf) : (p.strip key errs x st).r.Wf := by
  refine .map_ite h ?_
  dsimp only
  generalize e : List.foldl _ (_, ([] : List (List Lane))) (List.range 3) = y
  have k : y.1.Wf := e ▸ h.vecPlanLaneErrors.pair.fst_foldl fun _ _ h =>
    .fst_ite (.fst_ite h h.vecPlanReadStrip) h
  refine .map_ite k.s.run ?_
  exact
    have w := Run.Wf.noteFault (x := ⟨_, _, _, _, _, _, _⟩)
      ((k.foldl fun _ _ h => h.laneMet).foldl fun _ _ h => h.vecPlanWriteStrip)
    .map_ite w (.map_ite (.noteFault w.vecPlanWriteRow) w)
theorem State.Wf.putRegs {die ep first regs} (h : s.Wf) : (s.putRegs die ep first regs).Wf :=
  h.foldl (fun _ _ h1 => h1.vrWrite.foldl (fun _ _ h2 => h2.same))
theorem Run.Wf.vecPlanRun {p : VecPlan} {key errs} (h : r.Wf) : (p.run key errs r).1.Wf := by
  unfold VecPlan.run
  extract_lets _ _ _ x y z
  have k : x.r.Wf := .ite h h.s.vrClear.run
  have m : y.r.Wf := k.map_foldl fun _ _ h => h.vecPlanStrip
  have w : z.r.Wf := .map_ite (.noteFault (m.foldl fun _ _ h => h.vecPlanWriteRow)) m
  exact State.Wf.run (.vePoisonBit (.putRegs (Run.Wf.s (.ite (.raise w.s.run) w.s.run))))
theorem Run.Wf.vecPlanGathers {p : VecPlan} (h : r.Wf) : (p.gathers r).Wf :=
  have k1 := Run.Wf.ite h.gatherInto h
  have k2 := Run.Wf.ite k1.gatherInto k1
  .ite k2.gatherInto k2
theorem State.Wf.veBusy {die ep} (h : s.Wf) : (s.veBusy die ep).Wf := h.setFlag
theorem State.Wf.vecEnd {f} (h : s.Wf) : (s.vecEnd f).Wf := by
  unfold State.vecEnd
  split
  · exact .ite (.ite h.veBusy.veFaultSet h.veBusy) h
  · exact h
theorem State.Wf.vectorRun {f errs} (h : s.Wf) : (s.vectorRun f errs).1.Wf := h.start.vecPlanRun.vecPlanGathers
theorem State.Wf.vector {f errs} (h : s.Wf) : (s.vector f errs).Wf := .vecEnd (h.vectorRun.ends h)
theorem execFusedChain_keepsWf {fid errs} : KeepsWf s (execFusedChain fid s errs) := by
  refine .next fun h => ?_
  split
  · exact .ite h.vector h
  · exact h
theorem execFallbackProgram_keepsWf {fid errs} : KeepsWf s (execFallbackProgram fid s errs) := by
  refine .next fun h => ?_
  split
  · exact .ite h.vector h
  · exact h
theorem execVeAccessFault_keepsWf {fid} : KeepsWf s (execVeAccessFault fid s) := by
  refine .next fun h => ?_
  split
  · split
    · exact .ite h.setFlight.vecEnd h
    · exact h
  · exact h
theorem Run.Wf.step {α : Type} {body : Task → Run → α → Run × α × Bool} {x : RowRun α} {t : Task} (h : x.r.Wf)
    (hbody : ∀ t r a, r.Wf → (body t r a).1.Wf) : (RowRun.step body x t).r.Wf := by
  have k := hbody t x.r x.acc h
  refine .map_ite h (.map_ite k.s.run ?_)
  dsimp only
  split
  · split
    · exact k.s.run
    · exact k.s.run.s.freeCount.run
  · exact k
theorem Run.Wf.runRows {α : Type} {body : Task → Run → α → Run × α × Bool} {ts : List Task} {acc : α} (h : r.Wf)
    (hbody : ∀ t r a, r.Wf → (body t r a).1.Wf) : (runRows body ts r acc).r.Wf :=
  .map_foldl h fun _ _ h => h.step hbody
theorem Run.Wf.readState {w off} (h : r.Wf) : (r.readState w off).1.Wf := .fst_ite h.readNat h.readNat.readNat
theorem Run.Wf.readEntries {x mask ix n} (h : r.Wf) : (readEntries x mask r ix n).1.Wf := by
  unfold Machine.readEntries
  dsimp only
  split
  · exact h.readElems
  · exact .fst_ite h.readElems h.readElems.read
theorem Run.Wf.smrowBody {d x y len t a} (h : r.Wf) : (smrowBody d x y len t r a).1.Wf :=
  have k1 := Run.Wf.fst_ite h.readState.pair h.pair
  .fst_ite (.fst_ite h.readEntries (.fst_ite (.ite h.readEntries h.readEntries.writeAll) h.readEntries)) (.fst_ite k1
    (.fst_ite k1.readEntries k1.readEntries.writeRow))
theorem Run.Wf.endRows {ep seen empty fw} (h : r.Wf) : (r.endRows ep seen empty fw).Wf := by
  unfold Run.endRows
  exact have k1 := Run.Wf.ite h.raise h; State.Wf.run (.vePoisonBit (Run.Wf.s (by (split; exacts [k1.gatherInto, k1]))))
theorem State.Wf.smrowRun {f} (h : s.Wf) : (s.smrowRun f).1.Wf :=
  .endRows (h.start.runRows (fun _ _ _ h1 => h1.smrowBody))
theorem State.Wf.smrow {f} (h : s.Wf) : (s.smrow f).Wf := .vecEnd (h.smrowRun.ends h)
theorem execSmrow_keepsWf {fid} : KeepsWf s (execSmrow fid s) := by
  refine .next fun h => ?_
  split
  · exact .ite h.smrow h
  · exact h
theorem Run.Wf.readPart {d p dv row i} (h : r.Wf) : (readPart d p dv row i r).1.Wf :=
  .fst_ite h.readState h.readState.readElems
theorem Run.Wf.smmergeBody {d o t full} (h : r.Wf) : (smmergeBody d o t r full).1.Wf :=
  have k1 := h.readPart.fst_foldl (fun _ _ h1 => .fst_ite h1 h1.readPart.pair)
  have k2 := Run.Wf.ite k1 k1.writeAll
  .fst_ite k1 (.ite k2 k2.writeRow)
theorem State.Wf.smmergeRun {f} (h : s.Wf) : (s.smmergeRun f).1.Wf :=
  .endRows (h.start.runRows (fun _ _ _ h1 => h1.smmergeBody))
theorem State.Wf.smmerge {f} (h : s.Wf) : (s.smmerge f).Wf := .vecEnd (h.smmergeRun.ends h)
theorem execSmmerge_keepsWf {fid} : KeepsWf s (execSmmerge fid s) := by
  refine .next fun h => ?_
  split
  · exact .ite h.smmerge h
  · exact h
theorem Run.Wf.normCfgRecord {c : NormCfg} {t a} (h : r.Wf) : (c.record t r a).Wf :=
  have k1 := Run.Wf.ite h.addSat.msopAt h.addSat.msopAt.msopAt
  have k2 := Run.Wf.ite k1 k1.msopAt
  .ite (.ite k2 k2.writeAll) h.addSat.writeAll
theorem Run.Wf.normCfgStats {c : NormCfg} {t a} (h : r.Wf) : (c.stats t r a).Wf := h.writeAll
theorem Run.Wf.normCfgReadTotals {c : NormCfg} {t a} (h : r.Wf) : (c.readTotals t r a).1.Wf := .fst_ite h.read h.read
theorem Run.Wf.normCfgBody {c : NormCfg} {t a} (h : r.Wf) : (c.body t r a).1.Wf := by
  unfold NormCfg.body
  extract_lets k ix a settled po pk
  have hy : (r.readElems c.x (ix * k) t.n).1.Wf := h.readElems
  generalize r.readElems c.x (ix * k) t.n = y at hy ⊢
  obtain ⟨r, xs, p⟩ := y
  refine .fst_ite hy (.fst_ite ?_ (.fst_ite ?_ ?_))
  · have hmax {d : Prop} {_ : Decidable d} {xs : List Word} : (if d then r.maxes xs else r).Wf := .ite hy.maxes hy
    have htotals {a} : (c.readTotals t r a).1.Wf := hy.normCfgReadTotals
    exact .fst_ite (.ite hmax.normCfgRecord hmax)
      (.fst_ite (.fst_ite (.fst_ite htotals htotals.normCfgStats) hy) (.fst_ite (.fst_ite hy.normCfgStats hy) hy))
  · exact .fst_ite hy.normCfgStats hy
  · have hg : (r.readElems po (t.at_ * pk) t.n).1.Wf := hy.readElems
    generalize r.readElems po (t.at_ * pk) t.n = g at hg ⊢
    obtain ⟨r, gs, pg⟩ := g
    have hr : r.Wf := hg
    dsimp -zeta only
    cases r.stop || !dbit c.d 500
    · exact Run.Wf.fst_ite hr.readElems hr.readElems.writeRow
    · exact Run.Wf.fst_ite hr hr.writeRow
theorem State.Wf.normRun {f} (h : s.Wf) : (s.normRun f).1.Wf :=
  .endRows (h.start.runRows (fun _ _ _ h1 => h1.normCfgBody))
theorem State.Wf.norm {f} (h : s.Wf) : (s.norm f).Wf := .vecEnd (h.normRun.ends h)
theorem execNorm_keepsWf {fid} : KeepsWf s (execNorm fid s) := by
  refine .next fun h => ?_
  split
  · exact .ite h.norm h
  · exact h
theorem Run.Wf.xentBody {d x g len t a} (h : r.Wf) : (xentBody d x g len t r a).1.Wf := by
  unfold Machine.xentBody
  dsimp only
  refine .fst_ite ?_ ?_
  · generalize e1 : (if t.at_ = 0 then _ else _ : Run × XentAcc) = y1
    have k1 : y1.1.Wf := e1 ▸ .fst_ite h.readNat.pair h.pair
    refine .fst_ite k1 ?_
    generalize e2 : (if y1.2.label = ignored then _ else _ : Run × List (Word × Bool)) = y2
    have k2 : y2.1.Wf := e2 ▸ .fst_ite k1.pair k1.readEntries
    refine .fst_ite k2 (.fst_ite k2 ?_)
    generalize e3 : (if y1.2.label = ignored then _ else _ : Run × Word) = y3
    have k3 : y3.1.Wf := e3 ▸ .fst_ite k2.pair (.fst_ite k2.pair k2.readElems.pair)
    exact .fst_ite k3 (.fst_ite (.ite k3 k3.writeRow) (.ite k3 k3.writeRow))
  · generalize e : (if a.label = ignored then _ else _ : Run × List (Word × Bool)) = y
    have k : y.1.Wf := e ▸ .fst_ite h.pair h.readEntries
    refine .fst_ite k ?_
    split
    · exact k.writeRow
    · exact k
theorem State.Wf.xentRun {f} (h : s.Wf) : (s.xentRun f).1.Wf :=
  have k1 := h.start.runRows (fun _ _ _ h1 => h1.xentBody)
  .endRows (.fst_ite k1 (.ite k1.addSat.msopAt k1.addSat.msopAt.msopAt))
theorem State.Wf.xent {f} (h : s.Wf) : (s.xent f).Wf := .vecEnd (h.xentRun.ends h)
theorem execXent_keepsWf {fid} : KeepsWf s (execXent fid s) := by
  refine .next fun h => ?_
  split
  · exact .ite h.xent h
  · exact h
theorem Run.Wf.attBody {d die ep out t full} (h : r.Wf) : (attBody d die ep out t r full).1.Wf :=
  have k1 := Run.Wf.fst_ite h.pair h.readState
  have k2 := Run.Wf.fst_ite k1.pair (.fst_ite k1.pair k1.readElems)
  have k3 := Run.Wf.ite k2.poisoned k2
  have k4 := State.Wf.ite k3.s.tbWrite.tbMark k3.s.tbWrite
  have k5 := Run.Wf.ite k4.run k4.run.writeAll.writeRow
  .fst_ite k2 (.ite k5.writeRow k5)
theorem State.Wf.attstepRun {f errs} (h : s.Wf) : (s.attstepRun f errs).1.Wf :=
  .endRows (.runRows (State.Wf.start (h.foldl (fun _ _ h1 => h1.tbError))) (fun _ _ _ h1 => h1.attBody))
theorem State.Wf.attstep {f errs} (h : s.Wf) : (s.attstep f errs).Wf := .vecEnd (h.attstepRun.ends h)
theorem execAttstep_keepsWf {fid errs} : KeepsWf s (execAttstep fid s errs) := by
  refine .next fun h => ?_
  split
  · exact .ite h.attstep h
  · exact h

end Sys2Proof.Machine
end

section
/-! SUPPORT. O5: the functions of convolution and regrouping keep the canonical form. -/

namespace Sys2Proof.Machine

set_option Elab.async false

variable {s t : State} {r q : Run}

theorem Run.Wf.convCfgDrain {c : ConvCfg} {q b nt ix beat} {x : MatRun} {run} (h : x.r.Wf) :
    (c.drain q b nt ix beat x run).r.Wf := by
  unfold ConvCfg.drain
  dsimp only
  split
  · exact h
  · refine .map_ite h ?_
    generalize e : (if c.beta = 0 then _ else _ : Run × List Word × Bool) = y
    have k : y.1.Wf := e ▸ .fst_ite h.productDrainMeets.pair h.productDrainMeets.readElems
    have m {f b n} : (y.1.meeting fun r => r.writeElems c.out c.gather b f n).1.Wf := k.meeting fun _ h => h.writeElems
    exact .map_ite k (.map_ite m m)
theorem Run.Wf.convCfgGo {c : ConvCfg} {fault} {x : MatRun} (h : x.r.Wf) : (c.go fault x).r.Wf :=
  .map_foldl h fun _ _ h => .map_ite h
    (.map_foldl (State.Wf.run h.s.productFill.loadWeights) fun _ _ h => h.convCfgDrain)
theorem State.Wf.convRun {f parity errs} (h : s.Wf) : (s.convRun f parity errs).1.Wf := by
  unfold State.convRun
  exact have k1 := h.start.addSat.wmWait.convCfgGo; have k2 := Run.Wf.ite k1.addSat.s.productScramble.run k1.addSat;
    .fst_ite h.start.gatherInto.raise (.gatherInto (.ite (State.Wf.run (Run.Wf.s
    (by (split; exacts [k2.s.productLanesMet.run.source, k2.s.productLanesMet.run]))))
    (by (split; exacts [k2.s.productLanesMet.run.source, k2.s.productLanesMet.run]))))
theorem State.Wf.conv {f errs} (h : s.Wf) : (s.conv f errs).Wf := h.convRun.ends h
theorem State.Wf.parityFault {f beat} (h : s.Wf) : (s.parityFault f beat).Wf :=
  .ite (.partitionActs (.matEnd (Run.Wf.ends (.fst_ite h.matmulRun (.fst_ite h.matmulMxRun (.fst_ite h.elementwiseRun
    h.convRun))) h))) h
theorem execPartitionFault_keepsWf {fid beat} : KeepsWf s (execPartitionFault fid s beat) := by
  refine .next fun h => ?_
  split
  · refine .ite ?_ h
    split
    · exact .ite h h.parityFault
    · exact h.partitionActs
  · exact h
theorem execConv_keepsWf {fid errs} : KeepsWf s (execConv fid s errs) := by
  refine .next fun h => ?_
  split
  · exact .ite h.conv.passOn.matEnd h
  · exact h
theorem Run.Wf.moveElem {src dst copy gather from_ to_} (h : r.Wf) :
    (r.moveElem src dst copy gather from_ to_).1.Wf := by
  unfold Run.moveElem
  extract_lets
  split
  · exact h.read
  · dsimp only
    split
    · exact h.readElems
    · split
      · exact h.readElems
      · exact .ite h.readElems.addSat.max h.readElems.addSat
theorem Run.Wf.regroupBody {g src dst copy gather t u} (h : r.Wf) :
    (regroupBody g src dst copy gather t r u).1.Wf := by
  unfold Machine.regroupBody
  dsimp only
  generalize e : List.foldl _ (r, ([] : List (Int × List (Byte × Bool)))) (List.range t.n) = y
  have k : y.1.Wf := by
    subst e
    refine h.pair.fst_foldl fun x i h => .fst_ite h ?_
    generalize e : x.1.moveElem _ _ _ _ _ _ = z
    have k : z.1.Wf := e ▸ h.moveElem
    split <;> exact k
  exact .fst_ite k k.missEach.writeRuns
theorem State.Wf.regroupRun {f} (h : s.Wf) : (s.regroupRun f).1.Wf :=
  .endRows (h.start.runRows (fun _ _ _ h1 => h1.regroupBody))
theorem State.Wf.regroup {f} (h : s.Wf) : (s.regroup f).Wf := .vecEnd (h.regroupRun.ends h)
theorem execRegroup_keepsWf {fid} : KeepsWf s (execRegroup fid s) := by
  refine .next fun h => ?_
  split
  · exact .ite h.regroup h
  · exact h
theorem Run.Wf.resampleCfgFetch {k : ResampleCfg} {ν c x_} (h : r.Wf) : (k.fetch r ν c x_).1.Wf := by
  unfold ResampleCfg.fetch
  split
  · exact h
  · exact h.readElems
theorem Run.Wf.resampleCfgBody {k : ResampleCfg} {t u} (h : r.Wf) : (k.body t r u).1.Wf :=
  have k1 := h.pair.fst_foldl (fun _ _ h1 => .fst_ite h1 (.fst_ite h1.pair (Run.Wf.pair (h1.pair.fst_foldl (fun _ _ h2
    => .fst_ite h2 h2.resampleCfgFetch.pair)))))
  .fst_ite k1 k1.writeLanes
theorem State.Wf.resampleRun {f} (h : s.Wf) : (s.resampleRun f).1.Wf :=
  .endRows (h.start.runRows (fun _ _ _ h1 => h1.resampleCfgBody))
theorem State.Wf.resample {f} (h : s.Wf) : (s.resample f).Wf := .vecEnd (h.resampleRun.ends h)
theorem execResample_keepsWf {fid} : KeepsWf s (execResample fid s) := by
  refine .next fun h => ?_
  split
  · exact .ite h.resample h
  · exact h

end Sys2Proof.Machine
end

section
/-! SUPPORT. O5: the functions of the journal, of the memory's service and of the movers keep the canonical form. -/

namespace Sys2Proof.Machine

set_option Elab.async false

variable {s t : State} {r q : Run}

theorem State.Wf.putSlot {slot r} (h : s.Wf) : (s.putSlot slot r).Wf :=
  { h with journal := store_canonical _ _ _ _ h.journal }
theorem State.Wf.setFill (h : s.Wf) : s.setFill.Wf := h.putFld
theorem State.Wf.maybeCompact (h : s.Wf) : s.maybeCompact.Wf := .ite h.same.setFlag h
theorem State.Wf.writeRecord {slot type len del key data} (h : s.Wf) :
    (s.writeRecord slot type len del key data).Wf :=
  h.putSlot.setReg
theorem State.Wf.appendRecord {type len del key data} (h : s.Wf) : (s.appendRecord type len del key data).Wf :=
  h.writeRecord.setFill
theorem State.Wf.jrAppend {type len del key data} (h : s.Wf) : (s.jrAppend type len del key data).Wf :=
  h.appendRecord.maybeCompact
theorem State.Wf.fwAppend {type key data} (h : s.Wf) : (s.fwAppend type key data).Wf :=
  .ite h (.ite h.same h.jrAppend)
theorem State.Wf.compactNow (h : s.Wf) : s.compactNow.Wf :=
  .setFill (.setFlag (.same (.setFlag (.putFld (.setReg (.writeRecord (h.writeRecord.fst_foldl (fun _ _ h1 =>
    h1.writeRecord))))))))
theorem State.Wf.partSnapshot {m} (h : s.Wf) : (s.partSnapshot m).Wf :=
  .setReg (h.journalErased h.compactNow.journal)
theorem State.Wf.endCompaction (h : s.Wf) : s.endCompaction.Wf := .ite h.freeCount.partSnapshot.same.setFlag h
theorem State.Wf.endAppend (h : s.Wf) : s.endAppend.Wf := by
  unfold State.endAppend
  split
  · exact h
  · exact .ite h.same.setFlag (.ite h.same.setFlag.freeCount (.ite h.same.setFlag.freeCount.appendRecord
    h.same.setFlag.freeCount.putSlot.setFill))
theorem State.Wf.cutErase (h : s.Wf) : s.cutErase.Wf :=
  .ite (h.freeCount.journalErased h.freeCount.journal) h
theorem State.Wf.drainWaits (h : s.Wf) : s.drainWaits.Wf := h.same.foldl (fun _ _ h1 => h1.fwAppend)
theorem execCompactionDone_keepsWf : KeepsWf s (execCompactionDone s) := .next fun h => .ite h.compactNow.drainWaits h
theorem State.Wf.culletErased (h : s.Wf) : s.culletErased.Wf :=
  .maybeCompact (.setFlag { h with journal := eraseRange_canonical _ _ _ _ h.journal })
theorem execCulletEraseDone_keepsWf : KeepsWf s (execCulletEraseDone s) := .next fun h => .ite h.culletErased h
theorem State.Wf.mount {r gen} (h : s.Wf) : (s.mount r gen).Wf := h.setReg.setReg.setReg.putFld.setFlag.same.setFill
theorem State.Wf.beginCommit (h : s.Wf) : s.beginCommit.Wf := .ite h.same.setFlag h
theorem State.Wf.autoCommit (h : s.Wf) : s.autoCommit.Wf := .ite h.beginCommit h
theorem State.Wf.jrBegin {op} (h : s.Wf) : (s.jrBegin op).Wf := h.same.setFlag
theorem State.Wf.jrOp {op} (h : s.Wf) : (s.jrOp op).Wf := .ite h (.ite h.putFld h.jrBegin)
theorem execJrWrite_keepsWf : KeepsWf s (execJrWrite s) := .next fun h => h.jrOp
theorem execJrRead_keepsWf : KeepsWf s (execJrRead s) := .next fun h => h.jrOp
theorem execJrDelete_keepsWf : KeepsWf s (execJrDelete s) := .next fun h => h.jrOp
theorem State.Wf.jrEnd {err} (h : s.Wf) : (s.jrEnd err).Wf := h.same.setFlag.putFld
theorem State.Wf.jrFill {r} (h : s.Wf) : (s.jrFill r).Wf := h.foldl (fun _ _ h1 => h1.setReg)
theorem State.Wf.jrOpDone {o flashOk} (h : s.Wf) : (s.jrOpDone o flashOk).Wf := by
  unfold State.jrOpDone
  refine .ite ?_ (.ite h (.ite h.jrEnd h.jrAppend.autoCommit.jrEnd))
  split
  · exact h.jrEnd
  · exact .ite h.jrFill.jrEnd h.jrEnd
theorem execJrOpDone_keepsWf {flashOk} : KeepsWf s (execJrOpDone flashOk s) := by
  refine .next fun h => ?_
  split
  · exact .ite h.jrOpDone h
  · exact h
theorem State.Wf.lastUe {home off} (h : s.Wf) : (s.lastUe home off).Wf := h.setReg.setReg
theorem State.Wf.eccLine {home line who ecc} (h : s.Wf) : (s.eccLine home line who ecc).Wf := by
  unfold State.eccLine
  refine .ite h ?_
  split
  · exact h
  · exact h.count.log
  · exact h.count.lastUe.markPoison.log
theorem State.Wf.eccWm {die line who ecc} (h : s.Wf) : (s.eccWm die line who ecc).Wf := by
  unfold State.eccWm
  refine .ite h ?_
  split
  · exact h
  · exact h.count
  · exact h.count.setReg.markPoison.log
theorem State.Wf.ecc {a who ecc} (h : s.Wf) : (s.ecc a who ecc).Wf := .ite h.eccWm h.eccLine
theorem State.Wf.refuse {m a acc} (h : s.Wf) : (s.refuse m a acc).Wf := by
  unfold State.refuse
  split
  · exact h.log.emit
  · exact h.log.emit
  · exact h.emit
  · exact h.emit
  · exact h.emit
  · exact h.emit
theorem State.Wf.access {a acc poisoned eccs} (h : s.Wf) : (s.access a acc poisoned eccs).Wf := by
  unfold State.access
  extract_lets
  split
  · exact .emit (.shareCopies (h.foldl (fun _ _ h1 => h1.ecc)))
  · exact .emit (.write (h.foldl (fun _ _ h1 => h1.ecc)))
theorem State.Wf.hbmRequest {a acc poisoned ecc} (h : s.Wf) : (s.hbmRequest a acc poisoned ecc).Wf := by
  unfold State.hbmRequest
  extract_lets
  split
  · exact h.refuse.unwait
  · split
    · exact h.holdFor
    · exact h.access.unwait
theorem execHbmRequest_keepsWf {addr access poisoned ecc} : KeepsWf s (execHbmRequest addr access poisoned ecc s) :=
  .next fun h => h.hbmRequest
theorem State.Wf.msopRequest {a op mask data poisoned ecc} (h : s.Wf) :
    (s.msopRequest a op mask data poisoned ecc).Wf := by
  unfold State.msopRequest
  refine .ite h.refuse ?_
  extract_lets
  split
  · exact h.refuse.unwait
  · split
    · exact h.holdFor
    · exact .unwait (.emit (.msop (.ite h h.ecc)))
theorem execMsopRequest_keepsWf {addr op mask data poisoned ecc} :
    KeepsWf s (execMsopRequest addr op mask data poisoned ecc s) :=
  .next fun h => h.msopRequest
theorem execHbmRefresh_keepsWf {home} : KeepsWf s (execHbmRefresh home s) := .next fun h => h
theorem State.Wf.scrubStep {home ecc} (h : s.Wf) : (s.scrubStep home ecc).Wf := .ite h h.eccLine.same
theorem execHbmScrubStep_keepsWf {home ecc} : KeepsWf s (execHbmScrubStep home ecc s) := .next fun h => h.scrubStep
theorem execHbmMaintEnter_keepsWf {stack} : KeepsWf s (execHbmMaintEnter stack s) := .next fun h => .ite h h.setFlag
theorem execHbmMaintDrained_keepsWf {stack} : KeepsWf s (execHbmMaintDrained stack s) :=
  .next fun h => .ite h.setFlag h
theorem State.Wf.maintExit {stack} (h : s.Wf) : (s.maintExit stack).Wf := h.setFlag.setFlag
theorem execHbmMaintExit_keepsWf {stack} : KeepsWf s (execHbmMaintExit stack s) := .next fun h => .ite h h.maintExit
theorem State.Wf.w1500Go {stack} (h : s.Wf) : (s.w1500Go stack).Wf := .ite h.setFlag h.setFlag.same
theorem execW1500Go_keepsWf {stack} : KeepsWf s (execW1500Go stack s) := .next fun h => .ite h h.w1500Go
theorem State.Wf.w1500Shift {stack captured} (h : s.Wf) : (s.w1500Shift stack captured).Wf :=
  .setFlag (h.foldl (fun _ _ h1 => h1.setReg))
theorem execW1500ShiftDone_keepsWf {stack captured} : KeepsWf s (execW1500ShiftDone stack captured s) :=
  .next fun h => .ite h.w1500Shift h
theorem State.Wf.pprGo {stack hard} (h : s.Wf) : (s.pprGo stack hard).Wf :=
  .ite h.setFlag.putFld (.same (.putFld (.setFlag (h.setFlag.freeCount.foldl (fun _ _ h1 => h1.eccLine)))))
theorem execPprGo_keepsWf {stack hard} : KeepsWf s (execPprGo stack hard s) := .next fun h => .ite h h.pprGo
theorem State.Wf.journalRepair {stack result} (h : s.Wf) : (s.journalRepair stack result).Wf := h.fwAppend
theorem State.Wf.pprDone {r result} (h : s.Wf) : (s.pprDone r result).Wf :=
  have k1 := h.foldl (fun _ _ h1 => .ite h1.markPoison h1.putMem.clearPoison)
  .ite k1.setFlag.putFld.same.log.journalRepair k1.setFlag.putFld.same.log
theorem execPprDone_keepsWf {stack result} : KeepsWf s (execPprDone stack result s) := by
  refine .next fun h => ?_
  split
  · exact .ite h h.pprDone
  · exact h
theorem execWmAccess_keepsWf {die offset access poisoned ecc next} :
    KeepsWf s (execWmAccess die offset access poisoned ecc s next) :=
  .next fun h => .ite h.refuse (.ite h.refuse (.ite h.same h.access))
theorem State.Wf.wmInit {die} (h : s.Wf) : (s.wmInit die).Wf := h.setFlag
theorem execWmInit_keepsWf {die} : KeepsWf s (execWmInit die s) := .next fun h => .ite h h.wmInit
theorem State.Wf.wmInitDone {die} (h : s.Wf) : (s.wmInitDone die).Wf :=
  h.memErased.poisonErased.setFlag.same.foldl fun _ _ h1 => h1.access
theorem execWmInitDone_keepsWf {die} : KeepsWf s (execWmInitDone die s) := .next fun h => .ite h.wmInitDone h
theorem Run.Wf.readMarks {w off n fuel} (h : r.Wf) : (r.readMarks w off n fuel).1.Wf := by
  induction fuel generalizing r off n with
  | zero => exact h
  | succ fuel ih => exact .fst_ite h (.fst_ite h.readLine (ih h.readLine))
theorem Run.Wf.writeMover {w off bs seen fuel} (h : r.Wf) : (r.writeMover w off bs seen fuel).1.Wf := by
  induction fuel generalizing r off bs seen with
  | zero => exact h
  | succ fuel ih =>
    unfold Run.writeMover
    dsimp only
    generalize e : (if seen then _ else _ : Bool × Run) = y
    have k : y.2.Wf := by
      rw [← e]
      split
      · exact State.Wf.run h.s.freeCount
      · exact h
    exact .fst_ite h (ih (.ite k k.s.run.writeLine))
theorem Run.Wf.moveRow {c src soff n dst doff} (h : r.Wf) : (r.moveRow c src soff n dst doff).Wf := by
  unfold Run.moveRow
  dsimp only
  generalize e : r.readMarks src soff _ _ = y
  have k : y.1.Wf := e ▸ h.readMarks
  refine State.Wf.run (Run.Wf.writeMover (State.Wf.run ?_)).s
  exact Run.Wf.ite k.addSat.maxes k.addSat
theorem Run.Wf.moveCfgRow {m : MoveCfg} {ix} (h : r.Wf) : (m.row r ix).Wf := by
  unfold MoveCfg.row
  refine .ite h ?_
  split
  · exact h.writeMover.s.run
  · split
    · exact h.moveRow
    · exact .ite h.readNat (.ite h.readNat.s.run h.readNat.moveRow)
theorem Run.Wf.moveCfgGo {m : MoveCfg} {first last} (h : r.Wf) : (m.go first last r).Wf :=
  h.foldl (fun _ _ h1 => h1.moveCfgRow)
theorem State.Wf.movEnd {f} (h : s.Wf) : (s.movEnd f).Wf := by
  unfold State.movEnd
  split
  · exact .ite h.mvFaultSet h
  · exact h
theorem State.Wf.again {f hint} (h : s.Wf) : (Run.again s f hint).Wf := h.start.s.run
theorem Run.Wf.rowSent {s0 : State} {f} (h : r.Wf) (hs0 : s0.Wf) : (r.rowSent s0 f).Wf :=
  .ite hs0.askFor h.s.sendAll.unwaitDesc.same.setFlight
theorem Run.Wf.movePlanFin {p : MovePlan} (h : r.Wf) : (p.fin r).Wf := by
  unfold MovePlan.fin
  split
  · exact h.gatherInto
  · exact h
theorem State.Wf.moveRun {f} (h : s.Wf) : (s.moveRun f).1.Wf :=
  .fst_ite h.start.movePlanFin.raise h.start.moveCfgGo.movePlanFin
theorem State.Wf.moveFarRow {f} (h : s.Wf) : (s.moveFarRow f).Wf := h.again.moveCfgRow
theorem State.Wf.moveFar {f} (h : s.Wf) : (s.moveFar f).Wf :=
  .ite h (.ite (h.again.s.run.movePlanFin.ends h) (.ite (h.moveFarRow.movePlanFin.ends h) (h.moveFarRow.rowSent h)))
theorem State.Wf.move {f} (h : s.Wf) : (s.move f).Wf := .ite h.moveFar (h.moveRun.ends h)
theorem execMove_keepsWf {fid} : KeepsWf s (execMove fid s) := by
  refine .next fun h => ?_
  split
  · exact .ite h.move.movEnd h
  · exact h
theorem Run.Wf.sendPacked {dst op q} (h : r.Wf) : (r.sendPacked dst op q).Wf := h.msop
theorem Run.Wf.msopCfgFlush {m : MsopCfg} {x : MsopRun} (h : x.r.Wf) : (m.flush x).r.Wf := by
  unfold MsopCfg.flush
  split
  · exact h.sendPacked
  · exact h
theorem Run.Wf.msopCfgHalt {m : MsopCfg} {x : MsopRun} {r : Run} (hr : r.Wf) : (m.halt x r).r.Wf :=
  hr.s.run.msopCfgFlush.s.run
theorem Run.Wf.msopCfgStep {m : MsopCfg} {x : MsopRun} {i} (h : x.r.Wf) : (m.step x i).r.Wf := by
  unfold MsopCfg.step
  exact .map_ite h (.map_ite h.readNat.msopCfgHalt (.map_ite (.msopCfgHalt (by (split; exacts [h.readNat.readNat,
    h.readNat]))) (.map_ite (.map_ite (by (split; exacts [h.readNat.readNat, h.readNat])) (.msopCfgFlush
    (by (split; exacts [h.readNat.readNat, h.readNat])))) (.addSat (.map_ite (by (split; exacts [h.readNat.readNat,
    h.readNat])) (.msopCfgFlush (by (split; exacts [h.readNat.readNat, h.readNat]))))))))
theorem State.Wf.msopDescRun {f} (h : s.Wf) : (s.msopDescRun f).1.Wf :=
  have k := Run.Wf.map_foldl (g := MsopRun.r) h.start fun _ _ h1 => h1.msopCfgStep
  .fst_ite h.start.raise (.map_ite k k.msopCfgFlush)
theorem State.Wf.msopDesc {f} (h : s.Wf) : (s.msopDesc f).Wf := h.msopDescRun.ends h
theorem execMsop_keepsWf {fid} : KeepsWf s (execMsop fid s) := by
  refine .next fun h => ?_
  split
  · exact .ite h.msopDesc.movEnd h
  · exact h
theorem execMoverFault_keepsWf {fid} : KeepsWf s (execMoverFault fid s) := by
  refine .next fun h => ?_
  split
  · split
    · exact .ite h.setFlight.movEnd h
    · exact h
  · exact h
theorem execMoverEnable_keepsWf {die mover} : KeepsWf s (execMoverEnable die mover s) :=
  .next fun h => .ite h h.enableReq
theorem execMoverEnablingDone_keepsWf {die mover} : KeepsWf s (execMoverEnablingDone die mover s) :=
  .next fun h => .ite h.enablingEnd h
theorem State.Wf.moverDisable {die n} (h : s.Wf) : (s.moverDisable die n).Wf :=
  .ite h.disableReq.abortAll h.disableReq
theorem execMoverDisable_keepsWf {die mover} : KeepsWf s (execMoverDisable die mover s) :=
  .next fun h => .ite h h.moverDisable
theorem execMoverDisablingDone_keepsWf {die mover} : KeepsWf s (execMoverDisablingDone die mover s) :=
  .next fun h => .ite h.disablingEnd h

end Sys2Proof.Machine
end

section
/-! SUPPORT. O5: the functions of updates, of a slot's life and of video keep the canonical form. -/

namespace Sys2Proof.Machine

set_option Elab.async false

variable {s t : State} {r q : Run}

theorem State.Wf.pgCtrlWrite {die slot v} (h : s.Wf) : (s.pgCtrlWrite die slot v).Wf := by
  unfold State.pgCtrlWrite
  refine .ite ?_ h.setReg
  extract_lets
  split
  · exact h.setReg
  · exact h.setReg
theorem execParamGroupValidate_keepsWf {die slot value} : KeepsWf s (execParamGroupValidate die slot value s) :=
  .next fun h => .ite h.pgCtrlWrite h
theorem Run.Wf.readLanes {o off n} (h : r.Wf) : (r.readLanes o off n).1.Wf := h.readElems
theorem Run.Wf.writeLanesAt {o gather off xs} (h : r.Wf) : (r.writeLanesAt o gather off xs).Wf := h.writeLanes
theorem State.Wf.tbScatter {die ep} (h : s.Wf) : (s.tbScatter die ep).Wf := by
  unfold State.tbScatter
  dsimp only
  generalize List.map _ _ = ws
  exact State.Wf.same (s := { s.tbClear die ep with tb := storeRun word0 (s.tbClear die ep).tb _ ws }) h.tbClear.tbStored
theorem Run.Wf.gaccRun {w off xs fuel} (h : r.Wf) : (r.gaccRun w off xs fuel).Wf := by
  induction fuel generalizing r off xs with
  | zero => exact h
  | succ fuel ih => exact .ite h (ih h.msop)
theorem Run.Wf.gnormStrip {d g cols i} {x : Run × GnormAcc} {st} (h : x.1.Wf) : (gnormStrip d g cols i x st).1.Wf :=
  .fst_ite h (.fst_ite h.readLanes h.readLanes.addSat)
theorem Run.Wf.gnormRow {d g cols} {x : Run × GnormAcc} {i} (h : x.1.Wf) : (gnormRow d g cols x i).1.Wf :=
  have k1 := h.pair.fst_foldl (fun _ _ h1 => h1.gnormStrip)
  .fst_ite h (.fst_ite k1 (.ite k1 k1.addSat.writeAll))
theorem Run.Wf.gnormAdds {d rows cols clipIx a} (h : r.Wf) : (gnormAdds d rows cols clipIx r a).Wf :=
  have k1 := Run.Wf.ite h (.ite h.addSat.gaccRun h.addSat.gaccRun.msopAt)
  have k2 := Run.Wf.ite k1.addSat k1.addSat.msopAt
  .ite k2 (.ite k2 k2.msopAt)
theorem Run.Wf.gnormGuard {d} (h : r.Wf) : (gnormGuard d r).Wf :=
  .ite h (.ite h.readNat (.ite h.readNat.msopAt (.ite h.readNat.msopAt h.readNat)))
theorem State.Wf.gnormRun {f} (h : s.Wf) : (s.gnormRun f).1.Wf :=
  have k1 := h.tbScatter.start.pair.fst_foldl (fun _ _ h1 => h1.gnormRow)
  .endRows (.gnormGuard (.fst_ite h.tbScatter.start (.ite k1 k1.gnormAdds)))
theorem State.Wf.gnorm {f} (h : s.Wf) : (s.gnorm f).Wf := .vecEnd (h.gnormRun.ends h)
theorem execGnorm_keepsWf {fid} : KeepsWf s (execGnorm fid s) := by
  refine .next fun h => ?_
  split
  · exact .ite h.gnorm h
  · exact h
theorem Run.Wf.updCfgSum {k : UpdCfg} {ix} (h : r.Wf) : (k.sum r ix).1.Wf := h.readLanes
theorem Run.Wf.updCfgColumns {k : UpdCfg} (h : r.Wf) : (k.columns r).1.Wf :=
  have k1 := Run.Wf.fst_ite h.readLanes.pair h.readLanes.readLanes
  have k2 := Run.Wf.fst_ite k1.pair k1.updCfgSum
  .fst_ite k2 k2.readLanes
theorem Run.Wf.writeCopy {o sc gather cols i j xs} (h : r.Wf) : (r.writeCopy o sc gather cols i j xs).Wf :=
  .ite (h.foldl (fun _ _ h1 => h1.s.run.writeBlock.s.run)) h.writeLanesAt
theorem Run.Wf.updCfgStrip {k : UpdCfg} {ib1 ib2 row i st} (h : r.Wf) : (k.strip ib1 ib2 row i r st).Wf := by
  unfold UpdCfg.strip
  refine .ite h ?_
  dsimp only
  generalize eg : r.readLanes k.grad _ _ = g
  have hg : g.1.Wf := eg ▸ h.readLanes
  generalize ew : (if g.1.stop then _ else _ : Run × List Lane) = w
  have hw : w.1.Wf := ew ▸ .fst_ite hg hg.readLanes
  generalize em : (if w.1.stop then _ else _ : Run × List Lane) = m
  have hm : m.1.Wf := em ▸ .fst_ite hw (.fst_ite hw.readLanes hw)
  generalize ev : (if m.1.stop then _ else _ : Run × List Lane) = v
  have hv : v.1.Wf := ev ▸ .fst_ite hm (.fst_ite hm.readLanes hm)
  refine .ite hv ?_
  generalize ea : (if k.vec then _ else _ : Run) = a
  have ha : a.Wf :=
    have k1 := Run.Wf.ite hv.writeLanesAt.writeLanesAt hv.writeLanesAt
    ea ▸ .ite k1.writeLanesAt k1
  split
  · exact ha.writeCopy
  · exact ha
theorem Run.Wf.updCfgRow {k : UpdCfg} {ib1 ib2 i} (h : r.Wf) : (k.row ib1 ib2 r i).Wf :=
  have k1 := Run.Wf.fst_ite h.updCfgSum.pair h.updCfgSum.readLanes
  .ite h (.ite (h.foldl (fun _ _ h1 => h1.updCfgStrip)) (.ite k1 (k1.writeLanesAt.foldl (fun _ _ h1 =>
    h1.updCfgStrip))))
theorem Run.Wf.updCfgWriteBank {k : UpdCfg} (h : r.Wf) : (k.writeBank r).Wf := .ite h h.writeLanesAt.writeLanesAt
theorem Run.Wf.updCfgCopyBank {k : UpdCfg} (h : r.Wf) : (k.copyBank r).Wf := by
  unfold UpdCfg.copyBank
  extract_lets src dst part
  have hpart {q : Run} {off n} (hq : q.Wf) : (part q off n).Wf := by
    dsimp only [part]
    exact .ite hq (.ite hq.readMarks hq.readMarks.writeMarks)
  exact hpart (hpart h)
theorem Run.Wf.updCfgReverts {k : UpdCfg} (h : r.Wf) : (k.reverts r).Wf :=
  .ite (State.Wf.run (h.s.foldl (fun _ _ h1 => h1.rmRevertSlot))) h
theorem Run.Wf.updCfgGo {k : UpdCfg} {a b} (h : r.Wf) : (k.go a b r).Wf :=
  have k1 := Run.Wf.fst_ite h.readNat.pair h.readNat.readNat
  have k2 := Run.Wf.foldl (.fst_ite k1.addSat.pair k1.addSat.updCfgColumns) (fun _ _ h1 => h1.updCfgRow)
  .ite k1 (.ite (.raise (.updCfgReverts (.ite k1.updCfgCopyBank k1))) (.ite k1.raise (.ite k2.updCfgWriteBank k2)))
theorem State.Wf.updateRun {f} (h : s.Wf) : (s.updateRun f).1.Wf := h.tbScatter.start.updCfgGo.endRows
theorem State.Wf.update {f} (h : s.Wf) : (s.update f).Wf := .vecEnd (h.updateRun.ends h)
theorem execUpdate_keepsWf {fid} : KeepsWf s (execUpdate fid s) := by
  refine .next fun h => ?_
  split
  · exact .ite h.update h
  · exact h
theorem Run.Wf.wcopyMax {src cols} {x : Run × Word × Bool} {i} (h : x.1.Wf) : (wcopyMax src cols x i).1.Wf :=
  h.fst_foldl (fun _ _ h1 => .fst_ite h1 h1.readLanes)
theorem Run.Wf.wcopyRow {src dst sc gather taint cols i} (h : r.Wf) :
    (wcopyRow src dst sc gather taint cols r i).Wf :=
  h.foldl (fun _ _ h1 => .ite h1 (.ite h1.readLanes h1.readLanes.writeCopy))
theorem State.Wf.wcopyRun {f} (h : s.Wf) : (s.wcopyRun f).1.Wf :=
  have k1 := h.start.pair.fst_foldl (fun _ _ h1 => h1.wcopyMax)
  have k2 := Run.Wf.ite k1 (k1.foldl (fun _ _ h1 => h1.wcopyRow))
  have k3 := Run.Wf.ite k2 k2.writeAll
  .fst_ite h.start.endRows (.fst_ite (.endRows (.ite k3.gatherInto k3.gatherInto.s.run)) (.endRows (h.start.foldl (fun
    _ _ h1 => h1.wcopyRow))))
theorem State.Wf.wcopy {f} (h : s.Wf) : (s.wcopy f).Wf := .vecEnd (h.wcopyRun.ends h)
theorem execWcopy_keepsWf {fid} : KeepsWf s (execWcopy fid s) := by
  refine .next fun h => ?_
  split
  · exact .ite h.wcopy h
  · exact h
theorem State.Wf.slotSet {die slot e g} (h : s.Wf) : (s.slotSet die slot e g).Wf := h.putFld.putFld
theorem Run.Wf.slotStep {d i} (h : r.Wf) : (slotStep d r i).Wf := .ite h (.ite h.readNat h.readNat.s.slotSet.run)
theorem State.Wf.slotloadRun {f} (h : s.Wf) : (s.slotloadRun f).1.Wf :=
  .ite h.start.raise (h.start.foldl (fun _ _ h1 => h1.slotStep))
theorem State.Wf.slotload {f} (h : s.Wf) : (s.slotload f).Wf := h.slotloadRun.ends h
theorem execSlotload_keepsWf {fid} : KeepsWf s (execSlotload fid s) := by
  refine .next fun h => ?_
  split
  · exact .ite h.slotload h
  · exact h
theorem State.Wf.abortWrite {die v} (h : s.Wf) : (s.abortWrite die v).Wf := .ite h.setReg.abortAll h.setReg
theorem execDcAbortWrite_keepsWf {die value} : KeepsWf s (execDcAbortWrite die value s) :=
  .next fun h => .ite h.abortWrite h
theorem Run.Wf.moveRows {c src soff spitch dst doff dpitch len rows} (h : r.Wf) :
    (r.moveRows c src soff spitch dst doff dpitch len rows).Wf :=
  h.foldl (fun _ _ h1 => .ite h1 h1.moveRow)
theorem State.Wf.spillRun {f} (h : s.Wf) : (s.spillRun f).1.Wf :=
  have k1 := Run.Wf.ite h.start h.start.moveRows
  have k2 := Run.Wf.ite k1 k1.write
  have k3 := Run.Wf.ite k2.raise k2
  .ite k3.gatherInto k3
theorem State.Wf.spill {f} (h : s.Wf) : (s.spill f).Wf := h.spillRun.ends h
theorem execSpill_keepsWf {fid} : KeepsWf s (execSpill fid s) := by
  refine .next fun h => ?_
  split
  · exact .ite h.spill.movEnd h
  · exact h
theorem Run.Wf.spoil {dst pitch row rows} (h : r.Wf) : (r.spoil dst pitch row rows).Wf :=
  h.foldl (fun _ _ h1 => .ite h1 h1.s.freeBytes.run.writeMover.s.run)
theorem Run.Wf.badSpill {reason} (h : r.Wf) : (r.badSpill reason).Wf := h.raiseLog
theorem Run.Wf.spoilLines (h : r.Wf) : r.spoilLines.Wf := State.Wf.run (h.s.foldl (fun _ _ h1 => h1.markPoison))
theorem State.Wf.recallRun {f} (h : s.Wf) : (s.recallRun f).1.Wf := by
  unfold State.recallRun
  dsimp only
  split
  · exact .ite h.start.read.gatherInto h.start.read
  · split
    · exact .ite h.start.read.badSpill.spoil.gatherInto h.start.read.badSpill.spoil
    · exact
        have k1 := Run.Wf.ite h.start.read.moveRows.badSpill.spoilLines h.start.read.moveRows
        .fst_ite h.start.read.raise (.ite (.gatherInto (.ite k1.raise k1)) (.ite k1.raise k1))
theorem State.Wf.recall {f} (h : s.Wf) : (s.recall f).Wf := h.recallRun.ends h
theorem execRecall_keepsWf {fid} : KeepsWf s (execRecall fid s) := by
  refine .next fun h => ?_
  split
  · exact .ite h.recall.movEnd h
  · exact h
theorem State.Wf.barrierArrive {cid step m} (h : s.Wf) : (s.barrierArrive cid step m).1.Wf :=
  .fst_ite h (.fst_ite h.same (.fst_ite h (.fst_ite h h.same)))
theorem State.Wf.fenceInc {die ctr} (h : s.Wf) : (s.fenceInc die ctr).Wf := .ite h h.setReg
theorem State.Wf.commitPass {f} (h : s.Wf) : (s.commitPass f).Wf :=
  .finishWith (.same (.ite (h.putFld.foldl (fun _ _ h1 => h1.fenceInc)) h.putFld))
theorem State.Wf.commitCheck {f} (h : s.Wf) : (s.commitCheck f).Wf := .ite h.putFld.commitPass h.putFld
theorem State.Wf.commitScan {cid step} (h : s.Wf) : (s.commitScan cid step).Wf :=
  h.foldl (fun _ _ h1 => h1.commitCheck)
theorem State.Wf.sendArrive {f m} (h : s.Wf) : (s.sendArrive f m).Wf := by
  unfold State.sendArrive
  split
  · exact h
  · exact .ite h.sendSeq h
theorem State.Wf.commitStart {f} (h : s.Wf) : (s.commitStart f).Wf :=
  h.setReg.same.foldl (fun _ _ h1 => h1.sendArrive)
theorem State.Wf.commit {f} (h : s.Wf) : (s.commit f).Wf := .commitScan (.barrierArrive (.ite h h.commitStart))
theorem execCommit_keepsWf {fid} : KeepsWf s (execCommit fid s) := by
  refine .next fun h => ?_
  split
  · exact .ite h.commit h
  · exact h
theorem State.Wf.commitFail {f} (h : s.Wf) : (s.commitFail f).Wf :=
  .finishWith (h.putFld.setReg.same.foldl (fun _ _ h1 => h1.abortWrite))
theorem execCommitTimeout_keepsWf {fid} : KeepsWf s (execCommitTimeout fid s) := by
  refine .next fun h => ?_
  split
  · exact .ite h.commitPass h.commitFail
  · exact h
theorem State.Wf.slotRestore {die k bs} (h : s.Wf) : (s.slotRestore die k bs).Wf :=
  h.setReg.setReg.setReg.setReg.setReg.foldl (fun _ _ h1 => h1.setReg)
theorem Run.Wf.slotimgStep {d i} (h : r.Wf) : (slotimgStep d r i).Wf :=
  .ite h (.ite (.ite h.read h.read.s.slotRestore.run) h.write)
theorem State.Wf.slotimgRun {f} (h : s.Wf) : (s.slotimgRun f).1.Wf :=
  .ite h.start.raise (h.start.foldl (fun _ _ h1 => h1.slotimgStep))
theorem State.Wf.slotimg {f} (h : s.Wf) : (s.slotimg f).Wf := h.slotimgRun.ends h
theorem execSlotimg_keepsWf {fid} : KeepsWf s (execSlotimg fid s) := by
  refine .next fun h => ?_
  split
  · exact .ite h.slotimg h
  · exact h
theorem Run.Wf.readBits {w n} (h : r.Wf) : (r.readBits w n).Wf := by
  unfold Run.readBits
  exact h.foldl (fun _ _ h1 => by (split; exacts [.ite h1 (.answered (State.Wf.run (.ite h1.s.shareCopies.placeShared
    h1.s.shareCopies))), h1]))
theorem Run.Wf.videoPrmRow {p : VideoPrm} {f b out gather c i} (h : r.Wf) : (p.row f b out gather c i r).Wf :=
  .ite h h.writeElems
theorem Run.Wf.videoPrmSpoil {p : VideoPrm} {b out c i} (h : r.Wf) : (p.spoil b out c i r).Wf :=
  h.foldl (fun _ _ h1 => .ite h1 h1.s.freeBytes.run.write)
theorem Run.Wf.scribble {w n} (h : r.Wf) : (r.scribble w n).Wf := h.s.freeBytes.run.write.s.run
theorem Run.Wf.videoPrmFails {p : VideoPrm} {e reason pos later out} (h : r.Wf) :
    (p.fails e reason pos later out r).Wf :=
  .raise (h.s.log.putFld.setReg.run.foldl (fun _ _ h1 => h1.foldl (fun _ _ h2 => h2.videoPrmSpoil)))
theorem State.Wf.decodeRun {f scratch} (h : s.Wf) : (s.decodeRun f scratch).1.Wf := by
  unfold State.decodeRun
  exact have k1 := h.start.readBits.foldl (fun _ _ h1 => h1.foldl (fun _ _ h2 => h2.videoPrmRow)); .fst_ite
    h.start.gatherInto.raise (.gatherInto (.scribble (.ite k1 (by (split; exacts [k1, k1.videoPrmFails, k1.miss,
    k1.videoPrmFails, k1.s.run, k1.videoPrmFails])))))
theorem State.Wf.decode {f scratch} (h : s.Wf) : (s.decode f scratch).Wf := h.decodeRun.ends h
theorem State.Wf.vdBusy {die e} (h : s.Wf) : (s.vdBusy die e).Wf := h.setFlag
theorem State.Wf.decEnd {f} (h : s.Wf) : (s.decEnd f).Wf := by
  unfold State.decEnd
  split
  · exact .ite (.ite h.vdBusy.vdFaultSet.putFld.setReg h.vdBusy) h
  · exact h
theorem execDecode_keepsWf {fid scratch} : KeepsWf s (execDecode fid s scratch) := by
  refine .next fun h => ?_
  split
  · refine .ite ?_ h
    extract_lets
    split
    · exact .ite (.ite h.putFld.decode.decEnd h.putFld.decode.decEnd.setReg) h.putFld.decode.setReg
    · exact h.putFld.decode
  · exact h

end Sys2Proof.Machine
end

section
/-! SUPPORT. O5: the functions of the fabric keep the canonical form. -/

namespace Sys2Proof.Machine

set_option Elab.async false

variable {s t : State} {r q : Run}

theorem State.Wf.unitFaultSet {f st} (h : s.Wf) : (s.unitFaultSet f st).Wf := by
  unfold State.unitFaultSet
  extract_lets
  split
  · exact .ite h.maFaultSet h.veFaultSet
  · exact h.mvFaultSet
  · exact h.vdFaultSet.setReg
  · exact h
theorem State.Wf.dropGuards {fid ixs} (h : s.Wf) : (s.dropGuards fid ixs).Wf := h.same
theorem State.Wf.haltSends {fid} (h : s.Wf) : (s.haltSends fid).Wf := h.same.dropGuards
theorem State.Wf.haltDrain {f} (h : s.Wf) : (s.haltDrain f).Wf := .ite h.haltSends.setFlight h
theorem State.Wf.unitMeets {f code detail} (h : s.Wf) : (s.unitMeets f code detail).Wf := by
  unfold State.unitMeets
  split
  · exact h
  · exact h.setFlight
  · exact .ite h.setFlight.matEnd.maBusy h.unitFaultSet
theorem State.Wf.haltUnit {fid code} (h : s.Wf) : (s.haltUnit fid code).Wf := by
  unfold State.haltUnit
  split
  · exact .ite (.ite h.haltSends (.ite h.haltDrain h)) h
  · exact h
theorem State.Wf.raiseFlight {fid code detail} (h : s.Wf) : (s.raiseFlight fid code detail).Wf := by
  unfold State.raiseFlight
  extract_lets
  split
  · exact .ite (.ite h.haltUnit.setFlight h.haltUnit.setFlight.unitMeets) h.haltUnit
  · exact h.haltUnit
theorem State.Wf.portChange {p link width lanes reversed} (h : s.Wf) :
    (s.portChange p link width lanes reversed).Wf :=
  .ite h.setReg h.setReg.log
theorem State.Wf.portFall {p link} (h : s.Wf) : (s.portFall p link).Wf :=
  h.portChange.setFlag.same.foldl (fun _ _ h1 => h1.payBack)
theorem State.Wf.portEnable {p} (h : s.Wf) : (s.portEnable p).Wf := .ite h.setFlag.portFall h.setFlag
theorem execPortEnable_keepsWf {port} : KeepsWf s (execPortEnable port s) := .next fun h => .ite h.portEnable h
theorem State.Wf.portDisable {p} (h : s.Wf) : (s.portDisable p).Wf := .ite h.setFlag h.setFlag.portFall
theorem execPortDisable_keepsWf {port} : KeepsWf s (execPortDisable port s) := .next fun h => .ite h.portDisable h
theorem State.Wf.portRetrain {p} (h : s.Wf) : (s.portRetrain p).Wf := .ite h.portFall h
theorem execPortRetrain_keepsWf {port} : KeepsWf s (execPortRetrain port s) := .next fun h => .ite h.portRetrain h
theorem State.Wf.sendLinkFrame {p} (h : s.Wf) : (s.sendLinkFrame p).Wf := h.sendLink
theorem State.Wf.portTrained {p lanes reversed} (h : s.Wf) : (s.portTrained p lanes reversed).Wf := by
  unfold State.portTrained
  split
  · exact h.portChange.sendLinkFrame
  · exact h.portChange
theorem execPortTrained_keepsWf {port lanes reversed} : KeepsWf s (execPortTrained port lanes reversed s) :=
  .next fun h => .ite h.portTrained h
theorem execLinkRepeat_keepsWf {port} : KeepsWf s (execLinkRepeat port s) := .next fun h => .ite h.sendLinkFrame h
theorem execPortLinkDown_keepsWf {port} : KeepsWf s (execPortLinkDown port s) := .next fun h => .ite h.portFall h
theorem State.Wf.dropFrame {p f} (h : s.Wf) : (s.dropFrame p f).Wf := h.count.log
theorem State.Wf.linkUp {p f} (h : s.Wf) : (s.linkUp p f).Wf := h.portChange.setReg.setPools
theorem execLink_keepsWf {port f} : KeepsWf s (execLink port f s) :=
  .next fun h => .ite (.ite h.dropFrame (.ite h.linkUp h)) h
theorem execCredit_keepsWf {port f} : KeepsWf s (execCredit port f s) :=
  .next fun h => .ite (.ite h.dropFrame h.setPools.drainPort) h
theorem State.Wf.forward {p f owed} (h : s.Wf) : (s.forward p f owed).Wf := .ite h.payBack.dropFrame h.sendPort
theorem State.Wf.receive {p t f act} (h : s.Wf) (hact : ∀ x1, x1.Wf → (act x1).Wf) : (s.receive p t f act).Wf :=
  .ite h (.ite h.payBack.dropFrame (.ite h.forward (.ite h.payBack.dropFrame (hact _ h.payBack))))
theorem execFrameForward_keepsWf {port f} : KeepsWf s (execFrameForward port f s) :=
  .next fun h => .ite h (h.receive (fun _ h1 => h1))
theorem State.Wf.setSync {f n} (h : s.Wf) : (s.setSync f n).Wf := h.same
theorem State.Wf.endSync {f} (h : s.Wf) : (s.endSync f).Wf := h.same
theorem State.Wf.sendSync {f} (h : s.Wf) : (s.sendSync f).Wf := h.setSync.sendPlain
theorem State.Wf.setTxAck {f} (h : s.Wf) : (s.setTxAck f).Wf := h.setReg
theorem State.Wf.readFails {u code detail} (h : s.Wf) : (s.readFails u code detail).Wf := by
  unfold State.readFails
  split
  · exact h.haltUnit.same
  · exact h
theorem State.Wf.frameFails {u code detail} (h : s.Wf) : (s.frameFails u code detail).Wf := by
  unfold State.frameFails
  refine .ite h.readFails ?_
  split
  · exact h.dropGuards.raiseFlight
  · exact h
theorem State.Wf.ofFlight {f} (h : s.Wf) : (Run.ofFlight s f).Wf := h.start.s.run
theorem Run.Wf.gredDone {f} (h : r.Wf) : (r.gredDone f).Wf := h.s.setFlight
theorem State.Wf.gredFail {g code detail} (h : s.Wf) : (s.gredFail g code detail).Wf := by
  unfold State.gredFail
  extract_lets
  split
  · exact .ite h.same.ofFlight.raise.gredDone h.same
  · exact h.same
theorem State.Wf.silentModule {f} (h : s.Wf) : (s.silentModule f).Wf := by
  unfold State.silentModule
  exact .dropGangOut (h.foldl (fun _ _ h1 => by (split; exacts [h1.reportSilent, h1])))
theorem State.Wf.resendGangs {f} (h : s.Wf) : (s.resendGangs f).Wf := by
  unfold State.resendGangs
  exact h.same.foldl (fun _ _ h1 => by (split; exacts [h1.emit, h1]))
theorem State.Wf.flowFail {f} (h : s.Wf) : (s.flowFail f).Wf :=
  .foldl (.silentModule (h.same.foldl (fun _ _ h1 => h1.frameFails))) (fun _ _ h1 => h1.gredFail)
theorem State.Wf.flowZero {f} (h : s.Wf) : (s.flowZero f).Wf := h.setReg.setReg.setReg.same
theorem State.Wf.flowTimeout {f} (h : s.Wf) : (s.flowTimeout f).Wf := h.setFlag.flowFail.putFld.setTxAck
theorem State.Wf.flowEnable {f} (h : s.Wf) : (s.flowEnable f).Wf :=
  .ite (.ite h.enableReq.sendSync h.enableReq.enablingEnd) h.enableReq
theorem execFlowEnable_keepsWf {flow} : KeepsWf s (execFlowEnable flow s) := .next fun h => .ite h.flowEnable h
theorem execFlowSyncRetry_keepsWf {flow} : KeepsWf s (execFlowSyncRetry flow s) :=
  .next fun h => .ite (.ite h.sendSync h.endSync.enablingEnd) h
theorem execFlowDisable_keepsWf {flow} : KeepsWf s (execFlowDisable flow s) :=
  .next fun h => .ite h.disableReq.endSync h
theorem execFlowDisablingDone_keepsWf {flow} : KeepsWf s (execFlowDisablingDone flow s) :=
  .next fun h => .ite h.flowFail.disablingEnd h
theorem Run.Wf.putStep {d a b n k} (h : r.Wf) : (putStep d a b n r k).Wf :=
  .ite h (.ite h.read (State.Wf.run (Run.Wf.s (.ite h.read.raise h.read))))
theorem State.Wf.putRun {f} (h : s.Wf) : (s.putRun f).1.Wf :=
  have k1 := h.start.foldl (fun _ _ h1 => h1.putStep)
  .fst_ite h.start.raise (.fst_ite h.start.raise (.ite k1.s.run k1))
theorem State.Wf.guardWrite {g} (h : s.Wf) : (s.guardWrite g).Wf := by
  unfold State.guardWrite
  split
  · exact h.sendSeq
  · exact .ite h.same (.ite h.writeLine.start.poisoned.s.raiseFlight h.writeLine)
theorem State.Wf.releaseGuards (h : s.Wf) : s.releaseGuards.Wf := h.same.foldl (fun _ _ h1 => h1.guardWrite)
theorem State.Wf.resume {f} (h : s.Wf) : (s.resume f).Wf :=
  .setTxAck (.ite h.releaseGuards.openWindow h.releaseGuards)
theorem State.Wf.acked {f n} (h : s.Wf) : (s.acked f n).Wf := h.same.resume
theorem State.Wf.sendAgain {u} (h : s.Wf) : (s.sendAgain u).Wf := by
  unfold State.sendAgain
  extract_lets
  split
  · exact .ite h.same.sendRouted.raiseFlight h.same.sendRouted
  · exact h.same.sendRouted
theorem State.Wf.resendFrom {f n} (h : s.Wf) : (s.resendFrom f n).Wf :=
  .ite h.flowTimeout (h.same.foldl (fun _ _ h1 => h1.sendAgain))
theorem State.Wf.flowDeaf {f} (h : s.Wf) : (s.flowDeaf f).Wf := .ite h (.ite h.log h)
theorem State.Wf.toFlow {p t f act} (h : s.Wf) (hact : ∀ x1, x1.Wf → (act x1).Wf) : (s.toFlow p t f act).Wf :=
  h.receive (fun _ h1 => .ite (hact _ h1) h1.flowDeaf)
theorem execAck_keepsWf {port f} : KeepsWf s (execAck port f s) := .next fun h => h.toFlow (fun _ h1 => h1.acked)
theorem execNak_keepsWf {port f} : KeepsWf s (execNak port f s) :=
  .next fun h => h.toFlow (fun _ h1 => h1.acked.resendFrom)
theorem execRetransmitTimeout_keepsWf {flow} : KeepsWf s (execRetransmitTimeout flow s) := by
  refine .next fun h => ?_
  refine .ite ?_ h
  split
  · exact h.resendFrom
  · exact .ite h (.ite h.flowTimeout h.resendGangs)
theorem State.Wf.dropSent {f n} (h : s.Wf) : (s.dropSent f n).Wf := h.same
theorem execReadRsp_keepsWf {port f} : KeepsWf s (execReadRsp port f s) := by
  refine .next fun h => h.toFlow fun _ h1 => ?_
  split
  · refine .ite (.resume ?_) h1
    split
    · exact h1.dropSent.same
    · exact h1.dropSent
  · exact h1
theorem execFault_keepsWf {port f} : KeepsWf s (execFault port f s) := by
  refine .next fun h => h.toFlow fun _ h1 => ?_
  split
  · exact .resume (.frameFails (.snd_ite h1.dropSent h1.dropSent.freeWord))
  · exact h1
theorem State.Wf.advance {f} (h : s.Wf) : (s.advance f).Wf := h.setReg.same
theorem State.Wf.nakOnce {f} (h : s.Wf) : (s.nakOnce f).Wf := .ite h h.same.sendPlain
theorem State.Wf.inSequence {f quiet perform again} (h : s.Wf) (hperform : (perform s).Wf) (hagain : (again s).Wf) :
    (s.inSequence f quiet perform again).Wf := by
  unfold State.inSequence
  refine .ite ?_ (.ite hagain h.nakOnce)
  split
  · next e => exact .ite (hperform.taken e).advance (hperform.taken e).advance.visible
  · next e => exact (hperform.fails e).advance.sendPlain
  · next e => exact hperform.later e
theorem State.Wf.sequenced {p t f perform} (h : s.Wf) (hperform : ∀ s, s.Wf → (perform s).Wf) :
    (s.sequenced p t f perform).Wf :=
  h.toFlow fun _ h1 => h1.inSequence (hperform _ h1) h1.sendAck
theorem State.Wf.missLog {io m a src acc} (h : s.Wf) : (s.missLog io m a src acc).Wf := by
  unfold State.missLog
  split
  · exact h.log
  · exact h.log
  · exact h.log
  · exact h
theorem State.Wf.performedAnswer {io as src acc act} (h : s.Wf) (hact : ∀ x1, x1.Wf → (act x1).Wf) :
    (Performed.answer s io as src acc act).Wf := by
  unfold Performed.answer
  split
  · exact h.missLog
  · exact hact _ h
theorem State.Wf.unwaitFrame {flow as} (h : s.Wf) : (s.unwaitFrame flow as).Wf := h.foldl (fun _ _ h1 => h1.unwait)
theorem State.Wf.performWrite {f} (h : s.Wf) : (performWrite f s).Wf := by
  unfold Machine.performWrite
  extract_lets
  split
  · exact h.missLog.unwaitFrame
  · split
    · exact h.holdFor
    · exact .ite h.unwaitFrame (h.unwaitFrame.write.performedAnswer (fun _ h1 => h1))
theorem execWrite_keepsWf {port f} : KeepsWf s (execWrite port f s) :=
  .next fun h => h.sequenced fun _ h1 => h1.performWrite
theorem State.Wf.performMsop {f} (h : s.Wf) : (performMsop f s).Wf := by
  unfold Machine.performMsop
  refine .ite h.log ?_
  extract_lets
  split
  · exact h.missLog.unwait
  · split
    · exact h.holdFor
    · exact .ite h.unwait (h.unwait.msop.performedAnswer (fun _ h1 => h1))
theorem execMsopFrame_keepsWf {port f} : KeepsWf s (execMsopFrame port f s) :=
  .next fun h => h.sequenced fun _ h1 => h1.performMsop
theorem State.Wf.performRead {f} (h : s.Wf) : (performRead f s).Wf := by
  unfold Machine.performRead
  extract_lets
  split
  · exact h.missLog.unwaitFrame
  · split
    · exact h.holdFor
    · exact State.Wf.performedAnswer (h.unwaitFrame.foldl (fun _ _ h1 => h1.shareCopies)) (fun _ h1 => h1.sendPlain)
theorem execRead_keepsWf {port f} : KeepsWf s (execRead port f s) := by
  refine .next fun h => h.toFlow fun _ h1 => h1.inSequence h1.performRead ?_
  split
  · next e => exact h1.performRead.taken e
  · next e => exact (h1.performRead.fails e).sendPlain
  · next e => exact h1.performRead.later e
theorem State.Wf.performSignal {f} (h : s.Wf) : (performSignal f s).Wf := State.Wf.ite h.fenceInc h
theorem execSignal_keepsWf {port f} : KeepsWf s (execSignal port f s) :=
  .next fun h => h.sequenced fun _ h1 => h1.performSignal
theorem State.Wf.performArrive {f} (h : s.Wf) : (performArrive f s).Wf := .ite h.barrierArrive.commitScan h
theorem execArrive_keepsWf {port f} : KeepsWf s (execArrive port f s) :=
  .next fun h => h.sequenced fun _ h1 => h1.performArrive
theorem State.Wf.takeSync {f} (h : s.Wf) : (s.takeSync f).Wf := by
  unfold State.takeSync
  refine .ite h ?_
  extract_lets
  split
  · exact h.log
  · exact h.sendPlain
  · exact h.flowFail.flowZero.sendPlain
  · exact h
theorem execSync_keepsWf {port f} : KeepsWf s (execSync port f s) :=
  .next fun h => h.receive (fun _ h1 => h1.takeSync)
theorem State.Wf.takeSyncAck {f} (h : s.Wf) : (s.takeSyncAck f).Wf := by
  unfold State.takeSyncAck
  refine .ite h ?_
  extract_lets
  split
  · exact h.log
  · exact h.endSync.flowZero.enablingEnd
  · exact h
theorem execSyncAck_keepsWf {port f} : KeepsWf s (execSyncAck port f s) :=
  .next fun h => h.receive (fun _ h1 => h1.takeSyncAck)
theorem execAckTimer_keepsWf {flow} : KeepsWf s (execAckTimer flow s) := .next fun h => .ite h.sendAck h
theorem State.Wf.put {f} (h : s.Wf) : (s.put f).Wf := h.putRun.ends h
theorem execPut_keepsWf {fid} : KeepsWf s (execPut fid s) := by
  refine .next fun h => ?_
  split
  · exact .ite h.put h
  · exact h
theorem State.Wf.setGred {g} (h : s.Wf) : (s.setGred g).Wf := h.same
theorem State.Wf.sendGrant {g fl} (h : s.Wf) : (s.sendGrant g fl).Wf := h.sendPlain
theorem State.Wf.gredUp {g p} (h : s.Wf) : (s.gredUp g p).Wf := .ite h (.setGred (h.foldl (fun _ _ h1 => h1.sendSeq)))
theorem State.Wf.gredCast {g p first ws} (h : s.Wf) : (s.gredCast g p first ws).Wf :=
  h.foldl (fun _ _ h1 => h1.foldl (fun _ _ h2 => h2.sendSeq))
theorem Run.Wf.gredWrite {w fd eref first ws} (h : r.Wf) : (r.gredWrite w fd eref first ws).Wf := h.writeMarks
theorem Run.Wf.gredStore {f first ws} (h : r.Wf) : (r.gredStore f first ws).Wf :=
  have k1 := Run.Wf.ite h.addSat.maxes h.addSat
  .ite k1.gredWrite k1.gredWrite.gredWrite
theorem Run.Wf.keep {f} (h : r.Wf) : (r.keep f).Wf := h.s.sendAll.unwaitDesc.setFlight
theorem State.Wf.gredEnd {fid} (h : s.Wf) : (s.gredEnd fid).Wf := by
  unfold State.gredEnd
  split
  · exact .ite h.same.ofFlight.gredDone h
  · exact h
theorem State.Wf.gredResults {f g first ws sat flow} (h : s.Wf) : (s.gredResults f g first ws sat flow).Wf := by
  unfold State.gredResults
  refine .ite h.askFor (State.Wf.gredEnd (.gredCast (.setGred (Run.Wf.keep ?_))))
  have k : (((Run.ofFlight s f).addSat sat).gredStore f first ws).Wf := h.ofFlight.addSat.gredStore
  split
  · exact .ite k.raise k
  · exact k
theorem State.Wf.gredRoot {f g} (h : s.Wf) : (s.gredRoot f g).Wf := by
  unfold State.gredRoot
  refine .ite h ?_
  dsimp only
  split
  · next e => exact h.gredResults.taken e
  · next e => exact h.gredResults.fails e
  · next e => exact h.gredResults.later e
theorem State.Wf.gredGo {fid} (h : s.Wf) : (s.gredGo fid).Wf := by
  unfold State.gredGo
  split
  · exact h.gredUp.gredRoot.gredEnd
  · exact h
theorem Run.Wf.gredParts {f n} (h : r.Wf) : (r.gredParts f n).1.Wf := .fst_ite h.read h.readLanes.addSat
theorem State.Wf.gredStart {f} (h : s.Wf) : (s.gredStart f).Wf := by
  unfold State.gredStart
  extract_lets
  split
  · exact h.start.raise.gredDone
  · exact .ite h.start.raise.gredDone (.ite (h.start.gredParts.gatherInto.finish h) (.gredGo (.foldl (.same
    (Run.Wf.keep (.ite h.start.gredParts.s.freeWord.run.raise h.start.gredParts))) (fun _ _ h1 => h1.sendGrant))))
theorem execGred_keepsWf {fid} : KeepsWf s (execGred fid s) := by
  refine .next fun h => ?_
  split
  · exact .ite (.ite h.gredGo h.gredStart) h
  · exact h
theorem State.Wf.performRed {f} (h : s.Wf) : (performRed f s).Wf := by
  unfold Machine.performRed
  split
  · exact h
  · exact .ite h (.gredGo (.sendGrant (.ite h.setGred.raiseFlight h.setGred)))
theorem execRed_keepsWf {port f} : KeepsWf s (execRed port f s) :=
  .next fun h => h.sequenced fun _ h1 => h1.performRed
theorem State.Wf.performRes {f} (h : s.Wf) : (performRes f s).Wf := by
  unfold Machine.performRes
  split
  · exact h
  · extract_lets
    split
    · exact h
    · exact .ite h h.gredResults
theorem execRes_keepsWf {port f} : KeepsWf s (execRes port f s) :=
  .next fun h => h.sequenced fun _ h1 => h1.performRes
theorem execGrant_keepsWf {port f} : KeepsWf s (execGrant port f s) :=
  .next fun h => h.toFlow (fun _ h1 => by (split; exacts [.ite h1.setGred.gredGo h1, h1]))
theorem execGrantRepeat_keepsWf {fid} : KeepsWf s (execGrantRepeat fid s) := by
  refine .next fun h => ?_
  split
  · exact .ite h (h.foldl (fun _ _ h1 => h1.sendGrant))
  · exact h

end Sys2Proof.Machine
end

section
/-! SUPPORT. O5: the functions of coherence and of the host cores' accesses keep the canonical form. -/

namespace Sys2Proof.Machine

set_option Elab.async false

variable {s t : State} {r q : Run}

theorem State.Wf.snoop {agent line act} (h : s.Wf) (hact : ∀ x1 x2, x1.Wf → (act x1 x2).Wf) :
    (s.snoop agent line act).Wf :=
  .ite h (.ite h.emit (hact _ _ h))
theorem execSnpShr_keepsWf {agent line} : KeepsWf s (execSnpShr agent line s) := by
  refine .next fun h => h.snoop fun _ _ h1 => ?_
  split
  · exact h1.emit
  · exact .ite h1.emit h1.writeBack.dropCopy.setOwner.same.emit
theorem State.Wf.giveUp {agent line c} (h : s.Wf) : (s.giveUp agent line c).Wf := by
  unfold State.giveUp
  split
  · exact h.emit
  · exact .ite h.releaseCopy.emit h.releaseCopy.emit
theorem execSnpInv_keepsWf {agent line} : KeepsWf s (execSnpInv agent line s) :=
  .next fun h => h.snoop (fun _ _ h1 => h1.giveUp)
theorem execSnpOwn_keepsWf {agent line} : KeepsWf s (execSnpOwn agent line s) :=
  .next fun h => h.snoop (fun _ _ h1 => h1.giveUp)
theorem State.Wf.giveUpGranule {agent granule} (h : s.Wf) : (s.giveUpGranule agent granule).Wf :=
  .emit (h.foldl (fun _ _ h1 => h1.writeBack.dropCopy.dropCores.setOwner.same))
theorem execSnpGfl_keepsWf {agent granule} : KeepsWf s (execSnpGfl agent granule s) :=
  .next fun h => h.snoop (fun _ _ h1 => h1.giveUpGranule)
theorem State.Wf.flushGranule {granule} (h : s.Wf) : (s.flushGranule granule).Wf :=
  .same (h.foldl (fun _ _ h1 => h1.invalidate))
theorem State.Wf.deliver {src target} (h : s.Wf) : (s.deliver src target).Wf := .ite h.log h.same
theorem execInterruptMessage_keepsWf {srcDie target} : KeepsWf s (execInterruptMessage srcDie target s) :=
  .next fun h => .ite h.same.deliver h
theorem State.Wf.imsicWrite {hd offset v} (h : s.Wf) : (s.imsicWrite hd offset v).Wf :=
  .ite h (.ite h.same (.ite h.same h))
theorem State.Wf.timerCompare {hart cmp} (h : s.Wf) : (s.timerCompare hart cmp).Wf := h.same
theorem execStimecmpExpiry_keepsWf {hart cmp} : KeepsWf s (execStimecmpExpiry hart s cmp) :=
  .next fun h => .ite h.timerCompare h
theorem execBiasInit_keepsWf {home} : KeepsWf s (execBiasInit home s) := .next fun h => .ite h.setFlag h
theorem State.Wf.biasInitDone {home} (h : s.Wf) : (s.biasInitDone home).Wf :=
  .setFlag (.poisonErased (.ite h.memErased h.putMem))
theorem execBiasInitDone_keepsWf {home} : KeepsWf s (execBiasInitDone home s) := .next fun h => .ite h.biasInitDone h
theorem State.Wf.setCode {home granule code} (h : s.Wf) : (s.setCode home granule code).Wf := h.putMem
theorem Run.Wf.flipOne {code onlyExt a} (h : r.Wf) : (flipOne code onlyExt r a).Wf :=
  .ite h (.ite h.s.run (.ite h (.ite h.miss (.ite (.ite h.raiseLog h) (.ite h (.ite h.poisoned (.ite h.s.run
    (State.Wf.run (.setCode (.ite h.s.flushGranule h.s))))))))))
theorem Run.Wf.flipFrom {code onlyExt a n i} (h : r.Wf) : (flipFrom code onlyExt a n i r).1.Wf := by
  induction n generalizing r i with
  | zero => exact h
  | succ n ih => exact .fst_ite (ih h.flipOne) h.flipOne
theorem State.Wf.biasflipRun {f} (h : s.Wf) : (s.biasflipRun f).1.1.Wf := by
  unfold State.biasflipRun
  dsimp only
  split
  · exact h.start.s.run.raise
  · exact Run.Wf.flipFrom h.start.s.run
theorem State.Wf.biasflip {f} (h : s.Wf) : (s.biasflip f).Wf := by
  unfold State.biasflip
  dsimp only
  have k : (s.biasflipRun f).1.1.Wf := h.biasflipRun
  generalize s.biasflipRun f = x at k ⊢
  exact .ite h (.same (.ite (Run.Wf.ends k h) k.s.same.setFlight.askFor))
theorem execBiasflip_keepsWf {fid} : KeepsWf s (execBiasflip fid s) := by
  refine .next fun h => ?_
  split
  · exact .ite h.biasflip h
  · exact h
theorem State.Wf.hfillRun {f} (h : s.Wf) : (s.hfillRun f).1.Wf :=
  .ite h.start.raise (h.start.foldl (fun _ _ h1 => .ite h1 h1.write))
theorem State.Wf.hfill {f} (h : s.Wf) : (s.hfill f).Wf := h.hfillRun.ends h
theorem execHfill_keepsWf {fid} : KeepsWf s (execHfill fid s) := by
  refine .next fun h => ?_
  split
  · exact .ite h.hfill h
  · exact h
theorem State.Wf.takeOwn {agent line state d} (h : s.Wf) : (s.takeOwn agent line state d).Wf :=
  .same (.cacheRoom (.filterRoom (.ite h.same h.invalidate)))
theorem State.Wf.coreStore {hart uncached a bs} (h : s.Wf) : (s.coreStore hart uncached a bs).Wf :=
  .ite h.clearPoison.takeOwn (.ite h.writeLine.log (.ite h.writeLine.placeShared h.writeLine))
theorem State.Wf.coreLoad {hart uncached a n} (h : s.Wf) : (s.coreLoad hart uncached a n).2.Wf :=
  .snd_ite h (.ite h.shareCopies.placeShared h.shareCopies)
theorem State.Wf.coreFills {hart uncached acc a} (h : s.Wf) : (s.coreFills hart uncached acc a).Wf :=
  .ite h.coreFill.coreFill h
theorem State.Wf.l1iServes {hart uncached acc ps} (h : s.Wf) : (s.l1iServes hart uncached acc ps).2.Wf :=
  .snd_ite h.freeCount h
theorem State.Wf.coreFetch {hart uncached held a n} (h : s.Wf) : (s.coreFetch hart uncached held a n).2.Wf := by
  unfold State.coreFetch
  split
  · exact h
  · exact h.coreLoad.coreFills
theorem State.Wf.corePerform {hart uncached acc held data got ps} (h : s.Wf) :
    (s.corePerform hart uncached acc held data got ps).Wf := by
  induction ps generalizing s data got with
  | nil =>
    unfold State.corePerform
    cases acc <;> exact h.emit
  | cons p ps ih =>
    cases acc with
    | load => exact ih h.coreLoad.coreFills
    | fetch => exact ih h.coreFetch
    | store => exact ih h.coreStore.coreFills
    | cboZero => exact ih h.coreStore.coreFills
theorem State.Wf.coreFault {hart uncached acc ps c} (h : s.Wf) (e : s.coreFault hart uncached acc ps = some (c, t)) :
    t.Wf := by
  induction ps with
  | nil => cases e
  | cons p ps ih =>
    unfold State.coreFault at e
    split at e
    · cases e; exact h.log
    · cases e
    · split at e
      · cases e; exact h.log
      · exact ih e
theorem State.Wf.coreMemory {hart uncached a size acc ecc} (h : s.Wf) :
    (s.coreMemory hart uncached a size acc ecc).Wf := by
  unfold State.coreMemory
  extract_lets all
  have k : (s.l1iServes hart uncached acc all).2.Wf := h.l1iServes
  generalize s.l1iServes hart uncached acc all = x at k ⊢
  obtain ⟨held, v⟩ := x
  dsimp -zeta only at k ⊢
  extract_lets ps u
  have hu : u.Wf := by
    dsimp only [u]
    split
    · exact k.ecc
    · exact k
  split
  · next e => exact State.Wf.foldl (hu.coreFault e).emit fun _ _ h2 => h2.unwait
  · split
    · exact k.holdFor
    · exact hu.corePerform.foldl fun _ _ h1 => h1.unwait
theorem State.Wf.reserve {hart line} (h : s.Wf) : (s.reserve hart line).Wf := h.same
theorem State.Wf.unreserve {hart} (h : s.Wf) : (s.unreserve hart).Wf := h.same
theorem State.Wf.lrTake {hart a} (h : s.Wf) : (s.lrTake hart a).Wf :=
  .ite (.ite h.reserve h.takeOwn.reserve) h.invalidate.cacheRoom.same.reserve
theorem State.Wf.atomicStore {hart a bs} (h : s.Wf) : (s.atomicStore hart a bs).Wf :=
  .ite h.takeOwn h.writeLine.placeShared
theorem State.Wf.releaseGrant {g} (h : s.Wf) : (s.releaseGrant g).Wf := h.same
theorem State.Wf.atomicServe {hart a size op value} (h : s.Wf) : (s.atomicServe hart a size op value).Wf := by
  unfold State.atomicServe
  extract_lets line full old new u
  have hu : u.Wf := by
    dsimp only [u]
    split
    · exact h.releaseGrant
    · exact h
  split
  · exact .ite h.atomicStore.unreserve.emit hu.unreserve.emit
  · exact .ite h h.lrTake.emit
  · exact .ite h h.atomicStore.emit
theorem State.Wf.hostAtomic {hart a size op value ecc} (h : s.Wf) : (s.hostAtomic hart a size op value ecc).Wf := by
  unfold State.hostAtomic
  extract_lets
  split
  · exact h.log.emit.unwait
  · refine .ite h.emit ?_
    split
    · exact h.log.emit.unwait
    · exact h.holdFor
    · exact
        have k1 := State.Wf.ite h h.ecc
        .ite h.log.emit.unwait (.ite k1.log.emit.unwait k1.atomicServe.unwait)
theorem execHostAtomic_keepsWf {hart addr size op value ecc} :
    KeepsWf s (execHostAtomic hart addr size op value ecc s) :=
  .next fun h => .ite h.hostAtomic h
theorem execLrGrantExpiry_keepsWf {hart} : KeepsWf s (execLrGrantExpiry hart s) := by
  refine .next fun h => ?_
  split
  · exact h.releaseGrant.same
  · exact h
theorem State.Wf.refuseSetup {req write die kind a} (h : s.Wf) : (s.refuseSetup req write die kind a).Wf := h.log.emit

end Sys2Proof.Machine
end

section
/-! SUPPORT. O5: the functions of PCIe, CXL, the courses and the loss of a die keep the canonical form. -/

namespace Sys2Proof.Machine

set_option Elab.async false

variable {s t : State} {r q : Run}

theorem State.Wf.downEvt {io} (h : s.Wf) : (s.downEvt io).Wf := .ite h.setFlag.interrupt h.setFlag
theorem State.Wf.dropLink {io} (h : s.Wf) : (s.dropLink io).Wf := h.setFlag.putFld.putFld
theorem State.Wf.linkFall {io} (h : s.Wf) : (s.linkFall io).Wf := .ite h.dropLink.downEvt h
theorem State.Wf.trainPort {io} (h : s.Wf) : (s.trainPort io).Wf := .ite h h.emit
theorem State.Wf.setXf {io} (h : s.Wf) : (s.setXf io).Wf := h.putFld
theorem State.Wf.dropExt {io line} (h : s.Wf) : (s.dropExt io line).Wf := h.same.setXf
theorem State.Wf.addExt {io line excl} (h : s.Wf) : (s.addExt io line excl).Wf := h.same.setXf
theorem State.Wf.cxlLoss {io} (h : s.Wf) : (s.cxlLoss io).Wf := .ite h.dropLink.putFld.same h
theorem execCxlLoss_keepsWf {io} : KeepsWf s (execCxlLoss io s) := .next fun h => .ite h h.cxlLoss
theorem State.Wf.walkLine {e} (h : s.Wf) : (walkLine s e).Wf := .ite h.freeBytes.putMem.markPoison h
theorem State.Wf.cxlWalkDone {io} (h : s.Wf) : (s.cxlWalkDone io).Wf :=
  .downEvt (.log (.setXf (.same (h.foldl (fun _ _ h1 => h1.walkLine)))))
theorem execCxlWalkDone_keepsWf {io} : KeepsWf s (execCxlWalkDone io s) := .next fun h => .ite h.cxlWalkDone h
theorem State.Wf.cxlRearm {io} (h : s.Wf) : (s.cxlRearm io).Wf := .ite h.putFld.trainPort h
theorem execCxlRearm_keepsWf {io} : KeepsWf s (execCxlRearm io s) := .next fun h => .ite h h.cxlRearm
theorem execPerst_keepsWf {io} : KeepsWf s (execPerst io s) := .next fun h => .ite h h.cxlLoss
theorem State.Wf.pcieModeWrite {io mode} (h : s.Wf) : (s.pcieModeWrite io mode).Wf :=
  have k1 := State.Wf.ite h.cxlLoss h.linkFall
  .ite k1.putFld.emit.trainPort k1.putFld.setFlag.emit
theorem execPcieModeWrite_keepsWf {io mode} : KeepsWf s (execPcieModeWrite io mode s) :=
  .next fun h => .ite h h.pcieModeWrite
theorem State.Wf.pcieLinkUp {io width speed} (h : s.Wf) : (s.pcieLinkUp io width speed).Wf :=
  .ite h h.setFlag.putFld.putFld
theorem execPcieLinkUp_keepsWf {io width speed} : KeepsWf s (execPcieLinkUp io width speed s) :=
  .next fun h => .ite h h.pcieLinkUp
theorem execPcieLinkDown_keepsWf {io} : KeepsWf s (execPcieLinkDown io s) :=
  .next fun h => .ite h (.ite h.cxlLoss h.linkFall)
theorem State.Wf.outbound {req io off acc} (h : s.Wf) : (s.outbound req io off acc).Wf := by
  unfold State.outbound
  split
  · exact .ite h h.emit
  · exact .ite (.ite h h.emit) (.ite (.ite h.same.emit h.same) (.ite h.same.emit h.same))
theorem State.Wf.pcieOutbound {req io off acc} (h : s.Wf) : (s.pcieOutbound req io off acc).Wf := by
  unfold State.pcieOutbound
  refine .ite h.refuseSetup ?_
  extract_lets
  split
  · exact h.refuseSetup
  · exact h.outbound
theorem execPcieOutboundAccess_keepsWf {req io offset access} :
    KeepsWf s (execPcieOutboundAccess req io offset access s) :=
  .next fun h => h.pcieOutbound
theorem State.Wf.takeNp {io tag} (h : s.Wf) : (s.takeNp io tag).Wf := h.same
theorem execPcieCompletion_keepsWf {io tag data} : KeepsWf s (execPcieCompletion io tag data s) :=
  .next fun h => .ite h.takeNp.emit h
theorem execPcieCompletionTimeout_keepsWf {io tag} : KeepsWf s (execPcieCompletionTimeout io tag s) :=
  .next fun h => .ite h.takeNp.log.emit h
theorem State.Wf.msi {io d} (h : s.Wf) : (s.msi io d).Wf := .ite h.log h.interrupt
theorem State.Wf.refuseDevice {io acc die kind a} (h : s.Wf) : (s.refuseDevice io acc die kind a).Wf :=
  .ite h.log h.log.emit
theorem State.Wf.deviceServe {io a acc tph} (h : s.Wf) : (s.deviceServe io a acc tph).Wf := by
  unfold State.deviceServe
  split
  · exact .emit (.ite h.shareCopies.placeShared h.shareCopies)
  · exact
      have k1 := State.Wf.ite h.writeLine.log h.writeLine
      .ite k1.hintPlace k1
theorem State.Wf.inboundServe {io a acc tph die} (h : s.Wf) : (State.inbound.serve io a acc tph s die).Wf := by
  unfold State.inbound.serve
  refine .ite h.refuseDevice ?_
  extract_lets
  split
  · exact h.refuseDevice.unwait
  · exact h.refuseDevice.unwait
  · exact h.refuseDevice.unwait
  · exact h.refuseDevice.unwait
  · split
    · exact h.holdFor
    · exact h.deviceServe.unwait
theorem State.Wf.inbound {io a acc tph} (h : s.Wf) : (s.inbound io a acc tph).Wf := by
  unfold State.inbound
  extract_lets
  split
  · exact .ite h.msi h.inboundServe
  · exact h.inboundServe
theorem execPcieInboundRequest_keepsWf {io addr access tph} :
    KeepsWf s (execPcieInboundRequest io addr access tph s) :=
  .next fun h => .ite h.inbound h
theorem execPcieMsiWrite_keepsWf {io addr data} : KeepsWf s (execPcieMsiWrite io addr data s) :=
  .next fun h => .ite h.inbound h
theorem execCxlDecoderCommit_keepsWf {io} : KeepsWf s (execCxlDecoderCommit io s) :=
  .next fun h => .ite h.putFld.same h
theorem State.Wf.cxlRefuse {io acc} (h : s.Wf) : (s.cxlRefuse io acc).Wf := by
  unfold State.cxlRefuse
  split
  · exact h.freeBytes.emit
  · exact h
theorem State.Wf.cxlServe {io a acc excl} (h : s.Wf) : (s.cxlServe io a acc excl).Wf := by
  unfold State.cxlServe
  split
  · exact .addExt (.emit (.ite h.invalidate h.shareCopies))
  · exact
      have k1 := State.Wf.ite h.writeLine.log h.writeLine
      .ite k1.addExt k1.dropExt
theorem State.Wf.cxlRoom {io line} (h : s.Wf) (e : s.cxlRoom io line = some t) : t.Wf := by
  unfold State.cxlRoom at e
  dsimp only at e
  split at e
  · cases e
  · cases e; exact h.freeCount.holdFor
theorem State.Wf.cxlMem {io a acc excl} (h : s.Wf) : (s.cxlMem io a acc excl).Wf := by
  unfold State.cxlMem
  refine .ite h.refuseDevice (.ite h.log.cxlRefuse ?_)
  split
  · exact h.refuseDevice
  · exact h.log.cxlRefuse
  · exact h.refuseDevice
  · exact h.refuseDevice
  · refine .ite h (.ite h.log.cxlRefuse ?_)
    split
    · next e => exact h.cxlRoom e
    · exact h.cxlServe
theorem execCxlMemRequest_keepsWf {io addr access exclusive} :
    KeepsWf s (execCxlMemRequest io addr access exclusive s) :=
  .next fun h => .ite h.cxlMem h
theorem execBisnp_keepsWf {io line} : KeepsWf s (execBisnp io line s) := .next fun h => .ite h.holdFor h
theorem State.Wf.bisnpResponse {io line data} (h : s.Wf) : (s.bisnpResponse io line data).Wf := by
  unfold State.bisnpResponse
  exact .dropExt (.same (by (split; exacts [.ite h h.putMem.clearPoison, h])))
theorem execBisnpResponse_keepsWf {io line data} : KeepsWf s (execBisnpResponse io line data s) :=
  .next fun h => .ite h.bisnpResponse h
theorem execBisnpTimeout_keepsWf {io line} : KeepsWf s (execBisnpTimeout io line s) := .next fun h => .ite h.cxlLoss h
theorem State.Wf.driveAlert (h : s.Wf) : s.driveAlert.Wf := h.setFlag
theorem State.Wf.alert {i} (h : s.Wf) : (s.alert i).Wf := h.setFlag.driveAlert
theorem State.Wf.setLink {die pair v} (h : s.Wf) : (s.setLink die pair v).Wf := h.putFld
theorem State.Wf.setModes {die pair rx tx} (h : s.Wf) : (s.setModes die pair rx tx).Wf := h.putFld.putFld
theorem State.Wf.clearReplay {die pair} (h : s.Wf) : (s.clearReplay die pair).Wf := h.same
theorem State.Wf.answerSent {u code detail} (h : s.Wf) : (s.answerSent u code detail).Wf := h.same.frameFails
theorem State.Wf.courseFail {die pair} (h : s.Wf) : (courseFail die pair s).Wf :=
  .foldl (h.foldl (fun _ _ h1 => .ite h1.freeCount.log.answerSent h1.freeCount)) (fun _ _ h1 => .ite
    h1.freeCount.log.raiseFlight h1.freeCount)
theorem State.Wf.coursePairEnable {die pair} (h : s.Wf) : (s.coursePairEnable die pair).Wf :=
  .ite h.setFlag.log (.ite h.enableReq.setLink.setReg h.enableReq)
theorem execCoursePairEnable_keepsWf {die pair} : KeepsWf s (execCoursePairEnable die pair s) :=
  .next fun h => .ite h h.coursePairEnable
theorem State.Wf.courseRefuse {die pair link reason} (h : s.Wf) : (s.courseRefuse die pair link reason).Wf :=
  h.enablingEnd.setLink.setModes.setReg.log
theorem execCourseTrainingTimeout_keepsWf {die pair} : KeepsWf s (execCourseTrainingTimeout die pair s) :=
  .next fun h => .ite h.courseRefuse h
theorem State.Wf.rxMap {die pair failed ck} (h : s.Wf) : (s.rxMap die pair failed ck).Wf :=
  .ite h.setReg.setReg.putFld.putFld h.setReg.setReg.putFld.putFld.log
theorem State.Wf.txMap {die pair map ck} (h : s.Wf) : (s.txMap die pair map ck).Wf := h.setReg.putFld
theorem State.Wf.laneMaps {die pair r} (h : s.Wf) : (s.laneMaps die pair r).Wf := by
  unfold State.laneMaps
  extract_lets
  split
  · exact h.rxMap.rxMap.txMap.txMap
  · exact h.rxMap.txMap
theorem State.Wf.atEnds {die pair act} (h : s.Wf) (hact : ∀ x1 x2 x3, x1.Wf → (act x1 x2 x3).Wf) :
    (s.atEnds die pair act).Wf :=
  h.foldl (fun _ _ h1 => hact _ _ _ h1)
theorem State.Wf.courseEnablingDone {die pair r} (h : s.Wf) : (s.courseEnablingDone die pair r).Wf :=
  .ite (h.laneMaps.atEnds (fun _ _ _ h1 => h1.enablingEnd.setLink)) (h.laneMaps.atEnds (fun _ _ _ h1 =>
    h1.enablingEnd.setLink.setReg))
theorem execCourseEnablingDone_keepsWf {die pair r} : KeepsWf s (execCourseEnablingDone die pair r s) :=
  .next fun h => .ite h.courseEnablingDone h
theorem State.Wf.retrain {die pair} (h : s.Wf) : (s.retrain die pair).Wf :=
  h.atEnds (fun _ _ _ h1 => .ite h1.setLink h1)
theorem State.Wf.flitReplay {die pair flit} (h : s.Wf) : (s.flitReplay die pair flit).Wf :=
  .ite h.clearReplay.same.count h.retrain.setReg
theorem execCourseFlitReplay_keepsWf {die pair flit} : KeepsWf s (execCourseFlitReplay die pair flit s) :=
  .next fun h => .ite h.flitReplay h
theorem execCourseRetrain_keepsWf {die pair} : KeepsWf s (execCourseRetrain die pair s) :=
  .next fun h => .ite h.retrain h
theorem State.Wf.retrainDone {die pair r} (h : s.Wf) : (s.retrainDone die pair r).Wf :=
  .ite (h.laneMaps.clearReplay.atEnds (fun _ _ _ h1 => .ite h1.setLink.setReg h1)) (.courseFail
    (h.laneMaps.clearReplay.atEnds (fun _ _ _ h1 => .ite h1.putFld.setFlag.setLink.setReg h1)))
theorem execCourseRetrainDone_keepsWf {die pair r} : KeepsWf s (execCourseRetrainDone die pair r s) :=
  .next fun h => .ite h.retrainDone h
theorem execCoursePairDisable_keepsWf {die pair} : KeepsWf s (execCoursePairDisable die pair s) :=
  .next fun h => .ite h h.disableReq
theorem State.Wf.pairOff {die pair} (h : s.Wf) : (s.pairOff die pair).Wf :=
  h.disablingEnd.setModes.clearReplay.setLink
theorem execCourseDisablingDone_keepsWf {die pair} : KeepsWf s (execCourseDisablingDone die pair s) :=
  .next fun h => .ite h.pairOff.courseFail h
theorem State.Wf.setRefQual {die q} (h : s.Wf) : (s.setRefQual die q).Wf := h.same
theorem State.Wf.secBack {die} (h : s.Wf) : (s.secBack die).Wf := .ite h h.freeCount.setRefQual
theorem State.Wf.primBack {die} (h : s.Wf) : (s.primBack die).Wf := .ite h h.freeCount.setRefQual
theorem State.Wf.useRef {die v} (h : s.Wf) : (s.useRef die v).Wf := .ite h h.putFld.setFlag
theorem State.Wf.chooseRef {die} (h : s.Wf) : (s.chooseRef die).Wf := by
  unfold State.chooseRef
  split
  · exact .ite h h.secBack.useRef
  · exact .ite h h.primBack.useRef
  · exact .ite h.useRef h.useRef
theorem State.Wf.sourceStops {die secondary} (h : s.Wf) : (s.sourceStops die secondary).Wf := .ite h h.setRefQual
theorem execRefSourceLost_keepsWf {die secondary both} : KeepsWf s (execRefSourceLost die secondary s both) :=
  .next fun h => .ite (.ite h.sourceStops.sourceStops.useRef h.sourceStops.chooseRef) h
theorem execRefPrimaryReturn_keepsWf {die} : KeepsWf s (execRefPrimaryReturn die s) :=
  .next fun h => .ite h.setRefQual.useRef h
theorem State.Wf.cpRefWrite {die v primQ secQ} (h : s.Wf) : (s.cpRefWrite die v primQ secQ).Wf :=
  have k1 := State.Wf.ite h.putFld.putFld.setFlag h.putFld.putFld
  .chooseRef (.setRefQual (.ite k1.setFlag k1))
theorem execCpRefWrite_keepsWf {die value primQ secQ} : KeepsWf s (execCpRefWrite die value primQ secQ s) :=
  .next fun h => .ite h.cpRefWrite h
theorem State.Wf.refclkCheck {bad} (h : s.Wf) : (s.refclkCheck bad).Wf :=
  .ite (.alert (.ite h.setFlag.setFlag.setFlag.log h.setFlag.setFlag.setFlag)) h.setFlag
theorem execRefclkCheck_keepsWf {bad} : KeepsWf s (execRefclkCheck bad s) := .next fun h => .ite h.refclkCheck h
theorem State.Wf.refclkRelock (h : s.Wf) : s.refclkRelock.Wf := h.setFlag.setFlag
theorem execRefclkRelock_keepsWf : KeepsWf s (execRefclkRelock s) := .next fun h => .ite h h.refclkRelock
theorem State.Wf.tdStart (h : s.Wf) : s.tdStart.Wf := h.foldl (fun _ _ h1 => h1.setReg.setRefQual)
theorem execTdStart_keepsWf : KeepsWf s (execTdStart s) := .next fun h => h.tdStart
theorem State.Wf.quiescePair {p} (h : s.Wf) : (quiescePair s p).Wf := by
  unfold Machine.quiescePair
  extract_lets
  split
  · exact h
  · exact h.courseRefuse
  · exact h.putFld.setLink
theorem State.Wf.poisonLost {s0 : State} {line} (h : s0.Wf) : (poisonLost s0 line).Wf := h.freeBytes.putMem.markPoison
theorem State.Wf.dropAgent {die} (h : s.Wf) : (s.dropAgent die).Wf := .same (h.foldl (fun _ _ h1 => h1.poisonLost))
theorem State.Wf.dropIo {die} (h : s.Wf) : (s.dropIo die).Wf := h.same
theorem State.Wf.regsErased {a b} (h : s.Wf) : ({ s with regs := eraseRange s.regs a b } : State).Wf :=
  { h with regs := eraseRange_canonical _ _ _ _ h.regs }
theorem State.Wf.resetRegs {die} (h : s.Wf) : (s.resetRegs die).Wf := by
  unfold State.resetRegs
  dsimp only
  split
  · exact h.regsErased.regsErased
  · exact h.regsErased
theorem State.Wf.dropWork {die} (h : s.Wf) : (s.dropWork die).Wf := h.same
theorem State.Wf.loseOne {die reason} (h : s.Wf) : (s.loseOne die reason).Wf :=
  have k1 := h.putFld.putFld.setFlag.putFld
  have k2 := State.Wf.foldl (.dropWork (.alert (.ite k1.log.interrupt k1.log))) (fun _ _ h1 => h1.quiescePair)
  .evalAll (.same (.resetRegs (.ite k2.dropAgent.dropIo k2.dropAgent)))
theorem State.Wf.loseDie {die reason} (h : s.Wf) : (s.loseDie die reason).Wf :=
  .ite (h.loseOne.foldl (fun _ _ h1 => .ite h1.loseOne h1)) h.loseOne
theorem execDieReset_keepsWf {die} : KeepsWf s (execDieReset die s) := .next fun h => .ite h.loseDie h
theorem State.Wf.answerLost {die fid} (h : s.Wf) : (answerLost die s fid).Wf := by
  unfold Machine.answerLost
  extract_lets
  split
  · exact h.foldl (fun _ _ h1 => h1.answerSent)
  · exact .ite (.raiseFlight (h.foldl (fun _ _ h1 => h1.answerSent))) (h.foldl (fun _ _ h1 => h1.answerSent))
theorem State.Wf.answerWait {die x} (h : s.Wf) : (answerWait die s x).Wf := .ite h.same h
theorem State.Wf.clearRoutes {die} (h : s.Wf) : (s.clearRoutes die).Wf :=
  h.foldl (fun _ _ h1 => h1.foldl (fun _ _ h2 => h2.foldl (fun _ _ h3 => .ite h3.setFlag h3)))
theorem State.Wf.lossAnswer {l} (h : s.Wf) : (s.lossAnswer l).Wf :=
  .foldl (.clearRoutes (.same (.foldl (h.foldl (fun _ _ h1 => h1.answerLost)) (fun _ _ h1 => h1.answerWait)))) (fun _ _
    h1 => .ite h1.pairOff h1)
theorem execDieLossAnswer_keepsWf {die} : KeepsWf s (execDieLossAnswer die s) := by
  refine .next fun h => ?_
  split
  · exact h.lossAnswer
  · exact h
theorem execDieReadmit_keepsWf {die} : KeepsWf s (execDieReadmit die s) := .next fun h => .ite h.putFld h
theorem State.Wf.setTimer {hd} (h : s.Wf) : (s.setTimer hd).Wf := by
  unfold State.setTimer
  split
  · exact h
  · exact h.freeCount.setReg.setReg

end Sys2Proof.Machine
end

section
/-! SUPPORT. O5: the functions of power and of the module's cycle keep the canonical form. -/

namespace Sys2Proof.Machine

set_option Elab.async false

variable {s t : State} {r q : Run}

theorem State.Wf.unitStops {f} (h : s.Wf) : (s.unitStops f).Wf := by
  unfold State.unitStops
  refine .ite h ?_
  extract_lets
  split
  · exact .ite h.unitFaultSet.maBusy.setFlag h.unitFaultSet.veBusy
  · exact h.unitFaultSet.vdBusy
  · exact h.unitFaultSet
theorem State.Wf.stopAll (h : s.Wf) : s.stopAll.Wf := by
  unfold State.stopAll
  exact .foldl (h.same.foldl (fun _ _ h1 => h1.unitStops)) (fun _ _ h1 => by (split; exacts [h1.complete, h1]))
theorem State.Wf.cold (h : s.Wf) : s.cold.Wf :=
  { resetIsWellFormed with flash := h.flash, journal := h.journal }
theorem State.Wf.powerOn (h : s.Wf) : s.powerOn.Wf := h.cold.same.setFlag
theorem State.Wf.flashSet {m c} (h : s.Wf) (k : Canonical flashErased m) :
    ({ s with sm := { s.sm with imgFlash := m, counter := c } } : State).Wf :=
  { h with flash := k }
theorem State.Wf.cutWrites (h : s.Wf) : s.cutWrites.Wf := by
  unfold State.cutWrites
  extract_lets u
  have hu : u.freeCount.2.Wf := h.endAppend.endCompaction.cutErase.freeCount
  refine hu.flashSet ?_
  split
  · exact eraseRange_canonical _ _ _ _ hu.flash
  · exact hu.flash
theorem State.Wf.railsOff (h : s.Wf) : s.railsOff.Wf :=
  .foldl (h.cutWrites.cold.same.foldl (fun _ _ h1 => h1.setFlag)) (fun _ _ h1 => h1.putFld)
theorem State.Wf.causeRecord {cause} (h : s.Wf) : (s.causeRecord cause).Wf :=
  .ite (.ite h.endAppend.endCompaction.appendRecord.same h.endAppend.endCompaction.same) h.endAppend.endCompaction
theorem State.Wf.safeSample (h : s.Wf) : s.safeSample.Wf := .ite h.causeRecord h
theorem State.Wf.abandonChanges (h : s.Wf) : s.abandonChanges.Wf := .same (h.foldl (fun _ _ h1 => h1.setFlag))
theorem State.Wf.enterSafe {cause} (h : s.Wf) : (s.enterSafe cause).Wf :=
  h.stopAll.abandonChanges.setFlag.putFld.driveAlert.same
theorem State.Wf.safeState {cause} (h : s.Wf) : (s.safeState cause).Wf := .ite h.enterSafe.causeRecord h
theorem execDieClockLost_keepsWf {die} : KeepsWf s (execDieClockLost die s) :=
  .next fun h => .ite (.ite h.enterSafe h) (.ite h.loseDie h)
theorem State.Wf.setFloor {b} (h : s.Wf) : (s.setFloor b).Wf := h.same.setFlag
theorem State.Wf.binStart (h : s.Wf) : s.binStart.Wf := h.putFld.putFld.same.setFloor.same.evalAll
theorem execLehrBinStart_keepsWf : KeepsWf s (execLehrBinStart s) :=
  .next fun h => .ite h.binStart (.ite h.railsOff h)
theorem State.Wf.lowerOnce (h : s.Wf) : s.lowerOnce.Wf := by
  unfold State.lowerOnce
  split
  · exact h
  · exact h.same
theorem State.Wf.lowerSteps {n} (h : s.Wf) : (s.lowerSteps n).Wf := by
  induction n generalizing s with
  | zero => exact h
  | succ n ih => exact ih h.lowerOnce
theorem State.Wf.raiseOnce (h : s.Wf) : s.raiseOnce.Wf := by
  unfold State.raiseOnce
  split
  · exact h
  · exact h.same
theorem State.Wf.lehrControl {p} (h : s.Wf) : (s.lehrControl p).Wf :=
  have k1 := State.Wf.ite h.lowerSteps h
  have k2 := State.Wf.ite k1.setFloor k1
  .ite k2.raiseOnce k2
theorem State.Wf.voltSample {v} (h : s.Wf) : (s.voltSample v).Wf := h.putFld.same
theorem State.Wf.powerSample {r} (h : s.Wf) : (s.powerSample r).Wf :=
  .ite h.voltSample.same.safeState (.ite h.voltSample.same.safeState (.ite h.voltSample.same.safeState
    h.voltSample.same.same.lehrControl.evalAll))
theorem execPowerSample_keepsWf {r} : KeepsWf s (execPowerSample r s) :=
  .next fun h => .ite h.powerSample (.ite h.voltSample.safeSample (.ite h.powerOn h))
theorem execTdAliveLost_keepsWf : KeepsWf s (execTdAliveLost s) := .next fun h => .ite h.safeState h
theorem State.Wf.thermalDie {r d} (h : s.Wf) : (thermalDie r s d).Wf :=
  .ite h.same (.ite h.same (.ite (.ite h.same h.same) h.same))
theorem State.Wf.thermalHost {r d} (h : s.Wf) : (thermalHost r s d).Wf := .ite h.same (.ite h.same h)
theorem State.Wf.thermalSample {r} (h : s.Wf) : (s.thermalSample r).Wf :=
  have k1 := State.Wf.foldl (h.foldl (fun _ _ h1 => .ite h1.putFld h1)) (fun _ _ h1 => .ite h1.putFld h1)
  .ite k1.putFld.putFld.safeState (.evalAll (.foldl (k1.putFld.putFld.foldl (fun _ _ h1 => h1.thermalDie)) (fun _ _ h1
    => h1.thermalHost)))
theorem execThermalSample_keepsWf {r} : KeepsWf s (execThermalSample r s) := .next fun h => .ite h.thermalSample h
theorem State.Wf.dropGroup {g} (h : s.Wf) : (s.dropGroup g).Wf := h.same
theorem State.Wf.grpCtrlWrite {g v} (h : s.Wf) : (s.grpCtrlWrite g v).Wf := by
  unfold State.grpCtrlWrite
  refine .ite ?_ h.setReg.dropGroup.evalAll
  extract_lets
  split
  · exact h.setReg.dropGroup.evalAll
  · exact h.setReg.evalAll
theorem execGroupEntryValidate_keepsWf {group value} : KeepsWf s (execGroupEntryValidate group value s) :=
  .next fun h => .ite h.grpCtrlWrite h
theorem State.Wf.sendGroup {g m seq b} (h : s.Wf) : (s.sendGroup g m seq b).Wf := by
  unfold State.sendGroup
  split
  · exact h.sendRouted
  · exact h
theorem State.Wf.capoSend {g} (h : s.Wf) : (s.capoSend g).Wf :=
  .ite (h.same.foldl (fun _ _ h1 => h1.sendGroup)) h.same
theorem execCapoSend_keepsWf {group} : KeepsWf s (execCapoSend group s) := .next fun h => .ite h.capoSend h
theorem State.Wf.capoReceive {port f} (h : s.Wf) : (s.capoReceive port f).Wf := .ite h.same.evalAll h
theorem execCapo_keepsWf {port f} : KeepsWf s (execCapo port f s) :=
  .next fun h => h.receive (fun _ h1 => h1.capoReceive)
theorem execCapoEntryExpiry_keepsWf {group sender} : KeepsWf s (execCapoEntryExpiry group sender s) :=
  .next fun h => .ite h.same.evalAll h
theorem State.Wf.shiftOffer {g} (h : s.Wf) : (s.shiftOffer g).Wf := .ite h (.ite h.same.sendGroup h.same)
theorem execShiftOffer_keepsWf {group} : KeepsWf s (execShiftOffer group s) := .next fun h => .ite h.shiftOffer h
theorem State.Wf.shiftReceive {port f} (h : s.Wf) : (s.shiftReceive port f).Wf := .ite h.same h
theorem execShift_keepsWf {port f} : KeepsWf s (execShift port f s) :=
  .next fun h => h.receive (fun _ h1 => h1.shiftReceive)
theorem execShiftLeaseExpiry_keepsWf {group sender seq} : KeepsWf s (execShiftLeaseExpiry group sender seq s) :=
  .next fun h => .ite (.ite h.same h.same) h
theorem State.Wf.loadRoute {x d} (h : s.Wf) : (s.loadRoute x d).Wf := .ite h h.setReg.setReg
theorem State.Wf.pairTrain {tests die pair} (h : s.Wf) : (s.pairTrain tests die pair).Wf := by
  unfold State.pairTrain
  extract_lets
  split
  · exact .ite (.courseEnablingDone (h.atEnds (fun _ _ _ h1 => h1.coursePairEnable))) (h.atEnds (fun _ _ _ h1 =>
    h1.coursePairEnable))
  · exact .atEnds (h.atEnds (fun _ _ _ h1 => h1.coursePairEnable)) (fun _ _ _ h1 => .ite h1.courseRefuse h1)
theorem State.Wf.startPairs {tests dies} (h : s.Wf) : (s.startPairs tests dies).Wf :=
  h.foldl (fun _ _ h1 => .ite h1 h1.pairTrain)
theorem State.Wf.domainEnable {die} (h : s.Wf) : (s.domainEnable die).Wf := .ite h.enableReq.enablingEnd h.enableReq
theorem execDomainEnable_keepsWf {die} : KeepsWf s (execDomainEnable die s) := .next fun h => .ite h.domainEnable h
theorem State.Wf.loadDie {die} (h : s.Wf) : (s.loadDie die).Wf := by
  unfold State.loadDie
  refine .ite ?_ h
  extract_lets
  split
  · exact .putFld (h.foldl (fun _ _ h1 => h1.putFld))
  · exact h.foldl (fun _ _ h1 => h1.putFld)
theorem State.Wf.loadMaps {die} (h : s.Wf) : (s.loadMaps die).Wf := by
  unfold State.loadMaps
  exact h.foldl (fun _ _ h1 => by (split; exacts [h1.setReg, h1]))
theorem State.Wf.dieRuns {die} (h : s.Wf) : (s.dieRuns die).Wf :=
  .ite (.evalDie (h.putFld.putFld.memErased.poisonErased.loadDie.putFld.same.foldl fun _ _ h1 => h1.loadRoute))
    h.putFld.putFld
theorem State.Wf.restoreRoutes {die} (h : s.Wf) : (s.restoreRoutes die).Wf :=
  h.foldl (fun _ _ h1 => h1.foldl (fun _ _ h2 => h2.loadRoute))
theorem State.Wf.domainUp {die tests} (h : s.Wf) : (s.domainUp die tests).Wf :=
  .evalAll (.restoreRoutes (.startPairs (.loadMaps (.ite h.enablingEnd.dieRuns.setTimer h.enablingEnd.dieRuns))))
theorem execDomainEnablingDone_keepsWf {die tests} : KeepsWf s (execDomainEnablingDone die s tests) :=
  .next fun h => .ite h.domainUp h
theorem State.Wf.domainWork {die} (h : s.Wf) : (s.domainWork die).Wf :=
  have k1 := h.foldl (fun _ _ h1 => h1.ringDisable)
  have k2 := State.Wf.ite (.foldl (k1.foldl (fun _ _ h1 => h1.epDisable)) (fun _ _ h1 => h1.moverDisable)) k1
  have k3 := k2.foldl (fun _ _ h1 => h1.disableReq.endSync)
  .ite (.ite k3.cxlLoss k3) k2
theorem State.Wf.domainDisable {die} (h : s.Wf) : (s.domainDisable die).Wf :=
  .ite h.disableReq.domainWork h.disableReq
theorem State.Wf.domainDisableAll {die} (h : s.Wf) : (s.domainDisableAll die).Wf :=
  .domainDisable (h.foldl (fun _ _ h1 => h1.domainDisable))
theorem execDomainDisable_keepsWf {die} : KeepsWf s (execDomainDisable die s) :=
  .next fun h => .ite h.domainDisableAll h
theorem State.Wf.flushAgent {die} (h : s.Wf) : (s.flushAgent die).Wf := .same (h.foldl (fun _ _ h1 => h1.invalidate))
theorem State.Wf.attachedGone {die} (h : s.Wf) : (s.attachedGone die).Wf := .ite h.domainWork h
theorem State.Wf.domainOff {die} (h : s.Wf) : (s.domainOff die).Wf :=
  have k1 := h.flushAgent.clearRoutes.foldl (fun _ _ h1 => .ite h1 h1.disableReq.pairOff.courseFail)
  .evalAll (.attachedGone (.disablingEnd (.resetRegs (.ite k1.same.putFld.dropIo k1.same.putFld))))
theorem execDomainDisablingDone_keepsWf {die} : KeepsWf s (execDomainDisablingDone die s) :=
  .next fun h => .ite h.domainOff h
theorem State.Wf.beginEnabling {x} (h : s.Wf) : (s.beginEnabling x).Wf := by
  unfold State.beginEnabling
  split
  · exact h.enableReq
  · exact h.epEnable
  · exact h.enableReq
  · exact h.flowEnable
  · exact h.coursePairEnable
  · exact h.domainEnable
theorem State.Wf.compareTimers (h : s.Wf) : s.compareTimers.Wf := h.same
theorem State.Wf.cycle (h : s.Wf) : s.cycle.Wf :=
  h.tick.compareTimers.releaseGuards.foldl (fun _ _ h1 => h1.beginEnabling)

end Sys2Proof.Machine
end

section
/-! SUPPORT. O5: the functions of the module's start, of attestation and of the mailbox keep the canonical form. -/

namespace Sys2Proof.Machine

set_option Elab.async false

variable {s t : State} {r q : Run}

theorem State.Wf.haltStart {reason} (h : s.Wf) : (s.haltStart reason).Wf := h.putFld.putFld.same.alert
theorem State.Wf.startJournal {r gen} (h : s.Wf) : (s.startJournal r gen).Wf :=
  .ite h.mount.putFld.same.maybeCompact h.mount.putFld.jrAppend
theorem State.Wf.mailboxCleared {b sm} (h : s.Wf) (flash : sm.imgFlash = s.sm.imgFlash)
    (journal : sm.journal = s.sm.journal) : ({ s with mbx := [], mbxBad := b, sm := sm } : State).Wf :=
  { h with mbx := canonical_nil _, flash := flash ▸ h.flash, journal := journal ▸ h.journal }
theorem State.Wf.startFirmware {slot keys} (h : s.Wf) : (s.startFirmware slot keys).Wf := by
  unfold State.startFirmware
  extract_lets b u v w x
  have hx : x.Wf := by
    have hw : w.Wf := h.putFld.putFld.setReg.setReg.setReg.setFlag
    dsimp only [x]
    split
    · exact hw.setReg
    · exact hw
  exact hx.mailboxCleared rfl rfl
theorem State.Wf.failDie {die} (h : s.Wf) : (failDie s die).Wf :=
  .alert (.ite (h.putFld.putFld.log.setFlag.foldl (fun _ _ h1 => h1.putFld.putFld)) h.putFld.putFld.log.setFlag)
theorem State.Wf.startTable {home} (h : s.Wf) : (s.startTable home).Wf :=
  have k : State.Wf (if _ then _ else _) := .ite h.setReg.setReg h.setReg.setReg
  .ite k.poisonErased.putMem k.poisonErased.memErased
theorem State.Wf.holdTable {home} (h : s.Wf) : (s.holdTable home).Wf := h.foldl (fun _ _ h1 => h1.setCode)
theorem State.Wf.failRunning {die} (h : s.Wf) : (failRunning s die).Wf :=
  .ite (.failDie (h.foldl (fun _ _ h1 => .resetRegs (h1.foldl (fun _ _ h2 => .ite h2 h2.putFld.setLink.setModes))))) h
theorem State.Wf.zeroStack {die} (h : s.Wf) : (s.zeroStack die).Wf := h.memErased.poisonErased
theorem State.Wf.bringUp {die} (h : s.Wf) : (s.bringUp die).Wf := .loadMaps (.dieRuns (.ite h.zeroStack h))
theorem State.Wf.startDiesUp {e} (h : s.Wf) : (s.startDiesUp e).Wf :=
  .foldl (.foldl (.foldl (.startPairs (.foldl (h.tdStart.putFld.foldl (fun _ _ h1 => h1.failDie)) (fun _ _ h1 =>
    h1.bringUp))) (fun _ _ h1 => h1.failRunning)) (fun _ _ h1 => h1.startTable)) (fun _ _ h1 => .ite h1 h1.holdTable)
theorem State.Wf.readmitted {die} (h : s.Wf) : (s.readmitted die).Wf :=
  have k1 := State.Wf.ite h.bringUp.setTimer h.bringUp
  .ite h.bringUp (.ite k1.startTable k1.startTable.holdTable)
theorem execDieReadmitDone_keepsWf {die ok} : KeepsWf s (execDieReadmitDone die ok s) :=
  .next fun h => .ite (.evalAll (.ite h.readmitted h.putFld.putFld)) h
theorem State.Wf.writeDesc (h : s.Wf) : s.writeDesc.Wf := h.foldl (fun _ _ h1 => h1.setReg)
theorem State.Wf.hostBoot {slot} (h : s.Wf) : (s.hostBoot slot).Wf := by
  unfold State.hostBoot
  refine .ite h.setFlag.alert ?_
  extract_lets
  split
  · exact h
  · exact h.write.write.same
theorem State.Wf.startRunning (h : s.Wf) : s.startRunning.Wf := h.putFld.setReg.same.autoCommit
/-- The kernel compares branches by evaluating what they match on, so those functions are held opaque. -/
theorem State.Wf.moduleStart {e} (h : s.Wf) : (s.moduleStart e).Wf := by
  unfold State.moduleStart
  obtain ⟨identitySeed, hseed⟩ : ∃ f, f = State.identitySeed := ⟨_, rfl⟩
  obtain ⟨chooseSlot, hslot⟩ : ∃ f, f = State.chooseSlot := ⟨_, rfl⟩
  rw [← hseed, ← hslot]
  extract_lets u
  have hu : u.Wf := h.setFlag
  refine .ite hu.haltStart ?_
  split
  · exact hu.haltStart
  extract_lets v w
  have hv : v.Wf := hu.startJournal
  have hw : w.Wf := hv.putFld
  split
  · exact hv.haltStart
  split
  · exact hw.haltStart
  · exact .ite hw.freeBytes.haltStart hw.freeBytes.startFirmware.startDiesUp.writeDesc.hostBoot.startRunning.evalAll
theorem execModuleStart_keepsWf {env} : KeepsWf s (execModuleStart env s) := .next fun h => .ite h.moduleStart h
theorem execSmRbCommit_keepsWf : KeepsWf s (execSmRbCommit s) := .next fun h => .ite h.beginCommit h
theorem execCounterWriteDone_keepsWf : KeepsWf s (execCounterWriteDone s) := by
  refine .next fun h => ?_
  split
  · exact h.same.setReg.setFlag
  · exact h
theorem State.Wf.imgErased {lo hi f} {m : List (Nat × Byte)} (h : s.Wf) (k : Canonical flashErased m) :
    ({ s with sm := { s.sm with imgFlash := eraseRange m lo hi, fwup := f } } : State).Wf :=
  { h with flash := eraseRange_canonical _ _ _ _ k }
theorem State.Wf.fwupGo (h : s.Wf) : s.fwupGo.Wf :=
  h.setFlag.putFld.imgErased h.setFlag.putFld.flash
theorem execFwupGo_keepsWf : KeepsWf s (execFwupGo s) := .next fun h => .ite h.fwupGo h
theorem State.Wf.imgStored {b bs} {m : List (Nat × Byte)} (h : s.Wf) (k : Canonical flashErased m) :
    ({ s with sm := { s.sm with imgFlash := storeRun flashErased m b bs } } : State).Wf :=
  { h with flash := storeRun_canonical _ _ _ _ k }
theorem State.Wf.fwupDone {u eraseOk writeOk} (h : s.Wf) : (s.fwupDone u eraseOk writeOk).Wf :=
  have full := h.imgStored (eraseRange_canonical _ _ _ _ h.flash)
  have bare := h.imgErased full.flash
  .putFld (.setFlag (.same (.snd_ite (h.imgErased h.flash) (.snd_ite bare (.snd_ite full bare)))))
theorem execFwupDone_keepsWf {eraseOk writeOk} : KeepsWf s (execFwupDone eraseOk writeOk s) := by
  refine .next fun h => ?_
  split
  · exact h.fwupDone
  · exact h
theorem State.Wf.aclWrite {v} (h : s.Wf) : (s.aclWrite v).Wf := .ite h h.setReg
theorem execSetupAclWrite_keepsWf {req value} : KeepsWf s (execSetupAclWrite req value s) := by
  refine .next fun h => ?_
  split
  · exact h.refuseSetup
  · exact h.aclWrite
theorem State.Wf.spdm {p busy act} (h : s.Wf) (hact : ∀ x1, x1.Wf → (act x1).Wf) : (s.spdm p busy act).Wf :=
  .ite h (.ite h.emit (.ite h.emit (hact _ h)))
theorem State.Wf.spdmSend {p d} (h : s.Wf) : (s.spdmSend p d).Wf := by
  unfold State.spdmSend
  split
  · exact h.foldl (fun _ _ h1 => h1.emit)
  · exact h.emit
theorem State.Wf.spdmVersion {p} (h : s.Wf) : (s.spdmVersion p).Wf := h.same.spdmSend
theorem execGetVersion_keepsWf {path busy} : KeepsWf s (execGetVersion path s busy) :=
  .next fun h => h.spdm (fun _ h1 => h1.spdmVersion)
theorem execGetCapabilities_keepsWf {path busy} : KeepsWf s (execGetCapabilities path s busy) :=
  .next fun h => h.spdm (fun _ h1 => .ite h1.spdmSend h1.emit)
theorem State.Wf.negotiate {p extAsym} (h : s.Wf) : (s.negotiate p extAsym).Wf :=
  .ite h.emit (.ite h.emit h.same.spdmSend)
theorem execNegotiateAlgorithms_keepsWf {path extAsym busy} :
    KeepsWf s (execNegotiateAlgorithms path extAsym s busy) :=
  .next fun h => h.spdm (fun _ h1 => h1.negotiate)
theorem State.Wf.certificate {p slot offset length} (h : s.Wf) : (s.certificate p slot offset length).Wf :=
  .ite h.emit (.ite h.emit h.spdmSend)
theorem execGetCertificate_keepsWf {path slot offset length busy} :
    KeepsWf s (execGetCertificate path slot offset length s busy) :=
  .next fun h => h.spdm (fun _ h1 => h1.certificate)
theorem State.Wf.spdmSigned {p body} (h : s.Wf) : (s.spdmSigned p body).Wf := h.freeBytes.spdmSend
theorem State.Wf.challenge {p slot nonce} (h : s.Wf) : (s.challenge p slot nonce).Wf :=
  .ite h.emit (.ite h.emit h.freeBytes.spdmSigned)
theorem execChallenge_keepsWf {path slot nonce busy} : KeepsWf s (execChallenge path slot nonce s busy) :=
  .next fun h => h.spdm (fun _ h1 => h1.challenge)
theorem State.Wf.measurements {p ix nonce} (h : s.Wf) : (s.measurements p ix nonce).Wf :=
  .ite h.emit (.ite h.emit h.freeBytes.spdmSigned)
theorem execGetMeasurements_keepsWf {path index nonce busy} :
    KeepsWf s (execGetMeasurements path index nonce s busy) :=
  .next fun h => h.spdm (fun _ h1 => h1.measurements)
theorem State.Wf.mctpControl {d} (h : s.Wf) : (s.mctpControl d).Wf :=
  .ite (.ite h.emit h.same.emit) (.ite h.emit (.ite h.emit (.ite h.emit h.emit)))
theorem execMctpControlMessage_keepsWf {data} : KeepsWf s (execMctpControlMessage data s) :=
  .next fun h => .ite h.mctpControl h
theorem State.Wf.mbxStored {k v b} (h : s.Wf) :
    ({ s with mbx := store mbxDefault s.mbx k v, mbxBad := b } : State).Wf :=
  { h with mbx := store_canonical _ _ _ _ h.mbx }
theorem State.Wf.mbStore {a} (h : s.Wf) : (s.mbStore a).Wf := by
  unfold State.mbStore
  split
  · exact h
  · exact h.mbxStored
  · exact h.mbxStored
  · exact h.mbxStored
theorem State.Wf.mbLoad {w} (h : s.Wf) : (s.mbLoad w).1.Wf := .fst_ite h.setFlag h
theorem State.Wf.mbxBusy (h : s.Wf) : s.mbxBusy.Wf := h.setFlag
theorem State.Wf.mbCollide {w} (h : s.Wf) : (s.mbCollide w).Wf := h.setFlag.setReg.same.mbxBusy
theorem State.Wf.mbExt {a} (h : s.Wf) : (s.mbExt a).1.Wf := by
  unfold State.mbExt
  split
  · exact h.mbLoad
  · exact h.mbStore
theorem State.Wf.mbAnswer {req v bad} (h : s.Wf) : (s.mbAnswer req v bad).Wf := by
  unfold State.mbAnswer
  split
  · exact h.emit
  · exact h.emit
  · exact h.emit
theorem State.Wf.mbInt {req a} (h : s.Wf) : (s.mbInt req a).Wf := by
  unfold State.mbInt
  split
  · exact h.mbLoad.mbAnswer
  · exact h.mbStore
theorem State.Wf.mbBoth {req i e} (h : s.Wf) : (s.mbBoth req i e).1.Wf := by
  unfold State.mbBoth
  split
  · exact h.mbExt.mbInt
  · split
    · exact h.mbExt.mbInt
    · exact h.mbStore.freeWord.mbCollide
    · exact h.mbStore.freeWord.mbCollide.mbAnswer
    · exact h.mbStore.mbStore.mbCollide
theorem State.Wf.i3cBegin {wrote} (h : s.Wf) : (s.i3cBegin wrote).Wf := .same (.setFlag (.ite h.setFlag h))
theorem State.Wf.i3cIgnore {first reads} (h : s.Wf) : (s.i3cIgnore first reads).Wf :=
  .ite h.i3cBegin.log h.i3cBegin.log.emit
theorem State.Wf.mbWalk {intl k es} (h : s.Wf) : (s.mbWalk intl k es).1.Wf := by
  induction es generalizing s k with
  | nil => exact h
  | cons e es ih =>
    unfold State.mbWalk
    dsimp only
    split
    · exact ih (.fst_ite h.mbBoth h.mbExt)
    · exact ih h.mbExt
theorem State.Wf.mbTransfer {k code index data intl} (h : s.Wf) : (s.mbTransfer k code index data intl).Wf :=
  .ite h (.ite h.i3cIgnore h.i3cBegin.mbWalk)
theorem execMailboxWrite_keepsWf {index data intl} : KeepsWf s (execMailboxWrite index data intl s) :=
  .next fun h => h.mbTransfer
theorem execMailboxSet_keepsWf {index data intl} : KeepsWf s (execMailboxSet index data intl s) :=
  .next fun h => h.mbTransfer
theorem execMailboxClear_keepsWf {index data intl} : KeepsWf s (execMailboxClear index data intl s) :=
  .next fun h => h.mbTransfer
theorem State.Wf.mbReadTransfer {index count intl bad} (h : s.Wf) : (s.mbReadTransfer index count intl bad).Wf :=
  .ite h (.ite h.i3cIgnore h.i3cBegin.same.mbWalk.emit)
theorem execMailboxRead_keepsWf {index count intl bad} : KeepsWf s (execMailboxRead index count intl bad s) :=
  .next fun h => h.mbReadTransfer
theorem State.Wf.mbInternal {req k word value ext} (h : s.Wf) : (s.mbInternal req k word value ext).Wf := by
  unfold State.mbInternal
  refine .ite h ?_
  split
  · exact h.mbStore
  · exact .ite h.mbBoth h.mbBoth.emit
theorem execMailboxInternalWrite_keepsWf {req word value ext} :
    KeepsWf s (execMailboxInternalWrite req word value s ext) :=
  .next fun h => h.mbInternal
theorem execMailboxSetAliasWrite_keepsWf {req word value ext} :
    KeepsWf s (execMailboxSetAliasWrite req word value s ext) :=
  .next fun h => h.mbInternal
theorem execMailboxClearAliasWrite_keepsWf {req word value ext} :
    KeepsWf s (execMailboxClearAliasWrite req word value s ext) :=
  .next fun h => h.mbInternal
theorem State.Wf.grantClaim (h : s.Wf) : s.grantClaim.Wf := .ite h.setFlag.mbxBusy h
theorem State.Wf.claimWrite {claim} (h : s.Wf) : (s.claimWrite claim).Wf :=
  .ite h.setFlag.grantClaim h.setFlag.setFlag.mbxBusy
theorem execMbClaim_keepsWf {claim} : KeepsWf s (execMbClaim claim s) := .next fun h => .ite h.claimWrite h
theorem State.Wf.i3cEnd (h : s.Wf) : s.i3cEnd.Wf := h.same.setFlag.grantClaim
theorem State.Wf.i3cStop (h : s.Wf) : s.i3cStop.Wf := by
  unfold State.i3cStop
  split
  · exact h
  · exact .i3cEnd (.ite (.ite h.setFlag.interrupt h.setFlag) h)
theorem execI3cTransferEnd_keepsWf : KeepsWf s (execI3cTransferEnd s) := .next fun h => .ite h.i3cStop h
theorem execClaimTimeout_keepsWf : KeepsWf s (execClaimTimeout s) := .next fun h => .ite h.claimWrite.setFlag h
theorem execMbxBusyPulseEnd_keepsWf : KeepsWf s (execMbxBusyPulseEnd s) := .next fun h => h.same.mbxBusy

end Sys2Proof.Machine
end

section
/-! SUPPORT. O5: the functions of the pins, of a descriptor's start and of the set-up registers keep the canonical form. -/

namespace Sys2Proof.Machine

set_option Elab.async false

variable {s t : State} {r q : Run}

theorem State.Wf.pwrEnHigh {volt} (h : s.Wf) : (s.pwrEnHigh volt).Wf :=
  .ite h.setFlag (.ite h (.ite h.powerOn h.setFlag.same))
theorem execPwrEnHigh_keepsWf {volt} : KeepsWf s (execPwrEnHigh volt s) := .next fun h => h.pwrEnHigh
theorem State.Wf.shutSample {v} (h : s.Wf) : (s.shutSample v).Wf :=
  .ite h.voltSample.safeSample (.ite h.voltSample.safeState h.voltSample)
theorem State.Wf.pwrEnLow {volts} (h : s.Wf) : (s.pwrEnLow volts).Wf :=
  .same (.setFlag (.setFlag (.ite (.railsOff (h.stopAll.foldl (fun _ _ h1 => h1.shutSample))) h)))
theorem execPwrEnLow_keepsWf {volts} : KeepsWf s (execPwrEnLow s volts) := .next fun h => h.pwrEnLow
theorem State.Wf.throttleRespond {rsp level} (h : s.Wf) : (s.throttleRespond rsp level).Wf := h.setFlag.setFlag.same
theorem State.Wf.memTaken {j p} (h : s.Wf) (k : t.Wf) :
    ({ s with mem := t.mem, poison := t.poison, jtag := j, pins := p } : State).Wf :=
  { h with mem := k.mem, poison := k.poison }
theorem State.Wf.modReset (h : s.Wf) : s.modReset.Wf :=
  have k := (h.stopAll.cutWrites.cold.memTaken h.stopAll.cutWrites).same.setReg.setFlag.setFlag
  .ite k.throttleRespond k
theorem State.Wf.resetRespond {active} (h : s.Wf) : (s.resetRespond active).Wf := .same (.ite h.modReset h)
theorem State.Wf.resetChange {active} (h : s.Wf) : (s.resetChange active).Wf :=
  .ite h.setFlag.same h.setFlag.resetRespond
theorem State.Wf.resetEnd (h : s.Wf) : s.resetEnd.Wf := .ite h.resetRespond h.same
theorem execModResetAssert_keepsWf : KeepsWf s (execModResetAssert s) := .next fun h => .ite h.resetChange h
theorem execModResetRelease_keepsWf : KeepsWf s (execModResetRelease s) := .next fun h => .ite h.resetChange h
theorem execModResetHeld_keepsWf : KeepsWf s (execModResetHeld s) := .next fun h => .ite h.alert h
theorem State.Wf.throttleChange {active} (h : s.Wf) : (s.throttleChange active).Wf :=
  .ite h.setFlag.same h.setFlag.throttleRespond
theorem execThrottleNChange_keepsWf {active} : KeepsWf s (execThrottleNChange active s) :=
  .next fun h => .ite h.throttleChange h
theorem State.Wf.throttleEnd (h : s.Wf) : s.throttleEnd.Wf := .ite h.same h.throttleRespond
theorem execThrottleIntervalEnd_keepsWf {reset} : KeepsWf s (execThrottleIntervalEnd s reset) :=
  .next fun h => .ite (.ite h.resetEnd h) (.ite h.throttleEnd h)
theorem execThrottleStuck_keepsWf : KeepsWf s (execThrottleStuck s) := .next fun h => .ite h.alert h
theorem State.Wf.alertClear {v} (h : s.Wf) : (s.alertClear v).Wf := h.setReg.driveAlert
theorem execPwAlertClear_keepsWf {value} : KeepsWf s (execPwAlertClear value s) := .next fun h => .ite h.alertClear h
theorem execReadStatusBlock_keepsWf : KeepsWf s (execReadStatusBlock s) := .next fun h => .ite h.i3cBegin.emit h
theorem execClearAlerts_keepsWf {value bytes} : KeepsWf s (execClearAlerts value s bytes) :=
  .next fun h => .ite (.ite h.i3cBegin.alertClear h.i3cBegin) h
theorem execI3cTransferTimeout_keepsWf : KeepsWf s (execI3cTransferTimeout s) := .next fun h => .ite h.i3cEnd h
theorem State.Wf.i3cUnknown {first reads} (h : s.Wf) : (s.i3cUnknown first reads).Wf := by
  unfold State.i3cUnknown
  split
  · exact h.i3cIgnore
  · exact h.i3cBegin.emit
theorem execI3cUnknownCommand_keepsWf {first reads} : KeepsWf s (execI3cUnknownCommand first reads s) :=
  .next fun h => .ite h.i3cUnknown h
theorem State.Wf.setAddr {mctp a} (h : s.Wf) : (s.setAddr mctp a).Wf := h.same
theorem State.Wf.ccc {mctp act} (hact : ∀ x1, x1.Wf → (act x1).Wf) (h : s.Wf) : (ccc mctp act s).Wf :=
  .ite (hact _ h) h.emit
theorem execSetdasa_keepsWf {mctp addr dest} : KeepsWf s (execSetdasa mctp addr s dest) :=
  .next fun h => h.ccc (fun _ h1 => .ite h1.emit h1.setAddr.emit)
theorem execEntdaa_keepsWf {mctp addr} : KeepsWf s (execEntdaa mctp addr s) :=
  .next fun h => h.ccc (fun _ h1 => .ite h1.emit h1.emit.setAddr.emit)
theorem execRstdaa_keepsWf : KeepsWf s (execRstdaa s) := .next fun h => h.ccc (fun _ h1 => h1.same.emit)
theorem execGetpid_keepsWf {mctp} : KeepsWf s (execGetpid mctp s) := .next fun h => h.ccc (fun _ h1 => h1.emit)
theorem execGetbcr_keepsWf {mctp} : KeepsWf s (execGetbcr mctp s) := .next fun h => h.ccc (fun _ h1 => h1.emit)
theorem execGetdcr_keepsWf {mctp} : KeepsWf s (execGetdcr mctp s) := .next fun h => h.ccc (fun _ h1 => h1.emit)
theorem execGetmxds_keepsWf {mctp} : KeepsWf s (execGetmxds mctp s) := .next fun h => h.ccc (fun _ h1 => h1.emit)
theorem State.Wf.events {on e target} (h : s.Wf) : (s.events on e target).Wf := .emit (.ite h.same h)
theorem execEnec_keepsWf {events target} : KeepsWf s (execEnec events s target) :=
  .next fun h => h.ccc (fun _ h1 => h1.events)
theorem execDisec_keepsWf {events target} : KeepsWf s (execDisec events s target) :=
  .next fun h => h.ccc (fun _ h1 => h1.events)
theorem execTrstN_keepsWf : KeepsWf s (execTrstN s) := .next fun h => .ite h.same h
theorem State.Wf.boundary (h : s.Wf) : (s.boundary).2.Wf := h.freeCount
theorem State.Wf.sample {cells} (h : s.Wf) : (s.sample cells).Wf := h.boundary.same.emit
theorem State.Wf.showPins (h : s.Wf) : s.showPins.Wf := h.emit
theorem execExtest_keepsWf {cells} : KeepsWf s (execExtest cells s) :=
  .next fun h => .ite (.ite h.same.sample.showPins h.same.sample) h
theorem execIdcode_keepsWf : KeepsWf s (execIdcode s) := .next fun h => .ite h.same.emit h
theorem execSamplePreload_keepsWf {cells} : KeepsWf s (execSamplePreload cells s) :=
  .next fun h => .ite h.same.sample h
theorem execHighz_keepsWf : KeepsWf s (execHighz s) := .next fun h => .ite (.ite h.same.emit.showPins h.same.sample) h
theorem execBypass_keepsWf {code} : KeepsWf s (execBypass code s) := .next fun h => .ite h.same.emit h
theorem Run.Wf.readAll {d xs} (h : r.Wf) : (r.readAll d xs).1.Wf := by
  induction xs generalizing r with
  | nil => exact h
  | cons x xs ih =>
    unfold Run.readAll
    refine .fst_ite h ?_
    split
    · exact h.s.run.raise
    · exact ih h.read
theorem State.Wf.startFails {f status detail} (h : s.Wf) : (s.startFails f status detail).Wf := by
  unfold State.startFails
  refine .ite h.setFlight ?_
  extract_lets
  split
  · exact .ite h.setFlight (.ite (.ite h.setFlight.maFaultSet h.setFlight) h.setFlight.veFaultSet)
  · exact .ite h.setFlight.vdFaultSet.putFld.setReg h.setFlight
  · exact h.setFlight.mvFaultSet
  · exact h.setFlight
theorem State.Wf.startBusy {f} (h : s.Wf) : (s.startBusy f).Wf := by
  unfold State.startBusy
  split
  · exact .ite h (.ite h.maBusy h.veBusy)
  · exact .ite h.vdBusy h
  · exact h
theorem State.Wf.startGo {f} (h : s.Wf) : (s.startGo f).Wf := h.same.setFlight.startBusy
theorem State.Wf.startRead {f} (h : s.Wf) : (s.startRead f).Wf :=
  have k1 := Run.Wf.fst_ite h.start.readAll.readAll h.start.readAll.pair
  .ite k1.s.startFails (.ite h.askFor (.ite k1.s.startGo k1.s.startFails))
theorem State.Wf.startChecked {f} (h : s.Wf) : (s.startChecked f).Wf := by
  unfold State.startChecked
  split
  · exact h.startFails
  · refine .ite h.startFails ?_
    extract_lets
    split
    · split
      · exact h.askFor
      · exact h.startFails
    · exact .ite h.startFails h.startRead
theorem State.Wf.startOne {f} (h : s.Wf) : (s.startOne f).Wf := by
  unfold State.startOne
  refine .ite h.abort ?_
  refine .ite h.finishWith ?_
  refine .ite h.abort ?_
  refine .ite h ?_
  extract_lets
  split
  · exact .ite h.startChecked h.startChecked.setTurn.evalDie
  · exact h.startChecked
theorem execDescriptorStart_keepsWf {fid} : KeepsWf s (execDescriptorStart fid s) := by
  refine .next fun h => ?_
  split
  · exact .ite h.startOne h
  · exact h
theorem State.Wf.plainWrite {a v} (h : s.Wf) : (s.plainWrite a v).Wf := by
  unfold State.plainWrite
  split
  · exact h.setReg
  · exact h
theorem State.Wf.offWrite {ctrl err bit_ a v} (h : s.Wf) : (s.offWrite ctrl err bit_ a v).Wf :=
  .ite h.plainWrite h.setFlag
theorem State.Wf.ctrlFields {ctrl hi lo err bit_ v} (h : s.Wf) : (s.ctrlFields ctrl hi lo err bit_ v).Wf :=
  .ite h.plainWrite (.ite h.plainWrite.putFld h.plainWrite.putFld.setFlag)
theorem State.Wf.onRequest {v enable disable} (h : s.Wf) (henable : ∀ x1, x1.Wf → (enable x1).Wf) (hdisable : ∀ x1,
  x1.Wf → (disable x1).Wf) :
    (s.onRequest v enable disable).Wf :=
  .ite (hdisable _ h) (.ite (henable _ h) h)
theorem State.Wf.ringWrite {die k o v} (h : s.Wf) : (s.ringWrite die k o v).Wf :=
  .ite (.onRequest (.ite h.ctrlFields.setFlag h.ctrlFields) (fun _ h1 => h1.enableReq) (fun _ h1 => h1.ringDisable))
    (.ite h.cplRdWrite (.ite h.plainWrite (.ite h.offWrite h)))
theorem State.Wf.gangWrite {die slot o v} (h : s.Wf) : (s.gangWrite die slot o v).Wf :=
  .ite h.gangCtrlWrite (.ite h.putFld h.plainWrite)
theorem State.Wf.groupWrite {die slot o v} (h : s.Wf) : (s.groupWrite die slot o v).Wf :=
  .ite h.pgCtrlWrite (.ite h.putFld h.plainWrite)
theorem State.Wf.slotWrite {die slot o v} (h : s.Wf) : (s.slotWrite die slot o v).Wf :=
  have k1 := State.Wf.ite h.plainWrite.setReg.rmCloseSlot h.plainWrite.setReg
  .ite h.setReg (.ite (.ite k1.rmRevertSlot k1) h.plainWrite)
theorem State.Wf.portRegWrite {die off v} (h : s.Wf) : (s.portRegWrite die off v).Wf :=
  have k1 := State.Wf.ite h.setFlag h
  .ite (.ite k1.pcieModeWrite.cxlRearm k1.pcieModeWrite) (.ite h h.plainWrite)
theorem State.Wf.controllerWrite {die off v} (h : s.Wf) : (s.controllerWrite die off v).Wf :=
  .ite h.doorbell (.ite h.abortWrite (.ite h.ringWrite (.ite h.offWrite (.ite h.offWrite (.ite h.gangWrite (.ite
    h.slotWrite (.ite h.portRegWrite (.ite h.groupWrite h.plainWrite))))))))
theorem State.Wf.epWrite {die ep o v} (h : s.Wf) : (s.epWrite die ep o v).Wf :=
  .ite (h.ctrlFields.onRequest (fun _ h1 => h1.epEnable) (fun _ h1 => h1.epDisable)) (.ite h.offWrite h.plainWrite)
theorem State.Wf.moverWrite {die n o v} (h : s.Wf) : (s.moverWrite die n o v).Wf :=
  .ite (h.onRequest (fun _ h1 => h1.enableReq) (fun _ h1 => h1.moverDisable)) h.plainWrite
theorem State.Wf.biasBaseWrite {home lo hi} (h : s.Wf) : (s.biasBaseWrite home lo hi).Wf :=
  .ite h.setFlag h.plainWrite.plainWrite
theorem State.Wf.biasWrite {home o v} (h : s.Wf) : (s.biasWrite home o v).Wf :=
  .ite h.biasBaseWrite (.ite h.biasBaseWrite (.ite h.plainWrite.setFlag h.plainWrite))
theorem State.Wf.hcWrite {die o v} (h : s.Wf) : (s.hcWrite die o v).Wf :=
  .ite (.ite h.setFlag h.maintExit) (.ite (.ite h.plainWrite.pprGo h.plainWrite) (.ite h (.ite h.biasWrite
    h.plainWrite)))
theorem State.Wf.stackWrite {stack o v} (h : s.Wf) : (s.stackWrite stack o v).Wf :=
  .ite (.ite h.w1500Go h) h.plainWrite
theorem State.Wf.pairWrite {die p o v} (h : s.Wf) : (s.pairWrite die p o v).Wf :=
  .ite (h.onRequest (fun _ h1 => h1.coursePairEnable) (fun _ h1 => h1.disableReq)) (.ite h h.plainWrite)
theorem State.Wf.courseWrite {die o v} (h : s.Wf) : (s.courseWrite die o v).Wf :=
  .ite h.cpRefWrite (.ite h.pairWrite h)
theorem State.Wf.computeWrite {die off v} (h : s.Wf) : (s.computeWrite die off v).Wf :=
  .ite h.epWrite (.ite (.ite h.moverWrite h) (.ite h.hcWrite (.ite (.ite (.ite h.wmInit h) h.plainWrite) (.ite
    h.courseWrite h.plainWrite.evalDie))))
theorem State.Wf.hostWrite {die off v} (h : s.Wf) : (s.hostWrite die off v).Wf :=
  .ite (.ite h.biasWrite (.ite h.imsicWrite h.plainWrite)) h.plainWrite
theorem State.Wf.fbPortWrite {p o v} (h : s.Wf) : (s.fbPortWrite p o v).Wf :=
  have k1 := State.Wf.ite h.portEnable h.portDisable
  .ite (.ite k1.portRetrain k1) h.plainWrite
theorem State.Wf.flowWrite {f o v} (h : s.Wf) : (s.flowWrite f o v).Wf :=
  .ite (h.ctrlFields.onRequest (fun _ h1 => h1.flowEnable) (fun _ h1 => h1.disableReq.endSync)) (.ite h.offWrite
    h.plainWrite)
theorem State.Wf.ioWrite {die off v} (h : s.Wf) : (s.ioWrite die off v).Wf :=
  .ite (.ite h.fbPortWrite (.ite h.flowWrite h)) (.ite h.courseWrite h.plainWrite)
theorem State.Wf.tdWrite {off v} (h : s.Wf) : (s.tdWrite off v).Wf :=
  .ite (.ite h.tdStart h) (.ite (.ite h.putFld (.ite h.loseDie h)) h.plainWrite)
theorem State.Wf.smRegWrite {off v} (h : s.Wf) : (s.smRegWrite off v).Wf :=
  .ite (.ite h.beginCommit h) (.ite h.aclWrite (.ite (.ite h.fwupGo h) h.plainWrite))
theorem State.Wf.pwGroupWrite {g o v} (h : s.Wf) : (s.pwGroupWrite g o v).Wf :=
  .ite h.grpCtrlWrite (.ite h.putFld h.plainWrite)
theorem State.Wf.powerWrite {o v} (h : s.Wf) : (s.powerWrite o v).Wf :=
  .ite h.alertClear (.ite (.ite (h.onRequest (fun _ h1 => h1.domainEnable) (fun _ h1 => h1.domainDisableAll)) h) (.ite
    h.pwGroupWrite h.plainWrite))
theorem State.Wf.journalWrite {o v} (h : s.Wf) : (s.journalWrite o v).Wf := .ite (.ite h h.jrOp) h.plainWrite
theorem State.Wf.mailboxWrite {o v} (h : s.Wf) : (s.mailboxWrite o v).Wf :=
  .ite h.mbStore (.ite h.mbStore (.ite h.mbStore (.ite h.claimWrite h.plainWrite)))
theorem State.Wf.smWrite {off v} (h : s.Wf) : (s.smWrite off v).Wf :=
  .ite h.smRegWrite (.ite h.powerWrite (.ite h.journalWrite h.mailboxWrite))
theorem State.Wf.setupWrite {a v} (h : s.Wf) : (s.setupWrite a v).Wf := by
  unfold State.setupWrite
  split
  · exact .ite h.stackWrite (.ite h.tdWrite (.ite h.smWrite (.ite h.controllerWrite (.ite h.computeWrite (.ite
    h.hostWrite h.ioWrite)))))
  · exact h
theorem State.Wf.setupRead {a} (h : s.Wf) : (s.setupRead a).1.Wf := by
  unfold State.setupRead
  split
  · exact h.mbLoad
  · exact h
theorem State.Wf.setupStore {req a bs} (h : s.Wf) : (s.setupStore req a bs).Wf := by
  unfold State.setupStore
  extract_lets
  split
  · exact h.outbound
  · refine .ite ?_ h.setupWrite
    split
    · exact .ite h.doorbell (.ite h.biasBaseWrite h.setupWrite.setupWrite)
    · exact h
theorem State.Wf.setupLoad {as} (h : s.Wf) : (s.setupLoad as).1.Wf := by
  induction as generalizing s with
  | nil => exact h
  | cons a as ih => exact .fst_ite h.setupRead (ih h.setupRead)
theorem State.Wf.registerWrite {req a v} (h : s.Wf) : (s.registerWrite req a v).Wf := by
  unfold State.registerWrite
  refine .ite h.refuseSetup ?_
  split
  · exact h.refuseSetup
  · exact h.setupStore
theorem execRegisterWrite_keepsWf {req addr value} : KeepsWf s (execRegisterWrite req addr value s) :=
  .next fun h => h.registerWrite
theorem State.Wf.coreSetup {hart machine a size acc} (h : s.Wf) : (s.coreSetup hart machine a size acc).Wf := by
  unfold State.coreSetup
  refine .ite h.log.emit ?_
  extract_lets
  split
  · exact h.log.emit
  · split
    · exact h.setupStore.emit
    · split
      · exact h.outbound
      · dsimp only
        split
        · exact h.setupLoad.emit
        · exact h.setupLoad.emit
theorem execHostCoreAccess_keepsWf {hart machine uncached addr size access ecc} :
    KeepsWf s (execHostCoreAccess hart machine uncached addr size access ecc s) :=
  .next fun h => .ite (.ite h.coreSetup h.coreMemory) h
theorem execImsicStore_keepsWf {req hostDie offset value} :
    KeepsWf s (execImsicStore req hostDie offset value s) := by
  refine .next fun h => ?_
  refine .ite ?_ h
  extract_lets
  split
  · exact h.refuseSetup
  · exact h.imsicWrite
theorem State.Wf.bar0Access {io off acc} (h : s.Wf) : (s.bar0Access io off acc).Wf := by
  unfold State.bar0Access
  refine .ite h.refuseDevice ?_
  extract_lets
  split
  · exact h.refuseDevice
  · split
    · exact h.setupStore
    · split
      · exact h.outbound
      · dsimp only
        split
        · exact h.setupLoad.emit
        · exact h.setupLoad.emit
theorem execCxlBar0Access_keepsWf {io offset access} : KeepsWf s (execCxlBar0Access io offset access s) :=
  .next fun h => .ite h.bar0Access h

end Sys2Proof.Machine
end

section
/-! SUPPORT. O3 and O5: every command, and the step, answer a next state and keep the canonical form. -/

namespace Sys2Proof.Machine

set_option Elab.async false

variable {s t : State}

/-- The lemma of each command's own function. -/
theorem exec_keepsWf {c : Instr} : KeepsWf s (exec c s) := by
  cases c with
  | registerWrite => exact execRegisterWrite_keepsWf
  | doorbell => exact execDoorbell_keepsWf
  | ringEnable => exact execRingEnable_keepsWf
  | ringEnablingDone => exact execRingEnablingDone_keepsWf
  | ringDisable => exact execRingDisable_keepsWf
  | ringDisablingDone => exact execRingDisablingDone_keepsWf
  | ringResume => exact execRingResume_keepsWf
  | cplRdWrite => exact execCplRdWrite_keepsWf
  | descriptorFetch => exact execDescriptorFetch_keepsWf
  | descriptorStart => exact execDescriptorStart_keepsWf
  | nop => exact execNop_keepsWf
  | descriptorComplete => exact execDescriptorComplete_keepsWf
  | completionWriteFault => exact execCompletionWriteFault_keepsWf
  | fenceSignal => exact execFenceSignal_keepsWf
  | fenceWrite => exact execFenceWrite_keepsWf
  | gangFanout => exact execGangFanout_keepsWf
  | gangMemberReport => exact execGangMemberReport_keepsWf
  | gangEntryValidate => exact execGangEntryValidate_keepsWf
  | rmClose => exact execRmClose_keepsWf
  | rmRevert => exact execRmRevert_keepsWf
  | matmul => exact execMatmul_keepsWf
  | matmulMxfp4 => exact execMatmulMxfp4_keepsWf
  | elementwiseFma => exact execElementwiseFma_keepsWf
  | partitionFault => exact execPartitionFault_keepsWf
  | enginePairEnable => exact execEnginePairEnable_keepsWf
  | enginePairEnablingDone => exact execEnginePairEnablingDone_keepsWf
  | enginePairDisable => exact execEnginePairDisable_keepsWf
  | enginePairDisablingDone => exact execEnginePairDisablingDone_keepsWf
  | fusedChain => exact execFusedChain_keepsWf
  | fallbackProgram => exact execFallbackProgram_keepsWf
  | veAccessFault => exact execVeAccessFault_keepsWf
  | smrow => exact execSmrow_keepsWf
  | smmerge => exact execSmmerge_keepsWf
  | norm => exact execNorm_keepsWf
  | xent => exact execXent_keepsWf
  | attstep => exact execAttstep_keepsWf
  | conv => exact execConv_keepsWf
  | resample => exact execResample_keepsWf
  | regroup => exact execRegroup_keepsWf
  | decode => exact execDecode_keepsWf
  | hbmRequest => exact execHbmRequest_keepsWf
  | msopRequest => exact execMsopRequest_keepsWf
  | hbmRefresh home => exact execHbmRefresh_keepsWf (home := home)
  | hbmScrubStep => exact execHbmScrubStep_keepsWf
  | hbmMaintEnter => exact execHbmMaintEnter_keepsWf
  | hbmMaintDrained => exact execHbmMaintDrained_keepsWf
  | hbmMaintExit => exact execHbmMaintExit_keepsWf
  | w1500Go => exact execW1500Go_keepsWf
  | w1500ShiftDone => exact execW1500ShiftDone_keepsWf
  | pprGo => exact execPprGo_keepsWf
  | pprDone => exact execPprDone_keepsWf
  | wmAccess => exact execWmAccess_keepsWf
  | wmInit => exact execWmInit_keepsWf
  | wmInitDone => exact execWmInitDone_keepsWf
  | move => exact execMove_keepsWf
  | msop => exact execMsop_keepsWf
  | moverFault => exact execMoverFault_keepsWf
  | moverEnable => exact execMoverEnable_keepsWf
  | moverEnablingDone => exact execMoverEnablingDone_keepsWf
  | moverDisable => exact execMoverDisable_keepsWf
  | moverDisablingDone => exact execMoverDisablingDone_keepsWf
  | hostCoreAccess => exact execHostCoreAccess_keepsWf
  | hostAtomic => exact execHostAtomic_keepsWf
  | lrGrantExpiry => exact execLrGrantExpiry_keepsWf
  | mailboxInternalWrite => exact execMailboxInternalWrite_keepsWf
  | mailboxSetAliasWrite => exact execMailboxSetAliasWrite_keepsWf
  | mailboxClearAliasWrite => exact execMailboxClearAliasWrite_keepsWf
  | mailboxRead => exact execMailboxRead_keepsWf
  | mailboxWrite => exact execMailboxWrite_keepsWf
  | mailboxSet => exact execMailboxSet_keepsWf
  | mailboxClear => exact execMailboxClear_keepsWf
  | mbClaim => exact execMbClaim_keepsWf
  | i3cTransferEnd => exact execI3cTransferEnd_keepsWf
  | claimTimeout => exact execClaimTimeout_keepsWf
  | gnorm => exact execGnorm_keepsWf
  | update => exact execUpdate_keepsWf
  | wcopy => exact execWcopy_keepsWf
  | slotload => exact execSlotload_keepsWf
  | paramGroupValidate => exact execParamGroupValidate_keepsWf
  | dcAbortWrite => exact execDcAbortWrite_keepsWf
  | spill => exact execSpill_keepsWf
  | slotRecall => exact execRecall_keepsWf
  | commit => exact execCommit_keepsWf
  | commitTimeout => exact execCommitTimeout_keepsWf
  | slotimg => exact execSlotimg_keepsWf
  | portEnable => exact execPortEnable_keepsWf
  | portDisable => exact execPortDisable_keepsWf
  | portRetrain => exact execPortRetrain_keepsWf
  | portTrained => exact execPortTrained_keepsWf
  | linkRepeat => exact execLinkRepeat_keepsWf
  | link => exact execLink_keepsWf
  | credit => exact execCredit_keepsWf
  | frameForward => exact execFrameForward_keepsWf
  | write => exact execWrite_keepsWf
  | msopFrame => exact execMsopFrame_keepsWf
  | read => exact execRead_keepsWf
  | signal => exact execSignal_keepsWf
  | sync => exact execSync_keepsWf
  | arrive => exact execArrive_keepsWf
  | red => exact execRed_keepsWf
  | res => exact execRes_keepsWf
  | ack => exact execAck_keepsWf
  | nak => exact execNak_keepsWf
  | readRsp => exact execReadRsp_keepsWf
  | fault => exact execFault_keepsWf
  | grant => exact execGrant_keepsWf
  | syncAck => exact execSyncAck_keepsWf
  | capo => exact execCapo_keepsWf
  | shift => exact execShift_keepsWf
  | ackTimer => exact execAckTimer_keepsWf
  | retransmitTimeout => exact execRetransmitTimeout_keepsWf
  | flowEnable => exact execFlowEnable_keepsWf
  | flowSyncRetry => exact execFlowSyncRetry_keepsWf
  | flowDisable => exact execFlowDisable_keepsWf
  | flowDisablingDone => exact execFlowDisablingDone_keepsWf
  | put => exact execPut_keepsWf
  | gred => exact execGred_keepsWf
  | grantRepeat => exact execGrantRepeat_keepsWf
  | capoSend => exact execCapoSend_keepsWf
  | capoEntryExpiry => exact execCapoEntryExpiry_keepsWf
  | shiftOffer => exact execShiftOffer_keepsWf
  | shiftLeaseExpiry => exact execShiftLeaseExpiry_keepsWf
  | interruptMessage => exact execInterruptMessage_keepsWf
  | imsicStore => exact execImsicStore_keepsWf
  | snpShr => exact execSnpShr_keepsWf
  | snpInv => exact execSnpInv_keepsWf
  | snpOwn => exact execSnpOwn_keepsWf
  | snpGfl => exact execSnpGfl_keepsWf
  | biasflip => exact execBiasflip_keepsWf
  | hfill => exact execHfill_keepsWf
  | biasInit => exact execBiasInit_keepsWf
  | biasInitDone => exact execBiasInitDone_keepsWf
  | pcieModeWrite => exact execPcieModeWrite_keepsWf
  | pcieOutboundAccess => exact execPcieOutboundAccess_keepsWf
  | pcieCompletionTimeout => exact execPcieCompletionTimeout_keepsWf
  | pcieInboundRequest => exact execPcieInboundRequest_keepsWf
  | pcieMsiWrite => exact execPcieMsiWrite_keepsWf
  | cxlDecoderCommit => exact execCxlDecoderCommit_keepsWf
  | bisnp => exact execBisnp_keepsWf
  | bisnpTimeout => exact execBisnpTimeout_keepsWf
  | cxlLoss => exact execCxlLoss_keepsWf
  | cxlWalkDone => exact execCxlWalkDone_keepsWf
  | cxlRearm => exact execCxlRearm_keepsWf
  | perst => exact execPerst_keepsWf
  | coursePairEnable => exact execCoursePairEnable_keepsWf
  | courseTrainingTimeout => exact execCourseTrainingTimeout_keepsWf
  | courseEnablingDone => exact execCourseEnablingDone_keepsWf
  | courseFlitReplay => exact execCourseFlitReplay_keepsWf
  | courseRetrain => exact execCourseRetrain_keepsWf
  | courseRetrainDone => exact execCourseRetrainDone_keepsWf
  | coursePairDisable => exact execCoursePairDisable_keepsWf
  | courseDisablingDone => exact execCourseDisablingDone_keepsWf
  | refSourceLost => exact execRefSourceLost_keepsWf
  | refPrimaryReturn => exact execRefPrimaryReturn_keepsWf
  | cpRefWrite => exact execCpRefWrite_keepsWf
  | refclkCheck => exact execRefclkCheck_keepsWf
  | refclkRelock => exact execRefclkRelock_keepsWf
  | tdStart => exact execTdStart_keepsWf
  | dieClockLost => exact execDieClockLost_keepsWf
  | dieLossAnswer => exact execDieLossAnswer_keepsWf
  | dieReset => exact execDieReset_keepsWf
  | dieReadmit => exact execDieReadmit_keepsWf
  | dieReadmitDone => exact execDieReadmitDone_keepsWf
  | lehrBinStart => exact execLehrBinStart_keepsWf
  | powerSample => exact execPowerSample_keepsWf
  | opDividerStep => exact execOpDividerStep_keepsWf
  | voltageSlewDone => exact execVoltageSlewDone_keepsWf
  | droopDetect => exact execDroopDetect_keepsWf
  | droopEnd => exact execDroopEnd_keepsWf
  | longDroop => exact execLongDroop_keepsWf
  | thermalSample => exact execThermalSample_keepsWf
  | groupEntryValidate => exact execGroupEntryValidate_keepsWf
  | domainEnable => exact execDomainEnable_keepsWf
  | domainEnablingDone => exact execDomainEnablingDone_keepsWf
  | domainDisable => exact execDomainDisable_keepsWf
  | domainDisablingDone => exact execDomainDisablingDone_keepsWf
  | pwrEnHigh => exact execPwrEnHigh_keepsWf
  | pwrEnLow => exact execPwrEnLow_keepsWf
  | moduleStart => exact execModuleStart_keepsWf
  | modResetAssert => exact execModResetAssert_keepsWf
  | modResetRelease => exact execModResetRelease_keepsWf
  | modResetHeld => exact execModResetHeld_keepsWf
  | throttleNChange => exact execThrottleNChange_keepsWf
  | throttleIntervalEnd => exact execThrottleIntervalEnd_keepsWf
  | throttleStuck => exact execThrottleStuck_keepsWf
  | pwAlertClear => exact execPwAlertClear_keepsWf
  | readStatusBlock => exact execReadStatusBlock_keepsWf
  | clearAlerts => exact execClearAlerts_keepsWf
  | i3cTransferTimeout => exact execI3cTransferTimeout_keepsWf
  | setdasa => exact execSetdasa_keepsWf
  | entdaa => exact execEntdaa_keepsWf
  | rstdaa => exact execRstdaa_keepsWf
  | getpid => exact execGetpid_keepsWf
  | getbcr => exact execGetbcr_keepsWf
  | getdcr => exact execGetdcr_keepsWf
  | getmxds => exact execGetmxds_keepsWf
  | enec => exact execEnec_keepsWf
  | disec => exact execDisec_keepsWf
  | getVersion => exact execGetVersion_keepsWf
  | negotiateAlgorithms => exact execNegotiateAlgorithms_keepsWf
  | getCertificate => exact execGetCertificate_keepsWf
  | challenge => exact execChallenge_keepsWf
  | getMeasurements => exact execGetMeasurements_keepsWf
  | smRbCommit => exact execSmRbCommit_keepsWf
  | fwupGo => exact execFwupGo_keepsWf
  | fwupDone => exact execFwupDone_keepsWf
  | setupAclWrite => exact execSetupAclWrite_keepsWf
  | jrWrite => exact execJrWrite_keepsWf
  | jrRead => exact execJrRead_keepsWf
  | jrDelete => exact execJrDelete_keepsWf
  | compactionDone => exact execCompactionDone_keepsWf
  | culletEraseDone => exact execCulletEraseDone_keepsWf
  | trstN => exact execTrstN_keepsWf
  | extest => exact execExtest_keepsWf
  | idcode => exact execIdcode_keepsWf
  | samplePreload => exact execSamplePreload_keepsWf
  | highz => exact execHighz_keepsWf
  | bypass => exact execBypass_keepsWf
  | portLinkDown => exact execPortLinkDown_keepsWf
  | tdAliveLost => exact execTdAliveLost_keepsWf
  | cxlMemRequest => exact execCxlMemRequest_keepsWf
  | cxlBar0Access => exact execCxlBar0Access_keepsWf
  | bisnpResponse => exact execBisnpResponse_keepsWf
  | pcieLinkUp => exact execPcieLinkUp_keepsWf
  | pcieLinkDown => exact execPcieLinkDown_keepsWf
  | pcieCompletion => exact execPcieCompletion_keepsWf
  | mctpControlMessage => exact execMctpControlMessage_keepsWf
  | getCapabilities => exact execGetCapabilities_keepsWf
  | counterWriteDone => exact execCounterWriteDone_keepsWf
  | jrOpDone => exact execJrOpDone_keepsWf
  | mbxBusyPulseEnd => exact execMbxBusyPulseEnd_keepsWf
  | stimecmpExpiry => exact execStimecmpExpiry_keepsWf
  | remoteGangDescriptor => exact execRemoteGangDescriptor_keepsWf
  | i3cUnknownCommand => exact execI3cUnknownCommand_keepsWf

theorem step_keepsWf : KeepsWf s (step s) := by
  unfold step
  split
  · exact .next State.Wf.cycle
  · next rest _ =>
      obtain ⟨t, e, h⟩ := exec_keepsWf (s := { s with pending := rest })
      exact ⟨t, e, fun hs => h hs.same⟩

end Sys2Proof.Machine

namespace Sys2Proof

open Machine

/-- Settles O3: the idle step and every command answer a next state. -/
theorem everyStepAnswers : Obligations.EveryStepAnswers := fun s =>
  have ⟨t, e, _⟩ := step_keepsWf (s := s)
  ⟨t, e⟩

/-- Settles O5: the idle step and every command keep the canonical form. -/
theorem stepKeepsWf : Obligations.StepKeepsWf := by
  intro s t hs e
  obtain ⟨u, eu, h⟩ := step_keepsWf (s := s)
  cases e.symm.trans eu
  exact h hs

end Sys2Proof

end

section
/-! SUPPORT. Bytes as every coherent requester reads them, and poison marks, after stores, SNP_INV and a write within one line. -/

namespace Sys2Proof.Machine

set_option Elab.async false

variable (s : State)

/-! ### Coherent bytes and poison marks (R22, R236) -/

theorem State.modifiedCopy_congr {s t : State} (h : t.host.copies = s.host.copies) (l : Nat) :
    t.modifiedCopy l = s.modifiedCopy l := by
  unfold State.modifiedCopy
  rw [h]

/-- A byte rests on memory and the copies alone. -/
theorem State.byte_congr {s t : State} (hm : t.mem = s.mem) (hc : t.host.copies = s.host.copies) (x : Nat) :
    t.byte x = s.byte x := by
  unfold State.byte State.memByte
  rw [State.modifiedCopy_congr hc, hm]

theorem State.bytes_congr {s t : State} (h : ∀ x, t.byte x = s.byte x) (a n : Nat) : t.bytes a n = s.bytes a n :=
  List.map_congr_left fun _ _ => h _

theorem State.linePoisoned_congr {s t : State} (h : t.poison = s.poison) (l : Nat) :
    t.linePoisoned l = s.linePoisoned l := by
  unfold State.linePoisoned
  rw [h]

theorem State.memByte_putMem (a : Nat) (bs : List Byte) (x : Nat) :
    (s.putMem a bs).memByte x = if a ≤ x ∧ x < a + bs.length then bs.getD (x - a) 0 else s.memByte x := by
  unfold State.memByte
  rw [State.putMem_mem]
  split
  · next h =>
      obtain ⟨i, rfl⟩ := Nat.exists_eq_add_of_le h.1
      have hi : i < bs.length := by omega
      rw [lookup_storeRun_in _ _ _ _ _ hi, Nat.add_sub_cancel_left, List.getD_eq_getElem _ _ hi]
  · next h => exact lookup_storeRun_out _ _ _ _ _ (by omega)

variable {s} in
theorem State.byte_of_unmodified {x : Nat} (h : s.modifiedCopy (x / 64) = none) : s.byte x = s.memByte x := by
  rw [State.byte, h]

variable {s} in
theorem State.byte_of_modified {x : Nat} {d : List Byte} (h : s.modifiedCopy (x / 64) = some d) :
    s.byte x = d.getD (x % 64) 0 := by
  rw [State.byte, h]

variable {s} in
/-- Bytes stored in a line that no agent holds modified are read by every coherent requester. -/
theorem State.byte_putMem {a : Nat} {bs : List Byte} (hc : s.modifiedCopy (a / 64) = none)
    (hn : a % 64 + bs.length ≤ 64) (x : Nat) :
    (s.putMem a bs).byte x = if a ≤ x ∧ x < a + bs.length then bs.getD (x - a) 0 else s.byte x := by
  have hput : (s.putMem a bs).modifiedCopy (x / 64) = s.modifiedCopy (x / 64) := rfl
  cases hx : s.modifiedCopy (x / 64) with
  | none =>
    rw [State.byte_of_unmodified (hput.trans hx), State.byte_of_unmodified hx, State.memByte_putMem]
  | some d =>
    have hne : x / 64 ≠ a / 64 := fun e => by rw [e, hc] at hx; cases hx
    rw [State.byte_of_modified (hput.trans hx), State.byte_of_modified hx, if_neg (by omega)]

theorem State.linePoisoned_markPoison (l k : Nat) :
    (s.markPoison l).linePoisoned k = (decide (k = l) || s.linePoisoned k) := by
  unfold State.linePoisoned State.markPoison setInsert
  rw [Bool.eq_iff_iff]
  simp only [List.contains_iff_mem, List.mem_append, List.mem_cons, List.mem_filter, decide_eq_true_eq, Bool.or_eq_true]
  constructor
  · rintro (⟨h, -⟩ | h | ⟨h, -⟩)
    · exact .inr h
    · exact .inl h
    · exact .inr h
  · rintro (h | h)
    · exact .inr (.inl h)
    · rcases Nat.lt_trichotomy k l with hl | hl | hl
      · exact .inl ⟨h, hl⟩
      · exact .inr (.inl hl)
      · exact .inr (.inr ⟨h, hl⟩)

theorem State.linePoisoned_clearPoison (l k : Nat) :
    (s.clearPoison l).linePoisoned k = (s.linePoisoned k && decide (k ≠ l)) := by
  unfold State.linePoisoned State.clearPoison setErase
  rw [Bool.eq_iff_iff]
  simp only [List.contains_iff_mem, List.mem_filter, decide_eq_true_eq, Bool.and_eq_true]

/-! ### SNP_INV -/

theorem lineOf_length (d : List Byte) : (lineOf d).length = 64 := by simp [lineOf]

theorem lineOf_getD (d : List Byte) {i : Nat} (h : i < 64) : (lineOf d).getD i 0 = d.getD i 0 := by
  simp [lineOf, h]

theorem State.modifiedCopy_invalidate (l k : Nat) :
    (s.invalidate l).modifiedCopy k = if k = l then none else s.modifiedCopy k := by
  have hc : (s.invalidate l).host.copies = s.host.copies.filter (fun c => decide (c.line ≠ l)) := by
    unfold State.invalidate
    split <;> rfl
  unfold State.modifiedCopy
  rw [hc, List.find?_filter]
  split
  · next h =>
      subst h
      rw [List.find?_eq_none.2 (by simp; tauto)]
      rfl
  · next h =>
      congr 2
      funext c
      by_cases hl : c.line = k <;> simp [hl, h]

theorem State.memByte_invalidate (l x : Nat) :
    (s.invalidate l).memByte x = if x / 64 = l then s.byte x else s.memByte x := by
  cases h : s.modifiedCopy l with
  | none =>
    have hm : (s.invalidate l).memByte x = s.memByte x := by
      unfold State.invalidate
      rw [h]
      rfl
    rw [hm]
    split
    · next hx => exact (State.byte_of_unmodified (hx ▸ h)).symm
    · rfl
  | some d =>
    have hm : (s.invalidate l).memByte x = (s.putMem (64 * l) (lineOf d)).memByte x := by
      unfold State.invalidate
      rw [h]
      rfl
    rw [hm, State.memByte_putMem, lineOf_length]
    split
    · next hx =>
        rw [if_pos (by omega), State.byte_of_modified (d := d) (by rw [← h]; congr 1; omega), lineOf_getD d (by omega)]
        congr 1; omega
    · next hx => rw [if_neg (by omega)]

/-- A modified copy goes home, so that every byte reads as before. -/
theorem State.byte_invalidate (l x : Nat) : (s.invalidate l).byte x = s.byte x := by
  by_cases hx : x / 64 = l
  · have h : (s.invalidate l).modifiedCopy (x / 64) = none := by rw [State.modifiedCopy_invalidate, if_pos hx]
    rw [State.byte_of_unmodified h, State.memByte_invalidate, if_pos hx]
  · have h : (s.invalidate l).modifiedCopy (x / 64) = s.modifiedCopy (x / 64) := by
      rw [State.modifiedCopy_invalidate, if_neg hx]
    unfold State.byte
    rw [h, State.memByte_invalidate, if_neg hx]

/-- Modified data that goes home clears the line's mark. -/
theorem State.linePoisoned_invalidate (l k : Nat) :
    (s.invalidate l).linePoisoned k = (s.linePoisoned k && (decide (k ≠ l) || (s.modifiedCopy l).isNone)) := by
  cases h : s.modifiedCopy l with
  | none =>
    have hp : (s.invalidate l).linePoisoned k = s.linePoisoned k := by
      unfold State.invalidate
      rw [h]
      rfl
    simp [hp]
  | some d =>
    have hp : (s.invalidate l).linePoisoned k = (s.clearPoison l).linePoisoned k := by
      unfold State.invalidate
      rw [h]
      rfl
    simp [hp, State.linePoisoned_clearPoison]

@[simp] theorem State.invalidate_flights (l : Nat) : (s.invalidate l).flights = s.flights := by
  unfold State.invalidate
  split <;> rfl

@[simp] theorem State.invalidate_out (l : Nat) : (s.invalidate l).out = s.out := by
  unfold State.invalidate
  split <;> rfl

/-! ### A write within one line (R234, R236, R244) -/

/-- The stored line is poisoned and takes only whole-line writes: no modified copy stands before it (R236). -/
def State.refusesPart (s : State) (a n : Nat) : Bool :=
  decide (n < 64) && s.linePoisoned (a / 64) && (s.modifiedCopy (a / 64)).isNone

@[simp] theorem State.byte_markPoison (l x : Nat) : (s.markPoison l).byte x = s.byte x := rfl
@[simp] theorem State.byte_clearPoison (l x : Nat) : (s.clearPoison l).byte x = s.byte x := rfl
@[simp] theorem State.linePoisoned_putMem (a : Nat) (bs : List Byte) (l : Nat) :
    (s.putMem a bs).linePoisoned l = s.linePoisoned l := rfl

theorem State.clearPoison_of_unpoisoned {s : State} {l : Nat} (h : s.linePoisoned l = false) : s.clearPoison l = s := by
  have hl : l ∉ s.poison := by simpa [State.linePoisoned] using h
  have he : setErase s.poison l = s.poison :=
    List.filter_eq_self.2 fun x hx => decide_eq_true fun e => hl (e ▸ hx)
  rw [State.clearPoison, he]

section
variable {s} {a : Nat} {bs : List Byte} (mark : Bool)

/-- A write that the line's mark does not refuse stores its bytes and leaves its own mark. -/
theorem State.writeLine_eq (hn : bs.length ≤ 64) :
    s.writeLine a bs mark =
      if s.refusesPart a bs.length then (s.invalidate (a / 64), true)
      else (if mark then ((s.invalidate (a / 64)).putMem a bs).markPoison (a / 64)
        else ((s.invalidate (a / 64)).putMem a bs).clearPoison (a / 64), false) := by
  have hr : s.refusesPart a bs.length = (decide (bs.length < 64) && (s.invalidate (a / 64)).linePoisoned (a / 64)) := by
    simp [State.linePoisoned_invalidate, State.refusesPart, Bool.and_assoc]
  rw [hr]
  unfold State.writeLine
  by_cases h64 : bs.length = 64
  · simp [h64]
  · have hlt : bs.length < 64 := by omega
    cases hp : (s.invalidate (a / 64)).linePoisoned (a / 64)
    · have hc := State.clearPoison_of_unpoisoned (s := (s.invalidate (a / 64)).putMem a bs) hp
      simp [h64, hp, hc]
    · simp [h64, hlt, hp]

variable (hn : a % 64 + bs.length ≤ 64)
include hn

theorem State.writeLine_snd : (s.writeLine a bs mark).2 = s.refusesPart a bs.length := by
  rw [State.writeLine_eq mark (by omega)]
  cases s.refusesPart a bs.length <;> rfl

theorem State.byte_writeLine (x : Nat) :
    (s.writeLine a bs mark).1.byte x =
      if s.refusesPart a bs.length = false ∧ a ≤ x ∧ x < a + bs.length then bs.getD (x - a) 0 else s.byte x := by
  have hput := State.byte_putMem (s := s.invalidate (a / 64)) (by rw [State.modifiedCopy_invalidate, if_pos rfl]) hn x
  rw [State.byte_invalidate] at hput
  rw [State.writeLine_eq mark (by omega)]
  cases s.refusesPart a bs.length with
  | true => rw [if_pos rfl, if_neg (by simp), State.byte_invalidate]
  | false => cases mark <;> simpa using hput

theorem State.linePoisoned_writeLine (k : Nat) :
    (s.writeLine a bs mark).1.linePoisoned k =
      if k = a / 64 then s.refusesPart a bs.length || mark else s.linePoisoned k := by
  rw [State.writeLine_eq mark (by omega)]
  cases h : s.refusesPart a bs.length with
  | true =>
    obtain ⟨⟨-, hp⟩, hc⟩ : (_ ∧ s.linePoisoned (a / 64) = true) ∧ (s.modifiedCopy (a / 64)).isNone = true := by
      simpa [State.refusesPart] using h
    by_cases hk : k = a / 64 <;> simp [State.linePoisoned_invalidate, hk, hp, hc]
  | false =>
    cases mark <;> by_cases hk : k = a / 64 <;>
      simp [State.linePoisoned_invalidate, State.linePoisoned_markPoison, State.linePoisoned_clearPoison, hk]

theorem State.writeLine_flights : (s.writeLine a bs mark).1.flights = s.flights := by
  rw [State.writeLine_eq mark (by omega)]
  cases s.refusesPart a bs.length <;> cases mark <;> simp

theorem State.writeLine_out : (s.writeLine a bs mark).1.out = s.out := by
  rw [State.writeLine_eq mark (by omega)]
  cases s.refusesPart a bs.length <;> cases mark <;> simp

/-- A write within one line is a write of that line. -/
theorem State.write_eq_writeLine (h0 : 0 < bs.length) : s.write a bs mark = s.writeLine a bs mark := by
  have htake : bs.take (64 - a % 64) = bs := List.take_of_length_le (by omega)
  have hdrop : bs.drop (64 - a % 64) = [] := List.drop_eq_nil_of_le (by omega)
  obtain ⟨b, bs', rfl⟩ := List.exists_cons_of_length_pos h0
  rw [State.write, List.length_cons, State.writeRun]
  dsimp only
  rw [htake, hdrop]
  cases bs'.length <;> simp [State.writeRun]
end

end Sys2Proof.Machine
end

section
/-! SUPPORT. O24: requests for bytes of one line of HBM or working memory. -/

namespace Sys2Proof.Machine

set_option Elab.async false

variable (s : State)

/-! ### What a code finds (R235, R244) -/

section
variable (a : Nat) (who : LogBy) (ecc : Ecc)

/-- What is found changes registers, the log and the poison marks alone. -/
theorem State.ecc_eq : { s.ecc a who ecc with regs := s.regs, flog := s.flog, poison := s.poison } = s := by
  unfold State.ecc State.eccWm State.eccLine
  by_cases hp : s.linePoisoned (a / 64) = true
  · simp [hp]
  · cases isWorkMem a <;> cases ecc <;> simp only [hp] <;> rfl

@[simp] theorem State.ecc_mem : (s.ecc a who ecc).mem = s.mem := (congrArg State.mem (s.ecc_eq a who ecc) :)
@[simp] theorem State.ecc_host : (s.ecc a who ecc).host = s.host := (congrArg State.host (s.ecc_eq a who ecc) :)
@[simp] theorem State.ecc_flights : (s.ecc a who ecc).flights = s.flights :=
  (congrArg State.flights (s.ecc_eq a who ecc) :)
@[simp] theorem State.ecc_out : (s.ecc a who ecc).out = s.out := (congrArg State.out (s.ecc_eq a who ecc) :)

theorem State.byte_ecc (x : Nat) : (s.ecc a who ecc).byte x = s.byte x := State.byte_congr (by simp) (by simp) x

/-- An uncorrectable line is marked. -/
theorem State.ecc_poison : (s.ecc a who ecc).poison =
    if s.linePoisoned (a / 64) = false ∧ ecc = .uncorrectable then (s.markPoison (a / 64)).poison else s.poison := by
  unfold State.ecc State.eccWm State.eccLine
  by_cases hp : s.linePoisoned (a / 64) = true
  · simp [hp]
  · cases isWorkMem a <;> cases ecc <;> simp only [hp] <;> rfl

theorem State.linePoisoned_ecc (k : Nat) :
    (s.ecc a who ecc).linePoisoned k = (s.linePoisoned k || decide (k = a / 64) && ecc == .uncorrectable) := by
  have hpoison := s.ecc_poison a who ecc
  split at hpoison
  · next h =>
      rw [State.linePoisoned_congr hpoison, State.linePoisoned_markPoison, h.2, Bool.or_comm]
      simp
  · next h =>
      rw [State.linePoisoned_congr hpoison]
      by_cases hk : k = a / 64
      · subst hk
        cases hp : s.linePoisoned (a / 64) <;> simp_all
      · simp [hk]
end

/-! ### A request for bytes of one line (R234) -/

theorem isHbm_eq (a : Nat) : isHbm a = decide (a < 0x050000000000) := by
  unfold isHbm regionOf
  by_cases h : a < 0x050000000000
  · simp [h]
  · rw [if_neg h]
    split_ifs <;> simp [h]

theorem isHostMem_eq (a : Nat) : isHostMem a = decide (0x080000000000 ≤ a ∧ a < 0x0C0000000000) := by
  unfold isHostMem regionOf
  split_ifs <;> simp <;> omega

theorem isWorkMem_eq (a : Nat) : isWorkMem a = decide (0x0C0000000000 ≤ a ∧ a < 0x0C2800000000) := by
  unfold isWorkMem regionOf
  split_ifs <;> simp <;> omega

theorem isHostMem_line (a : Nat) : isHostMem (64 * (a / 64)) = isHostMem a := by
  rw [isHostMem_eq, isHostMem_eq]
  exact decide_eq_decide.2 (by omega)

theorem regions_of_isHbm {a : Nat} (h : isHbm a = true) : isHostMem a = false ∧ isWorkMem a = false := by
  rw [isHbm_eq, decide_eq_true_eq] at h
  rw [isHostMem_eq, isWorkMem_eq]
  exact ⟨decide_eq_false (by omega), decide_eq_false (by omega)⟩

theorem regions_of_workMem {a die off : Nat} (hdie : die < 40) (hoff : off < 0x8000000)
    (ha : a = 0x0C0000000000 + 0x100000000 * die + off) :
    isHbm a = false ∧ isHostMem a = false ∧ isWorkMem a = true := by
  rw [isHbm_eq, isHostMem_eq, isWorkMem_eq]
  exact ⟨decide_eq_false (by omega), decide_eq_false (by omega), decide_eq_true (by omega)⟩

/-- A line outside host memory is read without a snoop (R352). -/
theorem State.shareCopies_of_not_isHostMem {l : Nat} (h : isHostMem (64 * l) = false) : s.shareCopies l = s := by
  rw [State.shareCopies, h, Bool.false_and, if_neg (by simp)]

section
variable {a : Nat} {acc : BusAccess}

/-- The size of the words that a code covers: a line of HBM, 64 bits of working memory (R234, R244). -/
def codeUnit (a : Nat) : Nat := if isWorkMem a then 8 else 64

/-- The access reads what the stored line holds. -/
def readsStored (a : Nat) : BusAccess → Bool
  | .read _ => true
  | .write bs => decide (a % codeUnit a ≠ 0 ∨ (a + bs.length) % codeUnit a ≠ 0)

def busLength : BusAccess → Nat
  | .read n => n
  | .write bs => bs.length

theorem storedRead_eq (h0 : 0 < busLength acc) (hn : a % 64 + busLength acc ≤ 64) :
    storedRead a acc = if readsStored a acc then [a / 64] else [] := by
  have hlast : (a + busLength acc - 1) / 64 = a / 64 := by omega
  have htouched : List.range' (a / 64) ((a + busLength acc - 1) / 64 + 1 - a / 64) = [a / 64] := by
    rw [hlast, Nat.add_sub_cancel_left]
    rfl
  cases acc with
  | read n =>
    simp only [busLength] at *
    simp [storedRead, readsStored, htouched]; omega
  | write bs =>
    simp only [busLength] at *
    have hne : bs ≠ [] := List.ne_nil_of_length_pos h0
    simp only [storedRead, readsStored, codeUnit, hlast]
    split_ifs <;> simp_all

/-- The state after the code of the stored line has spoken, where the access reads it. -/
def State.afterCode (a : Nat) (acc : BusAccess) (ecc : Ecc) : State :=
  if readsStored a acc then s.ecc (64 * (a / 64)) (.controller (ownerDie a)) ecc else s

/-- The stored line is poisoned, or its code finds it uncorrectable as the access reads it. -/
def State.foundBad (a : Nat) (acc : BusAccess) (ecc : Ecc) : Bool :=
  s.linePoisoned (a / 64) || readsStored a acc && ecc == .uncorrectable

variable {ecc : Ecc}

theorem State.byte_afterCode (x : Nat) : (s.afterCode a acc ecc).byte x = s.byte x := by
  unfold State.afterCode
  split
  · exact s.byte_ecc ..
  · rfl

theorem State.modifiedCopy_afterCode (l : Nat) : (s.afterCode a acc ecc).modifiedCopy l = s.modifiedCopy l := by
  unfold State.afterCode
  split
  · exact State.modifiedCopy_congr (by simp) l
  · rfl

theorem State.afterCode_flights : (s.afterCode a acc ecc).flights = s.flights := by
  unfold State.afterCode
  split <;> simp

theorem State.afterCode_out : (s.afterCode a acc ecc).out = s.out := by
  unfold State.afterCode
  split <;> simp

theorem State.linePoisoned_afterCode (k : Nat) : (s.afterCode a acc ecc).linePoisoned k =
    if k = a / 64 then s.foundBad a acc ecc else s.linePoisoned k := by
  have hl : 64 * (a / 64) / 64 = a / 64 := by omega
  unfold State.afterCode State.foundBad
  cases readsStored a acc with
  | false => split <;> simp_all
  | true =>
    rw [if_pos rfl, State.linePoisoned_ecc, hl]
    split <;> simp_all

theorem State.storedRead_foldl {eccs : List Ecc} (h0 : 0 < busLength acc) (hn : a % 64 + busLength acc ≤ 64) :
    (storedRead a acc).foldl
      (fun s l => s.ecc (64 * l) (.controller (ownerDie a)) ((ecc :: eccs).getD (l - a / 64) .clean)) s =
    s.afterCode a acc ecc := by
  rw [storedRead_eq h0 hn, State.afterCode]
  split <;> simp

theorem State.anyPoison_of_line {n : Nat} (h0 : 0 < n) (hn : a % 64 + n ≤ 64) :
    s.anyPoison a n = s.linePoisoned (a / 64) := by
  have hlast : (a + n - 1) / 64 = a / 64 := by omega
  have hline : ∀ l, (a / 64 ≤ l ∧ n ≠ 0 ∧ l ≤ a / 64) ↔ l = a / 64 := by omega
  simp only [State.anyPoison, State.linePoisoned, hlast, hline]
  rw [List.contains_eq_any_beq]
  congr 1
  funext l
  rw [Bool.eq_iff_iff, beq_iff_eq, decide_eq_true_eq]
  exact eq_comm

variable {mark : Bool} {eccs : List Ecc}

theorem State.access_read {n : Nat} (hhost : isHostMem (64 * (a / 64)) = false) (h0 : 0 < n) (hn : a % 64 + n ≤ 64) :
    s.access a (.read n) mark (ecc :: eccs) =
      (s.afterCode a (.read n) ecc).emit (.memData (s.bytes a n) (s.foundBad a (.read n) ecc)) := by
  unfold State.access
  rw [s.storedRead_foldl (acc := .read n) h0 hn]
  dsimp only
  rw [State.shareCopies_of_not_isHostMem _ hhost, State.anyPoison_of_line _ h0 hn, State.linePoisoned_afterCode,
    if_pos rfl, State.bytes_congr (s := s) fun x => s.byte_afterCode x]

theorem State.access_write {bs : List Byte} (h0 : 0 < bs.length) (hn : a % 64 + bs.length ≤ 64) :
    s.access a (.write bs) mark (ecc :: eccs) =
      (((s.afterCode a (.write bs) ecc).writeLine a bs mark).1).emit
        (.memAck ((s.afterCode a (.write bs) ecc).refusesPart a bs.length)) := by
  unfold State.access
  rw [s.storedRead_foldl (acc := .write bs) h0 hn]
  dsimp only
  rw [State.write_eq_writeLine mark hn h0, State.writeLine_snd mark hn]

theorem State.refusesPart_afterCode {n : Nat} : (s.afterCode a acc ecc).refusesPart a n =
    (decide (n < 64) && s.foundBad a acc ecc && (s.modifiedCopy (a / 64)).isNone) := by
  rw [State.refusesPart, State.linePoisoned_afterCode, if_pos rfl, State.modifiedCopy_afterCode]
end

/-- A request for bytes of one line is served as R234 and R236 lay down; `bad` says what was found of the stored line. -/
def LineServed (a : Nat) (acc : BusAccess) (mark bad : Bool) (s t : State) : Prop :=
  match acc with
  | .read n =>
    BytesBut 0 0 s t ∧ t.linePoisoned (a / 64) = bad ∧ t.out = s.out ++ [.memData (s.bytes a n) bad] ∧
      t.flights = s.flights
  | .write bs =>
    let refused := decide (bs.length < 64) && bad && (s.modifiedCopy (a / 64)).isNone
    (∀ x, t.byte x = if refused = false ∧ a ≤ x ∧ x < a + bs.length then bs.getD (x - a) 0 else s.byte x) ∧
      t.linePoisoned (a / 64) = (refused || mark) ∧ (∀ l, l ≠ a / 64 → t.linePoisoned l = s.linePoisoned l) ∧
      t.out = s.out ++ [.memAck refused] ∧ t.flights = s.flights

section
variable {s} {a : Nat} {acc : BusAccess} {mark : Bool} {ecc : Ecc} {eccs : List Ecc}

theorem lineServed_access (hhost : isHostMem (64 * (a / 64)) = false) (h0 : 0 < busLength acc)
    (hn : a % 64 + busLength acc ≤ 64) :
    LineServed a acc mark (s.foundBad a acc ecc) s (s.access a acc mark (ecc :: eccs)) := by
  cases acc with
  | read n =>
    rw [s.access_read (n := n) hhost h0 hn]
    refine ⟨fun x _ => s.byte_afterCode x, ?_, ?_, s.afterCode_flights⟩
    · exact (s.linePoisoned_afterCode _).trans (if_pos rfl)
    · rw [State.emit_out, s.afterCode_out]
  | write bs =>
    rw [s.access_write (bs := bs) h0 hn]
    have hrefused := s.refusesPart_afterCode (a := a) (acc := .write bs) (ecc := ecc) (n := bs.length)
    generalize hu : s.afterCode a (.write bs) ecc = u at hrefused ⊢
    refine ⟨fun x => ?_, ?_, fun l hl => ?_, ?_, ?_⟩
    · rw [← hrefused, ← s.byte_afterCode x, hu]
      exact State.byte_writeLine mark hn x
    · rw [← hrefused]
      exact (State.linePoisoned_writeLine mark hn _).trans (if_pos rfl)
    · refine (State.linePoisoned_writeLine mark hn l).trans ?_
      rw [if_neg hl, ← hu, s.linePoisoned_afterCode, if_neg hl]
    · rw [State.emit_out, State.writeLine_out mark hn, hrefused, ← hu, s.afterCode_out]
    · exact (State.writeLine_flights mark hn).trans (hu ▸ s.afterCode_flights)

theorem LineServed.unwait {bad : Bool} {t : State} {who : Waiter} {l : Nat} (h : LineServed a acc mark bad s t) :
    LineServed a acc mark bad s (t.unwait who l) := by
  cases acc <;> exact h
end

end Sys2Proof.Machine

namespace Sys2Proof

open Machine

/-- Settles O24: the code marks what it finds, then the line is read, or written as its mark allows. -/
theorem requestsFollowR234 : Obligations.RequestsFollowR234 := by
  intro s c a acc mark ecc hserved unit reads bad
  have hplace : isHostMem (64 * (a / 64)) = false ∧ codeUnit a = unit := by
    rw [isHostMem_line, codeUnit]
    rcases hserved with ⟨-, hhbm, -, -⟩ | ⟨die, off, next, -, hdie, hoff, -, -, ha⟩
    · obtain ⟨hhost, hwork⟩ := regions_of_isHbm hhbm
      exact ⟨hhost, by rw [hwork]; simp [unit, hhbm]⟩
    · obtain ⟨hhbm, hhost, hwork⟩ := regions_of_workMem hdie hoff ha
      exact ⟨hhost, by rw [hwork]; simp [unit, hhbm]⟩
  have hbad : s.foundBad a acc ecc = bad := by
    unfold State.foundBad
    cases acc with
    | read n => rfl
    | write bs => simp only [readsStored, hplace.2, bad, reads]
  have hexec : ∃ t, exec c s = .next t ∧
      (0 < busLength acc → a % 64 + busLength acc ≤ 64 → LineServed a acc mark bad s t) := by
    rcases hserved with ⟨rfl, ha, hmeets, hext⟩ | ⟨die, off, next, rfl, hdie, hoff, hdown, hinit, rfl⟩
    · refine ⟨_, rfl, fun h0 hn => ?_⟩
      rw [State.hbmRequest, hmeets, hext, ← hbad]
      exact (lineServed_access hplace.1 h0 hn).unwait
    · refine ⟨_, congrArg Host.Outcome.next ((if_neg (Nat.not_le.2 hoff)).trans ((if_neg (by simp [hdown])).trans
        (if_neg (by simp [State.wmBusy, hinit])))), fun h0 hn => ?_⟩
      rw [← hbad]
      exact lineServed_access hplace.1 h0 hn
  obtain ⟨t, ht, hline⟩ := hexec
  cases acc with
  | read n => exact fun h0 hn => ⟨t, ht, hline h0 hn⟩
  | write bs => exact fun h0 hn => ⟨t, ht, hline h0 hn⟩

end Sys2Proof
end

section
/-! SUPPORT. O30: a fetch that changes the bias of what it fetches. -/

namespace Sys2Proof

set_option Elab.async false

open Machine

/-- HD0 runs, and its bias table stands at the base of its own host memory: the first byte of the table holds the code of the
granule that it lies in, SHR. HD1 holds that line modified, with zeros, which is the code DEV. No rule of R356 would place the
table there, but the statement speaks of every state. -/
def selfCoded : State :=
  { (State.reset.setReg (Reg.tdDie 80) 0x200).setReg (Reg.hxBiasBaseHi 80) 0x800 with
    mem := [(hostBase 0, 1)]
    host := { State.reset.host with copies := [⟨1, hostBase 0 / 64, .modified, []⟩] } }

/-- A fetch of four bytes of the line by the first hart of HD0, through the caches. -/
def selfFetch : Instr := .hostCoreAccess 0 false false (hostBase 0) 4 .fetch .clean

theorem selfCoded_running : selfCoded.dieState 80 = 2 := by decide +kernel

theorem selfCoded_reached : selfCoded.coreReach 0 (hostBase 0) = .ok := by decide +kernel

theorem selfCoded_cacheable : selfCoded.cacheable (hostBase 0) (some (.hart 0)) = true := by decide +kernel

/-- The snoop sends HD1's data home, the granule is DEV from then on, and no cache of the core takes the line. -/
theorem selfFetched_cores : (selfCoded.coreMemory 0 false (hostBase 0) 4 .fetch .clean).host.cores = [] := by
  decide +kernel

theorem exec_selfFetch :
    exec selfFetch selfCoded = .next (selfCoded.coreMemory 0 false (hostBase 0) 4 .fetch .clean) :=
  congrArg Host.Outcome.next ((if_pos ⟨by decide, selfCoded_running⟩).trans (if_neg (by decide)))

/-- Refutes O30: a fetch of cacheable code whose line the L1I does not hold, after which it does not hold it either. In
`selfCoded` the line is part of the bias table that codes it, and the fetch's snoop writes the table. -/
theorem not_hostCoresFollowR357 : ¬ Obligations.HostCoresFollowR357 := by
  rintro ⟨hall, -⟩
  obtain ⟨hserved, -⟩ := hall selfCoded 0 false false (hostBase 0) (by decide) selfCoded_running
  obtain ⟨-, hfetch, -⟩ := hserved selfCoded_reached (by decide)
  obtain ⟨t, ht, -, -, -, -, hheld⟩ :=
    hfetch 4 (by decide) (by decide) selfCoded_cacheable (by decide) (by decide)
  cases exec_selfFetch.symm.trans ht
  obtain ⟨c, hc, -⟩ := hheld rfl
  rw [selfFetched_cores] at hc
  exact absurd hc List.not_mem_nil

end Sys2Proof
end

section
/-! SUPPORT. O6, O55: what holds of the queue, the descriptors and the next number of a state; how it passes through `if` and
`foldl`, and the updates of the state that keep it. -/

namespace Sys2Proof.Machine

set_option Elab.async false

/-! ### The numbers of descriptors -/

/-- No two descriptors carry one number, and every number is lower than the next. -/
def Numbered (fs : List Flight) (n : Nat) : Prop := (fs.map (·.fid)).Nodup ∧ ∀ f ∈ fs, f.fid < n

theorem Numbered.of_sublist {fs gs : List Flight} {n : Nat} (h : Numbered fs n) (k : gs.Sublist fs) : Numbered gs n :=
  ⟨h.1.sublist (k.map _), fun f hf => h.2 f (k.subset hf)⟩

theorem Numbered.map {fs : List Flight} {n : Nat} {g : Flight → Flight} (h : Numbered fs n) (k : ∀ f, (g f).fid = f.fid) :
    Numbered (fs.map g) n := by
  refine ⟨?_, fun f hf => ?_⟩
  · rw [List.map_map, show (fun f : Flight => f.fid) ∘ g = (·.fid) from funext k]
    exact h.1
  · obtain ⟨x, hx, rfl⟩ := List.mem_map.1 hf
    rw [k x]
    exact h.2 x hx

/-- New descriptors take the next numbers in order. -/
theorem Numbered.append {fs cs : List Flight} {n : Nat} (h : Numbered fs n) (k : cs.map (·.fid) = List.range' n cs.length) :
    Numbered (fs ++ cs) (n + cs.length) := by
  have hc : ∀ c ∈ cs, n ≤ c.fid ∧ c.fid < n + cs.length := fun c hc => by
    have : c.fid ∈ List.range' n cs.length := k ▸ List.mem_map_of_mem hc
    simpa using this
  refine ⟨?_, fun f hf => ?_⟩
  · rw [List.map_append, List.nodup_append, k]
    refine ⟨h.1, List.nodup_range', fun a ha b hb => ?_⟩
    obtain ⟨f, hf, rfl⟩ := List.mem_map.1 ha
    have := h.2 f hf
    simp only [List.mem_range'_1] at hb
    omega
  · rcases List.mem_append.1 hf with hf | hf
    · exact Nat.lt_add_right _ (h.2 f hf)
    · exact (hc f hf).2

/-! ### What holds of a state -/

/-- A predicate holds of the queue of waiting commands, the descriptors and the next number of a state. -/
def State.Holds (s : State) (P : List Instr → List Flight → Nat → Prop) : Prop := P s.pending s.flights s.nextFid

/-- The queue, the descriptors and the next number are those of `o`. -/
def sameAs (o : State) : List Instr → List Flight → Nat → Prop := fun q fs n =>
  q = o.pending ∧ fs = o.flights ∧ n = o.nextFid

/-- The queue is that of `o`, and the numbers of the descriptors are in order if those of `o` are. -/
def keptFrom (o : State) : List Instr → List Flight → Nat → Prop := fun q fs n =>
  q = o.pending ∧ (Numbered o.flights o.nextFid → Numbered fs n)

/-- The command answers a next state, which keeps what holds. -/
def Keeps (P : List Instr → List Flight → Nat → Prop) (s : State) (o : Host.Outcome State Fault Refusal) : Prop :=
  ∃ t, o = .next t ∧ (s.Holds P → t.Holds P)

/-- The predicate holds of the state of a run. -/
def Run.Holds (r : Run) (P : List Instr → List Flight → Nat → Prop) : Prop := r.s.Holds P

/-- The predicate holds of the state that performing a frame leaves. -/
def Performed.Holds (p : Performed) (P : List Instr → List Flight → Nat → Prop) : Prop := match p with
  | .taken s => s.Holds P
  | .fails s _ => s.Holds P
  | .later s => s.Holds P

/-- The predicate holds of the state after a line that has been read. -/
def LineRead.Holds (l : LineRead) (P : List Instr → List Flight → Nat → Prop) : Prop := match l with
  | .data s _ => s.Holds P
  | _ => True

theorem Run.Holds.s {r : Run} {P} (h : r.Holds P) : r.s.Holds P := h

variable {P : List Instr → List Flight → Nat → Prop} {orig s t : State} {r q : Run}

theorem Keeps.next (h : s.Holds P → t.Holds P) : Keeps P s (.next t) := ⟨t, rfl, h⟩

theorem State.Holds.self : s.Holds (sameAs s) := ⟨rfl, rfl, rfl⟩

/-- What holds of a state holds of one with the same queue, descriptors and next number. -/
theorem State.Holds.of_same (h : t.Holds (sameAs s)) (k : s.Holds P) : t.Holds P := by
  obtain ⟨hq, hf, hn⟩ := h
  unfold State.Holds
  rw [hq, hf, hn]
  exact k

/-- Descriptors changed, under their numbers. -/
theorem State.Holds.flightsMap {g : Flight → Flight} (h : s.Holds (keptFrom orig)) (k : ∀ f, (g f).fid = f.fid) :
    ({ s with flights := s.flights.map g } : State).Holds (keptFrom orig) :=
  ⟨h.1, fun ho => (h.2 ho).map k⟩

/-- Descriptors that leave. -/
theorem State.Holds.flightsSublist {fs : List Flight} (h : s.Holds (keptFrom orig)) (k : fs.Sublist s.flights) :
    ({ s with flights := fs } : State).Holds (keptFrom orig) :=
  ⟨h.1, fun ho => (h.2 ho).of_sublist k⟩

/-- Descriptors that join. -/
theorem State.Holds.flightsAppend {cs : List Flight} (h : s.Holds (keptFrom orig))
    (k : cs.map (·.fid) = List.range' s.nextFid cs.length) :
    ({ s with flights := s.flights ++ cs, nextFid := s.nextFid + cs.length } : State).Holds (keptFrom orig) :=
  ⟨h.1, fun ho => (h.2 ho).append k⟩

theorem State.Holds.setFlight {f} (h : s.Holds (keptFrom orig)) : (s.setFlight f).Holds (keptFrom orig) :=
  h.flightsMap fun g => by split <;> simp_all
theorem State.Holds.addFlights {cs} (h : s.Holds (keptFrom orig)) (k : cs.map (·.fid) = List.range' s.nextFid cs.length) :
    (s.addFlights cs).Holds (keptFrom orig) := h.flightsAppend k
theorem State.Holds.dropFlight {fid} (h : s.Holds (keptFrom orig)) : (s.dropFlight fid).Holds (keptFrom orig) :=
  h.flightsSublist List.filter_sublist

/-- An update of fields that the predicate does not speak of. -/
theorem State.Holds.same {regs mem poison moduleId nextStart turns reports sigQ irqQ flog out free tb tbMarks vr vrMarks wAct wShd
    passes scrubPos wir ppr wmQ mbx mbxBad host pcie fab commits courses refQ losses answered pw pins sm jtag} (h : s.Holds P) :
    ({ s with
       regs, mem, poison, moduleId, nextStart, turns, reports, sigQ, irqQ, flog, out, free, tb, tbMarks, vr, vrMarks, wAct, wShd,
       passes, scrubPos, wir, ppr, wmQ, mbx, mbxBad, host, pcie, fab, commits, courses, refQ, losses, answered, pw, pins, sm,
       jtag } : State).Holds P := h

theorem LineRead.Holds.of_data {l : LineRead} {bs} (e : l = .data s bs) (h : l.Holds P) : s.Holds P := by
  rw [e] at h; exact h
theorem State.Holds.run {die fid stop code detail sat rm merges far ext sends guards lines uses pairs hint} (h : s.Holds P) :
    Run.Holds ⟨s, die, fid, stop, code, detail, sat, rm, merges, far, ext, sends, guards, lines, uses, pairs, hint⟩ P := h

theorem State.Holds.ite {c : Prop} {_ : Decidable c} (h : s.Holds P) (k : t.Holds P) : (if c then s else t).Holds P := by
  split <;> assumption
theorem Run.Holds.ite {c : Prop} {_ : Decidable c} (h : r.Holds P) (k : q.Holds P) : (if c then r else q).Holds P := by
  split <;> assumption
theorem Performed.Holds.ite {p q : Performed} {c : Prop} {_ : Decidable c} (h : p.Holds P) (k : q.Holds P) :
    (if c then p else q).Holds P := by
  split <;> assumption
theorem Performed.Holds.taken {p : Performed} (h : p.Holds P) (e : p = .taken s) : s.Holds P := by rw [e] at h; exact h
theorem Performed.Holds.fails {p : Performed} {c} (h : p.Holds P) (e : p = .fails s c) : s.Holds P := by rw [e] at h; exact h
theorem Performed.Holds.later {p : Performed} (h : p.Holds P) (e : p = .later s) : s.Holds P := by rw [e] at h; exact h
theorem State.Holds.fst_ite {α} {x y : State × α} {c : Prop} {_ : Decidable c} (h : x.1.Holds P) (k : y.1.Holds P) :
    (if c then x else y).1.Holds P := by
  split <;> assumption
theorem State.Holds.pair {α} {a : α} (h : s.Holds P) : (s, a).1.Holds P := h
theorem Run.Holds.pair {α} {a : α} (h : r.Holds P) : (r, a).1.Holds P := h
theorem State.Holds.snd_ite {α} {x y : α × State} {c : Prop} {_ : Decidable c} (h : x.2.Holds P) (k : y.2.Holds P) :
    (if c then x else y).2.Holds P := by
  split <;> assumption
theorem Run.Holds.fst_ite {α} {x y : Run × α} {c : Prop} {_ : Decidable c} (h : x.1.Holds P) (k : y.1.Holds P) :
    (if c then x else y).1.Holds P := by
  split <;> assumption
theorem Run.Holds.of_fst {α} {x : Run × α} {a : α} (e : x = (r, a)) (h : x.1.Holds P) : r.Holds P := by rw [e] at h; exact h
theorem State.Holds.foldl {β} {f : State → β → State} {l : List β} (h : s.Holds P) (hf : ∀ s x, s.Holds P → (f s x).Holds P) :
    (l.foldl f s).Holds P :=
  List.foldlRecOn (motive := fun s => s.Holds P) l f h (fun s hs x _ => hf s x hs)
theorem Run.Holds.foldl {β} {f : Run → β → Run} {l : List β} (h : r.Holds P) (hf : ∀ s x, s.Holds P → (f s x).Holds P) :
    (l.foldl f r).Holds P :=
  List.foldlRecOn (motive := fun r => r.Holds P) l f h (fun s hs x _ => hf s x hs)
theorem State.Holds.fst_foldl {α β} {f : State × α → β → State × α} {x : State × α} {l : List β} (h : x.1.Holds P)
    (hf : ∀ s x, s.1.Holds P → (f s x).1.Holds P) :
    (l.foldl f x).1.Holds P :=
  List.foldlRecOn (motive := fun x : State × α => x.1.Holds P) l f h (fun s hs x _ => hf s x hs)
theorem Run.Holds.fst_foldl {α β} {f : Run × α → β → Run × α} {x : Run × α} {l : List β} (h : x.1.Holds P)
    (hf : ∀ s x, s.1.Holds P → (f s x).1.Holds P) :
    (l.foldl f x).1.Holds P :=
  List.foldlRecOn (motive := fun x : Run × α => x.1.Holds P) l f h (fun s hs x _ => hf s x hs)
theorem Run.Holds.map_ite {α} {g : α → Run} {x y : α} {c : Prop} {_ : Decidable c} (h : (g x).Holds P) (k : (g y).Holds P) :
    (g (if c then x else y)).Holds P := by
  split <;> assumption
theorem Run.Holds.map_foldl {α β} {g : α → Run} {f : α → β → α} {x : α} {l : List β} (h : (g x).Holds P)
    (hf : ∀ x b, (g x).Holds P → (g (f x b)).Holds P) : (g (l.foldl f x)).Holds P :=
  List.foldlRecOn (motive := fun x => (g x).Holds P) l f h (fun x hx b _ => hf x b hx)

theorem State.Holds.setReg {a v} (h : s.Holds P) : (s.setReg a v).Holds P := h
theorem State.Holds.putFld {a hi lo v} (h : s.Holds P) : (s.putFld a hi lo v).Holds P := h.setReg
theorem State.Holds.setFlag {a i b} (h : s.Holds P) : (s.setFlag a i b).Holds P := h.putFld
theorem State.Holds.count {a n} (h : s.Holds P) : (s.count a n).Holds P := h.setReg
theorem State.Holds.log {die kind addr info who acc} (h : s.Holds P) : (s.log die kind addr info who acc).Holds P := h.same
theorem State.Holds.emit {e} (h : s.Holds P) : (s.emit e).Holds P := h.same
theorem State.Holds.interrupt {src target} (h : s.Holds P) : (s.interrupt src target).Holds P := h.same
theorem State.Holds.freeWord (h : s.Holds P) : (s.freeWord).2.Holds P := h.same
theorem State.Holds.freeCount (h : s.Holds P) : (s.freeCount).2.Holds P := h.same
theorem State.Holds.freeBytes {n} (h : s.Holds P) : (s.freeBytes n).2.Holds P := h.same
theorem State.Holds.putMem {a bs} (h : s.Holds P) : (s.putMem a bs).Holds P :=
  h
theorem State.Holds.markPoison {line} (h : s.Holds P) : (s.markPoison line).Holds P :=
  h
theorem State.Holds.clearPoison {line} (h : s.Holds P) : (s.clearPoison line).Holds P := h
theorem State.Holds.invalidate {line} (h : s.Holds P) : (s.invalidate line).Holds P := by
  unfold State.invalidate
  cases s.modifiedCopy line with
  | none => exact h.same
  | some d => exact h.putMem.clearPoison.same
theorem State.Holds.writeLine {a bs mark} (h : s.Holds P) : (s.writeLine a bs mark).1.Holds P :=
  .fst_ite (.ite h.invalidate.putMem.markPoison h.invalidate.putMem.clearPoison) (.fst_ite h.invalidate (.ite
    h.invalidate.putMem.markPoison h.invalidate.putMem))
theorem State.Holds.writeRun {a bs mark fuel} (h : s.Holds P) : (s.writeRun a bs mark fuel).1.Holds P := by
  induction fuel generalizing s a bs with
  | zero => exact h
  | succ n ih =>
    cases bs with
    | nil => exact h
    | cons b bs => exact ih h.writeLine
theorem State.Holds.write {a bs mark} (h : s.Holds P) : (s.write a bs mark).1.Holds P := h.writeRun
theorem State.Holds.unwait {who line} (h : s.Holds P) : (s.unwait who line).Holds P := h.same
theorem State.Holds.enableReq {ctrl} (h : s.Holds P) : (s.enableReq ctrl).Holds P := by
  unfold State.enableReq
  extract_lets
  split
  · exact h.setFlag.setFlag.putFld
  · exact h.setFlag.setFlag
  · exact h.setFlag
theorem State.Holds.disableReq {ctrl} (h : s.Holds P) : (s.disableReq ctrl).Holds P := by
  unfold State.disableReq
  split
  · exact h.putFld
  · exact h.putFld
  · exact h.setFlag
  · exact h
theorem State.Holds.enablingEnd {ctrl ok} (h : s.Holds P) : (s.enablingEnd ctrl ok).Holds P := .ite h.putFld h.putFld.setFlag
theorem State.Holds.disablingEnd {ctrl} (h : s.Holds P) : (s.disablingEnd ctrl).Holds P := h.putFld
theorem State.Holds.enableByte {ctrl v} (h : s.Holds P) : (s.enableByte ctrl v).Holds P := .ite h.disableReq (.ite h.enableReq h)
theorem State.Holds.tickTimer {hd} (h : s.Holds P) : (s.tickTimer hd).Holds P := .ite h.setReg.setReg h
theorem State.Holds.tick (h : s.Holds P) : s.tick.Holds P := h.foldl (fun _ _ h1 => h1.tickTimer)
theorem State.Holds.setPools {p v} (h : s.Holds P) : (s.setPools p v).Holds P := h.same
theorem State.Holds.sendLink {p f} (h : s.Holds P) : (s.sendLink p f).Holds P := h.emit
theorem State.Holds.returnCredits {p i n} (h : s.Holds P) : (s.returnCredits p i n).Holds P := h.sendLink
theorem State.Holds.payBack {owed} (h : s.Holds P) : (s.payBack owed).Holds P := by
  unfold State.payBack
  split
  · exact .ite h.returnCredits h
  · exact h
theorem State.Holds.pump {p n q held} (h : s.Holds P) : (s.pump p n q held).1.Holds P := by
  induction n generalizing s q held with
  | zero => exact h
  | succ n ih =>
    cases q with
    | nil => exact h
    | cons x q => exact .fst_ite (ih h) (ih h.setPools.emit.payBack)
theorem State.Holds.drainPort {p} (h : s.Holds P) : (s.drainPort p).Holds P := .ite h h.pump.same
theorem State.Holds.sendPort {io p vl f owed} (h : s.Holds P) : (s.sendPort io p vl f owed).Holds P :=
  .ite h.same.drainPort (.log (.ite h.payBack.count h.payBack))
theorem State.Holds.sendRouted {io f} (h : s.Holds P) : (s.sendRouted io f).Holds P := h.sendPort
theorem State.Holds.sendPlain {flow seq b} (h : s.Holds P) : (s.sendPlain flow seq b).Holds P := h.sendRouted
theorem State.Holds.openWindow {flow n} (h : s.Holds P) : (s.openWindow flow n).Holds P := by
  induction n generalizing s with
  | zero => exact h
  | succ n ih =>
    unfold State.openWindow
    cases s.fab.unacked.find? (fun u => decide (u.flow = flow ∧ u.sends = 0)) with
    | none => exact h
    | some u => exact .ite (ih h.same.setReg.sendRouted) h
theorem State.Holds.sendSeq {flow b fid ix} (h : s.Holds P) : (s.sendSeq flow b fid ix).Holds P := .ite h.same.openWindow h.same
theorem State.Holds.sendAck {flow} (h : s.Holds P) : (s.sendAck flow).Holds P := h.same.sendPlain
theorem State.Holds.visible {flow last} (h : s.Holds P) : (s.visible flow last).Holds P := .ite h.sendAck h.same

end Sys2Proof.Machine
end

section
/-! SUPPORT. O6, O55: the reads and writes of operands and what a run meets keep what holds of queue and descriptors. -/

namespace Sys2Proof.Machine

set_option Elab.async false

variable {P : List Instr → List Flight → Nat → Prop} {orig s t : State} {r q : Run}

theorem State.Holds.shareCopies {line} (h : s.Holds P) : (s.shareCopies line).Holds P := by
  unfold State.shareCopies
  exact .ite (.same (by (split; exacts [h.putMem.clearPoison, h]))) h
theorem State.Holds.filterRoom {home} (h : s.Holds P) : (s.filterRoom home).Holds P := .ite h h.freeCount.invalidate
theorem State.Holds.dropCopy {agent line} (h : s.Holds P) : (s.dropCopy agent line).Holds P := h.same
theorem State.Holds.dropCores {agent line} (h : s.Holds P) : (s.dropCores agent line).Holds P := h.same
theorem State.Holds.writeBack {c} (h : s.Holds P) : (s.writeBack c).Holds P := .ite h.putMem.clearPoison h
theorem State.Holds.setOwner {agent line e} (h : s.Holds P) : (s.setOwner agent line e).Holds P := h.same
theorem State.Holds.releaseCopy {c} (h : s.Holds P) : (s.releaseCopy c).Holds P := h.writeBack.dropCopy.dropCores.setOwner.same
theorem State.Holds.cacheRoom {agent} (h : s.Holds P) : (s.cacheRoom agent).Holds P := by
  unfold State.cacheRoom
  refine .ite h ?_
  dsimp only
  split
  · exact .ite h.freeCount.invalidate h.freeCount.releaseCopy
  · exact h.freeCount
theorem State.Holds.placeShared {agent line} (h : s.Holds P) : (s.placeShared agent line).Holds P :=
  have k1 := State.Holds.ite h.filterRoom.same h
  .ite k1 k1.cacheRoom.same
theorem State.Holds.coreFill {cache hart line} (h : s.Holds P) : (s.coreFill cache hart line).Holds P :=
  .same (.snd_ite h h.freeCount)
theorem State.Holds.hintPlace {hint line} (h : s.Holds P) : (s.hintPlace hint line).Holds P :=
  .ite h (.ite h.freeCount (.ite h.freeCount.placeShared.coreFill h.freeCount.placeShared))
theorem State.Holds.start {die fid hint} (h : s.Holds P) : (Run.start s die fid hint).Holds P := h.run
theorem Run.Holds.raise {code detail} (h : r.Holds P) : (r.raise code detail).Holds P := .ite h.s.run h
theorem Run.Holds.raiseLog {code die kind a acc} (h : r.Holds P) : (r.raiseLog code die kind a acc).Holds P := h.s.log.run.raise
theorem Run.Holds.miss {m a acc} (h : r.Holds P) : (r.miss m a acc).Holds P := by
  unfold Run.miss
  extract_lets
  split
  · exact h.s.run.raiseLog
  · exact h.s.run.raiseLog
  · exact h.s.run.raiseLog
  · exact h.s.run.raise
  · exact h.s.run.raise
  · refine .ite h.s.run.raise ?_
    split
    · exact h.s.run.raise
    · exact h.s.run.s.freeWord.run.raise
theorem Run.Holds.poisoned {a acc} (h : r.Holds P) : (r.poisoned a acc).Holds P := .ite h.raise h.raiseLog
theorem Run.Holds.answered {a acc} (h : r.Holds P) : (r.answered a acc).Holds P := by
  unfold Run.answered
  extract_lets
  split
  · exact h.s.run.miss
  · exact h.s.run
theorem Run.Holds.addSat {n} (h : r.Holds P) : (r.addSat n).Holds P := h.s.run
theorem Run.Holds.max {x} (h : r.Holds P) : (r.max x).Holds P := h.s.run
theorem Run.Holds.maxes {xs} (h : r.Holds P) : (r.maxes xs).Holds P := h.s.run
theorem Run.Holds.usesFlow {f} (h : r.Holds P) : (r.usesFlow f).Holds P := h.s.run
theorem Run.Holds.farRead {m a acc} (h : r.Holds P) : (r.farRead m a acc).1.Holds P := by
  unfold Run.farRead
  split
  · exact .fst_ite h.miss (.usesFlow (.ite h.raise h))
  · split
    · exact h.s.run
    · split
      · exact h.miss
      · exact h.s.run
theorem Run.Holds.readLine {p n} (h : r.Holds P) : (r.readLine p n).1.Holds P := by
  unfold Run.readLine
  split
  · exact h.miss
  · split
    · exact h.miss
    · split
      · exact h.s.run
      · exact .fst_ite h.s.shareCopies.run.answered (.ite h.s.shareCopies.run.answered.poisoned
          h.s.shareCopies.run.answered)
  · split
    · next e => exact .of_fst e h.farRead
    · next e => exact .of_fst e h.farRead
theorem Run.Holds.readRun {w off n fuel} (h : r.Holds P) : (r.readRun w off n fuel).1.Holds P := by
  induction fuel generalizing r off n with
  | zero => exact h
  | succ k ih => exact .fst_ite h (.fst_ite h.readLine (ih h.readLine))
theorem Run.Holds.read {w off n} (h : r.Holds P) : (r.read w off n).1.Holds P := h.readRun
theorem Run.Holds.readNat {w off n} (h : r.Holds P) : (r.readNat w off n).1.Holds P := h.read
theorem Run.Holds.patchFar {m a bs mark} (h : r.Holds P) : (r.patchFar m a bs mark).Holds P := h.s.same.run
theorem Run.Holds.sendWrite {f m a before bs mark} (h : r.Holds P) : (r.sendWrite f m a before bs mark).Holds P :=
  h.patchFar.usesFlow.s.run
theorem Run.Holds.writeLine {p bs mark} (h : r.Holds P) : (r.writeLine p bs mark).Holds P := by
  unfold Run.writeLine
  split
  · exact h.miss
  · split
    · exact h.miss
    · split
      · exact h.s.run
      · exact .answered (.ite (.poisoned (State.Holds.run (.ite h.s.writeLine.hintPlace h.s.writeLine)))
          (State.Holds.run (.ite h.s.writeLine.hintPlace h.s.writeLine)))
  · refine .ite ?_ ?_
    · split
      · exact h.miss
      · exact .sendWrite (.ite h.raise h)
    · split
      · next e => exact .of_fst e h.farRead
      · next e =>
          have k := Run.Holds.of_fst e h.farRead
          split
          · exact k.miss
          · exact .sendWrite (.ite k.raise k)
theorem Run.Holds.writeRun {w off bs mark fuel} (h : r.Holds P) : (r.writeRun w off bs mark fuel).Holds P := by
  induction fuel generalizing r off bs with
  | zero => exact h
  | succ n ih => exact .ite h (.ite h.writeLine (ih h.writeLine))
theorem Run.Holds.write {w off bs mark} (h : r.Holds P) : (r.write w off bs mark).Holds P := h.writeRun
theorem Run.Holds.readElems {o off n} (h : r.Holds P) : (r.readElems o off n).1.Holds P := h.read.addSat
theorem Run.Holds.meeting {go} (h : r.Holds P) (hgo : ∀ x1, x1.Holds P → (go x1).Holds P) : (r.meeting go).1.Holds P :=
  have k1 := hgo _ h.s.run
  .ite k1 k1.s.run
theorem Run.Holds.writeElems {o gather off xs mark} (h : r.Holds P) : (r.writeElems o gather off xs mark).Holds P :=
  .write (.ite h.addSat.maxes h.addSat)
theorem State.Holds.holdFor {line holder who} (h : s.Holds P) : (s.holdFor line holder who).Holds P := by
  unfold State.holdFor
  exact .ite h (.ite (by (split; exacts [.ite h h.same, h])) (.ite (.emit (.same (by (split; exacts [.ite h h.same,
    h])))) (.same (by (split; exacts [.ite h h.same, h])))))
theorem State.Holds.askFor {fid far ext} (h : s.Holds P) : (s.askFor fid far ext).Holds P :=
  .foldl (h.foldl (fun _ _ h1 => .ite h1 h1.sendSeq)) (fun _ _ h1 => h1.holdFor)
theorem State.Holds.unwaitDesc {fid} (h : s.Holds P) : (s.unwaitDesc fid).Holds P := h.same
theorem State.Holds.sendAll {fid sends} (h : s.Holds P) : (s.sendAll fid sends).Holds P := h.foldl (fun _ _ h1 => h1.sendSeq)
theorem State.Holds.dropLines {fid} (h : s.Holds P) : (s.dropLines fid).Holds P := h.same
theorem Run.Holds.finish {s0 : State} {f cycles unitFault} (h : r.Holds (sameAs s0)) (hs0 : s0.Holds (keptFrom orig)) :
    (r.finish s0 f cycles unitFault).Holds (keptFrom orig) := by
  unfold Run.finish
  split
  · exact hs0.askFor
  · extract_lets u v
    have k : v.Holds (sameAs s0) := .ite h.s.sendAll.unwaitDesc.dropLines h.s.sendAll.unwaitDesc
    exact .setFlight (.of_same ⟨k.1, rfl, k.2.2⟩ hs0)
theorem Run.Holds.ends {x : Run × Nat} {s0 : State} {f unitFault} (h : x.1.Holds (sameAs s0)) (hs0 : s0.Holds (keptFrom orig)) :
    (Run.ends x s0 f unitFault).Holds (keptFrom orig) :=
  h.finish hs0
theorem State.Holds.finishWith {f status detail} (h : s.Holds (keptFrom orig)) : (s.finishWith f status detail).Holds (keptFrom orig) := h.setFlight

end Sys2Proof.Machine
end

section
/-! SUPPORT. O6, O55: the functions of a descriptor's end, of slots, rings, gangs and tile buffers keep what holds of queue and descriptors. -/

namespace Sys2Proof.Machine

set_option Elab.async false

variable {P : List Instr → List Flight → Nat → Prop} {orig s t : State} {r q : Run}

theorem State.Holds.msop {a op mask data mark} (h : s.Holds P) : (s.msop a op mask data mark).1.Holds P := by
  unfold State.msop
  split
  · exact h
  · exact .fst_ite h.invalidate (.fst_ite h.invalidate.markPoison h.invalidate.putMem)
theorem Run.Holds.msop {p op mask data mark} (h : r.Holds P) : (r.msop p op mask data mark).Holds P := by
  unfold Run.msop
  split
  · exact h.miss
  · refine .ite h.miss ?_
    split
    · exact h.miss
    · split
      · exact h.s.run
      · exact .answered (.ite h.s.msop.run.poisoned h.s.msop.run)
  · refine .ite h.miss ?_
    split
    · exact h.miss
    · exact State.Holds.run (Run.Holds.s (.usesFlow (.ite h.raise h)))
theorem Run.Holds.msopAt {w off op v mark} (h : r.Holds P) : (r.msopAt w off op v mark).Holds P := by
  unfold Run.msopAt
  split
  · exact h
  · exact h.msop
theorem State.Holds.setChange {die c} (h : s.Holds P) : (s.setChange die c).Holds P := h.same.setFlag
theorem State.Holds.nextPart {die goal} (h : s.Holds P) : (s.nextPart die goal).Holds P :=
  .ite h.setChange (.ite h.setChange (.ite h.setChange h.setChange.putFld))
theorem State.Holds.evalDie {die} (h : s.Holds P) : (s.evalDie die).Holds P := by
  unfold State.evalDie
  refine .ite h ?_
  dsimp only
  refine .ite h.putFld.putFld.putFld ?_
  split
  · exact .ite h.putFld.putFld.putFld.nextPart h.putFld.putFld.putFld
  · exact .ite h.putFld.putFld.putFld h.putFld.putFld.putFld.nextPart
theorem State.Holds.evalAll (h : s.Holds P) : s.evalAll.Holds P := h.foldl (fun _ _ h1 => h1.evalDie)
theorem State.Holds.goOn {die} (h : s.Holds P) : (s.goOn die).Holds P := .ite h.same h.nextPart
theorem State.Holds.dividerStep {c} (h : s.Holds P) : (s.dividerStep c).Holds P := h.putFld.goOn
theorem execOpDividerStep_keeps {die} : Keeps P s (execOpDividerStep die s) := by
  refine .next fun h => ?_
  split
  · exact .ite h h.dividerStep
  · exact h
theorem State.Holds.slewDone {c} (h : s.Holds P) : (s.slewDone c).Holds P := h.same.goOn
theorem execVoltageSlewDone_keeps {die} : Keeps P s (execVoltageSlewDone die s) := by
  refine .next fun h => ?_
  split
  · exact .ite h.slewDone h
  · exact h
theorem State.Holds.droopDetect {die} (h : s.Holds P) : (s.droopDetect die).Holds P := h.setFlag.putFld.same
theorem execDroopDetect_keeps {die} : Keeps P s (execDroopDetect die s) := .next fun h => .ite h.droopDetect h
theorem State.Holds.droopEnd {die} (h : s.Holds P) : (s.droopEnd die).Holds P :=
  .ite h.setFlag.same.nextPart h.setFlag.same.evalDie
theorem execDroopEnd_keeps {die} : Keeps P s (execDroopEnd die s) := .next fun h => .ite h.droopEnd h
theorem State.Holds.longDroop {die} (h : s.Holds P) : (s.longDroop die).Holds P := h.setFlag.same.evalAll
theorem execLongDroop_keeps {die} : Keeps P s (execLongDroop die s) := .next fun h => .ite h.longDroop h
theorem State.Holds.rmMerge {die slot x} (h : s.Holds P) : (s.rmMerge die slot x).Holds P := h.setReg
theorem State.Holds.rmRules {die slot} (h : s.Holds P) : (s.rmRules die slot).Holds P := .ite h.setFlag (.ite h h.putFld.putFld)
theorem State.Holds.rmCloseSlot {die slot} (h : s.Holds P) : (s.rmCloseSlot die slot).Holds P :=
  .rmRules (.setFlag (.setReg (.setReg (.setReg (h.setReg.setReg.foldl (fun _ _ h1 => h1.setReg))))))
theorem State.Holds.rmRevertSlot {die slot} (h : s.Holds P) : (s.rmRevertSlot die slot).Holds P :=
  .setReg (.ite (.setFlag (.putFld (.putFld (.setReg (.setReg (h.foldl (fun _ _ h1 => h1.setReg))))))) h)
theorem execRmClose_keeps {die slot} : Keeps P s (execRmClose die slot s) := .next fun h => .ite h.rmCloseSlot h
theorem execRmRevert_keeps {die slot} : Keeps P s (execRmRevert die slot s) := .next fun h => .ite h.rmRevertSlot h
theorem State.Holds.applyMerges {all} (h : s.Holds P) : (s.applyMerges all).Holds P :=
  .foldl (h.foldl (fun _ _ h1 => h1.rmMerge)) (fun _ _ h1 => h1.rmCloseSlot)
theorem State.Holds.doorbell {die wide v} (h : s.Holds P) : (s.doorbell die wide v).Holds P :=
  .ite h.log (.ite h (.ite h.setFlag (.ite h.setReg h.setFlag)))
theorem execDoorbell_keeps {die wide value} : Keeps P s (execDoorbell die wide value s) :=
  .next fun h => .ite h h.doorbell
theorem execRingEnable_keeps {ring} : Keeps P s (execRingEnable ring s) := .next fun h => .ite h h.enableReq
theorem execRingEnablingDone_keeps {ring} : Keeps P s (execRingEnablingDone ring s) :=
  .next fun h => have k1 := State.Holds.ite h h.setFlag; .ite (.ite h.enablingEnd (.log (.enablingEnd (.ite k1
    k1.setFlag)))) h
theorem State.Holds.abort {f} (h : s.Holds (keptFrom orig)) : (s.abort f).Holds (keptFrom orig) := h.finishWith
theorem State.Holds.abortAll {fs} (h : s.Holds (keptFrom orig)) : (s.abortAll fs).Holds (keptFrom orig) := h.foldl (fun _ _ h1 => h1.abort)
theorem State.Holds.ringDisable {ring} (h : s.Holds (keptFrom orig)) : (s.ringDisable ring).Holds (keptFrom orig) := .ite h.disableReq.abortAll h.disableReq
theorem execRingDisable_keeps {ring} : Keeps (keptFrom orig) s (execRingDisable ring s) := .next fun h => .ite h h.ringDisable
theorem execRingDisablingDone_keeps {ring} : Keeps P s (execRingDisablingDone ring s) :=
  .next fun h => .ite h.disablingEnd h
theorem execRingResume_keeps {ring} : Keeps P s (execRingResume ring s) := .next fun h => .ite h h.setFlag
theorem State.Holds.cplRdWrite {ring v} (h : s.Holds P) : (s.cplRdWrite ring v).Holds P := .ite h.setFlag h.setReg
theorem execCplRdWrite_keeps {ring value} : Keeps P s (execCplRdWrite ring value s) :=
  .next fun h => .ite h h.cplRdWrite
theorem State.Holds.ringIrq {ring} (h : s.Holds P) : (s.ringIrq ring).Holds P := .ite h.interrupt h
theorem State.Holds.halt {ring} (h : s.Holds P) : (s.halt ring).Holds P := h.setFlag
theorem State.Holds.fetchFault {ring a status} (h : s.Holds P) : (s.fetchFault ring a status).Holds P := h.halt.setFlag.log.ringIrq
theorem State.Holds.dcRead {die a n} (h : s.Holds P) : (s.dcRead die a n).Holds P := by
  unfold State.dcRead
  split
  · trivial
  · split
    · trivial
    · split
      · trivial
      · split
        · trivial
        · exact .unwait (.ite h.shareCopies.placeShared h.shareCopies)
theorem State.Holds.fetch {ring} (h : s.Holds (keptFrom orig)) : (s.fetch ring).Holds (keptFrom orig) := by
  unfold State.fetch
  extract_lets
  split
  · exact h.unwait.fetchFault
  · exact h.holdFor
  · next e =>
      have k := LineRead.Holds.of_data e h.dcRead
      exact .ite (k.flightsAppend rfl).setReg.abort (k.flightsAppend rfl).setReg
theorem execDescriptorFetch_keeps {ring} : Keeps (keptFrom orig) s (execDescriptorFetch ring s) := .next fun h => .ite h.fetch h
theorem State.Holds.setTurn {f} (h : s.Holds P) : (s.setTurn f).Holds P := .ite h h.same
theorem execNop_keeps {fid} : Keeps (keptFrom orig) s (execNop fid s) := by
  refine .next fun h => ?_
  split
  · exact .ite h.finishWith h
  · exact h
theorem State.Holds.advanceRecord {f} (h : s.Holds (keptFrom orig)) : (s.advanceRecord f).Holds (keptFrom orig) := h.setReg.dropFlight
theorem State.Holds.dropSilent {ring} (h : s.Holds (keptFrom orig)) : (s.dropSilent ring).Holds (keptFrom orig) := h.foldl (fun _ _ h1 => h1.dropFlight)
theorem State.Holds.recordStep {ring} (h : s.Holds (keptFrom orig)) : (s.recordStep ring).1.Holds (keptFrom orig) := by
  unfold State.recordStep
  split
  · exact h
  · refine .fst_ite h (.fst_ite h ?_)
    split
    · dsimp only
      exact h.holdFor
    · exact .advanceRecord (.ite h.write.unwait.ringIrq h.write.unwait)
theorem State.Holds.writeRecords {ring n} (h : s.Holds (keptFrom orig)) : (s.writeRecords ring n).Holds (keptFrom orig) := by
  induction n generalizing s with
  | zero => exact h
  | succ n ih => exact .ite (ih h.recordStep) h.recordStep
theorem State.Holds.drainRecords {ring} (h : s.Holds (keptFrom orig)) : (s.drainRecords ring).Holds (keptFrom orig) := h.dropSilent.writeRecords
theorem State.Holds.reportRemote {f members origin ref} (h : s.Holds (keptFrom orig)) : (s.reportRemote f members origin ref).Holds (keptFrom orig) :=
  .dropFlight (h.foldl (fun _ _ h1 => h1.emit))
theorem State.Holds.complete {f} (h : s.Holds (keptFrom orig)) : (s.complete f).Holds (keptFrom orig) := by
  unfold State.complete
  extract_lets
  split
  · exact .reportRemote (.evalDie (.setFlight (.dropLines (.ite h h.applyMerges))))
  · exact
      have k1 := State.Holds.ite (.same (.evalDie (.setFlight (.dropLines (.ite h h.applyMerges))))) (.evalDie (.setFlight
        (.dropLines (.ite h h.applyMerges))))
      .ite (.evalDie (.setFlight (.dropLines (.ite h h.applyMerges)))) (.drainRecords (.ite k1.halt k1))
theorem execDescriptorComplete_keeps {fid} : Keeps (keptFrom orig) s (execDescriptorComplete fid s) := by
  refine .next fun h => ?_
  split
  · exact .ite h.complete (.ite h.drainRecords h)
  · exact h
theorem State.Holds.recordLost {f} (h : s.Holds (keptFrom orig)) : (s.recordLost f).Holds (keptFrom orig) :=
  h.setFlag.log.unwait.ringIrq.halt.advanceRecord.drainRecords
theorem execCompletionWriteFault_keeps {fid} : Keeps (keptFrom orig) s (execCompletionWriteFault fid s) := by
  refine .next fun h => ?_
  split
  · exact .ite h.recordLost h
  · exact h
theorem execFenceSignal_keeps {die ctr} : Keeps P s (execFenceSignal die ctr s) :=
  .next fun h => .ite (.ite h.same h.same.setReg) h
theorem execFenceWrite_keeps {die ctr value} : Keeps P s (execFenceWrite die ctr value s) :=
  .next fun h => .ite h h.setReg
theorem State.Holds.gangCtrlWrite {die slot v} (h : s.Holds P) : (s.gangCtrlWrite die slot v).Holds P := by
  unfold State.gangCtrlWrite
  refine .ite ?_ h.setReg
  extract_lets
  split
  · exact h.setReg
  · exact h.setReg
theorem execGangEntryValidate_keeps {die slot value} : Keeps P s (execGangEntryValidate die slot value s) :=
  .next fun h => .ite h.gangCtrlWrite h
theorem State.Holds.sendGang {f g p} (h : s.Holds P) : (s.sendGang f g p).Holds P := by
  unfold State.sendGang
  extract_lets
  split
  · exact h.emit.same
  · exact h
theorem State.Holds.dropGangOut {p} (h : s.Holds P) : (s.dropGangOut p).Holds P := h.same
theorem State.Holds.takeReport {g member r} (h : s.Holds (keptFrom orig)) : (s.takeReport g member r).Holds (keptFrom orig) := by
  unfold State.takeReport
  split
  · exact .ite h.emit.dropFlight h.emit.setFlight
  · exact .ite h.same h.same.dropGangOut.same.setFlight
theorem State.Holds.reportSilent {g silent detail} (h : s.Holds (keptFrom orig)) : (s.reportSilent g silent detail).Holds (keptFrom orig) := by
  unfold State.reportSilent
  exact h.foldl (fun _ _ h1 => by (split; exacts [h1.takeReport, h1]))
theorem sendShare_fid {f c : Flight} : (s.sendShare f c).fid = c.fid := by
  unfold State.sendShare
  dsimp only
  repeat' split
  all_goals rfl

/-- The copies of a fan-out take the next numbers in order. -/
theorem localShares_fids {f : Flight} {g p m : Nat} :
    (s.localShares f g p m).map (·.fid) = List.range' s.nextFid (s.localShares f g p m).length := by
  refine List.ext_getElem (by simp) fun i _ _ => ?_
  simp only [State.localShares, List.getElem_map, List.getElem_mapIdx, List.getElem_range', Nat.one_mul]
  split
  · rfl
  · exact sendShare_fid

theorem State.Holds.fanout {f} (h : s.Holds (keptFrom orig)) : (s.fanout f).Holds (keptFrom orig) := by
  unfold State.fanout
  refine .ite h.finishWith ?_
  refine .ite h.finishWith ?_
  refine .ite h ?_
  extract_lets
  split
  · exact h.setFlight.addFlights localShares_fids
  · exact .ite (h.setFlight.addFlights localShares_fids) (.reportSilent (.setFlight (.foldl (h.foldl (fun _ _ h1 =>
      h1.addFlights localShares_fids)) (fun _ _ h1 => h1.sendGang))))
theorem execGangFanout_keeps {fid} : Keeps (keptFrom orig) s (execGangFanout fid s) := by
  refine .next fun h => ?_
  split
  · exact .ite (.ite h.finishWith (.ite h.abort (.ite h h.fanout))) h
  · exact h
theorem execRemoteGangDescriptor_keeps {c} : Keeps (keptFrom orig) s (execRemoteGangDescriptor c s) := .next fun h => h.flightsAppend rfl
theorem State.Holds.dropOrphan {gang member} (h : s.Holds (keptFrom orig)) : (s.dropOrphan gang member).Holds (keptFrom orig) := by
  unfold State.dropOrphan
  split
  · exact h.dropFlight
  · exact h
theorem State.Holds.answeredBy {g member} (h : s.Holds P) : (s.answeredBy g member).Holds P := h.same
theorem execGangMemberReport_keeps {gang member remote} :
    Keeps (keptFrom orig) s (execGangMemberReport gang member remote s) := by
  refine .next fun h => ?_
  split
  · refine .ite ?_ h.dropOrphan
    split
    · exact .ite h.answeredBy.takeReport h
    · split
      · exact h.dropFlight.takeReport
      · exact h
  · exact h.dropOrphan
theorem State.Holds.vePoisonBit {die ep} (h : s.Holds P) : (s.vePoisonBit die ep).Holds P := h.setFlag
theorem State.Holds.tbWrite {die ep b row lo ws} (h : s.Holds P) : (s.tbWrite die ep b row lo ws).Holds P :=
  h
theorem State.Holds.tbMark {die ep b row lo hi} (h : s.Holds P) : (s.tbMark die ep b row lo hi).Holds P := h.same
theorem State.Holds.tbClear {die ep} (h : s.Holds P) : (s.tbClear die ep).Holds P :=
  h
theorem State.Holds.vrWrite {die ep reg ws} (h : s.Holds P) : (s.vrWrite die ep reg ws).Holds P :=
  h
theorem State.Holds.vrClear {die ep} (h : s.Holds P) : (s.vrClear die ep).Holds P :=
  h
theorem State.Holds.tbError {die ep fid e} (h : s.Holds P) : (s.tbError die ep fid e).Holds P := by
  unfold State.tbError
  split
  · exact h
  · exact h.log
  · exact h.same
theorem Run.Holds.laneMet {ep e} (h : r.Holds P) : (Run.laneMet ep r e).Holds P := by
  unfold Run.laneMet
  split
  · exact h
  · exact h.s.log.run
  · exact h.s.log.run.raise
theorem State.Holds.clearWeights {die ep} (h : s.Holds P) : (s.clearWeights die ep).Holds P :=
  h
theorem State.Holds.clearCols {die ep lo hi} (h : s.Holds P) : (s.clearCols die ep lo hi).Holds P :=
  h
theorem State.Holds.loadWeights {cells} (h : s.Holds P) : (s.loadWeights cells).Holds P :=
  h
theorem State.Holds.loadActive {cells} (h : s.Holds P) : (s.loadActive cells).Holds P :=
  h
theorem State.Holds.maFaultSet {die ep j status index} (h : s.Holds P) : (s.maFaultSet die ep j status index).Holds P :=
  h.setReg.setReg.setFlag
theorem State.Holds.veFaultSet {die ep f status} (h : s.Holds P) : (s.veFaultSet die ep f status).Holds P :=
  h.setFlag.setReg.setReg
theorem State.Holds.mvFaultSet {die n f status} (h : s.Holds P) : (s.mvFaultSet die n f status).Holds P := h.setReg.setReg
theorem State.Holds.vdFaultSet {die e f status} (h : s.Holds P) : (s.vdFaultSet die e f status).Holds P := h.setFlag.setReg.setReg

end Sys2Proof.Machine
end

section
/-! SUPPORT. O6, O55: the functions of the matrix and special classes keep what holds of queue and descriptors. -/

namespace Sys2Proof.Machine

set_option Elab.async false

variable {P : List Instr → List Flight → Nat → Prop} {orig s t : State} {r q : Run}

theorem Run.Holds.wmWait (h : r.Holds P) : r.wmWait.Holds P := .ite h.s.run h
theorem State.Holds.productLanesMet {p : Product} {ps stop fid} (h : s.Holds P) : (p.lanesMet ps stop s fid).Holds P :=
  h.foldl (fun _ _ h1 => h1.tbError)
theorem Run.Holds.productDrainMeets {p : Product} {ix cells} (h : r.Holds P) : (p.drainMeets ix cells r).1.Holds P :=
  have k1 := State.Holds.run (h.s.foldl (fun _ _ h1 => h1.tbError))
  .fst_ite k1.poisoned k1
theorem Run.Holds.stopAt {x : MatRun} {beat} (h : x.r.Holds P) : (x.stopAt beat).r.Holds P := h
theorem State.Holds.productFill {p : Product} {aVal wVal b nt} (h : s.Holds P) : (p.fill aVal wVal b nt s).Holds P :=
  h.foldl (fun _ _ h1 => h1.tbWrite)
theorem Run.Holds.productDrainRow {p : Product} {d b nt ix beat} {x : MatRun} {i} (h : x.r.Holds P) :
    (p.drainRow d b nt ix beat x i).r.Holds P := by
  refine .map_ite h ?_
  dsimp only
  generalize e : (if d.beta = 0 then _ else _ : Run × List Word × Bool) = y
  have k : y.1.Holds P := e ▸ .fst_ite h.productDrainMeets h.productDrainMeets.readElems
  have m {b f c} : (y.1.meeting fun r => r.writeElems d.o d.gather b f c).1.Holds P :=
    k.meeting fun _ h => h.writeElems
  exact .map_ite k (.map_ite m m)
theorem Run.Holds.productGo {p : Product} {dst aVal wVal fault} {x : MatRun} (h : x.r.Holds P) :
    (p.go dst aVal wVal fault x).r.Holds P := by
  refine .map_foldl h fun x u h => .map_ite h ?_
  dsimp only
  have k {f b nt} {c : Prop} {_ : Decidable c} {s : State} (hs : s.Holds P) :
      (if c then s else (p.fill aVal wVal b nt x.r.s).loadWeights f).Holds P :=
    .ite hs h.s.productFill.loadWeights
  have z {g : State → Nat → State} {c e : Prop} {_ : Decidable c} {_ : Decidable e} {l}
      (hg : ∀ s i, s.Holds P → (g s i).Holds P) : (if c then x.r.s else if e then List.foldl g x.r.s l else x.r.s).Holds P :=
    .ite h.s (.ite (h.s.foldl hg) h.s)
  split
  · exact State.Holds.run (k (z fun _ _ h => h.tbWrite))
  · exact .map_foldl (State.Holds.run (k (z fun _ _ h => h.tbWrite))) fun _ _ h => h.productDrainRow
theorem State.Holds.productScramble {p : Product} (h : s.Holds P) : (p.scramble s).Holds P :=
  .same (h.foldl (fun _ _ h1 => h1.tbWrite.same))
theorem Run.Holds.source {ep e} (h : r.Holds P) : (r.source ep e).Holds P := by
  unfold Run.source
  split
  · exact h.miss
  · exact h.poisoned.s.run
  · exact h.raiseLog.s.run
theorem Run.Holds.productRun {p : Product} {dst aVal wVal fault} (h : r.Holds P) : (p.run dst aVal wVal fault r).1.Holds P := by
  unfold Product.run
  exact have k1 := Run.Holds.ite h.productGo.s.productScramble.run h.productGo; .ite (State.Holds.run (Run.Holds.s
    (by (split; exacts [k1.s.productLanesMet.run.source, k1.s.productLanesMet.run]))))
    (by (split; exacts [k1.s.productLanesMet.run.source, k1.s.productLanesMet.run]))
theorem State.Holds.passesEnd {f} (h : s.Holds P) : (s.passesEnd f).Holds P := h.same
theorem State.Holds.passOn {f passes} (h : s.Holds P) : (s.passOn f passes).Holds P := by
  unfold State.passOn
  split
  · exact h
  · exact .ite (.ite h.passesEnd h.passesEnd.same) h
theorem Run.Holds.gatherInto {fw} (h : r.Holds P) : (r.gatherInto fw).Holds P := .ite h.s.run h
theorem State.Holds.matmulRun {f parity errs} (h : s.Holds P) : (s.matmulRun f parity errs).1.Holds P := by
  have gathers {r : Run} {a b : FmtWord} {c d : Prop} {_ : Decidable c} {_ : Decidable d} (h : r.Holds P) :
      (if d then (if c then r.gatherInto a else r).gatherInto b else if c then r.gatherInto a else r).Holds P :=
    .ite (.gatherInto (.ite h.gatherInto h)) (.ite h.gatherInto h)
  have maxes {r : Run} {xs : List Word} {c : Prop} {_ : Decidable c} (h : r.Holds P) : (if c then r.maxes xs else r).Holds P :=
    .ite h.maxes h
  unfold State.matmulRun
  extract_lets
  refine .fst_ite (.raise (gathers h.start)) ?_
  extract_lets
  exact gathers (maxes (.addSat (.productRun (.ite h.start h.start.wmWait))))
theorem State.Holds.matmul {f errs} (h : s.Holds (keptFrom orig)) : (s.matmul f errs).Holds (keptFrom orig) := self.matmulRun.ends h
theorem State.Holds.maBusy {f} (h : s.Holds P) : (s.maBusy f).Holds P := h.setFlag
theorem State.Holds.matEnd {f} (h : s.Holds P) : (s.matEnd f).Holds P := by
  unfold State.matEnd
  split
  · extract_lets
    split
    · exact h.vePoisonBit
    · exact h.vePoisonBit.passesEnd.setFlag
    · exact h.vePoisonBit.maBusy
  · exact h
theorem execMatmul_keeps {fid errs} : Keeps (keptFrom orig) s (execMatmul fid s errs) := by
  refine .next fun h => ?_
  split
  · exact .ite h.matmul.passOn.matEnd h
  · exact h
theorem State.Holds.matmulMxRun {f parity errs} (h : s.Holds P) : (s.matmulMxRun f parity errs).1.Holds P := by
  unfold State.matmulMxRun
  extract_lets
  refine .fst_ite h.start.raise ?_
  extract_lets
  exact .addSat (.productRun (.ite h.start h.start.wmWait))
theorem State.Holds.matmulMx {f errs} (h : s.Holds (keptFrom orig)) : (s.matmulMx f errs).Holds (keptFrom orig) := self.matmulMxRun.ends h
theorem execMatmulMxfp4_keeps {fid errs} : Keeps (keptFrom orig) s (execMatmulMxfp4 fid s errs) := by
  refine .next fun h => ?_
  split
  · exact .ite h.matmulMx.passOn.matEnd h
  · exact h
theorem Run.Holds.elemCfgEnter {c : ElemCfg} {g} (h : r.Holds P) : (c.enter r g).1.Holds P :=
  have k1 := Run.Holds.fst_ite h.readElems.pair h.readElems.readElems
  have k2 := Run.Holds.fst_ite k1.readElems k1.pair
  .fst_ite k1.s.run (.fst_ite k2.s.run k2)
theorem Run.Holds.elemCfgEnterAll {c : ElemCfg} {gs} (h : r.Holds P) : (c.enterAll gs r).1.Holds P := by
  induction gs generalizing r with
  | nil => exact h
  | cons g gs ih => exact .fst_ite h.elemCfgEnter (ih h.elemCfgEnter)
theorem Run.Holds.elemCfgLeave {c : ElemCfg} {gs} (h : r.Holds P) : (c.leave gs r).1.Holds P := by
  induction gs generalizing r with
  | nil => exact h
  | cons g gs ih =>
    have k := h.meeting (go := fun r => r.writeElems c.z c.gather ((c.base + g.1) * ElemCfg.size c.z) g.2 false)
      fun _ h => h.writeElems
    exact .fst_ite (State.Holds.run k.s) (ih k)
theorem Run.Holds.elemCfgEnterUntil {c : ElemCfg} {ep parity groups} (h : r.Holds P) :
    (c.enterUntil ep parity groups r).1.Holds P := by
  unfold ElemCfg.enterUntil
  split
  · exact h.elemCfgEnterAll
  · exact .fst_ite h.elemCfgEnterAll (.ite h.elemCfgEnterAll h.elemCfgEnterAll.source)
theorem Run.Holds.elemCfgRun {c : ElemCfg} {w ep parity groups} (h : r.Holds P) : (c.run w ep parity groups r).Holds P :=
  .ite h.elemCfgEnterAll.s.run.elemCfgLeave h.elemCfgEnterUntil.s.run.elemCfgLeave.s.run
theorem State.Holds.elementwiseRun {f parity} (h : s.Holds P) : (s.elementwiseRun f parity).1.Holds P :=
  .fst_ite h.start.gatherInto.raise h.start.elemCfgRun.s.loadActive.run.gatherInto
theorem State.Holds.elementwise {f} (h : s.Holds (keptFrom orig)) : (s.elementwise f).Holds (keptFrom orig) := self.elementwiseRun.ends h
theorem execElementwiseFma_keeps {fid} : Keeps (keptFrom orig) s (execElementwiseFma fid s) := by
  refine .next fun h => ?_
  split
  · exact .ite (.matEnd (.ite h.elementwise.passesEnd h.elementwise)) h
  · exact h
theorem State.Holds.poisonLine {die fid line} (h : s.Holds P) : (s.poisonLine die fid line).Holds P := by
  unfold State.poisonLine
  refine .ite h.invalidate.markPoison ?_
  extract_lets
  split
  · exact .ite h.freeBytes.sendSeq h.freeBytes
  · exact h
theorem State.Holds.poisonKept {f} (h : s.Holds P) : (s.poisonKept f).Holds P := h.foldl (fun _ _ h1 => h1.tbMark)
theorem State.Holds.partitionFault {f status lines} (h : s.Holds (keptFrom orig)) : (s.partitionFault f status lines).Holds (keptFrom orig) :=
  .maBusy (.setFlight (.maFaultSet (.ite h.clearCols.setFlag.poisonKept.vePoisonBit (h.clearCols.setFlag.foldl (fun _ _
    h1 => h1.poisonLine)))))
theorem State.Holds.partitionActs {fid} (h : s.Holds (keptFrom orig)) : (s.partitionActs fid).Holds (keptFrom orig) := by
  unfold State.partitionActs
  split
  · split
    · exact h.partitionFault
    · exact h
  · exact h
theorem State.Holds.epEnable {die ep} (h : s.Holds P) : (s.epEnable die ep).Holds P := .ite h.setFlag.setFlag.setFlag h.enableReq
theorem execEnginePairEnable_keeps {die ep} : Keeps P s (execEnginePairEnable die ep s) :=
  .next fun h => .ite h h.epEnable
theorem execEnginePairEnablingDone_keeps {die ep} : Keeps P s (execEnginePairEnablingDone die ep s) :=
  .next fun h => .ite (.ite h.setFlag.enablingEnd h.clearWeights.tbClear.vrClear.vePoisonBit.enablingEnd) h
theorem State.Holds.epDisable {die ep} (h : s.Holds (keptFrom orig)) : (s.epDisable die ep).Holds (keptFrom orig) := .ite h.disableReq.abortAll h.disableReq
theorem execEnginePairDisable_keeps {die ep} : Keeps (keptFrom orig) s (execEnginePairDisable die ep s) :=
  .next fun h => .ite h h.epDisable
theorem execEnginePairDisablingDone_keeps {die ep} : Keeps P s (execEnginePairDisablingDone die ep s) :=
  .next fun h => .ite h.clearWeights.disablingEnd h

end Sys2Proof.Machine
end

section
/-! SUPPORT. O6, O55: the walk over strips and the reductions keep what holds of queue and descriptors. -/

namespace Sys2Proof.Machine

set_option Elab.async false

variable {P : List Instr → List Flight → Nat → Prop} {orig s t : State} {r q : Run}

theorem Run.Holds.readMxElem {el sc lineBlocks line i0} (h : r.Holds P) : (r.readMxElem el sc lineBlocks line i0).1.Holds P :=
  .addSat (.fst_ite h.readNat h.readNat.readNat)
theorem Run.Holds.vecPlanReadElem {p : VecPlan} {i hi i0} (h : r.Holds P) : (p.readElem i hi r i0).1.Holds P :=
  .fst_ite h.readMxElem h.readElems
theorem Run.Holds.vecPlanReadStrip {p : VecPlan} {i st} (h : r.Holds P) : (p.readStrip i st r).1.Holds P :=
  .fst_ite (.ite h.poisoned h) (h.fst_foldl (fun _ _ h1 => .fst_ite h1 h1.vecPlanReadElem))
theorem Run.Holds.writeMarks {w off bs n} (h : r.Holds P) : (r.writeMarks w off bs n).Holds P := by
  induction n generalizing r off bs with
  | zero => exact h
  | succ n ih => exact .ite h (ih h.s.run.writeLine.s.run)
theorem Run.Holds.writeRuns {w xs} (h : r.Holds P) : (r.writeRuns w xs).Holds P := h.foldl (fun _ _ h1 => h1.writeMarks)
theorem Run.Holds.missEach {xs} (h : r.Holds P) : (r.missEach xs).Holds P := by
  induction xs generalizing r with
  | nil => exact h
  | cons x xs ih => exact ih (.ite h h.miss)
theorem Run.Holds.writeLanes {o gather xs} (h : r.Holds P) : (r.writeLanes o gather xs).Holds P :=
  .writeRuns (.ite h.missEach.addSat.maxes h.missEach.addSat)
theorem Run.Holds.writeRow {o gather off xs mark} (h : r.Holds P) : (r.writeRow o gather off xs mark).Holds P := h.writeLanes
theorem Run.Holds.writeAll {w off bs mark} (h : r.Holds P) : (r.writeAll w off bs mark).Holds P := h.writeMarks
theorem Run.Holds.writeAfter {after w off bs mark} (h : r.Holds P) : (r.writeAfter after w off bs mark).Holds P := by
  unfold Run.writeAfter
  split
  · exact .ite h.s.run h.s.run
  · exact h.writeMarks.s.run
theorem Run.Holds.writePlanes {w off bs w' off' bs' mark} (h : r.Holds P) : (r.writePlanes w off bs w' off' bs' mark).Holds P :=
  .ite h.writeMarks.writeMarks h.writeMarks.writeAfter
theorem Run.Holds.writeBlock {el sc gather block xs} (h : r.Holds P) : (r.writeBlock el sc gather block xs).Holds P := by
  unfold Run.writeBlock
  split
  · exact h.miss
  · exact
      have k1 := Run.Holds.ite h.addSat.maxes h.addSat
      .ite k1.writePlanes k1.writePlanes
theorem State.Holds.tbWriteLanes {die ep row lane xs} (h : s.Holds P) : (s.tbWriteLanes die ep row lane xs).Holds P := by
  unfold State.tbWriteLanes
  exact .ite (.tbMark (h.foldl (fun _ _ h1 => by (split; exacts [h1.tbWrite, h1])))) (h.foldl (fun _ _ h1 =>
    by (split; exacts [h1.tbWrite, h1])))
theorem Run.Holds.vecPlanWriteStrip {p : VecPlan} {i st xs} (h : r.Holds P) : (p.writeStrip i st xs r).Holds P := by
  unfold VecPlan.writeStrip
  exact .ite (State.Holds.run (.tbWriteLanes (Run.Holds.s (.ite h.maxes h)))) (.ite (h.foldl (fun _ _ h1 =>
    by (split; exacts [h1.s.run.writeBlock.s.run, h1]))) h.writeLanes)
theorem Run.Holds.vecPlanWriteRow {p : VecPlan} {a row} (h : r.Holds P) : (p.writeRow a row r).Holds P :=
  have k1 := Run.Holds.ite (.writeAll (.ite h.addSat.maxes h.addSat)) h.addSat
  have k2 := Run.Holds.ite k1.writeAll k1
  .ite k2.writeAll k2

end Sys2Proof.Machine
end

section
/-! SUPPORT. O6, O55: the functions of the vector and softmax classes keep what holds of queue and descriptors. -/

namespace Sys2Proof.Machine

set_option Elab.async false

variable {P : List Instr → List Flight → Nat → Prop} {orig s t : State} {r q : Run}

theorem Run.Holds.noteFault {x : VecRun} (h : x.r.Holds P) : (x.noteFault).r.Holds P := by
  unfold VecRun.noteFault
  split
  · extract_lets
    split
    · exact h.s.run
    · exact h.s.run.s.freeCount.run
  · exact h
theorem Run.Holds.vecPlanLaneError {p : VecPlan} {x : VecRun} {e} (h : x.r.Holds P) : (p.laneError x e).r.Holds P :=
  h.s.tbError.run
theorem Run.Holds.vecPlanLaneErrors {p : VecPlan} {errs ix st} {x : VecRun} (h : x.r.Holds P) :
    (p.laneErrors errs ix st x).r.Holds P :=
  h.map_foldl (fun _ _ h1 => h1.vecPlanLaneError)
theorem Run.Holds.vecPlanStrip {p : VecPlan} {key errs} {x : VecRun} {st} (h : x.r.Holds P) : (p.strip key errs x st).r.Holds P := by
  refine .map_ite h ?_
  dsimp only
  generalize e : List.foldl _ (_, ([] : List (List Lane))) (List.range 3) = y
  have k : y.1.Holds P := e ▸ h.vecPlanLaneErrors.pair.fst_foldl fun _ _ h =>
    .fst_ite (.fst_ite h h.vecPlanReadStrip) h
  refine .map_ite k.s.run ?_
  exact
    have w := Run.Holds.noteFault (x := ⟨_, _, _, _, _, _, _⟩)
      ((k.foldl fun _ _ h => h.laneMet).foldl fun _ _ h => h.vecPlanWriteStrip)
    .map_ite w (.map_ite (.noteFault w.vecPlanWriteRow) w)
theorem State.Holds.putRegs {die ep first regs} (h : s.Holds P) : (s.putRegs die ep first regs).Holds P :=
  h.foldl (fun _ _ h1 => h1.vrWrite.foldl (fun _ _ h2 => h2.same))
theorem Run.Holds.vecPlanRun {p : VecPlan} {key errs} (h : r.Holds P) : (p.run key errs r).1.Holds P := by
  unfold VecPlan.run
  extract_lets _ _ _ x y z
  have k : x.r.Holds P := .ite h h.s.vrClear.run
  have m : y.r.Holds P := k.map_foldl fun _ _ h => h.vecPlanStrip
  have w : z.r.Holds P := .map_ite (.noteFault (m.foldl fun _ _ h => h.vecPlanWriteRow)) m
  exact State.Holds.run (.vePoisonBit (.putRegs (Run.Holds.s (.ite (.raise w.s.run) w.s.run))))
theorem Run.Holds.vecPlanGathers {p : VecPlan} (h : r.Holds P) : (p.gathers r).Holds P :=
  have k1 := Run.Holds.ite h.gatherInto h
  have k2 := Run.Holds.ite k1.gatherInto k1
  .ite k2.gatherInto k2
theorem State.Holds.veBusy {die ep} (h : s.Holds P) : (s.veBusy die ep).Holds P := h.setFlag
theorem State.Holds.vecEnd {f} (h : s.Holds P) : (s.vecEnd f).Holds P := by
  unfold State.vecEnd
  split
  · exact .ite (.ite h.veBusy.veFaultSet h.veBusy) h
  · exact h
theorem State.Holds.vectorRun {f errs} (h : s.Holds P) : (s.vectorRun f errs).1.Holds P := h.start.vecPlanRun.vecPlanGathers
theorem State.Holds.vector {f errs} (h : s.Holds (keptFrom orig)) : (s.vector f errs).Holds (keptFrom orig) := .vecEnd (self.vectorRun.ends h)
theorem execFusedChain_keeps {fid errs} : Keeps (keptFrom orig) s (execFusedChain fid s errs) := by
  refine .next fun h => ?_
  split
  · exact .ite h.vector h
  · exact h
theorem execFallbackProgram_keeps {fid errs} : Keeps (keptFrom orig) s (execFallbackProgram fid s errs) := by
  refine .next fun h => ?_
  split
  · exact .ite h.vector h
  · exact h
theorem execVeAccessFault_keeps {fid} : Keeps (keptFrom orig) s (execVeAccessFault fid s) := by
  refine .next fun h => ?_
  split
  · split
    · exact .ite h.setFlight.vecEnd h
    · exact h
  · exact h
theorem Run.Holds.step {α : Type} {body : Task → Run → α → Run × α × Bool} {x : RowRun α} {t : Task} (h : x.r.Holds P)
    (hbody : ∀ t r a, r.Holds P → (body t r a).1.Holds P) : (RowRun.step body x t).r.Holds P := by
  have k := hbody t x.r x.acc h
  refine .map_ite h (.map_ite k.s.run ?_)
  dsimp only
  split
  · split
    · exact k.s.run
    · exact k.s.run.s.freeCount.run
  · exact k
theorem Run.Holds.runRows {α : Type} {body : Task → Run → α → Run × α × Bool} {ts : List Task} {acc : α} (h : r.Holds P)
    (hbody : ∀ t r a, r.Holds P → (body t r a).1.Holds P) : (runRows body ts r acc).r.Holds P :=
  .map_foldl h fun _ _ h => h.step hbody
theorem Run.Holds.readState {w off} (h : r.Holds P) : (r.readState w off).1.Holds P := .fst_ite h.readNat h.readNat.readNat
theorem Run.Holds.readEntries {x mask ix n} (h : r.Holds P) : (readEntries x mask r ix n).1.Holds P := by
  unfold Machine.readEntries
  dsimp only
  split
  · exact h.readElems
  · exact .fst_ite h.readElems h.readElems.read
theorem Run.Holds.smrowBody {d x y len t a} (h : r.Holds P) : (smrowBody d x y len t r a).1.Holds P :=
  have k1 := Run.Holds.fst_ite h.readState.pair h.pair
  .fst_ite (.fst_ite h.readEntries (.fst_ite (.ite h.readEntries h.readEntries.writeAll) h.readEntries)) (.fst_ite k1
    (.fst_ite k1.readEntries k1.readEntries.writeRow))
theorem Run.Holds.endRows {ep seen empty fw} (h : r.Holds P) : (r.endRows ep seen empty fw).Holds P := by
  unfold Run.endRows
  exact have k1 := Run.Holds.ite h.raise h; State.Holds.run (.vePoisonBit (Run.Holds.s (by (split; exacts [k1.gatherInto, k1]))))
theorem State.Holds.smrowRun {f} (h : s.Holds P) : (s.smrowRun f).1.Holds P :=
  .endRows (h.start.runRows (fun _ _ _ h1 => h1.smrowBody))
theorem State.Holds.smrow {f} (h : s.Holds (keptFrom orig)) : (s.smrow f).Holds (keptFrom orig) := .vecEnd (self.smrowRun.ends h)
theorem execSmrow_keeps {fid} : Keeps (keptFrom orig) s (execSmrow fid s) := by
  refine .next fun h => ?_
  split
  · exact .ite h.smrow h
  · exact h
theorem Run.Holds.readPart {d p dv row i} (h : r.Holds P) : (readPart d p dv row i r).1.Holds P :=
  .fst_ite h.readState h.readState.readElems
theorem Run.Holds.smmergeBody {d o t full} (h : r.Holds P) : (smmergeBody d o t r full).1.Holds P :=
  have k1 := h.readPart.fst_foldl (fun _ _ h1 => .fst_ite h1 h1.readPart.pair)
  have k2 := Run.Holds.ite k1 k1.writeAll
  .fst_ite k1 (.ite k2 k2.writeRow)
theorem State.Holds.smmergeRun {f} (h : s.Holds P) : (s.smmergeRun f).1.Holds P :=
  .endRows (h.start.runRows (fun _ _ _ h1 => h1.smmergeBody))
theorem State.Holds.smmerge {f} (h : s.Holds (keptFrom orig)) : (s.smmerge f).Holds (keptFrom orig) := .vecEnd (self.smmergeRun.ends h)
theorem execSmmerge_keeps {fid} : Keeps (keptFrom orig) s (execSmmerge fid s) := by
  refine .next fun h => ?_
  split
  · exact .ite h.smmerge h
  · exact h
theorem Run.Holds.normCfgRecord {c : NormCfg} {t a} (h : r.Holds P) : (c.record t r a).Holds P :=
  have k1 := Run.Holds.ite h.addSat.msopAt h.addSat.msopAt.msopAt
  have k2 := Run.Holds.ite k1 k1.msopAt
  .ite (.ite k2 k2.writeAll) h.addSat.writeAll
theorem Run.Holds.normCfgStats {c : NormCfg} {t a} (h : r.Holds P) : (c.stats t r a).Holds P := h.writeAll
theorem Run.Holds.normCfgReadTotals {c : NormCfg} {t a} (h : r.Holds P) : (c.readTotals t r a).1.Holds P := .fst_ite h.read h.read
theorem Run.Holds.normCfgBody {c : NormCfg} {t a} (h : r.Holds P) : (c.body t r a).1.Holds P := by
  unfold NormCfg.body
  extract_lets k ix a settled po pk
  have hy : (r.readElems c.x (ix * k) t.n).1.Holds P := h.readElems
  generalize r.readElems c.x (ix * k) t.n = y at hy ⊢
  obtain ⟨r, xs, p⟩ := y
  refine .fst_ite hy (.fst_ite ?_ (.fst_ite ?_ ?_))
  · have hmax {d : Prop} {_ : Decidable d} {xs : List Word} : (if d then r.maxes xs else r).Holds P := .ite hy.maxes hy
    have htotals {a} : (c.readTotals t r a).1.Holds P := hy.normCfgReadTotals
    exact .fst_ite (.ite hmax.normCfgRecord hmax)
      (.fst_ite (.fst_ite (.fst_ite htotals htotals.normCfgStats) hy) (.fst_ite (.fst_ite hy.normCfgStats hy) hy))
  · exact .fst_ite hy.normCfgStats hy
  · have hg : (r.readElems po (t.at_ * pk) t.n).1.Holds P := hy.readElems
    generalize r.readElems po (t.at_ * pk) t.n = g at hg ⊢
    obtain ⟨r, gs, pg⟩ := g
    have hr : r.Holds P := hg
    dsimp -zeta only
    cases r.stop || !dbit c.d 500
    · exact Run.Holds.fst_ite hr.readElems hr.readElems.writeRow
    · exact Run.Holds.fst_ite hr hr.writeRow
theorem State.Holds.normRun {f} (h : s.Holds P) : (s.normRun f).1.Holds P :=
  .endRows (h.start.runRows (fun _ _ _ h1 => h1.normCfgBody))
theorem State.Holds.norm {f} (h : s.Holds (keptFrom orig)) : (s.norm f).Holds (keptFrom orig) := .vecEnd (self.normRun.ends h)
theorem execNorm_keeps {fid} : Keeps (keptFrom orig) s (execNorm fid s) := by
  refine .next fun h => ?_
  split
  · exact .ite h.norm h
  · exact h
theorem Run.Holds.xentBody {d x g len t a} (h : r.Holds P) : (xentBody d x g len t r a).1.Holds P := by
  unfold Machine.xentBody
  dsimp only
  refine .fst_ite ?_ ?_
  · generalize e1 : (if t.at_ = 0 then _ else _ : Run × XentAcc) = y1
    have k1 : y1.1.Holds P := e1 ▸ .fst_ite h.readNat.pair h.pair
    refine .fst_ite k1 ?_
    generalize e2 : (if y1.2.label = ignored then _ else _ : Run × List (Word × Bool)) = y2
    have k2 : y2.1.Holds P := e2 ▸ .fst_ite k1.pair k1.readEntries
    refine .fst_ite k2 (.fst_ite k2 ?_)
    generalize e3 : (if y1.2.label = ignored then _ else _ : Run × Word) = y3
    have k3 : y3.1.Holds P := e3 ▸ .fst_ite k2.pair (.fst_ite k2.pair k2.readElems.pair)
    exact .fst_ite k3 (.fst_ite (.ite k3 k3.writeRow) (.ite k3 k3.writeRow))
  · generalize e : (if a.label = ignored then _ else _ : Run × List (Word × Bool)) = y
    have k : y.1.Holds P := e ▸ .fst_ite h.pair h.readEntries
    refine .fst_ite k ?_
    split
    · exact k.writeRow
    · exact k
theorem State.Holds.xentRun {f} (h : s.Holds P) : (s.xentRun f).1.Holds P :=
  have k1 := h.start.runRows (fun _ _ _ h1 => h1.xentBody)
  .endRows (.fst_ite k1 (.ite k1.addSat.msopAt k1.addSat.msopAt.msopAt))
theorem State.Holds.xent {f} (h : s.Holds (keptFrom orig)) : (s.xent f).Holds (keptFrom orig) := .vecEnd (self.xentRun.ends h)
theorem execXent_keeps {fid} : Keeps (keptFrom orig) s (execXent fid s) := by
  refine .next fun h => ?_
  split
  · exact .ite h.xent h
  · exact h
theorem Run.Holds.attBody {d die ep out t full} (h : r.Holds P) : (attBody d die ep out t r full).1.Holds P :=
  have k1 := Run.Holds.fst_ite h.pair h.readState
  have k2 := Run.Holds.fst_ite k1.pair (.fst_ite k1.pair k1.readElems)
  have k3 := Run.Holds.ite k2.poisoned k2
  have k4 := State.Holds.ite k3.s.tbWrite.tbMark k3.s.tbWrite
  have k5 := Run.Holds.ite k4.run k4.run.writeAll.writeRow
  .fst_ite k2 (.ite k5.writeRow k5)
theorem State.Holds.attstepRun {f errs} (h : s.Holds P) : (s.attstepRun f errs).1.Holds P :=
  .endRows (.runRows (State.Holds.start (h.foldl (fun _ _ h1 => h1.tbError))) (fun _ _ _ h1 => h1.attBody))
theorem State.Holds.attstep {f errs} (h : s.Holds (keptFrom orig)) : (s.attstep f errs).Holds (keptFrom orig) := .vecEnd (self.attstepRun.ends h)
theorem execAttstep_keeps {fid errs} : Keeps (keptFrom orig) s (execAttstep fid s errs) := by
  refine .next fun h => ?_
  split
  · exact .ite h.attstep h
  · exact h

end Sys2Proof.Machine
end

section
/-! SUPPORT. O6, O55: the functions of convolution and regrouping keep what holds of queue and descriptors. -/

namespace Sys2Proof.Machine

set_option Elab.async false

variable {P : List Instr → List Flight → Nat → Prop} {orig s t : State} {r q : Run}

theorem Run.Holds.convCfgDrain {c : ConvCfg} {q b nt ix beat} {x : MatRun} {run} (h : x.r.Holds P) :
    (c.drain q b nt ix beat x run).r.Holds P := by
  unfold ConvCfg.drain
  dsimp only
  split
  · exact h
  · refine .map_ite h ?_
    generalize e : (if c.beta = 0 then _ else _ : Run × List Word × Bool) = y
    have k : y.1.Holds P := e ▸ .fst_ite h.productDrainMeets.pair h.productDrainMeets.readElems
    have m {f b n} : (y.1.meeting fun r => r.writeElems c.out c.gather b f n).1.Holds P := k.meeting fun _ h => h.writeElems
    exact .map_ite k (.map_ite m m)
theorem Run.Holds.convCfgGo {c : ConvCfg} {fault} {x : MatRun} (h : x.r.Holds P) : (c.go fault x).r.Holds P :=
  .map_foldl h fun _ _ h => .map_ite h
    (.map_foldl (State.Holds.run h.s.productFill.loadWeights) fun _ _ h => h.convCfgDrain)
theorem State.Holds.convRun {f parity errs} (h : s.Holds P) : (s.convRun f parity errs).1.Holds P := by
  unfold State.convRun
  exact have k1 := h.start.addSat.wmWait.convCfgGo; have k2 := Run.Holds.ite k1.addSat.s.productScramble.run k1.addSat;
    .fst_ite h.start.gatherInto.raise (.gatherInto (.ite (State.Holds.run (Run.Holds.s
    (by (split; exacts [k2.s.productLanesMet.run.source, k2.s.productLanesMet.run]))))
    (by (split; exacts [k2.s.productLanesMet.run.source, k2.s.productLanesMet.run]))))
theorem State.Holds.conv {f errs} (h : s.Holds (keptFrom orig)) : (s.conv f errs).Holds (keptFrom orig) := self.convRun.ends h
theorem State.Holds.parityFault {f beat} (h : s.Holds (keptFrom orig)) : (s.parityFault f beat).Holds (keptFrom orig) :=
  .ite (.partitionActs (.matEnd (Run.Holds.ends (.fst_ite self.matmulRun (.fst_ite self.matmulMxRun (.fst_ite self.elementwiseRun
    self.convRun))) h))) h
theorem execPartitionFault_keeps {fid beat} : Keeps (keptFrom orig) s (execPartitionFault fid s beat) := by
  refine .next fun h => ?_
  split
  · refine .ite ?_ h
    split
    · exact .ite h h.parityFault
    · exact h.partitionActs
  · exact h
theorem execConv_keeps {fid errs} : Keeps (keptFrom orig) s (execConv fid s errs) := by
  refine .next fun h => ?_
  split
  · exact .ite h.conv.passOn.matEnd h
  · exact h
theorem Run.Holds.moveElem {src dst copy gather from_ to_} (h : r.Holds P) :
    (r.moveElem src dst copy gather from_ to_).1.Holds P := by
  unfold Run.moveElem
  extract_lets
  split
  · exact h.read
  · dsimp only
    split
    · exact h.readElems
    · split
      · exact h.readElems
      · exact .ite h.readElems.addSat.max h.readElems.addSat
theorem Run.Holds.regroupBody {g src dst copy gather t u} (h : r.Holds P) :
    (regroupBody g src dst copy gather t r u).1.Holds P := by
  unfold Machine.regroupBody
  dsimp only
  generalize e : List.foldl _ (r, ([] : List (Int × List (Byte × Bool)))) (List.range t.n) = y
  have k : y.1.Holds P := by
    subst e
    refine h.pair.fst_foldl fun x i h => .fst_ite h ?_
    generalize e : x.1.moveElem _ _ _ _ _ _ = z
    have k : z.1.Holds P := e ▸ h.moveElem
    split <;> exact k
  exact .fst_ite k k.missEach.writeRuns
theorem State.Holds.regroupRun {f} (h : s.Holds P) : (s.regroupRun f).1.Holds P :=
  .endRows (h.start.runRows (fun _ _ _ h1 => h1.regroupBody))
theorem State.Holds.regroup {f} (h : s.Holds (keptFrom orig)) : (s.regroup f).Holds (keptFrom orig) := .vecEnd (self.regroupRun.ends h)
theorem execRegroup_keeps {fid} : Keeps (keptFrom orig) s (execRegroup fid s) := by
  refine .next fun h => ?_
  split
  · exact .ite h.regroup h
  · exact h
theorem Run.Holds.resampleCfgFetch {k : ResampleCfg} {ν c x_} (h : r.Holds P) : (k.fetch r ν c x_).1.Holds P := by
  unfold ResampleCfg.fetch
  split
  · exact h
  · exact h.readElems
theorem Run.Holds.resampleCfgBody {k : ResampleCfg} {t u} (h : r.Holds P) : (k.body t r u).1.Holds P :=
  have k1 := h.pair.fst_foldl (fun _ _ h1 => .fst_ite h1 (.fst_ite h1.pair (Run.Holds.pair (h1.pair.fst_foldl (fun _ _ h2
    => .fst_ite h2 h2.resampleCfgFetch.pair)))))
  .fst_ite k1 k1.writeLanes
theorem State.Holds.resampleRun {f} (h : s.Holds P) : (s.resampleRun f).1.Holds P :=
  .endRows (h.start.runRows (fun _ _ _ h1 => h1.resampleCfgBody))
theorem State.Holds.resample {f} (h : s.Holds (keptFrom orig)) : (s.resample f).Holds (keptFrom orig) := .vecEnd (self.resampleRun.ends h)
theorem execResample_keeps {fid} : Keeps (keptFrom orig) s (execResample fid s) := by
  refine .next fun h => ?_
  split
  · exact .ite h.resample h
  · exact h

end Sys2Proof.Machine
end

section
/-! SUPPORT. O6, O55: the functions of the journal, of the memory's service and of the movers keep what holds of queue and descriptors. -/

namespace Sys2Proof.Machine

set_option Elab.async false

variable {P : List Instr → List Flight → Nat → Prop} {orig s t : State} {r q : Run}

theorem State.Holds.putSlot {slot r} (h : s.Holds P) : (s.putSlot slot r).Holds P :=
  h
theorem State.Holds.setFill (h : s.Holds P) : s.setFill.Holds P := h.putFld
theorem State.Holds.maybeCompact (h : s.Holds P) : s.maybeCompact.Holds P := .ite h.same.setFlag h
theorem State.Holds.writeRecord {slot type len del key data} (h : s.Holds P) :
    (s.writeRecord slot type len del key data).Holds P :=
  h.putSlot.setReg
theorem State.Holds.appendRecord {type len del key data} (h : s.Holds P) : (s.appendRecord type len del key data).Holds P :=
  h.writeRecord.setFill
theorem State.Holds.jrAppend {type len del key data} (h : s.Holds P) : (s.jrAppend type len del key data).Holds P :=
  h.appendRecord.maybeCompact
theorem State.Holds.fwAppend {type key data} (h : s.Holds P) : (s.fwAppend type key data).Holds P :=
  .ite h (.ite h.same h.jrAppend)
theorem State.Holds.compactNow (h : s.Holds P) : s.compactNow.Holds P :=
  .setFill (.setFlag (.same (.setFlag (.putFld (.setReg (.writeRecord (h.writeRecord.fst_foldl (fun _ _ h1 =>
    h1.writeRecord))))))))
theorem State.Holds.partSnapshot {m} (h : s.Holds P) : (s.partSnapshot m).Holds P :=
  .setReg (h)
theorem State.Holds.endCompaction (h : s.Holds P) : s.endCompaction.Holds P := .ite h.freeCount.partSnapshot.same.setFlag h
theorem State.Holds.endAppend (h : s.Holds P) : s.endAppend.Holds P := by
  unfold State.endAppend
  split
  · exact h
  · exact .ite h.same.setFlag (.ite h.same.setFlag.freeCount (.ite h.same.setFlag.freeCount.appendRecord
    h.same.setFlag.freeCount.putSlot.setFill))
theorem State.Holds.cutErase (h : s.Holds P) : s.cutErase.Holds P :=
  .ite (h) h
theorem State.Holds.drainWaits (h : s.Holds P) : s.drainWaits.Holds P := h.same.foldl (fun _ _ h1 => h1.fwAppend)
theorem execCompactionDone_keeps : Keeps P s (execCompactionDone s) := .next fun h => .ite h.compactNow.drainWaits h
theorem State.Holds.culletErased (h : s.Holds P) : s.culletErased.Holds P :=
  .maybeCompact (.setFlag h)
theorem execCulletEraseDone_keeps : Keeps P s (execCulletEraseDone s) := .next fun h => .ite h.culletErased h
theorem State.Holds.mount {r gen} (h : s.Holds P) : (s.mount r gen).Holds P := h.setReg.setReg.setReg.putFld.setFlag.same.setFill
theorem State.Holds.beginCommit (h : s.Holds P) : s.beginCommit.Holds P := .ite h.same.setFlag h
theorem State.Holds.autoCommit (h : s.Holds P) : s.autoCommit.Holds P := .ite h.beginCommit h
theorem State.Holds.jrBegin {op} (h : s.Holds P) : (s.jrBegin op).Holds P := h.same.setFlag
theorem State.Holds.jrOp {op} (h : s.Holds P) : (s.jrOp op).Holds P := .ite h (.ite h.putFld h.jrBegin)
theorem execJrWrite_keeps : Keeps P s (execJrWrite s) := .next fun h => h.jrOp
theorem execJrRead_keeps : Keeps P s (execJrRead s) := .next fun h => h.jrOp
theorem execJrDelete_keeps : Keeps P s (execJrDelete s) := .next fun h => h.jrOp
theorem State.Holds.jrEnd {err} (h : s.Holds P) : (s.jrEnd err).Holds P := h.same.setFlag.putFld
theorem State.Holds.jrFill {r} (h : s.Holds P) : (s.jrFill r).Holds P := h.foldl (fun _ _ h1 => h1.setReg)
theorem State.Holds.jrOpDone {o flashOk} (h : s.Holds P) : (s.jrOpDone o flashOk).Holds P := by
  unfold State.jrOpDone
  refine .ite ?_ (.ite h (.ite h.jrEnd h.jrAppend.autoCommit.jrEnd))
  split
  · exact h.jrEnd
  · exact .ite h.jrFill.jrEnd h.jrEnd
theorem execJrOpDone_keeps {flashOk} : Keeps P s (execJrOpDone flashOk s) := by
  refine .next fun h => ?_
  split
  · exact .ite h.jrOpDone h
  · exact h
theorem State.Holds.lastUe {home off} (h : s.Holds P) : (s.lastUe home off).Holds P := h.setReg.setReg
theorem State.Holds.eccLine {home line who ecc} (h : s.Holds P) : (s.eccLine home line who ecc).Holds P := by
  unfold State.eccLine
  refine .ite h ?_
  split
  · exact h
  · exact h.count.log
  · exact h.count.lastUe.markPoison.log
theorem State.Holds.eccWm {die line who ecc} (h : s.Holds P) : (s.eccWm die line who ecc).Holds P := by
  unfold State.eccWm
  refine .ite h ?_
  split
  · exact h
  · exact h.count
  · exact h.count.setReg.markPoison.log
theorem State.Holds.ecc {a who ecc} (h : s.Holds P) : (s.ecc a who ecc).Holds P := .ite h.eccWm h.eccLine
theorem State.Holds.refuse {m a acc} (h : s.Holds P) : (s.refuse m a acc).Holds P := by
  unfold State.refuse
  split
  · exact h.log.emit
  · exact h.log.emit
  · exact h.emit
  · exact h.emit
  · exact h.emit
  · exact h.emit
theorem State.Holds.access {a acc poisoned eccs} (h : s.Holds P) : (s.access a acc poisoned eccs).Holds P := by
  unfold State.access
  extract_lets
  split
  · exact .emit (.shareCopies (h.foldl (fun _ _ h1 => h1.ecc)))
  · exact .emit (.write (h.foldl (fun _ _ h1 => h1.ecc)))
theorem State.Holds.hbmRequest {a acc poisoned ecc} (h : s.Holds P) : (s.hbmRequest a acc poisoned ecc).Holds P := by
  unfold State.hbmRequest
  extract_lets
  split
  · exact h.refuse.unwait
  · split
    · exact h.holdFor
    · exact h.access.unwait
theorem execHbmRequest_keeps {addr access poisoned ecc} : Keeps P s (execHbmRequest addr access poisoned ecc s) :=
  .next fun h => h.hbmRequest
theorem State.Holds.msopRequest {a op mask data poisoned ecc} (h : s.Holds P) :
    (s.msopRequest a op mask data poisoned ecc).Holds P := by
  unfold State.msopRequest
  refine .ite h.refuse ?_
  extract_lets
  split
  · exact h.refuse.unwait
  · split
    · exact h.holdFor
    · exact .unwait (.emit (.msop (.ite h h.ecc)))
theorem execMsopRequest_keeps {addr op mask data poisoned ecc} :
    Keeps P s (execMsopRequest addr op mask data poisoned ecc s) :=
  .next fun h => h.msopRequest
theorem execHbmRefresh_keeps {home} : Keeps P s (execHbmRefresh home s) := .next fun h => h
theorem State.Holds.scrubStep {home ecc} (h : s.Holds P) : (s.scrubStep home ecc).Holds P := .ite h h.eccLine.same
theorem execHbmScrubStep_keeps {home ecc} : Keeps P s (execHbmScrubStep home ecc s) := .next fun h => h.scrubStep
theorem execHbmMaintEnter_keeps {stack} : Keeps P s (execHbmMaintEnter stack s) := .next fun h => .ite h h.setFlag
theorem execHbmMaintDrained_keeps {stack} : Keeps P s (execHbmMaintDrained stack s) :=
  .next fun h => .ite h.setFlag h
theorem State.Holds.maintExit {stack} (h : s.Holds P) : (s.maintExit stack).Holds P := h.setFlag.setFlag
theorem execHbmMaintExit_keeps {stack} : Keeps P s (execHbmMaintExit stack s) := .next fun h => .ite h h.maintExit
theorem State.Holds.w1500Go {stack} (h : s.Holds P) : (s.w1500Go stack).Holds P := .ite h.setFlag h.setFlag.same
theorem execW1500Go_keeps {stack} : Keeps P s (execW1500Go stack s) := .next fun h => .ite h h.w1500Go
theorem State.Holds.w1500Shift {stack captured} (h : s.Holds P) : (s.w1500Shift stack captured).Holds P :=
  .setFlag (h.foldl (fun _ _ h1 => h1.setReg))
theorem execW1500ShiftDone_keeps {stack captured} : Keeps P s (execW1500ShiftDone stack captured s) :=
  .next fun h => .ite h.w1500Shift h
theorem State.Holds.pprGo {stack hard} (h : s.Holds P) : (s.pprGo stack hard).Holds P :=
  .ite h.setFlag.putFld (.same (.putFld (.setFlag (h.setFlag.freeCount.foldl (fun _ _ h1 => h1.eccLine)))))
theorem execPprGo_keeps {stack hard} : Keeps P s (execPprGo stack hard s) := .next fun h => .ite h h.pprGo
theorem State.Holds.journalRepair {stack result} (h : s.Holds P) : (s.journalRepair stack result).Holds P := h.fwAppend
theorem State.Holds.pprDone {r result} (h : s.Holds P) : (s.pprDone r result).Holds P :=
  have k1 := h.foldl (fun _ _ h1 => .ite h1.markPoison h1.putMem.clearPoison)
  .ite k1.setFlag.putFld.same.log.journalRepair k1.setFlag.putFld.same.log
theorem execPprDone_keeps {stack result} : Keeps P s (execPprDone stack result s) := by
  refine .next fun h => ?_
  split
  · exact .ite h h.pprDone
  · exact h
theorem execWmAccess_keeps {die offset access poisoned ecc next} :
    Keeps P s (execWmAccess die offset access poisoned ecc s next) :=
  .next fun h => .ite h.refuse (.ite h.refuse (.ite h.same h.access))
theorem State.Holds.wmInit {die} (h : s.Holds P) : (s.wmInit die).Holds P := h.setFlag
theorem execWmInit_keeps {die} : Keeps P s (execWmInit die s) := .next fun h => .ite h h.wmInit
theorem State.Holds.wmInitDone {die} (h : s.Holds P) : (s.wmInitDone die).Holds P :=
  h.same.same.setFlag.same.foldl fun _ _ h1 => h1.access
theorem execWmInitDone_keeps {die} : Keeps P s (execWmInitDone die s) := .next fun h => .ite h.wmInitDone h
theorem Run.Holds.readMarks {w off n fuel} (h : r.Holds P) : (r.readMarks w off n fuel).1.Holds P := by
  induction fuel generalizing r off n with
  | zero => exact h
  | succ fuel ih => exact .fst_ite h (.fst_ite h.readLine (ih h.readLine))
theorem Run.Holds.writeMover {w off bs seen fuel} (h : r.Holds P) : (r.writeMover w off bs seen fuel).1.Holds P := by
  induction fuel generalizing r off bs seen with
  | zero => exact h
  | succ fuel ih =>
    unfold Run.writeMover
    dsimp only
    generalize e : (if seen then _ else _ : Bool × Run) = y
    have k : y.2.Holds P := by
      rw [← e]
      split
      · exact State.Holds.run h.s.freeCount
      · exact h
    exact .fst_ite h (ih (.ite k k.s.run.writeLine))
theorem Run.Holds.moveRow {c src soff n dst doff} (h : r.Holds P) : (r.moveRow c src soff n dst doff).Holds P := by
  unfold Run.moveRow
  dsimp only
  generalize e : r.readMarks src soff _ _ = y
  have k : y.1.Holds P := e ▸ h.readMarks
  refine State.Holds.run (Run.Holds.writeMover (State.Holds.run ?_)).s
  exact Run.Holds.ite k.addSat.maxes k.addSat
theorem Run.Holds.moveCfgRow {m : MoveCfg} {ix} (h : r.Holds P) : (m.row r ix).Holds P := by
  unfold MoveCfg.row
  refine .ite h ?_
  split
  · exact h.writeMover.s.run
  · split
    · exact h.moveRow
    · exact .ite h.readNat (.ite h.readNat.s.run h.readNat.moveRow)
theorem Run.Holds.moveCfgGo {m : MoveCfg} {first last} (h : r.Holds P) : (m.go first last r).Holds P :=
  h.foldl (fun _ _ h1 => h1.moveCfgRow)
theorem State.Holds.movEnd {f} (h : s.Holds P) : (s.movEnd f).Holds P := by
  unfold State.movEnd
  split
  · exact .ite h.mvFaultSet h
  · exact h
theorem State.Holds.again {f hint} (h : s.Holds P) : (Run.again s f hint).Holds P := h.start.s.run
theorem Run.Holds.rowSent {s0 : State} {f} (h : r.Holds (sameAs s0)) (hs0 : s0.Holds (keptFrom orig)) :
    (r.rowSent s0 f).Holds (keptFrom orig) := by
  refine .ite hs0.askFor (.setFlight (.of_same ?_ hs0))
  have k : ((r.s.sendAll f.fid r.sends).unwaitDesc f.fid).Holds (sameAs s0) := h.s.sendAll.unwaitDesc
  exact ⟨k.1, rfl, k.2.2⟩
theorem Run.Holds.movePlanFin {p : MovePlan} (h : r.Holds P) : (p.fin r).Holds P := by
  unfold MovePlan.fin
  split
  · exact h.gatherInto
  · exact h
theorem State.Holds.moveRun {f} (h : s.Holds P) : (s.moveRun f).1.Holds P :=
  .fst_ite h.start.movePlanFin.raise h.start.moveCfgGo.movePlanFin
theorem State.Holds.moveFarRow {f} (h : s.Holds P) : (s.moveFarRow f).Holds P := h.again.moveCfgRow
theorem State.Holds.moveFar {f} (h : s.Holds (keptFrom orig)) : (s.moveFar f).Holds (keptFrom orig) :=
  .ite h (.ite (self.again.s.run.movePlanFin.ends h) (.ite (self.moveFarRow.movePlanFin.ends h) (self.moveFarRow.rowSent h)))
theorem State.Holds.move {f} (h : s.Holds (keptFrom orig)) : (s.move f).Holds (keptFrom orig) := .ite h.moveFar (self.moveRun.ends h)
theorem execMove_keeps {fid} : Keeps (keptFrom orig) s (execMove fid s) := by
  refine .next fun h => ?_
  split
  · exact .ite h.move.movEnd h
  · exact h
theorem Run.Holds.sendPacked {dst op q} (h : r.Holds P) : (r.sendPacked dst op q).Holds P := h.msop
theorem Run.Holds.msopCfgFlush {m : MsopCfg} {x : MsopRun} (h : x.r.Holds P) : (m.flush x).r.Holds P := by
  unfold MsopCfg.flush
  split
  · exact h.sendPacked
  · exact h
theorem Run.Holds.msopCfgHalt {m : MsopCfg} {x : MsopRun} {r : Run} (hr : r.Holds P) : (m.halt x r).r.Holds P :=
  hr.s.run.msopCfgFlush.s.run
theorem Run.Holds.msopCfgStep {m : MsopCfg} {x : MsopRun} {i} (h : x.r.Holds P) : (m.step x i).r.Holds P := by
  unfold MsopCfg.step
  exact .map_ite h (.map_ite h.readNat.msopCfgHalt (.map_ite (.msopCfgHalt (by (split; exacts [h.readNat.readNat,
    h.readNat]))) (.map_ite (.map_ite (by (split; exacts [h.readNat.readNat, h.readNat])) (.msopCfgFlush
    (by (split; exacts [h.readNat.readNat, h.readNat])))) (.addSat (.map_ite (by (split; exacts [h.readNat.readNat,
    h.readNat])) (.msopCfgFlush (by (split; exacts [h.readNat.readNat, h.readNat]))))))))
theorem State.Holds.msopDescRun {f} (h : s.Holds P) : (s.msopDescRun f).1.Holds P :=
  have k := Run.Holds.map_foldl (g := MsopRun.r) h.start fun _ _ h1 => h1.msopCfgStep
  .fst_ite h.start.raise (.map_ite k k.msopCfgFlush)
theorem State.Holds.msopDesc {f} (h : s.Holds (keptFrom orig)) : (s.msopDesc f).Holds (keptFrom orig) := self.msopDescRun.ends h
theorem execMsop_keeps {fid} : Keeps (keptFrom orig) s (execMsop fid s) := by
  refine .next fun h => ?_
  split
  · exact .ite h.msopDesc.movEnd h
  · exact h
theorem execMoverFault_keeps {fid} : Keeps (keptFrom orig) s (execMoverFault fid s) := by
  refine .next fun h => ?_
  split
  · split
    · exact .ite h.setFlight.movEnd h
    · exact h
  · exact h
theorem execMoverEnable_keeps {die mover} : Keeps P s (execMoverEnable die mover s) :=
  .next fun h => .ite h h.enableReq
theorem execMoverEnablingDone_keeps {die mover} : Keeps P s (execMoverEnablingDone die mover s) :=
  .next fun h => .ite h.enablingEnd h
theorem State.Holds.moverDisable {die n} (h : s.Holds (keptFrom orig)) : (s.moverDisable die n).Holds (keptFrom orig) :=
  .ite h.disableReq.abortAll h.disableReq
theorem execMoverDisable_keeps {die mover} : Keeps (keptFrom orig) s (execMoverDisable die mover s) :=
  .next fun h => .ite h h.moverDisable
theorem execMoverDisablingDone_keeps {die mover} : Keeps P s (execMoverDisablingDone die mover s) :=
  .next fun h => .ite h.disablingEnd h

end Sys2Proof.Machine
end

section
/-! SUPPORT. O6, O55: the functions of updates, of a slot's life and of video keep what holds of queue and descriptors. -/

namespace Sys2Proof.Machine

set_option Elab.async false

variable {P : List Instr → List Flight → Nat → Prop} {orig s t : State} {r q : Run}

theorem State.Holds.pgCtrlWrite {die slot v} (h : s.Holds P) : (s.pgCtrlWrite die slot v).Holds P := by
  unfold State.pgCtrlWrite
  refine .ite ?_ h.setReg
  extract_lets
  split
  · exact h.setReg
  · exact h.setReg
theorem execParamGroupValidate_keeps {die slot value} : Keeps P s (execParamGroupValidate die slot value s) :=
  .next fun h => .ite h.pgCtrlWrite h
theorem Run.Holds.readLanes {o off n} (h : r.Holds P) : (r.readLanes o off n).1.Holds P := h.readElems
theorem Run.Holds.writeLanesAt {o gather off xs} (h : r.Holds P) : (r.writeLanesAt o gather off xs).Holds P := h.writeLanes
theorem State.Holds.tbScatter {die ep} (h : s.Holds P) : (s.tbScatter die ep).Holds P := by
  unfold State.tbScatter
  dsimp only
  generalize List.map _ _ = ws
  exact h
theorem Run.Holds.gaccRun {w off xs fuel} (h : r.Holds P) : (r.gaccRun w off xs fuel).Holds P := by
  induction fuel generalizing r off xs with
  | zero => exact h
  | succ fuel ih => exact .ite h (ih h.msop)
theorem Run.Holds.gnormStrip {d g cols i} {x : Run × GnormAcc} {st} (h : x.1.Holds P) : (gnormStrip d g cols i x st).1.Holds P :=
  .fst_ite h (.fst_ite h.readLanes h.readLanes.addSat)
theorem Run.Holds.gnormRow {d g cols} {x : Run × GnormAcc} {i} (h : x.1.Holds P) : (gnormRow d g cols x i).1.Holds P :=
  have k1 := h.pair.fst_foldl (fun _ _ h1 => h1.gnormStrip)
  .fst_ite h (.fst_ite k1 (.ite k1 k1.addSat.writeAll))
theorem Run.Holds.gnormAdds {d rows cols clipIx a} (h : r.Holds P) : (gnormAdds d rows cols clipIx r a).Holds P :=
  have k1 := Run.Holds.ite h (.ite h.addSat.gaccRun h.addSat.gaccRun.msopAt)
  have k2 := Run.Holds.ite k1.addSat k1.addSat.msopAt
  .ite k2 (.ite k2 k2.msopAt)
theorem Run.Holds.gnormGuard {d} (h : r.Holds P) : (gnormGuard d r).Holds P :=
  .ite h (.ite h.readNat (.ite h.readNat.msopAt (.ite h.readNat.msopAt h.readNat)))
theorem State.Holds.gnormRun {f} (h : s.Holds P) : (s.gnormRun f).1.Holds P :=
  have k1 := h.tbScatter.start.pair.fst_foldl (fun _ _ h1 => h1.gnormRow)
  .endRows (.gnormGuard (.fst_ite h.tbScatter.start (.ite k1 k1.gnormAdds)))
theorem State.Holds.gnorm {f} (h : s.Holds (keptFrom orig)) : (s.gnorm f).Holds (keptFrom orig) := .vecEnd (self.gnormRun.ends h)
theorem execGnorm_keeps {fid} : Keeps (keptFrom orig) s (execGnorm fid s) := by
  refine .next fun h => ?_
  split
  · exact .ite h.gnorm h
  · exact h
theorem Run.Holds.updCfgSum {k : UpdCfg} {ix} (h : r.Holds P) : (k.sum r ix).1.Holds P := h.readLanes
theorem Run.Holds.updCfgColumns {k : UpdCfg} (h : r.Holds P) : (k.columns r).1.Holds P :=
  have k1 := Run.Holds.fst_ite h.readLanes.pair h.readLanes.readLanes
  have k2 := Run.Holds.fst_ite k1.pair k1.updCfgSum
  .fst_ite k2 k2.readLanes
theorem Run.Holds.writeCopy {o sc gather cols i j xs} (h : r.Holds P) : (r.writeCopy o sc gather cols i j xs).Holds P :=
  .ite (h.foldl (fun _ _ h1 => h1.s.run.writeBlock.s.run)) h.writeLanesAt
theorem Run.Holds.updCfgStrip {k : UpdCfg} {ib1 ib2 row i st} (h : r.Holds P) : (k.strip ib1 ib2 row i r st).Holds P := by
  unfold UpdCfg.strip
  refine .ite h ?_
  dsimp only
  generalize eg : r.readLanes k.grad _ _ = g
  have hg : g.1.Holds P := eg ▸ h.readLanes
  generalize ew : (if g.1.stop then _ else _ : Run × List Lane) = w
  have hw : w.1.Holds P := ew ▸ .fst_ite hg hg.readLanes
  generalize em : (if w.1.stop then _ else _ : Run × List Lane) = m
  have hm : m.1.Holds P := em ▸ .fst_ite hw (.fst_ite hw.readLanes hw)
  generalize ev : (if m.1.stop then _ else _ : Run × List Lane) = v
  have hv : v.1.Holds P := ev ▸ .fst_ite hm (.fst_ite hm.readLanes hm)
  refine .ite hv ?_
  generalize ea : (if k.vec then _ else _ : Run) = a
  have ha : a.Holds P :=
    have k1 := Run.Holds.ite hv.writeLanesAt.writeLanesAt hv.writeLanesAt
    ea ▸ .ite k1.writeLanesAt k1
  split
  · exact ha.writeCopy
  · exact ha
theorem Run.Holds.updCfgRow {k : UpdCfg} {ib1 ib2 i} (h : r.Holds P) : (k.row ib1 ib2 r i).Holds P :=
  have k1 := Run.Holds.fst_ite h.updCfgSum.pair h.updCfgSum.readLanes
  .ite h (.ite (h.foldl (fun _ _ h1 => h1.updCfgStrip)) (.ite k1 (k1.writeLanesAt.foldl (fun _ _ h1 =>
    h1.updCfgStrip))))
theorem Run.Holds.updCfgWriteBank {k : UpdCfg} (h : r.Holds P) : (k.writeBank r).Holds P := .ite h h.writeLanesAt.writeLanesAt
theorem Run.Holds.updCfgCopyBank {k : UpdCfg} (h : r.Holds P) : (k.copyBank r).Holds P := by
  unfold UpdCfg.copyBank
  extract_lets src dst part
  have hpart {q : Run} {off n} (hq : q.Holds P) : (part q off n).Holds P := by
    dsimp only [part]
    exact .ite hq (.ite hq.readMarks hq.readMarks.writeMarks)
  exact hpart (hpart h)
theorem Run.Holds.updCfgReverts {k : UpdCfg} (h : r.Holds P) : (k.reverts r).Holds P :=
  .ite (State.Holds.run (h.s.foldl (fun _ _ h1 => h1.rmRevertSlot))) h
theorem Run.Holds.updCfgGo {k : UpdCfg} {a b} (h : r.Holds P) : (k.go a b r).Holds P :=
  have k1 := Run.Holds.fst_ite h.readNat.pair h.readNat.readNat
  have k2 := Run.Holds.foldl (.fst_ite k1.addSat.pair k1.addSat.updCfgColumns) (fun _ _ h1 => h1.updCfgRow)
  .ite k1 (.ite (.raise (.updCfgReverts (.ite k1.updCfgCopyBank k1))) (.ite k1.raise (.ite k2.updCfgWriteBank k2)))
theorem State.Holds.updateRun {f} (h : s.Holds P) : (s.updateRun f).1.Holds P := h.tbScatter.start.updCfgGo.endRows
theorem State.Holds.update {f} (h : s.Holds (keptFrom orig)) : (s.update f).Holds (keptFrom orig) := .vecEnd (self.updateRun.ends h)
theorem execUpdate_keeps {fid} : Keeps (keptFrom orig) s (execUpdate fid s) := by
  refine .next fun h => ?_
  split
  · exact .ite h.update h
  · exact h
theorem Run.Holds.wcopyMax {src cols} {x : Run × Word × Bool} {i} (h : x.1.Holds P) : (wcopyMax src cols x i).1.Holds P :=
  h.fst_foldl (fun _ _ h1 => .fst_ite h1 h1.readLanes)
theorem Run.Holds.wcopyRow {src dst sc gather taint cols i} (h : r.Holds P) :
    (wcopyRow src dst sc gather taint cols r i).Holds P :=
  h.foldl (fun _ _ h1 => .ite h1 (.ite h1.readLanes h1.readLanes.writeCopy))
theorem State.Holds.wcopyRun {f} (h : s.Holds P) : (s.wcopyRun f).1.Holds P :=
  have k1 := h.start.pair.fst_foldl (fun _ _ h1 => h1.wcopyMax)
  have k2 := Run.Holds.ite k1 (k1.foldl (fun _ _ h1 => h1.wcopyRow))
  have k3 := Run.Holds.ite k2 k2.writeAll
  .fst_ite h.start.endRows (.fst_ite (.endRows (.ite k3.gatherInto k3.gatherInto.s.run)) (.endRows (h.start.foldl (fun
    _ _ h1 => h1.wcopyRow))))
theorem State.Holds.wcopy {f} (h : s.Holds (keptFrom orig)) : (s.wcopy f).Holds (keptFrom orig) := .vecEnd (self.wcopyRun.ends h)
theorem execWcopy_keeps {fid} : Keeps (keptFrom orig) s (execWcopy fid s) := by
  refine .next fun h => ?_
  split
  · exact .ite h.wcopy h
  · exact h
theorem State.Holds.slotSet {die slot e g} (h : s.Holds P) : (s.slotSet die slot e g).Holds P := h.putFld.putFld
theorem Run.Holds.slotStep {d i} (h : r.Holds P) : (slotStep d r i).Holds P := .ite h (.ite h.readNat h.readNat.s.slotSet.run)
theorem State.Holds.slotloadRun {f} (h : s.Holds P) : (s.slotloadRun f).1.Holds P :=
  .ite h.start.raise (h.start.foldl (fun _ _ h1 => h1.slotStep))
theorem State.Holds.slotload {f} (h : s.Holds (keptFrom orig)) : (s.slotload f).Holds (keptFrom orig) := self.slotloadRun.ends h
theorem execSlotload_keeps {fid} : Keeps (keptFrom orig) s (execSlotload fid s) := by
  refine .next fun h => ?_
  split
  · exact .ite h.slotload h
  · exact h
theorem State.Holds.abortWrite {die v} (h : s.Holds (keptFrom orig)) : (s.abortWrite die v).Holds (keptFrom orig) := .ite h.setReg.abortAll h.setReg
theorem execDcAbortWrite_keeps {die value} : Keeps (keptFrom orig) s (execDcAbortWrite die value s) :=
  .next fun h => .ite h.abortWrite h
theorem Run.Holds.moveRows {c src soff spitch dst doff dpitch len rows} (h : r.Holds P) :
    (r.moveRows c src soff spitch dst doff dpitch len rows).Holds P :=
  h.foldl (fun _ _ h1 => .ite h1 h1.moveRow)
theorem State.Holds.spillRun {f} (h : s.Holds P) : (s.spillRun f).1.Holds P :=
  have k1 := Run.Holds.ite h.start h.start.moveRows
  have k2 := Run.Holds.ite k1 k1.write
  have k3 := Run.Holds.ite k2.raise k2
  .ite k3.gatherInto k3
theorem State.Holds.spill {f} (h : s.Holds (keptFrom orig)) : (s.spill f).Holds (keptFrom orig) := self.spillRun.ends h
theorem execSpill_keeps {fid} : Keeps (keptFrom orig) s (execSpill fid s) := by
  refine .next fun h => ?_
  split
  · exact .ite h.spill.movEnd h
  · exact h
theorem Run.Holds.spoil {dst pitch row rows} (h : r.Holds P) : (r.spoil dst pitch row rows).Holds P :=
  h.foldl (fun _ _ h1 => .ite h1 h1.s.freeBytes.run.writeMover.s.run)
theorem Run.Holds.badSpill {reason} (h : r.Holds P) : (r.badSpill reason).Holds P := h.raiseLog
theorem Run.Holds.spoilLines (h : r.Holds P) : r.spoilLines.Holds P := State.Holds.run (h.s.foldl (fun _ _ h1 => h1.markPoison))
theorem State.Holds.recallRun {f} (h : s.Holds P) : (s.recallRun f).1.Holds P := by
  unfold State.recallRun
  dsimp only
  split
  · exact .ite h.start.read.gatherInto h.start.read
  · split
    · exact .ite h.start.read.badSpill.spoil.gatherInto h.start.read.badSpill.spoil
    · exact
        have k1 := Run.Holds.ite h.start.read.moveRows.badSpill.spoilLines h.start.read.moveRows
        .fst_ite h.start.read.raise (.ite (.gatherInto (.ite k1.raise k1)) (.ite k1.raise k1))
theorem State.Holds.recall {f} (h : s.Holds (keptFrom orig)) : (s.recall f).Holds (keptFrom orig) := self.recallRun.ends h
theorem execRecall_keeps {fid} : Keeps (keptFrom orig) s (execRecall fid s) := by
  refine .next fun h => ?_
  split
  · exact .ite h.recall.movEnd h
  · exact h
theorem State.Holds.barrierArrive {cid step m} (h : s.Holds P) : (s.barrierArrive cid step m).1.Holds P :=
  .fst_ite h (.fst_ite h.same (.fst_ite h (.fst_ite h h.same)))
theorem State.Holds.fenceInc {die ctr} (h : s.Holds P) : (s.fenceInc die ctr).Holds P := .ite h h.setReg
theorem State.Holds.commitPass {f} (h : s.Holds (keptFrom orig)) : (s.commitPass f).Holds (keptFrom orig) :=
  .finishWith (.same (.ite (h.putFld.foldl (fun _ _ h1 => h1.fenceInc)) h.putFld))
theorem State.Holds.commitCheck {f} (h : s.Holds (keptFrom orig)) : (s.commitCheck f).Holds (keptFrom orig) := .ite h.putFld.commitPass h.putFld
theorem State.Holds.commitScan {cid step} (h : s.Holds (keptFrom orig)) : (s.commitScan cid step).Holds (keptFrom orig) :=
  h.foldl (fun _ _ h1 => h1.commitCheck)
theorem State.Holds.sendArrive {f m} (h : s.Holds P) : (s.sendArrive f m).Holds P := by
  unfold State.sendArrive
  split
  · exact h
  · exact .ite h.sendSeq h
theorem State.Holds.commitStart {f} (h : s.Holds P) : (s.commitStart f).Holds P :=
  h.setReg.same.foldl (fun _ _ h1 => h1.sendArrive)
theorem State.Holds.commit {f} (h : s.Holds (keptFrom orig)) : (s.commit f).Holds (keptFrom orig) := .commitScan (.barrierArrive (.ite h h.commitStart))
theorem execCommit_keeps {fid} : Keeps (keptFrom orig) s (execCommit fid s) := by
  refine .next fun h => ?_
  split
  · exact .ite h.commit h
  · exact h
theorem State.Holds.commitFail {f} (h : s.Holds (keptFrom orig)) : (s.commitFail f).Holds (keptFrom orig) :=
  .finishWith (h.putFld.setReg.same.foldl (fun _ _ h1 => h1.abortWrite))
theorem execCommitTimeout_keeps {fid} : Keeps (keptFrom orig) s (execCommitTimeout fid s) := by
  refine .next fun h => ?_
  split
  · exact .ite h.commitPass h.commitFail
  · exact h
theorem State.Holds.slotRestore {die k bs} (h : s.Holds P) : (s.slotRestore die k bs).Holds P :=
  h.setReg.setReg.setReg.setReg.setReg.foldl (fun _ _ h1 => h1.setReg)
theorem Run.Holds.slotimgStep {d i} (h : r.Holds P) : (slotimgStep d r i).Holds P :=
  .ite h (.ite (.ite h.read h.read.s.slotRestore.run) h.write)
theorem State.Holds.slotimgRun {f} (h : s.Holds P) : (s.slotimgRun f).1.Holds P :=
  .ite h.start.raise (h.start.foldl (fun _ _ h1 => h1.slotimgStep))
theorem State.Holds.slotimg {f} (h : s.Holds (keptFrom orig)) : (s.slotimg f).Holds (keptFrom orig) := self.slotimgRun.ends h
theorem execSlotimg_keeps {fid} : Keeps (keptFrom orig) s (execSlotimg fid s) := by
  refine .next fun h => ?_
  split
  · exact .ite h.slotimg h
  · exact h
theorem Run.Holds.readBits {w n} (h : r.Holds P) : (r.readBits w n).Holds P := by
  unfold Run.readBits
  exact h.foldl (fun _ _ h1 => by (split; exacts [.ite h1 (.answered (State.Holds.run (.ite h1.s.shareCopies.placeShared
    h1.s.shareCopies))), h1]))
theorem Run.Holds.videoPrmRow {p : VideoPrm} {f b out gather c i} (h : r.Holds P) : (p.row f b out gather c i r).Holds P :=
  .ite h h.writeElems
theorem Run.Holds.videoPrmSpoil {p : VideoPrm} {b out c i} (h : r.Holds P) : (p.spoil b out c i r).Holds P :=
  h.foldl (fun _ _ h1 => .ite h1 h1.s.freeBytes.run.write)
theorem Run.Holds.scribble {w n} (h : r.Holds P) : (r.scribble w n).Holds P := h.s.freeBytes.run.write.s.run
theorem Run.Holds.videoPrmFails {p : VideoPrm} {e reason pos later out} (h : r.Holds P) :
    (p.fails e reason pos later out r).Holds P :=
  .raise (h.s.log.putFld.setReg.run.foldl (fun _ _ h1 => h1.foldl (fun _ _ h2 => h2.videoPrmSpoil)))
theorem State.Holds.decodeRun {f scratch} (h : s.Holds P) : (s.decodeRun f scratch).1.Holds P := by
  unfold State.decodeRun
  exact have k1 := h.start.readBits.foldl (fun _ _ h1 => h1.foldl (fun _ _ h2 => h2.videoPrmRow)); .fst_ite
    h.start.gatherInto.raise (.gatherInto (.scribble (.ite k1 (by (split; exacts [k1, k1.videoPrmFails, k1.miss,
    k1.videoPrmFails, k1.s.run, k1.videoPrmFails])))))
theorem State.Holds.decode {f scratch} (h : s.Holds (keptFrom orig)) : (s.decode f scratch).Holds (keptFrom orig) := self.decodeRun.ends h
theorem State.Holds.vdBusy {die e} (h : s.Holds P) : (s.vdBusy die e).Holds P := h.setFlag
theorem State.Holds.decEnd {f} (h : s.Holds P) : (s.decEnd f).Holds P := by
  unfold State.decEnd
  split
  · exact .ite (.ite h.vdBusy.vdFaultSet.putFld.setReg h.vdBusy) h
  · exact h
theorem execDecode_keeps {fid scratch} : Keeps (keptFrom orig) s (execDecode fid s scratch) := by
  refine .next fun h => ?_
  split
  · refine .ite ?_ h
    extract_lets
    split
    · exact .ite (.ite h.putFld.decode.decEnd h.putFld.decode.decEnd.setReg) h.putFld.decode.setReg
    · exact h.putFld.decode
  · exact h

end Sys2Proof.Machine
end

section
/-! SUPPORT. O6, O55: the functions of the fabric keep what holds of queue and descriptors. -/

namespace Sys2Proof.Machine

set_option Elab.async false

variable {P : List Instr → List Flight → Nat → Prop} {orig s t : State} {r q : Run}

theorem State.Holds.unitFaultSet {f st} (h : s.Holds P) : (s.unitFaultSet f st).Holds P := by
  unfold State.unitFaultSet
  extract_lets
  split
  · exact .ite h.maFaultSet h.veFaultSet
  · exact h.mvFaultSet
  · exact h.vdFaultSet.setReg
  · exact h
theorem State.Holds.dropGuards {fid ixs} (h : s.Holds P) : (s.dropGuards fid ixs).Holds P := h.same
theorem State.Holds.haltSends {fid} (h : s.Holds P) : (s.haltSends fid).Holds P := h.same.dropGuards
theorem State.Holds.haltDrain {f} (h : s.Holds (keptFrom orig)) : (s.haltDrain f).Holds (keptFrom orig) := .ite h.haltSends.setFlight h
theorem State.Holds.unitMeets {f code detail} (h : s.Holds (keptFrom orig)) : (s.unitMeets f code detail).Holds (keptFrom orig) := by
  unfold State.unitMeets
  split
  · exact h
  · exact h.setFlight
  · exact .ite h.setFlight.matEnd.maBusy h.unitFaultSet
theorem State.Holds.haltUnit {fid code} (h : s.Holds (keptFrom orig)) : (s.haltUnit fid code).Holds (keptFrom orig) := by
  unfold State.haltUnit
  split
  · exact .ite (.ite h.haltSends (.ite h.haltDrain h)) h
  · exact h
theorem State.Holds.raiseFlight {fid code detail} (h : s.Holds (keptFrom orig)) : (s.raiseFlight fid code detail).Holds (keptFrom orig) := by
  unfold State.raiseFlight
  extract_lets
  split
  · exact .ite (.ite h.haltUnit.setFlight h.haltUnit.setFlight.unitMeets) h.haltUnit
  · exact h.haltUnit
theorem State.Holds.portChange {p link width lanes reversed} (h : s.Holds P) :
    (s.portChange p link width lanes reversed).Holds P :=
  .ite h.setReg h.setReg.log
theorem State.Holds.portFall {p link} (h : s.Holds P) : (s.portFall p link).Holds P :=
  h.portChange.setFlag.same.foldl (fun _ _ h1 => h1.payBack)
theorem State.Holds.portEnable {p} (h : s.Holds P) : (s.portEnable p).Holds P := .ite h.setFlag.portFall h.setFlag
theorem execPortEnable_keeps {port} : Keeps P s (execPortEnable port s) := .next fun h => .ite h.portEnable h
theorem State.Holds.portDisable {p} (h : s.Holds P) : (s.portDisable p).Holds P := .ite h.setFlag h.setFlag.portFall
theorem execPortDisable_keeps {port} : Keeps P s (execPortDisable port s) := .next fun h => .ite h.portDisable h
theorem State.Holds.portRetrain {p} (h : s.Holds P) : (s.portRetrain p).Holds P := .ite h.portFall h
theorem execPortRetrain_keeps {port} : Keeps P s (execPortRetrain port s) := .next fun h => .ite h.portRetrain h
theorem State.Holds.sendLinkFrame {p} (h : s.Holds P) : (s.sendLinkFrame p).Holds P := h.sendLink
theorem State.Holds.portTrained {p lanes reversed} (h : s.Holds P) : (s.portTrained p lanes reversed).Holds P := by
  unfold State.portTrained
  split
  · exact h.portChange.sendLinkFrame
  · exact h.portChange
theorem execPortTrained_keeps {port lanes reversed} : Keeps P s (execPortTrained port lanes reversed s) :=
  .next fun h => .ite h.portTrained h
theorem execLinkRepeat_keeps {port} : Keeps P s (execLinkRepeat port s) := .next fun h => .ite h.sendLinkFrame h
theorem execPortLinkDown_keeps {port} : Keeps P s (execPortLinkDown port s) := .next fun h => .ite h.portFall h
theorem State.Holds.dropFrame {p f} (h : s.Holds P) : (s.dropFrame p f).Holds P := h.count.log
theorem State.Holds.linkUp {p f} (h : s.Holds P) : (s.linkUp p f).Holds P := h.portChange.setReg.setPools
theorem execLink_keeps {port f} : Keeps P s (execLink port f s) :=
  .next fun h => .ite (.ite h.dropFrame (.ite h.linkUp h)) h
theorem execCredit_keeps {port f} : Keeps P s (execCredit port f s) :=
  .next fun h => .ite (.ite h.dropFrame h.setPools.drainPort) h
theorem State.Holds.forward {p f owed} (h : s.Holds P) : (s.forward p f owed).Holds P := .ite h.payBack.dropFrame h.sendPort
theorem State.Holds.receive {p t f act} (h : s.Holds P) (hact : ∀ x1, x1.Holds P → (act x1).Holds P) : (s.receive p t f act).Holds P :=
  .ite h (.ite h.payBack.dropFrame (.ite h.forward (.ite h.payBack.dropFrame (hact _ h.payBack))))
theorem execFrameForward_keeps {port f} : Keeps P s (execFrameForward port f s) :=
  .next fun h => .ite h (h.receive (fun _ h1 => h1))
theorem State.Holds.setSync {f n} (h : s.Holds P) : (s.setSync f n).Holds P := h.same
theorem State.Holds.endSync {f} (h : s.Holds P) : (s.endSync f).Holds P := h.same
theorem State.Holds.sendSync {f} (h : s.Holds P) : (s.sendSync f).Holds P := h.setSync.sendPlain
theorem State.Holds.setTxAck {f} (h : s.Holds P) : (s.setTxAck f).Holds P := h.setReg
theorem State.Holds.readFails {u code detail} (h : s.Holds (keptFrom orig)) : (s.readFails u code detail).Holds (keptFrom orig) := by
  unfold State.readFails
  split
  · exact h.haltUnit.same
  · exact h
theorem State.Holds.frameFails {u code detail} (h : s.Holds (keptFrom orig)) : (s.frameFails u code detail).Holds (keptFrom orig) := by
  unfold State.frameFails
  refine .ite h.readFails ?_
  split
  · exact h.dropGuards.raiseFlight
  · exact h
theorem State.Holds.ofFlight {f} (h : s.Holds P) : (Run.ofFlight s f).Holds P := h.start.s.run
theorem Run.Holds.gredDone {f} (h : r.Holds (keptFrom orig)) : (r.gredDone f).Holds (keptFrom orig) := h.s.setFlight
theorem State.Holds.gredFail {g code detail} (h : s.Holds (keptFrom orig)) : (s.gredFail g code detail).Holds (keptFrom orig) := by
  unfold State.gredFail
  extract_lets
  split
  · exact .ite h.same.ofFlight.raise.gredDone h.same
  · exact h.same
theorem State.Holds.silentModule {f} (h : s.Holds (keptFrom orig)) : (s.silentModule f).Holds (keptFrom orig) := by
  unfold State.silentModule
  exact .dropGangOut (h.foldl (fun _ _ h1 => by (split; exacts [h1.reportSilent, h1])))
theorem State.Holds.resendGangs {f} (h : s.Holds P) : (s.resendGangs f).Holds P := by
  unfold State.resendGangs
  exact h.same.foldl (fun _ _ h1 => by (split; exacts [h1.emit, h1]))
theorem State.Holds.flowFail {f} (h : s.Holds (keptFrom orig)) : (s.flowFail f).Holds (keptFrom orig) :=
  .foldl (.silentModule (h.same.foldl (fun _ _ h1 => h1.frameFails))) (fun _ _ h1 => h1.gredFail)
theorem State.Holds.flowZero {f} (h : s.Holds P) : (s.flowZero f).Holds P := h.setReg.setReg.setReg.same
theorem State.Holds.flowTimeout {f} (h : s.Holds (keptFrom orig)) : (s.flowTimeout f).Holds (keptFrom orig) := h.setFlag.flowFail.putFld.setTxAck
theorem State.Holds.flowEnable {f} (h : s.Holds P) : (s.flowEnable f).Holds P :=
  .ite (.ite h.enableReq.sendSync h.enableReq.enablingEnd) h.enableReq
theorem execFlowEnable_keeps {flow} : Keeps P s (execFlowEnable flow s) := .next fun h => .ite h.flowEnable h
theorem execFlowSyncRetry_keeps {flow} : Keeps P s (execFlowSyncRetry flow s) :=
  .next fun h => .ite (.ite h.sendSync h.endSync.enablingEnd) h
theorem execFlowDisable_keeps {flow} : Keeps P s (execFlowDisable flow s) :=
  .next fun h => .ite h.disableReq.endSync h
theorem execFlowDisablingDone_keeps {flow} : Keeps (keptFrom orig) s (execFlowDisablingDone flow s) :=
  .next fun h => .ite h.flowFail.disablingEnd h
theorem Run.Holds.putStep {d a b n k} (h : r.Holds P) : (putStep d a b n r k).Holds P :=
  .ite h (.ite h.read (State.Holds.run (Run.Holds.s (.ite h.read.raise h.read))))
theorem State.Holds.putRun {f} (h : s.Holds P) : (s.putRun f).1.Holds P :=
  have k1 := h.start.foldl (fun _ _ h1 => h1.putStep)
  .fst_ite h.start.raise (.fst_ite h.start.raise (.ite k1.s.run k1))
theorem State.Holds.guardWrite {g} (h : s.Holds (keptFrom orig)) : (s.guardWrite g).Holds (keptFrom orig) := by
  unfold State.guardWrite
  split
  · exact h.sendSeq
  · exact .ite h.same (.ite h.writeLine.start.poisoned.s.raiseFlight h.writeLine)
theorem State.Holds.releaseGuards (h : s.Holds (keptFrom orig)) : s.releaseGuards.Holds (keptFrom orig) := h.same.foldl (fun _ _ h1 => h1.guardWrite)
theorem State.Holds.resume {f} (h : s.Holds (keptFrom orig)) : (s.resume f).Holds (keptFrom orig) :=
  .setTxAck (.ite h.releaseGuards.openWindow h.releaseGuards)
theorem State.Holds.acked {f n} (h : s.Holds (keptFrom orig)) : (s.acked f n).Holds (keptFrom orig) := h.same.resume
theorem State.Holds.sendAgain {u} (h : s.Holds (keptFrom orig)) : (s.sendAgain u).Holds (keptFrom orig) := by
  unfold State.sendAgain
  extract_lets
  split
  · exact .ite h.same.sendRouted.raiseFlight h.same.sendRouted
  · exact h.same.sendRouted
theorem State.Holds.resendFrom {f n} (h : s.Holds (keptFrom orig)) : (s.resendFrom f n).Holds (keptFrom orig) :=
  .ite h.flowTimeout (h.same.foldl (fun _ _ h1 => h1.sendAgain))
theorem State.Holds.flowDeaf {f} (h : s.Holds P) : (s.flowDeaf f).Holds P := .ite h (.ite h.log h)
theorem State.Holds.toFlow {p t f act} (h : s.Holds P) (hact : ∀ x1, x1.Holds P → (act x1).Holds P) : (s.toFlow p t f act).Holds P :=
  h.receive (fun _ h1 => .ite (hact _ h1) h1.flowDeaf)
theorem execAck_keeps {port f} : Keeps (keptFrom orig) s (execAck port f s) := .next fun h => h.toFlow (fun _ h1 => h1.acked)
theorem execNak_keeps {port f} : Keeps (keptFrom orig) s (execNak port f s) :=
  .next fun h => h.toFlow (fun _ h1 => h1.acked.resendFrom)
theorem execRetransmitTimeout_keeps {flow} : Keeps (keptFrom orig) s (execRetransmitTimeout flow s) := by
  refine .next fun h => ?_
  refine .ite ?_ h
  split
  · exact h.resendFrom
  · exact .ite h (.ite h.flowTimeout h.resendGangs)
theorem State.Holds.dropSent {f n} (h : s.Holds P) : (s.dropSent f n).Holds P := h.same
theorem execReadRsp_keeps {port f} : Keeps (keptFrom orig) s (execReadRsp port f s) := by
  refine .next fun h => h.toFlow fun _ h1 => ?_
  split
  · refine .ite (.resume ?_) h1
    split
    · exact h1.dropSent.same
    · exact h1.dropSent
  · exact h1
theorem execFault_keeps {port f} : Keeps (keptFrom orig) s (execFault port f s) := by
  refine .next fun h => h.toFlow fun _ h1 => ?_
  split
  · exact .resume (.frameFails (.snd_ite h1.dropSent h1.dropSent.freeWord))
  · exact h1
theorem State.Holds.advance {f} (h : s.Holds P) : (s.advance f).Holds P := h.setReg.same
theorem State.Holds.nakOnce {f} (h : s.Holds P) : (s.nakOnce f).Holds P := .ite h h.same.sendPlain
theorem State.Holds.inSequence {f quiet perform again} (h : s.Holds P) (hperform : (perform s).Holds P) (hagain : (again s).Holds P) :
    (s.inSequence f quiet perform again).Holds P := by
  unfold State.inSequence
  refine .ite ?_ (.ite hagain h.nakOnce)
  split
  · next e => exact .ite (hperform.taken e).advance (hperform.taken e).advance.visible
  · next e => exact (hperform.fails e).advance.sendPlain
  · next e => exact hperform.later e
theorem State.Holds.sequenced {p t f perform} (h : s.Holds P) (hperform : ∀ s, s.Holds P → (perform s).Holds P) :
    (s.sequenced p t f perform).Holds P :=
  h.toFlow fun _ h1 => h1.inSequence (hperform _ h1) h1.sendAck
theorem State.Holds.missLog {io m a src acc} (h : s.Holds P) : (s.missLog io m a src acc).Holds P := by
  unfold State.missLog
  split
  · exact h.log
  · exact h.log
  · exact h.log
  · exact h
theorem State.Holds.performedAnswer {io as src acc act} (h : s.Holds P) (hact : ∀ x1, x1.Holds P → (act x1).Holds P) :
    (Performed.answer s io as src acc act).Holds P := by
  unfold Performed.answer
  split
  · exact h.missLog
  · exact hact _ h
theorem State.Holds.unwaitFrame {flow as} (h : s.Holds P) : (s.unwaitFrame flow as).Holds P := h.foldl (fun _ _ h1 => h1.unwait)
theorem State.Holds.performWrite {f} (h : s.Holds P) : (performWrite f s).Holds P := by
  unfold Machine.performWrite
  extract_lets
  split
  · exact h.missLog.unwaitFrame
  · split
    · exact h.holdFor
    · exact .ite h.unwaitFrame (h.unwaitFrame.write.performedAnswer (fun _ h1 => h1))
theorem execWrite_keeps {port f} : Keeps P s (execWrite port f s) :=
  .next fun h => h.sequenced fun _ h1 => h1.performWrite
theorem State.Holds.performMsop {f} (h : s.Holds P) : (performMsop f s).Holds P := by
  unfold Machine.performMsop
  refine .ite h.log ?_
  extract_lets
  split
  · exact h.missLog.unwait
  · split
    · exact h.holdFor
    · exact .ite h.unwait (h.unwait.msop.performedAnswer (fun _ h1 => h1))
theorem execMsopFrame_keeps {port f} : Keeps P s (execMsopFrame port f s) :=
  .next fun h => h.sequenced fun _ h1 => h1.performMsop
theorem State.Holds.performRead {f} (h : s.Holds P) : (performRead f s).Holds P := by
  unfold Machine.performRead
  extract_lets
  split
  · exact h.missLog.unwaitFrame
  · split
    · exact h.holdFor
    · exact State.Holds.performedAnswer (h.unwaitFrame.foldl (fun _ _ h1 => h1.shareCopies)) (fun _ h1 => h1.sendPlain)
theorem execRead_keeps {port f} : Keeps P s (execRead port f s) := by
  refine .next fun h => h.toFlow fun _ h1 => h1.inSequence h1.performRead ?_
  split
  · next e => exact h1.performRead.taken e
  · next e => exact (h1.performRead.fails e).sendPlain
  · next e => exact h1.performRead.later e
theorem State.Holds.performSignal {f} (h : s.Holds P) : (performSignal f s).Holds P := State.Holds.ite h.fenceInc h
theorem execSignal_keeps {port f} : Keeps P s (execSignal port f s) :=
  .next fun h => h.sequenced fun _ h1 => h1.performSignal
theorem State.Holds.performArrive {f} (h : s.Holds (keptFrom orig)) : (performArrive f s).Holds (keptFrom orig) := .ite h.barrierArrive.commitScan h
theorem execArrive_keeps {port f} : Keeps (keptFrom orig) s (execArrive port f s) :=
  .next fun h => h.sequenced fun _ h1 => h1.performArrive
theorem State.Holds.takeSync {f} (h : s.Holds (keptFrom orig)) : (s.takeSync f).Holds (keptFrom orig) := by
  unfold State.takeSync
  refine .ite h ?_
  extract_lets
  split
  · exact h.log
  · exact h.sendPlain
  · exact h.flowFail.flowZero.sendPlain
  · exact h
theorem execSync_keeps {port f} : Keeps (keptFrom orig) s (execSync port f s) :=
  .next fun h => h.receive (fun _ h1 => h1.takeSync)
theorem State.Holds.takeSyncAck {f} (h : s.Holds P) : (s.takeSyncAck f).Holds P := by
  unfold State.takeSyncAck
  refine .ite h ?_
  extract_lets
  split
  · exact h.log
  · exact h.endSync.flowZero.enablingEnd
  · exact h
theorem execSyncAck_keeps {port f} : Keeps P s (execSyncAck port f s) :=
  .next fun h => h.receive (fun _ h1 => h1.takeSyncAck)
theorem execAckTimer_keeps {flow} : Keeps P s (execAckTimer flow s) := .next fun h => .ite h.sendAck h
theorem State.Holds.put {f} (h : s.Holds (keptFrom orig)) : (s.put f).Holds (keptFrom orig) := self.putRun.ends h
theorem execPut_keeps {fid} : Keeps (keptFrom orig) s (execPut fid s) := by
  refine .next fun h => ?_
  split
  · exact .ite h.put h
  · exact h
theorem State.Holds.setGred {g} (h : s.Holds P) : (s.setGred g).Holds P := h.same
theorem State.Holds.sendGrant {g fl} (h : s.Holds P) : (s.sendGrant g fl).Holds P := h.sendPlain
theorem State.Holds.gredUp {g p} (h : s.Holds P) : (s.gredUp g p).Holds P := .ite h (.setGred (h.foldl (fun _ _ h1 => h1.sendSeq)))
theorem State.Holds.gredCast {g p first ws} (h : s.Holds P) : (s.gredCast g p first ws).Holds P :=
  h.foldl (fun _ _ h1 => h1.foldl (fun _ _ h2 => h2.sendSeq))
theorem Run.Holds.gredWrite {w fd eref first ws} (h : r.Holds P) : (r.gredWrite w fd eref first ws).Holds P := h.writeMarks
theorem Run.Holds.gredStore {f first ws} (h : r.Holds P) : (r.gredStore f first ws).Holds P :=
  have k1 := Run.Holds.ite h.addSat.maxes h.addSat
  .ite k1.gredWrite k1.gredWrite.gredWrite
theorem Run.Holds.keep {f} (h : r.Holds (keptFrom orig)) : (r.keep f).Holds (keptFrom orig) := h.s.sendAll.unwaitDesc.setFlight
theorem State.Holds.gredEnd {fid} (h : s.Holds (keptFrom orig)) : (s.gredEnd fid).Holds (keptFrom orig) := by
  unfold State.gredEnd
  split
  · exact .ite h.same.ofFlight.gredDone h
  · exact h
theorem State.Holds.gredResults {f g first ws sat flow} (h : s.Holds (keptFrom orig)) : (s.gredResults f g first ws sat flow).Holds (keptFrom orig) := by
  unfold State.gredResults
  refine .ite h.askFor (State.Holds.gredEnd (.gredCast (.setGred (Run.Holds.keep ?_))))
  have k : (((Run.ofFlight s f).addSat sat).gredStore f first ws).Holds (keptFrom orig) := h.ofFlight.addSat.gredStore
  split
  · exact .ite k.raise k
  · exact k
theorem State.Holds.gredRoot {f g} (h : s.Holds (keptFrom orig)) : (s.gredRoot f g).Holds (keptFrom orig) := by
  unfold State.gredRoot
  refine .ite h ?_
  dsimp only
  split
  · next e => exact h.gredResults.taken e
  · next e => exact h.gredResults.fails e
  · next e => exact h.gredResults.later e
theorem State.Holds.gredGo {fid} (h : s.Holds (keptFrom orig)) : (s.gredGo fid).Holds (keptFrom orig) := by
  unfold State.gredGo
  split
  · exact h.gredUp.gredRoot.gredEnd
  · exact h
theorem Run.Holds.gredParts {f n} (h : r.Holds P) : (r.gredParts f n).1.Holds P := .fst_ite h.read h.readLanes.addSat
theorem State.Holds.gredStart {f} (h : s.Holds (keptFrom orig)) : (s.gredStart f).Holds (keptFrom orig) := by
  unfold State.gredStart
  extract_lets
  split
  · exact h.start.raise.gredDone
  · exact .ite h.start.raise.gredDone (.ite (State.Holds.self.start.gredParts.gatherInto.finish h) (.gredGo (.foldl (.same
    (Run.Holds.keep (.ite h.start.gredParts.s.freeWord.run.raise h.start.gredParts))) (fun _ _ h1 => h1.sendGrant))))
theorem execGred_keeps {fid} : Keeps (keptFrom orig) s (execGred fid s) := by
  refine .next fun h => ?_
  split
  · exact .ite (.ite h.gredGo h.gredStart) h
  · exact h
theorem State.Holds.performRed {f} (h : s.Holds (keptFrom orig)) : (performRed f s).Holds (keptFrom orig) := by
  unfold Machine.performRed
  split
  · exact h
  · exact .ite h (.gredGo (.sendGrant (.ite h.setGred.raiseFlight h.setGred)))
theorem execRed_keeps {port f} : Keeps (keptFrom orig) s (execRed port f s) :=
  .next fun h => h.sequenced fun _ h1 => h1.performRed
theorem State.Holds.performRes {f} (h : s.Holds (keptFrom orig)) : (performRes f s).Holds (keptFrom orig) := by
  unfold Machine.performRes
  split
  · exact h
  · extract_lets
    split
    · exact h
    · exact .ite h h.gredResults
theorem execRes_keeps {port f} : Keeps (keptFrom orig) s (execRes port f s) :=
  .next fun h => h.sequenced fun _ h1 => h1.performRes
theorem execGrant_keeps {port f} : Keeps (keptFrom orig) s (execGrant port f s) :=
  .next fun h => h.toFlow (fun _ h1 => by (split; exacts [.ite h1.setGred.gredGo h1, h1]))
theorem execGrantRepeat_keeps {fid} : Keeps P s (execGrantRepeat fid s) := by
  refine .next fun h => ?_
  split
  · exact .ite h (h.foldl (fun _ _ h1 => h1.sendGrant))
  · exact h

end Sys2Proof.Machine
end

section
/-! SUPPORT. O6, O55: the functions of coherence and of the host cores' accesses keep what holds of queue and descriptors. -/

namespace Sys2Proof.Machine

set_option Elab.async false

variable {P : List Instr → List Flight → Nat → Prop} {orig s t : State} {r q : Run}

theorem State.Holds.snoop {agent line act} (h : s.Holds P) (hact : ∀ x1 x2, x1.Holds P → (act x1 x2).Holds P) :
    (s.snoop agent line act).Holds P :=
  .ite h (.ite h.emit (hact _ _ h))
theorem execSnpShr_keeps {agent line} : Keeps P s (execSnpShr agent line s) := by
  refine .next fun h => h.snoop fun _ _ h1 => ?_
  split
  · exact h1.emit
  · exact .ite h1.emit h1.writeBack.dropCopy.setOwner.same.emit
theorem State.Holds.giveUp {agent line c} (h : s.Holds P) : (s.giveUp agent line c).Holds P := by
  unfold State.giveUp
  split
  · exact h.emit
  · exact .ite h.releaseCopy.emit h.releaseCopy.emit
theorem execSnpInv_keeps {agent line} : Keeps P s (execSnpInv agent line s) :=
  .next fun h => h.snoop (fun _ _ h1 => h1.giveUp)
theorem execSnpOwn_keeps {agent line} : Keeps P s (execSnpOwn agent line s) :=
  .next fun h => h.snoop (fun _ _ h1 => h1.giveUp)
theorem State.Holds.giveUpGranule {agent granule} (h : s.Holds P) : (s.giveUpGranule agent granule).Holds P :=
  .emit (h.foldl (fun _ _ h1 => h1.writeBack.dropCopy.dropCores.setOwner.same))
theorem execSnpGfl_keeps {agent granule} : Keeps P s (execSnpGfl agent granule s) :=
  .next fun h => h.snoop (fun _ _ h1 => h1.giveUpGranule)
theorem State.Holds.flushGranule {granule} (h : s.Holds P) : (s.flushGranule granule).Holds P :=
  .same (h.foldl (fun _ _ h1 => h1.invalidate))
theorem State.Holds.deliver {src target} (h : s.Holds P) : (s.deliver src target).Holds P := .ite h.log h.same
theorem execInterruptMessage_keeps {srcDie target} : Keeps P s (execInterruptMessage srcDie target s) :=
  .next fun h => .ite h.same.deliver h
theorem State.Holds.imsicWrite {hd offset v} (h : s.Holds P) : (s.imsicWrite hd offset v).Holds P :=
  .ite h (.ite h.same (.ite h.same h))
theorem State.Holds.timerCompare {hart cmp} (h : s.Holds P) : (s.timerCompare hart cmp).Holds P := h.same
theorem execStimecmpExpiry_keeps {hart cmp} : Keeps P s (execStimecmpExpiry hart s cmp) :=
  .next fun h => .ite h.timerCompare h
theorem execBiasInit_keeps {home} : Keeps P s (execBiasInit home s) := .next fun h => .ite h.setFlag h
theorem State.Holds.biasInitDone {home} (h : s.Holds P) : (s.biasInitDone home).Holds P :=
  .setFlag (.same (.ite h.same h.putMem))
theorem execBiasInitDone_keeps {home} : Keeps P s (execBiasInitDone home s) := .next fun h => .ite h.biasInitDone h
theorem State.Holds.setCode {home granule code} (h : s.Holds P) : (s.setCode home granule code).Holds P := h.putMem
theorem Run.Holds.flipOne {code onlyExt a} (h : r.Holds P) : (flipOne code onlyExt r a).Holds P :=
  .ite h (.ite h.s.run (.ite h (.ite h.miss (.ite (.ite h.raiseLog h) (.ite h (.ite h.poisoned (.ite h.s.run
    (State.Holds.run (.setCode (.ite h.s.flushGranule h.s))))))))))
theorem Run.Holds.flipFrom {code onlyExt a n i} (h : r.Holds P) : (flipFrom code onlyExt a n i r).1.Holds P := by
  induction n generalizing r i with
  | zero => exact h
  | succ n ih => exact .fst_ite (ih h.flipOne) h.flipOne
theorem State.Holds.biasflipRun {f} (h : s.Holds P) : (s.biasflipRun f).1.1.Holds P := by
  unfold State.biasflipRun
  dsimp only
  split
  · exact h.start.s.run.raise
  · exact Run.Holds.flipFrom h.start.s.run
theorem State.Holds.biasflip {f} (h : s.Holds (keptFrom orig)) : (s.biasflip f).Holds (keptFrom orig) := by
  unfold State.biasflip
  dsimp only
  have k : (s.biasflipRun f).1.1.Holds (sameAs s) := State.Holds.self.biasflipRun
  generalize s.biasflipRun f = x at k ⊢
  have k1 : State.Holds { x.1.1.s with flights := s.flights } (keptFrom orig) := .of_same ⟨k.1, rfl, k.2.2⟩ h
  exact .ite h (.same (.ite (Run.Holds.ends k h) k1.setFlight.askFor))
theorem execBiasflip_keeps {fid} : Keeps (keptFrom orig) s (execBiasflip fid s) := by
  refine .next fun h => ?_
  split
  · exact .ite h.biasflip h
  · exact h
theorem State.Holds.hfillRun {f} (h : s.Holds P) : (s.hfillRun f).1.Holds P :=
  .ite h.start.raise (h.start.foldl (fun _ _ h1 => .ite h1 h1.write))
theorem State.Holds.hfill {f} (h : s.Holds (keptFrom orig)) : (s.hfill f).Holds (keptFrom orig) := self.hfillRun.ends h
theorem execHfill_keeps {fid} : Keeps (keptFrom orig) s (execHfill fid s) := by
  refine .next fun h => ?_
  split
  · exact .ite h.hfill h
  · exact h
theorem State.Holds.takeOwn {agent line state d} (h : s.Holds P) : (s.takeOwn agent line state d).Holds P :=
  .same (.cacheRoom (.filterRoom (.ite h.same h.invalidate)))
theorem State.Holds.coreStore {hart uncached a bs} (h : s.Holds P) : (s.coreStore hart uncached a bs).Holds P :=
  .ite h.clearPoison.takeOwn (.ite h.writeLine.log (.ite h.writeLine.placeShared h.writeLine))
theorem State.Holds.coreLoad {hart uncached a n} (h : s.Holds P) : (s.coreLoad hart uncached a n).2.Holds P :=
  .snd_ite h (.ite h.shareCopies.placeShared h.shareCopies)
theorem State.Holds.coreFills {hart uncached acc a} (h : s.Holds P) : (s.coreFills hart uncached acc a).Holds P :=
  .ite h.coreFill.coreFill h
theorem State.Holds.l1iServes {hart uncached acc ps} (h : s.Holds P) : (s.l1iServes hart uncached acc ps).2.Holds P :=
  .snd_ite h.freeCount h
theorem State.Holds.coreFetch {hart uncached held a n} (h : s.Holds P) : (s.coreFetch hart uncached held a n).2.Holds P := by
  unfold State.coreFetch
  split
  · exact h
  · exact h.coreLoad.coreFills
theorem State.Holds.corePerform {hart uncached acc held data got ps} (h : s.Holds P) :
    (s.corePerform hart uncached acc held data got ps).Holds P := by
  induction ps generalizing s data got with
  | nil =>
    unfold State.corePerform
    cases acc <;> exact h.emit
  | cons p ps ih =>
    cases acc with
    | load => exact ih h.coreLoad.coreFills
    | fetch => exact ih h.coreFetch
    | store => exact ih h.coreStore.coreFills
    | cboZero => exact ih h.coreStore.coreFills
theorem State.Holds.coreFault {hart uncached acc ps c} (h : s.Holds P) (e : s.coreFault hart uncached acc ps = some (c, t)) :
    t.Holds P := by
  induction ps with
  | nil => cases e
  | cons p ps ih =>
    unfold State.coreFault at e
    split at e
    · cases e; exact h.log
    · cases e
    · split at e
      · cases e; exact h.log
      · exact ih e
theorem State.Holds.coreMemory {hart uncached a size acc ecc} (h : s.Holds P) :
    (s.coreMemory hart uncached a size acc ecc).Holds P := by
  unfold State.coreMemory
  extract_lets all
  have k : (s.l1iServes hart uncached acc all).2.Holds P := h.l1iServes
  generalize s.l1iServes hart uncached acc all = x at k ⊢
  obtain ⟨held, v⟩ := x
  dsimp -zeta only at k ⊢
  extract_lets ps u
  have hu : u.Holds P := by
    dsimp only [u]
    split
    · exact k.ecc
    · exact k
  split
  · next e => exact State.Holds.foldl (hu.coreFault e).emit fun _ _ h2 => h2.unwait
  · split
    · exact k.holdFor
    · exact hu.corePerform.foldl fun _ _ h1 => h1.unwait
theorem State.Holds.reserve {hart line} (h : s.Holds P) : (s.reserve hart line).Holds P := h.same
theorem State.Holds.unreserve {hart} (h : s.Holds P) : (s.unreserve hart).Holds P := h.same
theorem State.Holds.lrTake {hart a} (h : s.Holds P) : (s.lrTake hart a).Holds P :=
  .ite (.ite h.reserve h.takeOwn.reserve) h.invalidate.cacheRoom.same.reserve
theorem State.Holds.atomicStore {hart a bs} (h : s.Holds P) : (s.atomicStore hart a bs).Holds P :=
  .ite h.takeOwn h.writeLine.placeShared
theorem State.Holds.releaseGrant {g} (h : s.Holds P) : (s.releaseGrant g).Holds P := h.same
theorem State.Holds.atomicServe {hart a size op value} (h : s.Holds P) : (s.atomicServe hart a size op value).Holds P := by
  unfold State.atomicServe
  extract_lets line full old new u
  have hu : u.Holds P := by
    dsimp only [u]
    split
    · exact h.releaseGrant
    · exact h
  split
  · exact .ite h.atomicStore.unreserve.emit hu.unreserve.emit
  · exact .ite h h.lrTake.emit
  · exact .ite h h.atomicStore.emit
theorem State.Holds.hostAtomic {hart a size op value ecc} (h : s.Holds P) : (s.hostAtomic hart a size op value ecc).Holds P := by
  unfold State.hostAtomic
  extract_lets
  split
  · exact h.log.emit.unwait
  · refine .ite h.emit ?_
    split
    · exact h.log.emit.unwait
    · exact h.holdFor
    · exact
        have k1 := State.Holds.ite h h.ecc
        .ite h.log.emit.unwait (.ite k1.log.emit.unwait k1.atomicServe.unwait)
theorem execHostAtomic_keeps {hart addr size op value ecc} :
    Keeps P s (execHostAtomic hart addr size op value ecc s) :=
  .next fun h => .ite h.hostAtomic h
theorem execLrGrantExpiry_keeps {hart} : Keeps P s (execLrGrantExpiry hart s) := by
  refine .next fun h => ?_
  split
  · exact h.releaseGrant.same
  · exact h
theorem State.Holds.refuseSetup {req write die kind a} (h : s.Holds P) : (s.refuseSetup req write die kind a).Holds P := h.log.emit

end Sys2Proof.Machine
end

section
/-! SUPPORT. O6, O55: the functions of PCIe, CXL, the courses and the loss of a die keep what holds of queue and descriptors. -/

namespace Sys2Proof.Machine

set_option Elab.async false

variable {P : List Instr → List Flight → Nat → Prop} {orig s t : State} {r q : Run}

theorem State.Holds.downEvt {io} (h : s.Holds P) : (s.downEvt io).Holds P := .ite h.setFlag.interrupt h.setFlag
theorem State.Holds.dropLink {io} (h : s.Holds P) : (s.dropLink io).Holds P := h.setFlag.putFld.putFld
theorem State.Holds.linkFall {io} (h : s.Holds P) : (s.linkFall io).Holds P := .ite h.dropLink.downEvt h
theorem State.Holds.trainPort {io} (h : s.Holds P) : (s.trainPort io).Holds P := .ite h h.emit
theorem State.Holds.setXf {io} (h : s.Holds P) : (s.setXf io).Holds P := h.putFld
theorem State.Holds.dropExt {io line} (h : s.Holds P) : (s.dropExt io line).Holds P := h.same.setXf
theorem State.Holds.addExt {io line excl} (h : s.Holds P) : (s.addExt io line excl).Holds P := h.same.setXf
theorem State.Holds.cxlLoss {io} (h : s.Holds P) : (s.cxlLoss io).Holds P := .ite h.dropLink.putFld.same h
theorem execCxlLoss_keeps {io} : Keeps P s (execCxlLoss io s) := .next fun h => .ite h h.cxlLoss
theorem State.Holds.walkLine {e} (h : s.Holds P) : (walkLine s e).Holds P := .ite h.freeBytes.putMem.markPoison h
theorem State.Holds.cxlWalkDone {io} (h : s.Holds P) : (s.cxlWalkDone io).Holds P :=
  .downEvt (.log (.setXf (.same (h.foldl (fun _ _ h1 => h1.walkLine)))))
theorem execCxlWalkDone_keeps {io} : Keeps P s (execCxlWalkDone io s) := .next fun h => .ite h.cxlWalkDone h
theorem State.Holds.cxlRearm {io} (h : s.Holds P) : (s.cxlRearm io).Holds P := .ite h.putFld.trainPort h
theorem execCxlRearm_keeps {io} : Keeps P s (execCxlRearm io s) := .next fun h => .ite h h.cxlRearm
theorem execPerst_keeps {io} : Keeps P s (execPerst io s) := .next fun h => .ite h h.cxlLoss
theorem State.Holds.pcieModeWrite {io mode} (h : s.Holds P) : (s.pcieModeWrite io mode).Holds P :=
  have k1 := State.Holds.ite h.cxlLoss h.linkFall
  .ite k1.putFld.emit.trainPort k1.putFld.setFlag.emit
theorem execPcieModeWrite_keeps {io mode} : Keeps P s (execPcieModeWrite io mode s) :=
  .next fun h => .ite h h.pcieModeWrite
theorem State.Holds.pcieLinkUp {io width speed} (h : s.Holds P) : (s.pcieLinkUp io width speed).Holds P :=
  .ite h h.setFlag.putFld.putFld
theorem execPcieLinkUp_keeps {io width speed} : Keeps P s (execPcieLinkUp io width speed s) :=
  .next fun h => .ite h h.pcieLinkUp
theorem execPcieLinkDown_keeps {io} : Keeps P s (execPcieLinkDown io s) :=
  .next fun h => .ite h (.ite h.cxlLoss h.linkFall)
theorem State.Holds.outbound {req io off acc} (h : s.Holds P) : (s.outbound req io off acc).Holds P := by
  unfold State.outbound
  split
  · exact .ite h h.emit
  · exact .ite (.ite h h.emit) (.ite (.ite h.same.emit h.same) (.ite h.same.emit h.same))
theorem State.Holds.pcieOutbound {req io off acc} (h : s.Holds P) : (s.pcieOutbound req io off acc).Holds P := by
  unfold State.pcieOutbound
  refine .ite h.refuseSetup ?_
  extract_lets
  split
  · exact h.refuseSetup
  · exact h.outbound
theorem execPcieOutboundAccess_keeps {req io offset access} :
    Keeps P s (execPcieOutboundAccess req io offset access s) :=
  .next fun h => h.pcieOutbound
theorem State.Holds.takeNp {io tag} (h : s.Holds P) : (s.takeNp io tag).Holds P := h.same
theorem execPcieCompletion_keeps {io tag data} : Keeps P s (execPcieCompletion io tag data s) :=
  .next fun h => .ite h.takeNp.emit h
theorem execPcieCompletionTimeout_keeps {io tag} : Keeps P s (execPcieCompletionTimeout io tag s) :=
  .next fun h => .ite h.takeNp.log.emit h
theorem State.Holds.msi {io d} (h : s.Holds P) : (s.msi io d).Holds P := .ite h.log h.interrupt
theorem State.Holds.refuseDevice {io acc die kind a} (h : s.Holds P) : (s.refuseDevice io acc die kind a).Holds P :=
  .ite h.log h.log.emit
theorem State.Holds.deviceServe {io a acc tph} (h : s.Holds P) : (s.deviceServe io a acc tph).Holds P := by
  unfold State.deviceServe
  split
  · exact .emit (.ite h.shareCopies.placeShared h.shareCopies)
  · exact
      have k1 := State.Holds.ite h.writeLine.log h.writeLine
      .ite k1.hintPlace k1
theorem State.Holds.inboundServe {io a acc tph die} (h : s.Holds P) : (State.inbound.serve io a acc tph s die).Holds P := by
  unfold State.inbound.serve
  refine .ite h.refuseDevice ?_
  extract_lets
  split
  · exact h.refuseDevice.unwait
  · exact h.refuseDevice.unwait
  · exact h.refuseDevice.unwait
  · exact h.refuseDevice.unwait
  · split
    · exact h.holdFor
    · exact h.deviceServe.unwait
theorem State.Holds.inbound {io a acc tph} (h : s.Holds P) : (s.inbound io a acc tph).Holds P := by
  unfold State.inbound
  extract_lets
  split
  · exact .ite h.msi h.inboundServe
  · exact h.inboundServe
theorem execPcieInboundRequest_keeps {io addr access tph} :
    Keeps P s (execPcieInboundRequest io addr access tph s) :=
  .next fun h => .ite h.inbound h
theorem execPcieMsiWrite_keeps {io addr data} : Keeps P s (execPcieMsiWrite io addr data s) :=
  .next fun h => .ite h.inbound h
theorem execCxlDecoderCommit_keeps {io} : Keeps P s (execCxlDecoderCommit io s) :=
  .next fun h => .ite h.putFld.same h
theorem State.Holds.cxlRefuse {io acc} (h : s.Holds P) : (s.cxlRefuse io acc).Holds P := by
  unfold State.cxlRefuse
  split
  · exact h.freeBytes.emit
  · exact h
theorem State.Holds.cxlServe {io a acc excl} (h : s.Holds P) : (s.cxlServe io a acc excl).Holds P := by
  unfold State.cxlServe
  split
  · exact .addExt (.emit (.ite h.invalidate h.shareCopies))
  · exact
      have k1 := State.Holds.ite h.writeLine.log h.writeLine
      .ite k1.addExt k1.dropExt
theorem State.Holds.cxlRoom {io line} (h : s.Holds P) (e : s.cxlRoom io line = some t) : t.Holds P := by
  unfold State.cxlRoom at e
  dsimp only at e
  split at e
  · cases e
  · cases e; exact h.freeCount.holdFor
theorem State.Holds.cxlMem {io a acc excl} (h : s.Holds P) : (s.cxlMem io a acc excl).Holds P := by
  unfold State.cxlMem
  refine .ite h.refuseDevice (.ite h.log.cxlRefuse ?_)
  split
  · exact h.refuseDevice
  · exact h.log.cxlRefuse
  · exact h.refuseDevice
  · exact h.refuseDevice
  · refine .ite h (.ite h.log.cxlRefuse ?_)
    split
    · next e => exact h.cxlRoom e
    · exact h.cxlServe
theorem execCxlMemRequest_keeps {io addr access exclusive} :
    Keeps P s (execCxlMemRequest io addr access exclusive s) :=
  .next fun h => .ite h.cxlMem h
theorem execBisnp_keeps {io line} : Keeps P s (execBisnp io line s) := .next fun h => .ite h.holdFor h
theorem State.Holds.bisnpResponse {io line data} (h : s.Holds P) : (s.bisnpResponse io line data).Holds P := by
  unfold State.bisnpResponse
  exact .dropExt (.same (by (split; exacts [.ite h h.putMem.clearPoison, h])))
theorem execBisnpResponse_keeps {io line data} : Keeps P s (execBisnpResponse io line data s) :=
  .next fun h => .ite h.bisnpResponse h
theorem execBisnpTimeout_keeps {io line} : Keeps P s (execBisnpTimeout io line s) := .next fun h => .ite h.cxlLoss h
theorem State.Holds.driveAlert (h : s.Holds P) : s.driveAlert.Holds P := h.setFlag
theorem State.Holds.alert {i} (h : s.Holds P) : (s.alert i).Holds P := h.setFlag.driveAlert
theorem State.Holds.setLink {die pair v} (h : s.Holds P) : (s.setLink die pair v).Holds P := h.putFld
theorem State.Holds.setModes {die pair rx tx} (h : s.Holds P) : (s.setModes die pair rx tx).Holds P := h.putFld.putFld
theorem State.Holds.clearReplay {die pair} (h : s.Holds P) : (s.clearReplay die pair).Holds P := h.same
theorem State.Holds.answerSent {u code detail} (h : s.Holds (keptFrom orig)) : (s.answerSent u code detail).Holds (keptFrom orig) := h.same.frameFails
theorem State.Holds.courseFail {die pair} (h : s.Holds (keptFrom orig)) : (courseFail die pair s).Holds (keptFrom orig) :=
  .foldl (h.foldl (fun _ _ h1 => .ite h1.freeCount.log.answerSent h1.freeCount)) (fun _ _ h1 => .ite
    h1.freeCount.log.raiseFlight h1.freeCount)
theorem State.Holds.coursePairEnable {die pair} (h : s.Holds P) : (s.coursePairEnable die pair).Holds P :=
  .ite h.setFlag.log (.ite h.enableReq.setLink.setReg h.enableReq)
theorem execCoursePairEnable_keeps {die pair} : Keeps P s (execCoursePairEnable die pair s) :=
  .next fun h => .ite h h.coursePairEnable
theorem State.Holds.courseRefuse {die pair link reason} (h : s.Holds P) : (s.courseRefuse die pair link reason).Holds P :=
  h.enablingEnd.setLink.setModes.setReg.log
theorem execCourseTrainingTimeout_keeps {die pair} : Keeps P s (execCourseTrainingTimeout die pair s) :=
  .next fun h => .ite h.courseRefuse h
theorem State.Holds.rxMap {die pair failed ck} (h : s.Holds P) : (s.rxMap die pair failed ck).Holds P :=
  .ite h.setReg.setReg.putFld.putFld h.setReg.setReg.putFld.putFld.log
theorem State.Holds.txMap {die pair map ck} (h : s.Holds P) : (s.txMap die pair map ck).Holds P := h.setReg.putFld
theorem State.Holds.laneMaps {die pair r} (h : s.Holds P) : (s.laneMaps die pair r).Holds P := by
  unfold State.laneMaps
  extract_lets
  split
  · exact h.rxMap.rxMap.txMap.txMap
  · exact h.rxMap.txMap
theorem State.Holds.atEnds {die pair act} (h : s.Holds P) (hact : ∀ x1 x2 x3, x1.Holds P → (act x1 x2 x3).Holds P) :
    (s.atEnds die pair act).Holds P :=
  h.foldl (fun _ _ h1 => hact _ _ _ h1)
theorem State.Holds.courseEnablingDone {die pair r} (h : s.Holds P) : (s.courseEnablingDone die pair r).Holds P :=
  .ite (h.laneMaps.atEnds (fun _ _ _ h1 => h1.enablingEnd.setLink)) (h.laneMaps.atEnds (fun _ _ _ h1 =>
    h1.enablingEnd.setLink.setReg))
theorem execCourseEnablingDone_keeps {die pair r} : Keeps P s (execCourseEnablingDone die pair r s) :=
  .next fun h => .ite h.courseEnablingDone h
theorem State.Holds.retrain {die pair} (h : s.Holds P) : (s.retrain die pair).Holds P :=
  h.atEnds (fun _ _ _ h1 => .ite h1.setLink h1)
theorem State.Holds.flitReplay {die pair flit} (h : s.Holds P) : (s.flitReplay die pair flit).Holds P :=
  .ite h.clearReplay.same.count h.retrain.setReg
theorem execCourseFlitReplay_keeps {die pair flit} : Keeps P s (execCourseFlitReplay die pair flit s) :=
  .next fun h => .ite h.flitReplay h
theorem execCourseRetrain_keeps {die pair} : Keeps P s (execCourseRetrain die pair s) :=
  .next fun h => .ite h.retrain h
theorem State.Holds.retrainDone {die pair r} (h : s.Holds (keptFrom orig)) : (s.retrainDone die pair r).Holds (keptFrom orig) :=
  .ite (h.laneMaps.clearReplay.atEnds (fun _ _ _ h1 => .ite h1.setLink.setReg h1)) (.courseFail
    (h.laneMaps.clearReplay.atEnds (fun _ _ _ h1 => .ite h1.putFld.setFlag.setLink.setReg h1)))
theorem execCourseRetrainDone_keeps {die pair r} : Keeps (keptFrom orig) s (execCourseRetrainDone die pair r s) :=
  .next fun h => .ite h.retrainDone h
theorem execCoursePairDisable_keeps {die pair} : Keeps P s (execCoursePairDisable die pair s) :=
  .next fun h => .ite h h.disableReq
theorem State.Holds.pairOff {die pair} (h : s.Holds P) : (s.pairOff die pair).Holds P :=
  h.disablingEnd.setModes.clearReplay.setLink
theorem execCourseDisablingDone_keeps {die pair} : Keeps (keptFrom orig) s (execCourseDisablingDone die pair s) :=
  .next fun h => .ite h.pairOff.courseFail h
theorem State.Holds.setRefQual {die q} (h : s.Holds P) : (s.setRefQual die q).Holds P := h.same
theorem State.Holds.secBack {die} (h : s.Holds P) : (s.secBack die).Holds P := .ite h h.freeCount.setRefQual
theorem State.Holds.primBack {die} (h : s.Holds P) : (s.primBack die).Holds P := .ite h h.freeCount.setRefQual
theorem State.Holds.useRef {die v} (h : s.Holds P) : (s.useRef die v).Holds P := .ite h h.putFld.setFlag
theorem State.Holds.chooseRef {die} (h : s.Holds P) : (s.chooseRef die).Holds P := by
  unfold State.chooseRef
  split
  · exact .ite h h.secBack.useRef
  · exact .ite h h.primBack.useRef
  · exact .ite h.useRef h.useRef
theorem State.Holds.sourceStops {die secondary} (h : s.Holds P) : (s.sourceStops die secondary).Holds P := .ite h h.setRefQual
theorem execRefSourceLost_keeps {die secondary both} : Keeps P s (execRefSourceLost die secondary s both) :=
  .next fun h => .ite (.ite h.sourceStops.sourceStops.useRef h.sourceStops.chooseRef) h
theorem execRefPrimaryReturn_keeps {die} : Keeps P s (execRefPrimaryReturn die s) :=
  .next fun h => .ite h.setRefQual.useRef h
theorem State.Holds.cpRefWrite {die v primQ secQ} (h : s.Holds P) : (s.cpRefWrite die v primQ secQ).Holds P :=
  have k1 := State.Holds.ite h.putFld.putFld.setFlag h.putFld.putFld
  .chooseRef (.setRefQual (.ite k1.setFlag k1))
theorem execCpRefWrite_keeps {die value primQ secQ} : Keeps P s (execCpRefWrite die value primQ secQ s) :=
  .next fun h => .ite h.cpRefWrite h
theorem State.Holds.refclkCheck {bad} (h : s.Holds P) : (s.refclkCheck bad).Holds P :=
  .ite (.alert (.ite h.setFlag.setFlag.setFlag.log h.setFlag.setFlag.setFlag)) h.setFlag
theorem execRefclkCheck_keeps {bad} : Keeps P s (execRefclkCheck bad s) := .next fun h => .ite h.refclkCheck h
theorem State.Holds.refclkRelock (h : s.Holds P) : s.refclkRelock.Holds P := h.setFlag.setFlag
theorem execRefclkRelock_keeps : Keeps P s (execRefclkRelock s) := .next fun h => .ite h h.refclkRelock
theorem State.Holds.tdStart (h : s.Holds P) : s.tdStart.Holds P := h.foldl (fun _ _ h1 => h1.setReg.setRefQual)
theorem execTdStart_keeps : Keeps P s (execTdStart s) := .next fun h => h.tdStart
theorem State.Holds.quiescePair {p} (h : s.Holds P) : (quiescePair s p).Holds P := by
  unfold Machine.quiescePair
  extract_lets
  split
  · exact h
  · exact h.courseRefuse
  · exact h.putFld.setLink
theorem State.Holds.poisonLost {s0 : State} {line} (h : s0.Holds P) : (poisonLost s0 line).Holds P := h.freeBytes.putMem.markPoison
theorem State.Holds.dropAgent {die} (h : s.Holds P) : (s.dropAgent die).Holds P := .same (h.foldl (fun _ _ h1 => h1.poisonLost))
theorem State.Holds.dropIo {die} (h : s.Holds P) : (s.dropIo die).Holds P := h.same
theorem State.Holds.resetRegs {die} (h : s.Holds P) : (s.resetRegs die).Holds P := by
  unfold State.resetRegs
  dsimp only
  split
  · exact h.same.same
  · exact h.same
theorem State.Holds.dropWork {die} (h : s.Holds (keptFrom orig)) : (s.dropWork die).Holds (keptFrom orig) :=
  (h.flightsSublist List.filter_sublist).flightsMap fun f => by split <;> rfl
theorem State.Holds.loseOne {die reason} (h : s.Holds (keptFrom orig)) : (s.loseOne die reason).Holds (keptFrom orig) :=
  have k1 := h.putFld.putFld.setFlag.putFld
  have k2 := State.Holds.foldl (.dropWork (.alert (.ite k1.log.interrupt k1.log))) (fun _ _ h1 => h1.quiescePair)
  .evalAll (.same (.resetRegs (.ite k2.dropAgent.dropIo k2.dropAgent)))
theorem State.Holds.loseDie {die reason} (h : s.Holds (keptFrom orig)) : (s.loseDie die reason).Holds (keptFrom orig) :=
  .ite (h.loseOne.foldl (fun _ _ h1 => .ite h1.loseOne h1)) h.loseOne
theorem execDieReset_keeps {die} : Keeps (keptFrom orig) s (execDieReset die s) := .next fun h => .ite h.loseDie h
theorem State.Holds.answerLost {die fid} (h : s.Holds (keptFrom orig)) : (answerLost die s fid).Holds (keptFrom orig) := by
  unfold Machine.answerLost
  extract_lets
  split
  · exact h.foldl (fun _ _ h1 => h1.answerSent)
  · exact .ite (.raiseFlight (h.foldl (fun _ _ h1 => h1.answerSent))) (h.foldl (fun _ _ h1 => h1.answerSent))
theorem State.Holds.answerWait {die x} (h : s.Holds P) : (answerWait die s x).Holds P := .ite h.same h
theorem State.Holds.clearRoutes {die} (h : s.Holds P) : (s.clearRoutes die).Holds P :=
  h.foldl (fun _ _ h1 => h1.foldl (fun _ _ h2 => h2.foldl (fun _ _ h3 => .ite h3.setFlag h3)))
theorem State.Holds.lossAnswer {l} (h : s.Holds (keptFrom orig)) : (s.lossAnswer l).Holds (keptFrom orig) :=
  .foldl (.clearRoutes (.same (.foldl (h.foldl (fun _ _ h1 => h1.answerLost)) (fun _ _ h1 => h1.answerWait)))) (fun _ _
    h1 => .ite h1.pairOff h1)
theorem execDieLossAnswer_keeps {die} : Keeps (keptFrom orig) s (execDieLossAnswer die s) := by
  refine .next fun h => ?_
  split
  · exact h.lossAnswer
  · exact h
theorem execDieReadmit_keeps {die} : Keeps P s (execDieReadmit die s) := .next fun h => .ite h.putFld h
theorem State.Holds.setTimer {hd} (h : s.Holds P) : (s.setTimer hd).Holds P := by
  unfold State.setTimer
  split
  · exact h
  · exact h.freeCount.setReg.setReg

end Sys2Proof.Machine
end

section
/-! SUPPORT. O6, O55: the functions of power and of the module's cycle keep what holds of queue and descriptors. -/

namespace Sys2Proof.Machine

set_option Elab.async false

variable {P : List Instr → List Flight → Nat → Prop} {orig s t : State} {r q : Run}

theorem State.Holds.unitStops {f} (h : s.Holds P) : (s.unitStops f).Holds P := by
  unfold State.unitStops
  refine .ite h ?_
  extract_lets
  split
  · exact .ite h.unitFaultSet.maBusy.setFlag h.unitFaultSet.veBusy
  · exact h.unitFaultSet.vdBusy
  · exact h.unitFaultSet
theorem State.Holds.stopAll (h : s.Holds (keptFrom orig)) : s.stopAll.Holds (keptFrom orig) := by
  unfold State.stopAll
  have k1 : State.Holds { s with flights := s.flights.map s.stopFlight } (keptFrom orig) :=
    h.flightsMap fun f => by unfold State.stopFlight; split <;> rfl
  exact .foldl (k1.foldl (fun _ _ h1 => h1.unitStops)) (fun _ _ h1 => by (split; exacts [h1.complete, h1]))
theorem State.Holds.cold (h : s.Holds (keptFrom orig)) : s.cold.Holds (keptFrom orig) := ⟨h.1, fun ho => (h.2 ho).of_sublist (List.nil_sublist _)⟩
theorem State.Holds.powerOn (h : s.Holds (keptFrom orig)) : s.powerOn.Holds (keptFrom orig) := h.cold.same.setFlag
theorem State.Holds.cutWrites (h : s.Holds P) : s.cutWrites.Holds P := by
  unfold State.cutWrites
  extract_lets u
  exact h.endAppend.endCompaction.cutErase
theorem State.Holds.railsOff (h : s.Holds (keptFrom orig)) : s.railsOff.Holds (keptFrom orig) :=
  .foldl (h.cutWrites.cold.same.foldl (fun _ _ h1 => h1.setFlag)) (fun _ _ h1 => h1.putFld)
theorem State.Holds.causeRecord {cause} (h : s.Holds P) : (s.causeRecord cause).Holds P :=
  .ite (.ite h.endAppend.endCompaction.appendRecord.same h.endAppend.endCompaction.same) h.endAppend.endCompaction
theorem State.Holds.safeSample (h : s.Holds P) : s.safeSample.Holds P := .ite h.causeRecord h
theorem State.Holds.abandonChanges (h : s.Holds P) : s.abandonChanges.Holds P := .same (h.foldl (fun _ _ h1 => h1.setFlag))
theorem State.Holds.enterSafe {cause} (h : s.Holds (keptFrom orig)) : (s.enterSafe cause).Holds (keptFrom orig) :=
  h.stopAll.abandonChanges.setFlag.putFld.driveAlert.same
theorem State.Holds.safeState {cause} (h : s.Holds (keptFrom orig)) : (s.safeState cause).Holds (keptFrom orig) := .ite h.enterSafe.causeRecord h
theorem execDieClockLost_keeps {die} : Keeps (keptFrom orig) s (execDieClockLost die s) :=
  .next fun h => .ite (.ite h.enterSafe h) (.ite h.loseDie h)
theorem State.Holds.setFloor {b} (h : s.Holds P) : (s.setFloor b).Holds P := h.same.setFlag
theorem State.Holds.binStart (h : s.Holds P) : s.binStart.Holds P := h.putFld.putFld.same.setFloor.same.evalAll
theorem execLehrBinStart_keeps : Keeps (keptFrom orig) s (execLehrBinStart s) :=
  .next fun h => .ite h.binStart (.ite h.railsOff h)
theorem State.Holds.lowerOnce (h : s.Holds P) : s.lowerOnce.Holds P := by
  unfold State.lowerOnce
  split
  · exact h
  · exact h.same
theorem State.Holds.lowerSteps {n} (h : s.Holds P) : (s.lowerSteps n).Holds P := by
  induction n generalizing s with
  | zero => exact h
  | succ n ih => exact ih h.lowerOnce
theorem State.Holds.raiseOnce (h : s.Holds P) : s.raiseOnce.Holds P := by
  unfold State.raiseOnce
  split
  · exact h
  · exact h.same
theorem State.Holds.lehrControl {p} (h : s.Holds P) : (s.lehrControl p).Holds P :=
  have k1 := State.Holds.ite h.lowerSteps h
  have k2 := State.Holds.ite k1.setFloor k1
  .ite k2.raiseOnce k2
theorem State.Holds.voltSample {v} (h : s.Holds P) : (s.voltSample v).Holds P := h.putFld.same
theorem State.Holds.powerSample {r} (h : s.Holds (keptFrom orig)) : (s.powerSample r).Holds (keptFrom orig) :=
  .ite h.voltSample.same.safeState (.ite h.voltSample.same.safeState (.ite h.voltSample.same.safeState
    h.voltSample.same.same.lehrControl.evalAll))
theorem execPowerSample_keeps {r} : Keeps (keptFrom orig) s (execPowerSample r s) :=
  .next fun h => .ite h.powerSample (.ite h.voltSample.safeSample (.ite h.powerOn h))
theorem execTdAliveLost_keeps : Keeps (keptFrom orig) s (execTdAliveLost s) := .next fun h => .ite h.safeState h
theorem State.Holds.thermalDie {r d} (h : s.Holds P) : (thermalDie r s d).Holds P :=
  .ite h.same (.ite h.same (.ite (.ite h.same h.same) h.same))
theorem State.Holds.thermalHost {r d} (h : s.Holds P) : (thermalHost r s d).Holds P := .ite h.same (.ite h.same h)
theorem State.Holds.thermalSample {r} (h : s.Holds (keptFrom orig)) : (s.thermalSample r).Holds (keptFrom orig) :=
  have k1 := State.Holds.foldl (h.foldl (fun _ _ h1 => .ite h1.putFld h1)) (fun _ _ h1 => .ite h1.putFld h1)
  .ite k1.putFld.putFld.safeState (.evalAll (.foldl (k1.putFld.putFld.foldl (fun _ _ h1 => h1.thermalDie)) (fun _ _ h1
    => h1.thermalHost)))
theorem execThermalSample_keeps {r} : Keeps (keptFrom orig) s (execThermalSample r s) := .next fun h => .ite h.thermalSample h
theorem State.Holds.dropGroup {g} (h : s.Holds P) : (s.dropGroup g).Holds P := h.same
theorem State.Holds.grpCtrlWrite {g v} (h : s.Holds P) : (s.grpCtrlWrite g v).Holds P := by
  unfold State.grpCtrlWrite
  refine .ite ?_ h.setReg.dropGroup.evalAll
  extract_lets
  split
  · exact h.setReg.dropGroup.evalAll
  · exact h.setReg.evalAll
theorem execGroupEntryValidate_keeps {group value} : Keeps P s (execGroupEntryValidate group value s) :=
  .next fun h => .ite h.grpCtrlWrite h
theorem State.Holds.sendGroup {g m seq b} (h : s.Holds P) : (s.sendGroup g m seq b).Holds P := by
  unfold State.sendGroup
  split
  · exact h.sendRouted
  · exact h
theorem State.Holds.capoSend {g} (h : s.Holds P) : (s.capoSend g).Holds P :=
  .ite (h.same.foldl (fun _ _ h1 => h1.sendGroup)) h.same
theorem execCapoSend_keeps {group} : Keeps P s (execCapoSend group s) := .next fun h => .ite h.capoSend h
theorem State.Holds.capoReceive {port f} (h : s.Holds P) : (s.capoReceive port f).Holds P := .ite h.same.evalAll h
theorem execCapo_keeps {port f} : Keeps P s (execCapo port f s) :=
  .next fun h => h.receive (fun _ h1 => h1.capoReceive)
theorem execCapoEntryExpiry_keeps {group sender} : Keeps P s (execCapoEntryExpiry group sender s) :=
  .next fun h => .ite h.same.evalAll h
theorem State.Holds.shiftOffer {g} (h : s.Holds P) : (s.shiftOffer g).Holds P := .ite h (.ite h.same.sendGroup h.same)
theorem execShiftOffer_keeps {group} : Keeps P s (execShiftOffer group s) := .next fun h => .ite h.shiftOffer h
theorem State.Holds.shiftReceive {port f} (h : s.Holds P) : (s.shiftReceive port f).Holds P := .ite h.same h
theorem execShift_keeps {port f} : Keeps P s (execShift port f s) :=
  .next fun h => h.receive (fun _ h1 => h1.shiftReceive)
theorem execShiftLeaseExpiry_keeps {group sender seq} : Keeps P s (execShiftLeaseExpiry group sender seq s) :=
  .next fun h => .ite (.ite h.same h.same) h
theorem State.Holds.loadRoute {x d} (h : s.Holds P) : (s.loadRoute x d).Holds P := .ite h h.setReg.setReg
theorem State.Holds.pairTrain {tests die pair} (h : s.Holds P) : (s.pairTrain tests die pair).Holds P := by
  unfold State.pairTrain
  extract_lets
  split
  · exact .ite (.courseEnablingDone (h.atEnds (fun _ _ _ h1 => h1.coursePairEnable))) (h.atEnds (fun _ _ _ h1 =>
    h1.coursePairEnable))
  · exact .atEnds (h.atEnds (fun _ _ _ h1 => h1.coursePairEnable)) (fun _ _ _ h1 => .ite h1.courseRefuse h1)
theorem State.Holds.startPairs {tests dies} (h : s.Holds P) : (s.startPairs tests dies).Holds P :=
  h.foldl (fun _ _ h1 => .ite h1 h1.pairTrain)
theorem State.Holds.domainEnable {die} (h : s.Holds P) : (s.domainEnable die).Holds P := .ite h.enableReq.enablingEnd h.enableReq
theorem execDomainEnable_keeps {die} : Keeps P s (execDomainEnable die s) := .next fun h => .ite h.domainEnable h
theorem State.Holds.loadDie {die} (h : s.Holds P) : (s.loadDie die).Holds P := by
  unfold State.loadDie
  refine .ite ?_ h
  extract_lets
  split
  · exact .putFld (h.foldl (fun _ _ h1 => h1.putFld))
  · exact h.foldl (fun _ _ h1 => h1.putFld)
theorem State.Holds.loadMaps {die} (h : s.Holds P) : (s.loadMaps die).Holds P := by
  unfold State.loadMaps
  exact h.foldl (fun _ _ h1 => by (split; exacts [h1.setReg, h1]))
theorem State.Holds.dieRuns {die} (h : s.Holds P) : (s.dieRuns die).Holds P :=
  .ite (.evalDie (h.putFld.putFld.same.loadDie.putFld.same.foldl fun _ _ h1 => h1.loadRoute))
    h.putFld.putFld
theorem State.Holds.restoreRoutes {die} (h : s.Holds P) : (s.restoreRoutes die).Holds P :=
  h.foldl (fun _ _ h1 => h1.foldl (fun _ _ h2 => h2.loadRoute))
theorem State.Holds.domainUp {die tests} (h : s.Holds P) : (s.domainUp die tests).Holds P :=
  .evalAll (.restoreRoutes (.startPairs (.loadMaps (.ite h.enablingEnd.dieRuns.setTimer h.enablingEnd.dieRuns))))
theorem execDomainEnablingDone_keeps {die tests} : Keeps P s (execDomainEnablingDone die s tests) :=
  .next fun h => .ite h.domainUp h
theorem State.Holds.domainWork {die} (h : s.Holds (keptFrom orig)) : (s.domainWork die).Holds (keptFrom orig) :=
  have k1 := h.foldl (fun _ _ h1 => h1.ringDisable)
  have k2 := State.Holds.ite (.foldl (k1.foldl (fun _ _ h1 => h1.epDisable)) (fun _ _ h1 => h1.moverDisable)) k1
  have k3 := k2.foldl (fun _ _ h1 => h1.disableReq.endSync)
  .ite (.ite k3.cxlLoss k3) k2
theorem State.Holds.domainDisable {die} (h : s.Holds (keptFrom orig)) : (s.domainDisable die).Holds (keptFrom orig) :=
  .ite h.disableReq.domainWork h.disableReq
theorem State.Holds.domainDisableAll {die} (h : s.Holds (keptFrom orig)) : (s.domainDisableAll die).Holds (keptFrom orig) :=
  .domainDisable (h.foldl (fun _ _ h1 => h1.domainDisable))
theorem execDomainDisable_keeps {die} : Keeps (keptFrom orig) s (execDomainDisable die s) :=
  .next fun h => .ite h.domainDisableAll h
theorem State.Holds.flushAgent {die} (h : s.Holds P) : (s.flushAgent die).Holds P := .same (h.foldl (fun _ _ h1 => h1.invalidate))
theorem State.Holds.attachedGone {die} (h : s.Holds (keptFrom orig)) : (s.attachedGone die).Holds (keptFrom orig) := .ite h.domainWork h
theorem State.Holds.domainOff {die} (h : s.Holds (keptFrom orig)) : (s.domainOff die).Holds (keptFrom orig) :=
  have k1 := h.flushAgent.clearRoutes.foldl (fun _ _ h1 => .ite h1 h1.disableReq.pairOff.courseFail)
  .evalAll (.attachedGone (.disablingEnd (.resetRegs (.ite k1.same.putFld.dropIo k1.same.putFld))))
theorem execDomainDisablingDone_keeps {die} : Keeps (keptFrom orig) s (execDomainDisablingDone die s) :=
  .next fun h => .ite h.domainOff h
theorem State.Holds.beginEnabling {x} (h : s.Holds P) : (s.beginEnabling x).Holds P := by
  unfold State.beginEnabling
  split
  · exact h.enableReq
  · exact h.epEnable
  · exact h.enableReq
  · exact h.flowEnable
  · exact h.coursePairEnable
  · exact h.domainEnable
theorem State.Holds.compareTimers (h : s.Holds P) : s.compareTimers.Holds P := h.same
theorem State.Holds.cycle (h : s.Holds (keptFrom orig)) : s.cycle.Holds (keptFrom orig) :=
  h.tick.compareTimers.releaseGuards.foldl (fun _ _ h1 => h1.beginEnabling)

end Sys2Proof.Machine
end

section
/-! SUPPORT. O6, O55: the functions of the module's start, of attestation and of the mailbox keep what holds of queue and descriptors. -/

namespace Sys2Proof.Machine

set_option Elab.async false

variable {P : List Instr → List Flight → Nat → Prop} {orig s t : State} {r q : Run}

theorem State.Holds.haltStart {reason} (h : s.Holds P) : (s.haltStart reason).Holds P := h.putFld.putFld.same.alert
theorem State.Holds.startJournal {r gen} (h : s.Holds P) : (s.startJournal r gen).Holds P :=
  .ite h.mount.putFld.same.maybeCompact h.mount.putFld.jrAppend
theorem State.Holds.startFirmware {slot keys} (h : s.Holds P) : (s.startFirmware slot keys).Holds P := by
  unfold State.startFirmware
  extract_lets b u v w x
  have hx : x.Holds P := by
    have hw : w.Holds P := h.putFld.putFld.setReg.setReg.setReg.setFlag
    dsimp only [x]
    split
    · exact hw.setReg
    · exact hw
  exact hx.same
theorem State.Holds.failDie {die} (h : s.Holds P) : (failDie s die).Holds P :=
  .alert (.ite (h.putFld.putFld.log.setFlag.foldl (fun _ _ h1 => h1.putFld.putFld)) h.putFld.putFld.log.setFlag)
theorem State.Holds.startTable {home} (h : s.Holds P) : (s.startTable home).Holds P :=
  have k : State.Holds (if _ then _ else _) P := .ite h.setReg.setReg h.setReg.setReg
  .ite k.same.putMem k.same.same
theorem State.Holds.holdTable {home} (h : s.Holds P) : (s.holdTable home).Holds P := h.foldl (fun _ _ h1 => h1.setCode)
theorem State.Holds.failRunning {die} (h : s.Holds P) : (failRunning s die).Holds P :=
  .ite (.failDie (h.foldl (fun _ _ h1 => .resetRegs (h1.foldl (fun _ _ h2 => .ite h2 h2.putFld.setLink.setModes))))) h
theorem State.Holds.zeroStack {die} (h : s.Holds P) : (s.zeroStack die).Holds P := h.same.same
theorem State.Holds.bringUp {die} (h : s.Holds P) : (s.bringUp die).Holds P := .loadMaps (.dieRuns (.ite h.zeroStack h))
theorem State.Holds.startDiesUp {e} (h : s.Holds P) : (s.startDiesUp e).Holds P :=
  .foldl (.foldl (.foldl (.startPairs (.foldl (h.tdStart.putFld.foldl (fun _ _ h1 => h1.failDie)) (fun _ _ h1 =>
    h1.bringUp))) (fun _ _ h1 => h1.failRunning)) (fun _ _ h1 => h1.startTable)) (fun _ _ h1 => .ite h1 h1.holdTable)
theorem State.Holds.readmitted {die} (h : s.Holds P) : (s.readmitted die).Holds P :=
  have k1 := State.Holds.ite h.bringUp.setTimer h.bringUp
  .ite h.bringUp (.ite k1.startTable k1.startTable.holdTable)
theorem execDieReadmitDone_keeps {die ok} : Keeps P s (execDieReadmitDone die ok s) :=
  .next fun h => .ite (.evalAll (.ite h.readmitted h.putFld.putFld)) h
theorem State.Holds.writeDesc (h : s.Holds P) : s.writeDesc.Holds P := h.foldl (fun _ _ h1 => h1.setReg)
theorem State.Holds.hostBoot {slot} (h : s.Holds P) : (s.hostBoot slot).Holds P := by
  unfold State.hostBoot
  refine .ite h.setFlag.alert ?_
  extract_lets
  split
  · exact h
  · exact h.write.write.same
theorem State.Holds.startRunning (h : s.Holds P) : s.startRunning.Holds P := h.putFld.setReg.same.autoCommit
/-- The kernel compares branches by evaluating what they match on, so those functions are held opaque. -/
theorem State.Holds.moduleStart {e} (h : s.Holds P) : (s.moduleStart e).Holds P := by
  unfold State.moduleStart
  obtain ⟨identitySeed, hseed⟩ : ∃ f, f = State.identitySeed := ⟨_, rfl⟩
  obtain ⟨chooseSlot, hslot⟩ : ∃ f, f = State.chooseSlot := ⟨_, rfl⟩
  rw [← hseed, ← hslot]
  extract_lets u
  have hu : u.Holds P := h.setFlag
  refine .ite hu.haltStart ?_
  split
  · exact hu.haltStart
  extract_lets v w
  have hv : v.Holds P := hu.startJournal
  have hw : w.Holds P := hv.putFld
  split
  · exact hv.haltStart
  split
  · exact hw.haltStart
  · exact .ite hw.freeBytes.haltStart hw.freeBytes.startFirmware.startDiesUp.writeDesc.hostBoot.startRunning.evalAll
theorem execModuleStart_keeps {env} : Keeps P s (execModuleStart env s) := .next fun h => .ite h.moduleStart h
theorem execSmRbCommit_keeps : Keeps P s (execSmRbCommit s) := .next fun h => .ite h.beginCommit h
theorem execCounterWriteDone_keeps : Keeps P s (execCounterWriteDone s) := by
  refine .next fun h => ?_
  split
  · exact h.same.setReg.setFlag
  · exact h
theorem State.Holds.fwupGo (h : s.Holds P) : s.fwupGo.Holds P :=
  h
theorem execFwupGo_keeps : Keeps P s (execFwupGo s) := .next fun h => .ite h.fwupGo h
theorem State.Holds.fwupDone {u eraseOk writeOk} (h : s.Holds P) : (s.fwupDone u eraseOk writeOk).Holds P :=
  .putFld (.setFlag (.same (.snd_ite h (.snd_ite h (.snd_ite h h)))))
theorem execFwupDone_keeps {eraseOk writeOk} : Keeps P s (execFwupDone eraseOk writeOk s) := by
  refine .next fun h => ?_
  split
  · exact h.fwupDone
  · exact h
theorem State.Holds.aclWrite {v} (h : s.Holds P) : (s.aclWrite v).Holds P := .ite h h.setReg
theorem execSetupAclWrite_keeps {req value} : Keeps P s (execSetupAclWrite req value s) := by
  refine .next fun h => ?_
  split
  · exact h.refuseSetup
  · exact h.aclWrite
theorem State.Holds.spdm {p busy act} (h : s.Holds P) (hact : ∀ x1, x1.Holds P → (act x1).Holds P) : (s.spdm p busy act).Holds P :=
  .ite h (.ite h.emit (.ite h.emit (hact _ h)))
theorem State.Holds.spdmSend {p d} (h : s.Holds P) : (s.spdmSend p d).Holds P := by
  unfold State.spdmSend
  split
  · exact h.foldl (fun _ _ h1 => h1.emit)
  · exact h.emit
theorem State.Holds.spdmVersion {p} (h : s.Holds P) : (s.spdmVersion p).Holds P := h.same.spdmSend
theorem execGetVersion_keeps {path busy} : Keeps P s (execGetVersion path s busy) :=
  .next fun h => h.spdm (fun _ h1 => h1.spdmVersion)
theorem execGetCapabilities_keeps {path busy} : Keeps P s (execGetCapabilities path s busy) :=
  .next fun h => h.spdm (fun _ h1 => .ite h1.spdmSend h1.emit)
theorem State.Holds.negotiate {p extAsym} (h : s.Holds P) : (s.negotiate p extAsym).Holds P :=
  .ite h.emit (.ite h.emit h.same.spdmSend)
theorem execNegotiateAlgorithms_keeps {path extAsym busy} :
    Keeps P s (execNegotiateAlgorithms path extAsym s busy) :=
  .next fun h => h.spdm (fun _ h1 => h1.negotiate)
theorem State.Holds.certificate {p slot offset length} (h : s.Holds P) : (s.certificate p slot offset length).Holds P :=
  .ite h.emit (.ite h.emit h.spdmSend)
theorem execGetCertificate_keeps {path slot offset length busy} :
    Keeps P s (execGetCertificate path slot offset length s busy) :=
  .next fun h => h.spdm (fun _ h1 => h1.certificate)
theorem State.Holds.spdmSigned {p body} (h : s.Holds P) : (s.spdmSigned p body).Holds P := h.freeBytes.spdmSend
theorem State.Holds.challenge {p slot nonce} (h : s.Holds P) : (s.challenge p slot nonce).Holds P :=
  .ite h.emit (.ite h.emit h.freeBytes.spdmSigned)
theorem execChallenge_keeps {path slot nonce busy} : Keeps P s (execChallenge path slot nonce s busy) :=
  .next fun h => h.spdm (fun _ h1 => h1.challenge)
theorem State.Holds.measurements {p ix nonce} (h : s.Holds P) : (s.measurements p ix nonce).Holds P :=
  .ite h.emit (.ite h.emit h.freeBytes.spdmSigned)
theorem execGetMeasurements_keeps {path index nonce busy} :
    Keeps P s (execGetMeasurements path index nonce s busy) :=
  .next fun h => h.spdm (fun _ h1 => h1.measurements)
theorem State.Holds.mctpControl {d} (h : s.Holds P) : (s.mctpControl d).Holds P :=
  .ite (.ite h.emit h.same.emit) (.ite h.emit (.ite h.emit (.ite h.emit h.emit)))
theorem execMctpControlMessage_keeps {data} : Keeps P s (execMctpControlMessage data s) :=
  .next fun h => .ite h.mctpControl h
theorem State.Holds.mbStore {a} (h : s.Holds P) : (s.mbStore a).Holds P := by
  unfold State.mbStore
  split
  · exact h
  · exact h.same
  · exact h.same
  · exact h.same
theorem State.Holds.mbLoad {w} (h : s.Holds P) : (s.mbLoad w).1.Holds P := .fst_ite h.setFlag h
theorem State.Holds.mbxBusy (h : s.Holds P) : s.mbxBusy.Holds P := h.setFlag
theorem State.Holds.mbCollide {w} (h : s.Holds P) : (s.mbCollide w).Holds P := h.setFlag.setReg.same.mbxBusy
theorem State.Holds.mbExt {a} (h : s.Holds P) : (s.mbExt a).1.Holds P := by
  unfold State.mbExt
  split
  · exact h.mbLoad
  · exact h.mbStore
theorem State.Holds.mbAnswer {req v bad} (h : s.Holds P) : (s.mbAnswer req v bad).Holds P := by
  unfold State.mbAnswer
  split
  · exact h.emit
  · exact h.emit
  · exact h.emit
theorem State.Holds.mbInt {req a} (h : s.Holds P) : (s.mbInt req a).Holds P := by
  unfold State.mbInt
  split
  · exact h.mbLoad.mbAnswer
  · exact h.mbStore
theorem State.Holds.mbBoth {req i e} (h : s.Holds P) : (s.mbBoth req i e).1.Holds P := by
  unfold State.mbBoth
  split
  · exact h.mbExt.mbInt
  · split
    · exact h.mbExt.mbInt
    · exact h.mbStore.freeWord.mbCollide
    · exact h.mbStore.freeWord.mbCollide.mbAnswer
    · exact h.mbStore.mbStore.mbCollide
theorem State.Holds.i3cBegin {wrote} (h : s.Holds P) : (s.i3cBegin wrote).Holds P := .same (.setFlag (.ite h.setFlag h))
theorem State.Holds.i3cIgnore {first reads} (h : s.Holds P) : (s.i3cIgnore first reads).Holds P :=
  .ite h.i3cBegin.log h.i3cBegin.log.emit
theorem State.Holds.mbWalk {intl k es} (h : s.Holds P) : (s.mbWalk intl k es).1.Holds P := by
  induction es generalizing s k with
  | nil => exact h
  | cons e es ih =>
    unfold State.mbWalk
    dsimp only
    split
    · exact ih (.fst_ite h.mbBoth h.mbExt)
    · exact ih h.mbExt
theorem State.Holds.mbTransfer {k code index data intl} (h : s.Holds P) : (s.mbTransfer k code index data intl).Holds P :=
  .ite h (.ite h.i3cIgnore h.i3cBegin.mbWalk)
theorem execMailboxWrite_keeps {index data intl} : Keeps P s (execMailboxWrite index data intl s) :=
  .next fun h => h.mbTransfer
theorem execMailboxSet_keeps {index data intl} : Keeps P s (execMailboxSet index data intl s) :=
  .next fun h => h.mbTransfer
theorem execMailboxClear_keeps {index data intl} : Keeps P s (execMailboxClear index data intl s) :=
  .next fun h => h.mbTransfer
theorem State.Holds.mbReadTransfer {index count intl bad} (h : s.Holds P) : (s.mbReadTransfer index count intl bad).Holds P :=
  .ite h (.ite h.i3cIgnore h.i3cBegin.same.mbWalk.emit)
theorem execMailboxRead_keeps {index count intl bad} : Keeps P s (execMailboxRead index count intl bad s) :=
  .next fun h => h.mbReadTransfer
theorem State.Holds.mbInternal {req k word value ext} (h : s.Holds P) : (s.mbInternal req k word value ext).Holds P := by
  unfold State.mbInternal
  refine .ite h ?_
  split
  · exact h.mbStore
  · exact .ite h.mbBoth h.mbBoth.emit
theorem execMailboxInternalWrite_keeps {req word value ext} :
    Keeps P s (execMailboxInternalWrite req word value s ext) :=
  .next fun h => h.mbInternal
theorem execMailboxSetAliasWrite_keeps {req word value ext} :
    Keeps P s (execMailboxSetAliasWrite req word value s ext) :=
  .next fun h => h.mbInternal
theorem execMailboxClearAliasWrite_keeps {req word value ext} :
    Keeps P s (execMailboxClearAliasWrite req word value s ext) :=
  .next fun h => h.mbInternal
theorem State.Holds.grantClaim (h : s.Holds P) : s.grantClaim.Holds P := .ite h.setFlag.mbxBusy h
theorem State.Holds.claimWrite {claim} (h : s.Holds P) : (s.claimWrite claim).Holds P :=
  .ite h.setFlag.grantClaim h.setFlag.setFlag.mbxBusy
theorem execMbClaim_keeps {claim} : Keeps P s (execMbClaim claim s) := .next fun h => .ite h.claimWrite h
theorem State.Holds.i3cEnd (h : s.Holds P) : s.i3cEnd.Holds P := h.same.setFlag.grantClaim
theorem State.Holds.i3cStop (h : s.Holds P) : s.i3cStop.Holds P := by
  unfold State.i3cStop
  split
  · exact h
  · exact .i3cEnd (.ite (.ite h.setFlag.interrupt h.setFlag) h)
theorem execI3cTransferEnd_keeps : Keeps P s (execI3cTransferEnd s) := .next fun h => .ite h.i3cStop h
theorem execClaimTimeout_keeps : Keeps P s (execClaimTimeout s) := .next fun h => .ite h.claimWrite.setFlag h
theorem execMbxBusyPulseEnd_keeps : Keeps P s (execMbxBusyPulseEnd s) := .next fun h => h.same.mbxBusy

end Sys2Proof.Machine
end

section
/-! SUPPORT. O6, O55: the functions of the pins, of a descriptor's start and of the set-up registers keep what holds of queue and descriptors. -/

namespace Sys2Proof.Machine

set_option Elab.async false

variable {P : List Instr → List Flight → Nat → Prop} {orig s t : State} {r q : Run}

theorem State.Holds.pwrEnHigh {volt} (h : s.Holds (keptFrom orig)) : (s.pwrEnHigh volt).Holds (keptFrom orig) :=
  .ite h.setFlag (.ite h (.ite h.powerOn h.setFlag.same))
theorem execPwrEnHigh_keeps {volt} : Keeps (keptFrom orig) s (execPwrEnHigh volt s) := .next fun h => h.pwrEnHigh
theorem State.Holds.shutSample {v} (h : s.Holds (keptFrom orig)) : (s.shutSample v).Holds (keptFrom orig) :=
  .ite h.voltSample.safeSample (.ite h.voltSample.safeState h.voltSample)
theorem State.Holds.pwrEnLow {volts} (h : s.Holds (keptFrom orig)) : (s.pwrEnLow volts).Holds (keptFrom orig) :=
  .same (.setFlag (.setFlag (.ite (.railsOff (h.stopAll.foldl (fun _ _ h1 => h1.shutSample))) h)))
theorem execPwrEnLow_keeps {volts} : Keeps (keptFrom orig) s (execPwrEnLow s volts) := .next fun h => h.pwrEnLow
theorem State.Holds.throttleRespond {rsp level} (h : s.Holds P) : (s.throttleRespond rsp level).Holds P := h.setFlag.setFlag.same
theorem State.Holds.modReset (h : s.Holds (keptFrom orig)) : s.modReset.Holds (keptFrom orig) :=
  have k := (h.stopAll.cutWrites.cold.same).setReg.setFlag.setFlag
  .ite k.throttleRespond k
theorem State.Holds.resetRespond {active} (h : s.Holds (keptFrom orig)) : (s.resetRespond active).Holds (keptFrom orig) := .same (.ite h.modReset h)
theorem State.Holds.resetChange {active} (h : s.Holds (keptFrom orig)) : (s.resetChange active).Holds (keptFrom orig) :=
  .ite h.setFlag.same h.setFlag.resetRespond
theorem State.Holds.resetEnd (h : s.Holds (keptFrom orig)) : s.resetEnd.Holds (keptFrom orig) := .ite h.resetRespond h.same
theorem execModResetAssert_keeps : Keeps (keptFrom orig) s (execModResetAssert s) := .next fun h => .ite h.resetChange h
theorem execModResetRelease_keeps : Keeps (keptFrom orig) s (execModResetRelease s) := .next fun h => .ite h.resetChange h
theorem execModResetHeld_keeps : Keeps P s (execModResetHeld s) := .next fun h => .ite h.alert h
theorem State.Holds.throttleChange {active} (h : s.Holds P) : (s.throttleChange active).Holds P :=
  .ite h.setFlag.same h.setFlag.throttleRespond
theorem execThrottleNChange_keeps {active} : Keeps P s (execThrottleNChange active s) :=
  .next fun h => .ite h.throttleChange h
theorem State.Holds.throttleEnd (h : s.Holds P) : s.throttleEnd.Holds P := .ite h.same h.throttleRespond
theorem execThrottleIntervalEnd_keeps {reset} : Keeps (keptFrom orig) s (execThrottleIntervalEnd s reset) :=
  .next fun h => .ite (.ite h.resetEnd h) (.ite h.throttleEnd h)
theorem execThrottleStuck_keeps : Keeps P s (execThrottleStuck s) := .next fun h => .ite h.alert h
theorem State.Holds.alertClear {v} (h : s.Holds P) : (s.alertClear v).Holds P := h.setReg.driveAlert
theorem execPwAlertClear_keeps {value} : Keeps P s (execPwAlertClear value s) := .next fun h => .ite h.alertClear h
theorem execReadStatusBlock_keeps : Keeps P s (execReadStatusBlock s) := .next fun h => .ite h.i3cBegin.emit h
theorem execClearAlerts_keeps {value bytes} : Keeps P s (execClearAlerts value s bytes) :=
  .next fun h => .ite (.ite h.i3cBegin.alertClear h.i3cBegin) h
theorem execI3cTransferTimeout_keeps : Keeps P s (execI3cTransferTimeout s) := .next fun h => .ite h.i3cEnd h
theorem State.Holds.i3cUnknown {first reads} (h : s.Holds P) : (s.i3cUnknown first reads).Holds P := by
  unfold State.i3cUnknown
  split
  · exact h.i3cIgnore
  · exact h.i3cBegin.emit
theorem execI3cUnknownCommand_keeps {first reads} : Keeps P s (execI3cUnknownCommand first reads s) :=
  .next fun h => .ite h.i3cUnknown h
theorem State.Holds.setAddr {mctp a} (h : s.Holds P) : (s.setAddr mctp a).Holds P := h.same
theorem State.Holds.ccc {mctp act} (hact : ∀ x1, x1.Holds P → (act x1).Holds P) (h : s.Holds P) : (ccc mctp act s).Holds P :=
  .ite (hact _ h) h.emit
theorem execSetdasa_keeps {mctp addr dest} : Keeps P s (execSetdasa mctp addr s dest) :=
  .next fun h => h.ccc (fun _ h1 => .ite h1.emit h1.setAddr.emit)
theorem execEntdaa_keeps {mctp addr} : Keeps P s (execEntdaa mctp addr s) :=
  .next fun h => h.ccc (fun _ h1 => .ite h1.emit h1.emit.setAddr.emit)
theorem execRstdaa_keeps : Keeps P s (execRstdaa s) := .next fun h => h.ccc (fun _ h1 => h1.same.emit)
theorem execGetpid_keeps {mctp} : Keeps P s (execGetpid mctp s) := .next fun h => h.ccc (fun _ h1 => h1.emit)
theorem execGetbcr_keeps {mctp} : Keeps P s (execGetbcr mctp s) := .next fun h => h.ccc (fun _ h1 => h1.emit)
theorem execGetdcr_keeps {mctp} : Keeps P s (execGetdcr mctp s) := .next fun h => h.ccc (fun _ h1 => h1.emit)
theorem execGetmxds_keeps {mctp} : Keeps P s (execGetmxds mctp s) := .next fun h => h.ccc (fun _ h1 => h1.emit)
theorem State.Holds.events {on e target} (h : s.Holds P) : (s.events on e target).Holds P := .emit (.ite h.same h)
theorem execEnec_keeps {events target} : Keeps P s (execEnec events s target) :=
  .next fun h => h.ccc (fun _ h1 => h1.events)
theorem execDisec_keeps {events target} : Keeps P s (execDisec events s target) :=
  .next fun h => h.ccc (fun _ h1 => h1.events)
theorem execTrstN_keeps : Keeps P s (execTrstN s) := .next fun h => .ite h.same h
theorem State.Holds.boundary (h : s.Holds P) : (s.boundary).2.Holds P := h.freeCount
theorem State.Holds.sample {cells} (h : s.Holds P) : (s.sample cells).Holds P := h.boundary.same.emit
theorem State.Holds.showPins (h : s.Holds P) : s.showPins.Holds P := h.emit
theorem execExtest_keeps {cells} : Keeps P s (execExtest cells s) :=
  .next fun h => .ite (.ite h.same.sample.showPins h.same.sample) h
theorem execIdcode_keeps : Keeps P s (execIdcode s) := .next fun h => .ite h.same.emit h
theorem execSamplePreload_keeps {cells} : Keeps P s (execSamplePreload cells s) :=
  .next fun h => .ite h.same.sample h
theorem execHighz_keeps : Keeps P s (execHighz s) := .next fun h => .ite (.ite h.same.emit.showPins h.same.sample) h
theorem execBypass_keeps {code} : Keeps P s (execBypass code s) := .next fun h => .ite h.same.emit h
theorem Run.Holds.readAll {d xs} (h : r.Holds P) : (r.readAll d xs).1.Holds P := by
  induction xs generalizing r with
  | nil => exact h
  | cons x xs ih =>
    unfold Run.readAll
    refine .fst_ite h ?_
    split
    · exact h.s.run.raise
    · exact ih h.read
theorem State.Holds.startFails {f status detail} (h : s.Holds (keptFrom orig)) : (s.startFails f status detail).Holds (keptFrom orig) := by
  unfold State.startFails
  refine .ite h.setFlight ?_
  extract_lets
  split
  · exact .ite h.setFlight (.ite (.ite h.setFlight.maFaultSet h.setFlight) h.setFlight.veFaultSet)
  · exact .ite h.setFlight.vdFaultSet.putFld.setReg h.setFlight
  · exact h.setFlight.mvFaultSet
  · exact h.setFlight
theorem State.Holds.startBusy {f} (h : s.Holds P) : (s.startBusy f).Holds P := by
  unfold State.startBusy
  split
  · exact .ite h (.ite h.maBusy h.veBusy)
  · exact .ite h.vdBusy h
  · exact h
theorem State.Holds.startGo {f} (h : s.Holds (keptFrom orig)) : (s.startGo f).Holds (keptFrom orig) := h.same.setFlight.startBusy
theorem State.Holds.startRead {f} (h : s.Holds (keptFrom orig)) : (s.startRead f).Holds (keptFrom orig) :=
  have k1 := Run.Holds.fst_ite h.start.readAll.readAll h.start.readAll.pair
  .ite k1.s.startFails (.ite h.askFor (.ite k1.s.startGo k1.s.startFails))
theorem State.Holds.startChecked {f} (h : s.Holds (keptFrom orig)) : (s.startChecked f).Holds (keptFrom orig) := by
  unfold State.startChecked
  split
  · exact h.startFails
  · refine .ite h.startFails ?_
    extract_lets
    split
    · split
      · exact h.askFor
      · exact h.startFails
    · exact .ite h.startFails h.startRead
theorem State.Holds.startOne {f} (h : s.Holds (keptFrom orig)) : (s.startOne f).Holds (keptFrom orig) := by
  unfold State.startOne
  refine .ite h.abort ?_
  refine .ite h.finishWith ?_
  refine .ite h.abort ?_
  refine .ite h ?_
  extract_lets
  split
  · exact .ite h.startChecked h.startChecked.setTurn.evalDie
  · exact h.startChecked
theorem execDescriptorStart_keeps {fid} : Keeps (keptFrom orig) s (execDescriptorStart fid s) := by
  refine .next fun h => ?_
  split
  · exact .ite h.startOne h
  · exact h
theorem State.Holds.plainWrite {a v} (h : s.Holds P) : (s.plainWrite a v).Holds P := by
  unfold State.plainWrite
  split
  · exact h.setReg
  · exact h
theorem State.Holds.offWrite {ctrl err bit_ a v} (h : s.Holds P) : (s.offWrite ctrl err bit_ a v).Holds P :=
  .ite h.plainWrite h.setFlag
theorem State.Holds.ctrlFields {ctrl hi lo err bit_ v} (h : s.Holds P) : (s.ctrlFields ctrl hi lo err bit_ v).Holds P :=
  .ite h.plainWrite (.ite h.plainWrite.putFld h.plainWrite.putFld.setFlag)
theorem State.Holds.onRequest {v enable disable} (h : s.Holds P) (henable : ∀ x1, x1.Holds P → (enable x1).Holds P) (hdisable : ∀ x1,
  x1.Holds P → (disable x1).Holds P) :
    (s.onRequest v enable disable).Holds P :=
  .ite (hdisable _ h) (.ite (henable _ h) h)
theorem State.Holds.ringWrite {die k o v} (h : s.Holds (keptFrom orig)) : (s.ringWrite die k o v).Holds (keptFrom orig) :=
  .ite (.onRequest (.ite h.ctrlFields.setFlag h.ctrlFields) (fun _ h1 => h1.enableReq) (fun _ h1 => h1.ringDisable))
    (.ite h.cplRdWrite (.ite h.plainWrite (.ite h.offWrite h)))
theorem State.Holds.gangWrite {die slot o v} (h : s.Holds P) : (s.gangWrite die slot o v).Holds P :=
  .ite h.gangCtrlWrite (.ite h.putFld h.plainWrite)
theorem State.Holds.groupWrite {die slot o v} (h : s.Holds P) : (s.groupWrite die slot o v).Holds P :=
  .ite h.pgCtrlWrite (.ite h.putFld h.plainWrite)
theorem State.Holds.slotWrite {die slot o v} (h : s.Holds P) : (s.slotWrite die slot o v).Holds P :=
  have k1 := State.Holds.ite h.plainWrite.setReg.rmCloseSlot h.plainWrite.setReg
  .ite h.setReg (.ite (.ite k1.rmRevertSlot k1) h.plainWrite)
theorem State.Holds.portRegWrite {die off v} (h : s.Holds P) : (s.portRegWrite die off v).Holds P :=
  have k1 := State.Holds.ite h.setFlag h
  .ite (.ite k1.pcieModeWrite.cxlRearm k1.pcieModeWrite) (.ite h h.plainWrite)
theorem State.Holds.controllerWrite {die off v} (h : s.Holds (keptFrom orig)) : (s.controllerWrite die off v).Holds (keptFrom orig) :=
  .ite h.doorbell (.ite h.abortWrite (.ite h.ringWrite (.ite h.offWrite (.ite h.offWrite (.ite h.gangWrite (.ite
    h.slotWrite (.ite h.portRegWrite (.ite h.groupWrite h.plainWrite))))))))
theorem State.Holds.epWrite {die ep o v} (h : s.Holds (keptFrom orig)) : (s.epWrite die ep o v).Holds (keptFrom orig) :=
  .ite (h.ctrlFields.onRequest (fun _ h1 => h1.epEnable) (fun _ h1 => h1.epDisable)) (.ite h.offWrite h.plainWrite)
theorem State.Holds.moverWrite {die n o v} (h : s.Holds (keptFrom orig)) : (s.moverWrite die n o v).Holds (keptFrom orig) :=
  .ite (h.onRequest (fun _ h1 => h1.enableReq) (fun _ h1 => h1.moverDisable)) h.plainWrite
theorem State.Holds.biasBaseWrite {home lo hi} (h : s.Holds P) : (s.biasBaseWrite home lo hi).Holds P :=
  .ite h.setFlag h.plainWrite.plainWrite
theorem State.Holds.biasWrite {home o v} (h : s.Holds P) : (s.biasWrite home o v).Holds P :=
  .ite h.biasBaseWrite (.ite h.biasBaseWrite (.ite h.plainWrite.setFlag h.plainWrite))
theorem State.Holds.hcWrite {die o v} (h : s.Holds P) : (s.hcWrite die o v).Holds P :=
  .ite (.ite h.setFlag h.maintExit) (.ite (.ite h.plainWrite.pprGo h.plainWrite) (.ite h (.ite h.biasWrite
    h.plainWrite)))
theorem State.Holds.stackWrite {stack o v} (h : s.Holds P) : (s.stackWrite stack o v).Holds P :=
  .ite (.ite h.w1500Go h) h.plainWrite
theorem State.Holds.pairWrite {die p o v} (h : s.Holds P) : (s.pairWrite die p o v).Holds P :=
  .ite (h.onRequest (fun _ h1 => h1.coursePairEnable) (fun _ h1 => h1.disableReq)) (.ite h h.plainWrite)
theorem State.Holds.courseWrite {die o v} (h : s.Holds P) : (s.courseWrite die o v).Holds P :=
  .ite h.cpRefWrite (.ite h.pairWrite h)
theorem State.Holds.computeWrite {die off v} (h : s.Holds (keptFrom orig)) : (s.computeWrite die off v).Holds (keptFrom orig) :=
  .ite h.epWrite (.ite (.ite h.moverWrite h) (.ite h.hcWrite (.ite (.ite (.ite h.wmInit h) h.plainWrite) (.ite
    h.courseWrite h.plainWrite.evalDie))))
theorem State.Holds.hostWrite {die off v} (h : s.Holds P) : (s.hostWrite die off v).Holds P :=
  .ite (.ite h.biasWrite (.ite h.imsicWrite h.plainWrite)) h.plainWrite
theorem State.Holds.fbPortWrite {p o v} (h : s.Holds P) : (s.fbPortWrite p o v).Holds P :=
  have k1 := State.Holds.ite h.portEnable h.portDisable
  .ite (.ite k1.portRetrain k1) h.plainWrite
theorem State.Holds.flowWrite {f o v} (h : s.Holds P) : (s.flowWrite f o v).Holds P :=
  .ite (h.ctrlFields.onRequest (fun _ h1 => h1.flowEnable) (fun _ h1 => h1.disableReq.endSync)) (.ite h.offWrite
    h.plainWrite)
theorem State.Holds.ioWrite {die off v} (h : s.Holds P) : (s.ioWrite die off v).Holds P :=
  .ite (.ite h.fbPortWrite (.ite h.flowWrite h)) (.ite h.courseWrite h.plainWrite)
theorem State.Holds.tdWrite {off v} (h : s.Holds (keptFrom orig)) : (s.tdWrite off v).Holds (keptFrom orig) :=
  .ite (.ite h.tdStart h) (.ite (.ite h.putFld (.ite h.loseDie h)) h.plainWrite)
theorem State.Holds.smRegWrite {off v} (h : s.Holds P) : (s.smRegWrite off v).Holds P :=
  .ite (.ite h.beginCommit h) (.ite h.aclWrite (.ite (.ite h.fwupGo h) h.plainWrite))
theorem State.Holds.pwGroupWrite {g o v} (h : s.Holds P) : (s.pwGroupWrite g o v).Holds P :=
  .ite h.grpCtrlWrite (.ite h.putFld h.plainWrite)
theorem State.Holds.powerWrite {o v} (h : s.Holds (keptFrom orig)) : (s.powerWrite o v).Holds (keptFrom orig) :=
  .ite h.alertClear (.ite (.ite (h.onRequest (fun _ h1 => h1.domainEnable) (fun _ h1 => h1.domainDisableAll)) h) (.ite
    h.pwGroupWrite h.plainWrite))
theorem State.Holds.journalWrite {o v} (h : s.Holds P) : (s.journalWrite o v).Holds P := .ite (.ite h h.jrOp) h.plainWrite
theorem State.Holds.mailboxWrite {o v} (h : s.Holds P) : (s.mailboxWrite o v).Holds P :=
  .ite h.mbStore (.ite h.mbStore (.ite h.mbStore (.ite h.claimWrite h.plainWrite)))
theorem State.Holds.smWrite {off v} (h : s.Holds (keptFrom orig)) : (s.smWrite off v).Holds (keptFrom orig) :=
  .ite h.smRegWrite (.ite h.powerWrite (.ite h.journalWrite h.mailboxWrite))
theorem State.Holds.setupWrite {a v} (h : s.Holds (keptFrom orig)) : (s.setupWrite a v).Holds (keptFrom orig) := by
  unfold State.setupWrite
  split
  · exact .ite h.stackWrite (.ite h.tdWrite (.ite h.smWrite (.ite h.controllerWrite (.ite h.computeWrite (.ite
    h.hostWrite h.ioWrite)))))
  · exact h
theorem State.Holds.setupRead {a} (h : s.Holds P) : (s.setupRead a).1.Holds P := by
  unfold State.setupRead
  split
  · exact h.mbLoad
  · exact h
theorem State.Holds.setupStore {req a bs} (h : s.Holds (keptFrom orig)) : (s.setupStore req a bs).Holds (keptFrom orig) := by
  unfold State.setupStore
  extract_lets
  split
  · exact h.outbound
  · refine .ite ?_ h.setupWrite
    split
    · exact .ite h.doorbell (.ite h.biasBaseWrite h.setupWrite.setupWrite)
    · exact h
theorem State.Holds.setupLoad {as} (h : s.Holds P) : (s.setupLoad as).1.Holds P := by
  induction as generalizing s with
  | nil => exact h
  | cons a as ih => exact .fst_ite h.setupRead (ih h.setupRead)
theorem State.Holds.registerWrite {req a v} (h : s.Holds (keptFrom orig)) : (s.registerWrite req a v).Holds (keptFrom orig) := by
  unfold State.registerWrite
  refine .ite h.refuseSetup ?_
  split
  · exact h.refuseSetup
  · exact h.setupStore
theorem execRegisterWrite_keeps {req addr value} : Keeps (keptFrom orig) s (execRegisterWrite req addr value s) :=
  .next fun h => h.registerWrite
theorem State.Holds.coreSetup {hart machine a size acc} (h : s.Holds (keptFrom orig)) : (s.coreSetup hart machine a size acc).Holds (keptFrom orig) := by
  unfold State.coreSetup
  refine .ite h.log.emit ?_
  extract_lets
  split
  · exact h.log.emit
  · split
    · exact h.setupStore.emit
    · split
      · exact h.outbound
      · dsimp only
        split
        · exact h.setupLoad.emit
        · exact h.setupLoad.emit
theorem execHostCoreAccess_keeps {hart machine uncached addr size access ecc} :
    Keeps (keptFrom orig) s (execHostCoreAccess hart machine uncached addr size access ecc s) :=
  .next fun h => .ite (.ite h.coreSetup h.coreMemory) h
theorem execImsicStore_keeps {req hostDie offset value} :
    Keeps P s (execImsicStore req hostDie offset value s) := by
  refine .next fun h => ?_
  refine .ite ?_ h
  extract_lets
  split
  · exact h.refuseSetup
  · exact h.imsicWrite
theorem State.Holds.bar0Access {io off acc} (h : s.Holds (keptFrom orig)) : (s.bar0Access io off acc).Holds (keptFrom orig) := by
  unfold State.bar0Access
  refine .ite h.refuseDevice ?_
  extract_lets
  split
  · exact h.refuseDevice
  · split
    · exact h.setupStore
    · split
      · exact h.outbound
      · dsimp only
        split
        · exact h.setupLoad.emit
        · exact h.setupLoad.emit
theorem execCxlBar0Access_keeps {io offset access} : Keeps (keptFrom orig) s (execCxlBar0Access io offset access s) :=
  .next fun h => .ite h.bar0Access h

end Sys2Proof.Machine
end

section
/-! SUPPORT. O6, O55: every command keeps the queue, and the numbers of the descriptors in order. -/

namespace Sys2Proof.Machine

set_option Elab.async false

variable {P : List Instr → List Flight → Nat → Prop} {orig s t : State}

/-- The lemma of each command's own function. -/
theorem exec_keeps {c : Instr} : Keeps (keptFrom orig) s (exec c s) := by
  cases c with
  | registerWrite => exact execRegisterWrite_keeps
  | doorbell => exact execDoorbell_keeps
  | ringEnable => exact execRingEnable_keeps
  | ringEnablingDone => exact execRingEnablingDone_keeps
  | ringDisable => exact execRingDisable_keeps
  | ringDisablingDone => exact execRingDisablingDone_keeps
  | ringResume => exact execRingResume_keeps
  | cplRdWrite => exact execCplRdWrite_keeps
  | descriptorFetch => exact execDescriptorFetch_keeps
  | descriptorStart => exact execDescriptorStart_keeps
  | nop => exact execNop_keeps
  | descriptorComplete => exact execDescriptorComplete_keeps
  | completionWriteFault => exact execCompletionWriteFault_keeps
  | fenceSignal => exact execFenceSignal_keeps
  | fenceWrite => exact execFenceWrite_keeps
  | gangFanout => exact execGangFanout_keeps
  | gangMemberReport => exact execGangMemberReport_keeps
  | gangEntryValidate => exact execGangEntryValidate_keeps
  | rmClose => exact execRmClose_keeps
  | rmRevert => exact execRmRevert_keeps
  | matmul => exact execMatmul_keeps
  | matmulMxfp4 => exact execMatmulMxfp4_keeps
  | elementwiseFma => exact execElementwiseFma_keeps
  | partitionFault => exact execPartitionFault_keeps
  | enginePairEnable => exact execEnginePairEnable_keeps
  | enginePairEnablingDone => exact execEnginePairEnablingDone_keeps
  | enginePairDisable => exact execEnginePairDisable_keeps
  | enginePairDisablingDone => exact execEnginePairDisablingDone_keeps
  | fusedChain => exact execFusedChain_keeps
  | fallbackProgram => exact execFallbackProgram_keeps
  | veAccessFault => exact execVeAccessFault_keeps
  | smrow => exact execSmrow_keeps
  | smmerge => exact execSmmerge_keeps
  | norm => exact execNorm_keeps
  | xent => exact execXent_keeps
  | attstep => exact execAttstep_keeps
  | conv => exact execConv_keeps
  | resample => exact execResample_keeps
  | regroup => exact execRegroup_keeps
  | decode => exact execDecode_keeps
  | hbmRequest => exact execHbmRequest_keeps
  | msopRequest => exact execMsopRequest_keeps
  | hbmRefresh home => exact execHbmRefresh_keeps (home := home)
  | hbmScrubStep => exact execHbmScrubStep_keeps
  | hbmMaintEnter => exact execHbmMaintEnter_keeps
  | hbmMaintDrained => exact execHbmMaintDrained_keeps
  | hbmMaintExit => exact execHbmMaintExit_keeps
  | w1500Go => exact execW1500Go_keeps
  | w1500ShiftDone => exact execW1500ShiftDone_keeps
  | pprGo => exact execPprGo_keeps
  | pprDone => exact execPprDone_keeps
  | wmAccess => exact execWmAccess_keeps
  | wmInit => exact execWmInit_keeps
  | wmInitDone => exact execWmInitDone_keeps
  | move => exact execMove_keeps
  | msop => exact execMsop_keeps
  | moverFault => exact execMoverFault_keeps
  | moverEnable => exact execMoverEnable_keeps
  | moverEnablingDone => exact execMoverEnablingDone_keeps
  | moverDisable => exact execMoverDisable_keeps
  | moverDisablingDone => exact execMoverDisablingDone_keeps
  | hostCoreAccess => exact execHostCoreAccess_keeps
  | hostAtomic => exact execHostAtomic_keeps
  | lrGrantExpiry => exact execLrGrantExpiry_keeps
  | mailboxInternalWrite => exact execMailboxInternalWrite_keeps
  | mailboxSetAliasWrite => exact execMailboxSetAliasWrite_keeps
  | mailboxClearAliasWrite => exact execMailboxClearAliasWrite_keeps
  | mailboxRead => exact execMailboxRead_keeps
  | mailboxWrite => exact execMailboxWrite_keeps
  | mailboxSet => exact execMailboxSet_keeps
  | mailboxClear => exact execMailboxClear_keeps
  | mbClaim => exact execMbClaim_keeps
  | i3cTransferEnd => exact execI3cTransferEnd_keeps
  | claimTimeout => exact execClaimTimeout_keeps
  | gnorm => exact execGnorm_keeps
  | update => exact execUpdate_keeps
  | wcopy => exact execWcopy_keeps
  | slotload => exact execSlotload_keeps
  | paramGroupValidate => exact execParamGroupValidate_keeps
  | dcAbortWrite => exact execDcAbortWrite_keeps
  | spill => exact execSpill_keeps
  | slotRecall => exact execRecall_keeps
  | commit => exact execCommit_keeps
  | commitTimeout => exact execCommitTimeout_keeps
  | slotimg => exact execSlotimg_keeps
  | portEnable => exact execPortEnable_keeps
  | portDisable => exact execPortDisable_keeps
  | portRetrain => exact execPortRetrain_keeps
  | portTrained => exact execPortTrained_keeps
  | linkRepeat => exact execLinkRepeat_keeps
  | link => exact execLink_keeps
  | credit => exact execCredit_keeps
  | frameForward => exact execFrameForward_keeps
  | write => exact execWrite_keeps
  | msopFrame => exact execMsopFrame_keeps
  | read => exact execRead_keeps
  | signal => exact execSignal_keeps
  | sync => exact execSync_keeps
  | arrive => exact execArrive_keeps
  | red => exact execRed_keeps
  | res => exact execRes_keeps
  | ack => exact execAck_keeps
  | nak => exact execNak_keeps
  | readRsp => exact execReadRsp_keeps
  | fault => exact execFault_keeps
  | grant => exact execGrant_keeps
  | syncAck => exact execSyncAck_keeps
  | capo => exact execCapo_keeps
  | shift => exact execShift_keeps
  | ackTimer => exact execAckTimer_keeps
  | retransmitTimeout => exact execRetransmitTimeout_keeps
  | flowEnable => exact execFlowEnable_keeps
  | flowSyncRetry => exact execFlowSyncRetry_keeps
  | flowDisable => exact execFlowDisable_keeps
  | flowDisablingDone => exact execFlowDisablingDone_keeps
  | put => exact execPut_keeps
  | gred => exact execGred_keeps
  | grantRepeat => exact execGrantRepeat_keeps
  | capoSend => exact execCapoSend_keeps
  | capoEntryExpiry => exact execCapoEntryExpiry_keeps
  | shiftOffer => exact execShiftOffer_keeps
  | shiftLeaseExpiry => exact execShiftLeaseExpiry_keeps
  | interruptMessage => exact execInterruptMessage_keeps
  | imsicStore => exact execImsicStore_keeps
  | snpShr => exact execSnpShr_keeps
  | snpInv => exact execSnpInv_keeps
  | snpOwn => exact execSnpOwn_keeps
  | snpGfl => exact execSnpGfl_keeps
  | biasflip => exact execBiasflip_keeps
  | hfill => exact execHfill_keeps
  | biasInit => exact execBiasInit_keeps
  | biasInitDone => exact execBiasInitDone_keeps
  | pcieModeWrite => exact execPcieModeWrite_keeps
  | pcieOutboundAccess => exact execPcieOutboundAccess_keeps
  | pcieCompletionTimeout => exact execPcieCompletionTimeout_keeps
  | pcieInboundRequest => exact execPcieInboundRequest_keeps
  | pcieMsiWrite => exact execPcieMsiWrite_keeps
  | cxlDecoderCommit => exact execCxlDecoderCommit_keeps
  | bisnp => exact execBisnp_keeps
  | bisnpTimeout => exact execBisnpTimeout_keeps
  | cxlLoss => exact execCxlLoss_keeps
  | cxlWalkDone => exact execCxlWalkDone_keeps
  | cxlRearm => exact execCxlRearm_keeps
  | perst => exact execPerst_keeps
  | coursePairEnable => exact execCoursePairEnable_keeps
  | courseTrainingTimeout => exact execCourseTrainingTimeout_keeps
  | courseEnablingDone => exact execCourseEnablingDone_keeps
  | courseFlitReplay => exact execCourseFlitReplay_keeps
  | courseRetrain => exact execCourseRetrain_keeps
  | courseRetrainDone => exact execCourseRetrainDone_keeps
  | coursePairDisable => exact execCoursePairDisable_keeps
  | courseDisablingDone => exact execCourseDisablingDone_keeps
  | refSourceLost => exact execRefSourceLost_keeps
  | refPrimaryReturn => exact execRefPrimaryReturn_keeps
  | cpRefWrite => exact execCpRefWrite_keeps
  | refclkCheck => exact execRefclkCheck_keeps
  | refclkRelock => exact execRefclkRelock_keeps
  | tdStart => exact execTdStart_keeps
  | dieClockLost => exact execDieClockLost_keeps
  | dieLossAnswer => exact execDieLossAnswer_keeps
  | dieReset => exact execDieReset_keeps
  | dieReadmit => exact execDieReadmit_keeps
  | dieReadmitDone => exact execDieReadmitDone_keeps
  | lehrBinStart => exact execLehrBinStart_keeps
  | powerSample => exact execPowerSample_keeps
  | opDividerStep => exact execOpDividerStep_keeps
  | voltageSlewDone => exact execVoltageSlewDone_keeps
  | droopDetect => exact execDroopDetect_keeps
  | droopEnd => exact execDroopEnd_keeps
  | longDroop => exact execLongDroop_keeps
  | thermalSample => exact execThermalSample_keeps
  | groupEntryValidate => exact execGroupEntryValidate_keeps
  | domainEnable => exact execDomainEnable_keeps
  | domainEnablingDone => exact execDomainEnablingDone_keeps
  | domainDisable => exact execDomainDisable_keeps
  | domainDisablingDone => exact execDomainDisablingDone_keeps
  | pwrEnHigh => exact execPwrEnHigh_keeps
  | pwrEnLow => exact execPwrEnLow_keeps
  | moduleStart => exact execModuleStart_keeps
  | modResetAssert => exact execModResetAssert_keeps
  | modResetRelease => exact execModResetRelease_keeps
  | modResetHeld => exact execModResetHeld_keeps
  | throttleNChange => exact execThrottleNChange_keeps
  | throttleIntervalEnd => exact execThrottleIntervalEnd_keeps
  | throttleStuck => exact execThrottleStuck_keeps
  | pwAlertClear => exact execPwAlertClear_keeps
  | readStatusBlock => exact execReadStatusBlock_keeps
  | clearAlerts => exact execClearAlerts_keeps
  | i3cTransferTimeout => exact execI3cTransferTimeout_keeps
  | setdasa => exact execSetdasa_keeps
  | entdaa => exact execEntdaa_keeps
  | rstdaa => exact execRstdaa_keeps
  | getpid => exact execGetpid_keeps
  | getbcr => exact execGetbcr_keeps
  | getdcr => exact execGetdcr_keeps
  | getmxds => exact execGetmxds_keeps
  | enec => exact execEnec_keeps
  | disec => exact execDisec_keeps
  | getVersion => exact execGetVersion_keeps
  | negotiateAlgorithms => exact execNegotiateAlgorithms_keeps
  | getCertificate => exact execGetCertificate_keeps
  | challenge => exact execChallenge_keeps
  | getMeasurements => exact execGetMeasurements_keeps
  | smRbCommit => exact execSmRbCommit_keeps
  | fwupGo => exact execFwupGo_keeps
  | fwupDone => exact execFwupDone_keeps
  | setupAclWrite => exact execSetupAclWrite_keeps
  | jrWrite => exact execJrWrite_keeps
  | jrRead => exact execJrRead_keeps
  | jrDelete => exact execJrDelete_keeps
  | compactionDone => exact execCompactionDone_keeps
  | culletEraseDone => exact execCulletEraseDone_keeps
  | trstN => exact execTrstN_keeps
  | extest => exact execExtest_keeps
  | idcode => exact execIdcode_keeps
  | samplePreload => exact execSamplePreload_keeps
  | highz => exact execHighz_keeps
  | bypass => exact execBypass_keeps
  | portLinkDown => exact execPortLinkDown_keeps
  | tdAliveLost => exact execTdAliveLost_keeps
  | cxlMemRequest => exact execCxlMemRequest_keeps
  | cxlBar0Access => exact execCxlBar0Access_keeps
  | bisnpResponse => exact execBisnpResponse_keeps
  | pcieLinkUp => exact execPcieLinkUp_keeps
  | pcieLinkDown => exact execPcieLinkDown_keeps
  | pcieCompletion => exact execPcieCompletion_keeps
  | mctpControlMessage => exact execMctpControlMessage_keeps
  | getCapabilities => exact execGetCapabilities_keeps
  | counterWriteDone => exact execCounterWriteDone_keeps
  | jrOpDone => exact execJrOpDone_keeps
  | mbxBusyPulseEnd => exact execMbxBusyPulseEnd_keeps
  | stimecmpExpiry => exact execStimecmpExpiry_keeps
  | remoteGangDescriptor => exact execRemoteGangDescriptor_keeps
  | i3cUnknownCommand => exact execI3cUnknownCommand_keeps

end Sys2Proof.Machine

namespace Sys2Proof

open Machine

/-- Settles O6: whatever a command does, the queue stays. -/
theorem commandsKeepQueue : Obligations.CommandsKeepQueue := by
  intro c s t e
  obtain ⟨u, eu, h⟩ := exec_keeps (c := c) (s := s) (orig := s)
  cases e.symm.trans eu
  exact (h ⟨rfl, id⟩).1

/-- Settles O55: each command, and the cycle of an empty queue, keeps the numbers in order. -/
theorem numbersStayDistinct : Obligations.NumbersStayDistinct := by
  refine ⟨⟨List.nodup_nil, fun f hf => (List.not_mem_nil hf).elim⟩, fun s t hs e => ?_⟩
  unfold step at e
  split at e
  · cases e
    exact (State.Holds.cycle (orig := s) ⟨rfl, id⟩).2 hs
  · next c rest _ =>
    obtain ⟨u, eu, h⟩ := exec_keeps (c := c) (s := { s with pending := rest }) (orig := { s with pending := rest })
    cases e.symm.trans eu
    exact (h ⟨rfl, id⟩).2 hs

end Sys2Proof
end

section
/-! SUPPORT. The words of a ring context by their offsets (R32), and reads of sparse maps after a range of keys is erased. -/

namespace Sys2Proof.Machine

/-! ### The words of a ring context (R32) -/

section
variable (ring : Nat)

theorem ringAddr_baseLo : ringAddr Reg.dcRingBaseLo ring = ringContext ring := dcRingBaseLo_eq_ringContext ring
theorem ringAddr_ctrl : ringAddr Reg.dcRingCtrl ring = ringContext ring + 0x18 := dcRingCtrl_eq_ringContext ring
theorem ringAddr_err : ringAddr Reg.dcRingErr ring = ringContext ring + 0x30 := dcRingErr_eq_ringContext ring
theorem ringAddr_baseHi : ringAddr Reg.dcRingBaseHi ring = ringContext ring + 0x04 := by
  unfold ringAddr ringContext Reg.dcRingBaseHi Reg.setupBase; omega
theorem ringAddr_size : ringAddr Reg.dcRingSize ring = ringContext ring + 0x08 := by
  unfold ringAddr ringContext Reg.dcRingSize Reg.setupBase; omega
theorem ringAddr_target : ringAddr Reg.dcRingTarget ring = ringContext ring + 0x0C := by
  unfold ringAddr ringContext Reg.dcRingTarget Reg.setupBase; omega
theorem ringAddr_cplLo : ringAddr Reg.dcRingCplLo ring = ringContext ring + 0x10 := by
  unfold ringAddr ringContext Reg.dcRingCplLo Reg.setupBase; omega
theorem ringAddr_cplHi : ringAddr Reg.dcRingCplHi ring = ringContext ring + 0x14 := by
  unfold ringAddr ringContext Reg.dcRingCplHi Reg.setupBase; omega
theorem ringAddr_irq : ringAddr Reg.dcRingIrq ring = ringContext ring + 0x1C := by
  unfold ringAddr ringContext Reg.dcRingIrq Reg.setupBase; omega
theorem ringAddr_prod : ringAddr Reg.dcRingProd ring = ringContext ring + 0x20 := by
  unfold ringAddr ringContext Reg.dcRingProd Reg.setupBase; omega
theorem ringAddr_cons : ringAddr Reg.dcRingCons ring = ringContext ring + 0x24 := by
  unfold ringAddr ringContext Reg.dcRingCons Reg.setupBase; omega
theorem ringAddr_cplWr : ringAddr Reg.dcRingCplWr ring = ringContext ring + 0x28 := by
  unfold ringAddr ringContext Reg.dcRingCplWr Reg.setupBase; omega
theorem ringAddr_cplRd : ringAddr Reg.dcRingCplRd ring = ringContext ring + 0x2C := by
  unfold ringAddr ringContext Reg.dcRingCplRd Reg.setupBase; omega

theorem halfRange_eq : halfRange = 2 ^ 31 := rfl
theorem State.ringReg_eq (s : State) (f : Nat → Nat → Nat) : s.ringReg f ring = s.reg (ringAddr f ring) := rfl

end

/-! ### Function registers beside a ring's -/

theorem regAlias_maCtrl {die ep : Nat} (h : ep < 6) : regAlias (Reg.maCtrl die ep) = Reg.maCtrl die ep := by
  rw [Reg.maCtrl, Nat.add_assoc]; exact regAlias_setupBase (by omega)
theorem regAlias_maErr {die ep : Nat} (h : ep < 6) : regAlias (Reg.maErr die ep) = Reg.maErr die ep := by
  rw [Reg.maErr, Nat.add_assoc]; exact regAlias_setupBase (by omega)
theorem regAlias_veStatus {die ep : Nat} (h : ep < 6) : regAlias (Reg.veStatus die ep) = Reg.veStatus die ep := by
  rw [Reg.veStatus, Nat.add_assoc]; exact regAlias_setupBase (by omega)
theorem regAlias_mvCtrl {die n : Nat} (h : n < 4) : regAlias (Reg.mvCtrl die n) = Reg.mvCtrl die n := by
  rw [Reg.mvCtrl, Nat.add_assoc]; exact regAlias_setupBase (by omega)
theorem regAlias_dcFence {die ctr : Nat} (h : ctr < 256) : regAlias (Reg.dcFence die ctr) = Reg.dcFence die ctr := by
  rw [Reg.dcFence, Nat.add_assoc]; exact regAlias_setupBase (by omega)

/-! ### Erased keys -/

theorem lookup_eraseRange {α : Type} (d : Nat → α) (m : List (Nat × α)) (lo hi k : Nat) :
    lookup d (eraseRange m lo hi) k = if lo ≤ k ∧ k < hi then d k else lookup d m k := by
  split
  · refine lookup_eq_default _ _ _ fun p hp => ?_
    simp only [eraseRange, List.mem_filter, decide_eq_true_eq] at hp
    omega
  · exact lookup_filter d m k (fun x => decide (x < lo ∨ hi ≤ x)) (by simp only [decide_eq_true_eq]; omega)

end Sys2Proof.Machine
end

section
/-! SUPPORT. O7, O10: doorbells, the completion counters of a ring and the fence counters (R32, R33, R36, R45, R46). -/

namespace Sys2Proof

open Machine

/-- The branches of R36 by the offsets of R32. -/
theorem Machine.State.doorbell_eq (s : State) (die : Nat) (wide : Bool) (v : DWord) :
    s.doorbell die wide v =
      (let ring := v.toNat % 4096
       let prod : Word := BitVec.ofNat 32 (v.toNat / 2 ^ 32)
       let base := ringContext ring
       if wide = false ∨ v.toNat / 2 ^ 12 % 2 ^ 20 ≠ 0 ∨ ringDie ring ≠ die then s.log die .badDoorbell ring prod.toNat
       else if 2 ^ 31 ≤ (prod - s.reg (base + 0x20)).toNat then s
       else if 2 ^ s.fld (base + 0x08) 4 0 < (prod - s.reg (base + 0x24)).toNat then s.setFlag (base + 0x30) 3 true
       else if s.fld (base + 0x18) 6 4 = 1 ∨ s.fld (base + 0x18) 6 4 = 2 then s.setReg (base + 0x20) prod
       else s.setFlag (base + 0x30) 2 true) := by
  simp only [State.doorbell, State.ringReg_eq, ringAddr_ctrl, ringAddr_err, ringAddr_prod, ringAddr_size, ringAddr_cons]
  refine ite_congr ?_ (fun _ => rfl) fun _ => ite_congr rfl (fun _ => rfl) fun _ => ite_congr rfl (fun _ => rfl) fun _ =>
    ite_congr rfl (fun _ => rfl) fun _ => rfl
  simp only [Bool.or_eq_true, Bool.not_eq_true', bne_iff_ne, or_assoc]

/-- Settles O7: branch by branch of R36. -/
theorem doorbellFollowsR36 : Obligations.DoorbellFollowsR36 := by
  intro s die wide v hd ring prod base
  have hr : ring < 4096 := Nat.mod_lt _ (by decide)
  refine ⟨_, congrArg Host.Outcome.next ((if_neg (by simp [hd])).trans (s.doorbell_eq die wide v)), ?_⟩
  dsimp only
  split_ifs
  · exact ⟨rfl, rfl⟩
  · rfl
  · exact fieldSet_setFlag s _ 3 true (regAlias_ringContext hr (by omega)) (by omega)
  · exact ⟨onlyRegs_setReg _ _ _, State.reg_setReg_same _ _ _ (regAlias_ringContext hr (by omega))⟩
  · exact fieldSet_setFlag s _ 2 true (regAlias_ringContext hr (by omega)) (by omega)

/-- A write of DC_RING_CPL_RD (R33). -/
theorem answers_cplRdWrite (s : State) {ring : Nat} (v : Word) (hr : ring < 4096) (hd : s.dieDown (ringDie ring) = false) :
    Answers (.cplRdWrite ring v) s (fun t =>
      if 1 ≤ (v - s.reg (ringContext ring + 0x28)).toNat ∧ (v - s.reg (ringContext ring + 0x28)).toNat < 2 ^ 31 then
        FieldSet (ringContext ring + 0x30) 1 1 1 s t
      else OnlyRegs [ringContext ring + 0x2C] s t ∧ t.reg (ringContext ring + 0x2C) = v) := by
  refine ⟨s.cplRdWrite ring v, congrArg Host.Outcome.next (if_neg (by simp [hd])), ?_⟩
  simp only [State.cplRdWrite, State.ringReg_eq, ringAddr_cplWr, ringAddr_err, ringAddr_cplRd, sub32, halfRange_eq]
  split_ifs
  · exact fieldSet_setFlag s _ 1 true (regAlias_ringContext hr (by omega)) (by omega)
  · exact ⟨onlyRegs_setReg _ _ _, State.reg_setReg_same _ _ _ (regAlias_ringContext hr (by omega))⟩

/-- A signal that was sent raises its fence counter (R46). -/
theorem answers_fenceSignal (s : State) {die ctr : Nat} (hb : ringBearing die = true) (hc : ctr < 256)
    (hd : s.dieDown die = false) (hq : (die, ctr) ∈ s.sigQ) :
    Answers (.fenceSignal die ctr) s (fun t => OnlyRegs [Reg.dcFence die ctr] { s with sigQ := s.sigQ.erase (die, ctr) } t ∧
      t.reg (Reg.dcFence die ctr) = s.reg (Reg.dcFence die ctr) + 1) := by
  have hrun : (s.dieDown die || !ringBearing die || decide (256 ≤ ctr)) = false := by simp [hd, hb, hc]
  refine ⟨_, congrArg Host.Outcome.next ((if_pos (by simpa using hq)).trans (if_neg (Bool.eq_false_iff.1 hrun))), ?_⟩
  exact ⟨onlyRegs_setReg _ _ _, State.reg_setReg_same _ _ _ (regAlias_dcFence hc)⟩

/-- Settles O10: each counter by its register. -/
theorem ringCountersFollowR33 : Obligations.RingCountersFollowR33 := by
  refine ⟨fun s ring v hr hd => ⟨answers_cplRdWrite s v hr hd, ?_⟩, fun s die ctr v hb hc hd => ⟨?_, answers_fenceSignal s hb hc hd⟩⟩
  · refine ⟨_, congrArg Host.Outcome.next (if_neg (by simp [hd])), ?_⟩
    rw [ringAddr_ctrl]
    exact fieldSet_setFlag s _ 9 false (regAlias_ringContext hr (by omega)) (by omega)
  · have hrun : (s.dieDown die || !ringBearing die || decide (256 ≤ ctr)) = false := by simp [hd, hb, hc]
    exact ⟨_, congrArg Host.Outcome.next (if_neg (Bool.eq_false_iff.1 hrun)), onlyRegs_setReg _ _ _,
      State.reg_setReg_same _ _ _ (regAlias_dcFence hc)⟩

end Sys2Proof
end

section
/-! SUPPORT. O8: requests to rings, movers and engine pairs (R67, R68, R69, R124). -/

namespace Sys2Proof

open Machine

/-! ### Bits set by a flag -/

theorem getLsbD_wset_flag (w : Word) {i j : Nat} (b : Bool) (hi : i < 32) (hj : j < 32) :
    (wset w i i (if b then 1 else 0)).getLsbD j = if j = i then b else w.getLsbD j := by
  rw [getLsbD_wset _ _ _ _ _ (le_refl i) hj]
  rcases lt_trichotomy j i with h | rfl | h
  · simp [h, h.ne]
  · cases b <;> simp
  · simp [h.not_gt, h.not_ge, h.ne']

/-- Setting a flag is an OR with its bit. -/
theorem wset_flag_true (w : Word) {i : Nat} (hi : i < 32) : wset w i i 1 = w ||| BitVec.twoPow 32 i := by
  refine BitVec.eq_of_getLsbD_eq fun j hj => ?_
  rw [show (1 : Nat) = if true then 1 else 0 from rfl, getLsbD_wset_flag w true hi hj, BitVec.getLsbD_or, BitVec.getLsbD_twoPow]
  by_cases h : j = i
  · simp [h, hi]
  · simp [h, Ne.symm h]

theorem Machine.State.reg_setFlag_true (s : State) {a i : Nat} (ha : regAlias a = a) (hi : i < 32) :
    (s.setFlag a i true).reg a = s.reg a ||| BitVec.twoPow 32 i := by
  rw [State.setFlag, State.reg_putFld, if_pos ha]
  exact wset_flag_true _ hi

/-! ### Descriptors that end while they wait (R68, R69) -/

/-- Each descriptor whose number is aborted is one of those aborted, ended; the others stay. -/
theorem Machine.State.abortAll_spec (fs : List Flight) (s : State) :
    { s.abortAll fs with flights := s.flights } = s ∧
      (s.abortAll fs).flights.map (·.fid) = s.flights.map (·.fid) ∧
      ∀ g ∈ (s.abortAll fs).flights, (g ∈ s.flights ∧ ∀ f ∈ fs, f.fid ≠ g.fid) ∨ ∃ f ∈ fs, g = Ended f 0x50 0 := by
  induction fs generalizing s with
  | nil => exact ⟨rfl, rfl, fun g hg => .inl ⟨hg, by simp⟩⟩
  | cons f fs ih =>
    obtain ⟨hframe, hfids, hmem⟩ := ih (s.abort f)
    refine ⟨?_, ?_, fun g hg => ?_⟩
    · exact congrArg (fun u : State => { u with flights := s.flights }) hframe
    · refine hfids.trans ?_
      simp only [State.abort, State.finishWith, State.setFlight, List.map_map]
      refine List.map_congr_left fun x _ => ?_
      by_cases h : x.fid = f.fid <;> simp [h]
    · rcases hmem g hg with ⟨hin, hne⟩ | ⟨x, hx, hgx⟩
      · obtain ⟨x, hx, hxg⟩ := List.mem_map.1 hin
        by_cases h : x.fid = f.fid
        · rw [if_pos h] at hxg
          exact .inr ⟨f, by simp, hxg.symm⟩
        · rw [if_neg h] at hxg
          subst hxg
          exact .inl ⟨hx, by simpa using ⟨Ne.symm h, hne⟩⟩
      · exact .inr ⟨x, List.mem_cons_of_mem _ hx, hgx⟩

theorem abortedIn_abortAll (s : State) (p : Flight → Bool) : AbortedIn p s (s.abortAll (s.flights.filter p)) := by
  obtain ⟨-, hfids, hmem⟩ := s.abortAll_spec (s.flights.filter p)
  refine ⟨hfids, fun g hg => ?_⟩
  rcases hmem g hg with ⟨hin, hne⟩ | ⟨f, hf, hgf⟩
  · refine .inl ⟨hin, ?_⟩
    by_contra hp
    exact hne g (List.mem_filter.2 ⟨hin, by simpa using hp⟩) rfl
  · obtain ⟨hf, hp⟩ := List.mem_filter.1 hf
    exact .inr ⟨f, hf, hp, hgf⟩

/-- A disable request of a function, with the descriptors that wait there ended while it is DISABLING. -/
theorem disableReq_aborts (s : State) {c : Nat} (hc : regAlias c = c) (q : Flight → Bool) (t : State)
    (ht : t = if (s.disableReq c).fnState c = 3 then (s.disableReq c).abortAll (s.flights.filter q) else s.disableReq c) :
    Switched c (if s.fnState c = 1 ∨ s.fnState c = 2 then 3 else s.fnState c) (s.flag c 3 && s.fnState c != 3) (s.flag c 2) s
        { t with flights := s.flights } ∧
      AbortedIn (fun f => decide (1 ≤ s.fnState c ∧ s.fnState c ≤ 3) && q f) s t := by
  have hsw := switched_disableReq s c hc
  have hfl : (s.disableReq c).flights = s.flights := (State.Holds.self (s := s)).disableReq.2.1
  have hst : (s.disableReq c).fnState c = 3 ↔ 1 ≤ s.fnState c ∧ s.fnState c ≤ 3 := by
    rw [hsw.2.1]
    split <;> omega
  by_cases h : (s.disableReq c).fnState c = 3
  · rw [if_pos h, ← hfl] at ht
    have hab := abortedIn_abortAll (s.disableReq c) q
    rw [← ht] at hab
    refine ⟨?_, ?_⟩
    · have hframe := ((s.disableReq c).abortAll_spec ((s.disableReq c).flights.filter q)).1
      rw [← ht, hfl] at hframe
      rw [hframe]
      exact hsw
    · unfold AbortedIn at hab ⊢
      simpa [hst.1 h, hfl] using hab
  · rw [if_neg h] at ht
    subst ht
    refine ⟨?_, by rw [hfl], fun g hg => .inl ⟨hfl ▸ hg, ?_⟩⟩
    · rw [← hfl]
      exact hsw
    · rw [Bool.and_eq_false_iff]
      exact .inl (decide_eq_false (mt hst.2 h))

/-! ### Ready descriptors (R43, R45, R69) -/

theorem dWaitCtr_lt (d : Desc) : dWaitCtr d < 256 := by
  unfold dWaitCtr dfld
  exact Nat.mod_lt _ (by decide)

/-- A change of a register that is neither a fence counter nor PW_STATUS leaves the descriptors ready that were. -/
theorem Machine.State.ready_congr {s t : State} {c : Nat} (h : OnlyRegs [c] s t) (hsafe : regAlias Reg.pwStatus ≠ c)
    (hfence : ∀ die ctr, ctr < 256 → Reg.dcFence die ctr ≠ c) (f : Flight) : t.ready f = s.ready f := by
  have hfl : t.flights = s.flights := by rw [h.eq]
  have hs : t.isSafe = s.isSafe := congrArg (·.getLsbD 0) (h.2 _ (by simpa using hsafe))
  have hf : t.fenceMet f = s.fenceMet f := by
    unfold State.fenceMet State.fld
    rw [h.2 _ (by simpa [regAlias_dcFence (dWaitCtr_lt f.desc)] using hfence _ _ (dWaitCtr_lt f.desc))]
  simp only [State.ready, State.orderMet, State.copyTurn, State.ringFlights, hfl, hs, hf]

theorem pwStatus_ne_mvCtrl {die n : Nat} : regAlias Reg.pwStatus ≠ Reg.mvCtrl die n := by
  rw [show regAlias Reg.pwStatus = Reg.pwStatus by decide]
  unfold Reg.pwStatus Reg.mvCtrl Reg.setupBase
  omega
theorem pwStatus_ne_maCtrl {die ep : Nat} : regAlias Reg.pwStatus ≠ Reg.maCtrl die ep := by
  rw [show regAlias Reg.pwStatus = Reg.pwStatus by decide]
  unfold Reg.pwStatus Reg.maCtrl Reg.setupBase
  omega
theorem dcFence_ne_mvCtrl {die n d ctr : Nat} (hn : n < 4) (hc : ctr < 256) : Reg.dcFence d ctr ≠ Reg.mvCtrl die n := by
  unfold Reg.dcFence Reg.mvCtrl Reg.setupBase
  omega
theorem dcFence_ne_maCtrl {die ep d ctr : Nat} (hc : ctr < 256) : Reg.dcFence d ctr ≠ Reg.maCtrl die ep := by
  unfold Reg.dcFence Reg.maCtrl Reg.setupBase
  omega

/-! ### The requests -/

/-- An enable request of an engine pair; parts = 3 is refused in OFF (R124). -/
theorem answers_enginePairEnable (s : State) {die ep : Nat} (he : ep < 6) (hd : s.dieDown die = false) :
    let c := Reg.maCtrl die ep
    Answers (.enginePairEnable die ep) s (fun t =>
      if s.fnState c = 0 ∧ s.fld c 9 8 = 3 then
        OnlyRegs [Reg.maErr die ep, c] s t ∧ t.reg (Reg.maErr die ep) = s.reg (Reg.maErr die ep) ||| 2 ∧
        ∀ i, t.flag c i = (if i = 2 then true else if i = 3 then false else s.flag c i)
      else Switched c (if s.fnState c = 0 then 1 else s.fnState c) (s.flag c 3 && s.fnState c != 0 || s.fnState c == 3) false s
        t) := by
  intro c
  have hc : regAlias c = c := regAlias_maCtrl he
  have herr : regAlias (Reg.maErr die ep) = Reg.maErr die ep := regAlias_maErr he
  have hne : Reg.maErr die ep ≠ c := by simp only [c, Reg.maErr, Reg.maCtrl]; omega
  refine ⟨s.epEnable die ep, congrArg Host.Outcome.next (if_neg (by simp [hd])), ?_⟩
  dsimp only
  by_cases hbad : s.fnState c = 0 ∧ s.fld c 9 8 = 3
  · rw [if_pos hbad, show s.epEnable die ep = _ from if_pos hbad]
    refine ⟨?_, ?_, fun i => ?_⟩
    · exact (onlyRegs_setFlag _ _ _ _).trans ((onlyRegs_setFlag _ _ _ _).trans_same (onlyRegs_setFlag _ _ _ _))
    · rw [State.setFlag, State.reg_putFld, if_neg (by rwa [herr]), State.setFlag, State.reg_putFld, if_neg (by rwa [herr]),
        State.reg_setFlag_true s herr (by omega)]
      rfl
    · by_cases hi : i < 32
      · rw [State.flag_setFlag _ _ _ _ _ hc hi, State.flag_setFlag _ _ _ _ _ hc hi,
          show (s.setFlag (Reg.maErr die ep) 1 true).flag c i = s.flag c i from
            State.flag_putFld_other _ _ _ _ _ _ _ (by rw [hc]; exact hne.symm)]
        by_cases h3 : i = 3
        · simp [h3]
        · simp [h3]
      · rw [State.flag_ge _ _ _ (by omega), State.flag_ge _ _ _ (by omega), if_neg (by omega), if_neg (by omega)]
  · rw [if_neg hbad, show s.epEnable die ep = s.enableReq c from if_neg hbad]
    exact switched_enableReq s c hc

theorem answers_ringDisable (s : State) {ring : Nat} (hr : ring < 4096) (hd : s.dieDown (ringDie ring) = false) :
    let c := ringContext ring + 0x18
    Answers (.ringDisable ring) s (fun t =>
      Switched c (if s.fnState c = 1 ∨ s.fnState c = 2 then 3 else s.fnState c) (s.flag c 3 && s.fnState c != 3) (s.flag c 2) s
        { t with flights := s.flights } ∧
      AbortedIn (fun f => decide (1 ≤ s.fnState c ∧ s.fnState c ≤ 3) &&
        (decide (f.ring = ring ∧ f.parent = none ∧ f.remote = none) && f.waits)) s t) := by
  intro c
  refine ⟨s.ringDisable ring, congrArg Host.Outcome.next (if_neg (by simp [hd])),
    disableReq_aborts s (regAlias_ringContext hr (by omega)) _ _ ?_⟩
  have hfl : (s.disableReq c).flights = s.flights := (State.Holds.self (s := s)).disableReq.2.1
  simp only [State.ringDisable, ringAddr_ctrl, State.ringFlights, List.filter_filter]
  rw [hfl]
  simp only [Bool.and_comm]

/-- The descriptors that have reached a unit are those ready for it before the request. -/
theorem Machine.State.queuedAt_disableReq (s : State) {c : Nat} (hc : regAlias c = c) (hsafe : regAlias Reg.pwStatus ≠ c)
    (hfence : ∀ die ctr, ctr < 256 → Reg.dcFence die ctr ≠ c) (on : Flight → Bool) :
    (s.disableReq c).queuedAt (fun f => on f && (s.disableReq c).ready f) = s.flights.filter (fun f => on f && s.ready f) := by
  have hfl : (s.disableReq c).flights = s.flights := (State.Holds.self (s := s)).disableReq.2.1
  rw [State.queuedAt, hfl]
  refine List.filter_congr fun f _ => ?_
  rw [State.ready_congr (switched_disableReq s c hc).1 hsafe hfence]
  cases hw : f.waits <;> simp [State.ready, hw]

theorem answers_moverDisable (s : State) {die n : Nat} (hn : n < 4) (hd : s.dieDown die = false) :
    let c := Reg.mvCtrl die n
    Answers (.moverDisable die n) s (fun t =>
      Switched c (if s.fnState c = 1 ∨ s.fnState c = 2 then 3 else s.fnState c) (s.flag c 3 && s.fnState c != 3) (s.flag c 2) s
        { t with flights := s.flights } ∧
      AbortedIn (fun f => decide (1 ≤ s.fnState c ∧ s.fnState c ≤ 3) && (onMover die n f && s.ready f)) s t) := by
  refine ⟨s.moverDisable die n, congrArg Host.Outcome.next (if_neg (by simp [hd])),
    disableReq_aborts s (regAlias_mvCtrl hn) _ _ ?_⟩
  rw [State.moverDisable, s.queuedAt_disableReq (regAlias_mvCtrl hn) pwStatus_ne_mvCtrl fun _ _ => dcFence_ne_mvCtrl hn]

theorem answers_enginePairDisable (s : State) {die ep : Nat} (he : ep < 6) (hd : s.dieDown die = false) :
    let c := Reg.maCtrl die ep
    Answers (.enginePairDisable die ep) s (fun t =>
      Switched c (if s.fnState c = 1 ∨ s.fnState c = 2 then 3 else s.fnState c) (s.flag c 3 && s.fnState c != 3) (s.flag c 2) s
        { t with flights := s.flights } ∧
      AbortedIn (fun f => decide (1 ≤ s.fnState c ∧ s.fnState c ≤ 3) && (onEp die ep f && s.ready f)) s t) := by
  refine ⟨s.epDisable die ep, congrArg Host.Outcome.next (if_neg (by simp [hd])),
    disableReq_aborts s (regAlias_maCtrl he) _ _ ?_⟩
  rw [State.epDisable, s.queuedAt_disableReq (regAlias_maCtrl he) pwStatus_ne_maCtrl fun _ _ => dcFence_ne_maCtrl]

/-- Settles O8: an enable request by its control register, a disable request also by the descriptors that wait. -/
theorem requestsFollowR67 : Obligations.RequestsFollowR67 := by
  refine ⟨⟨fun s ring hr hd => ?_, fun s die n _ hn hd => ?_, fun s die ep _ he hd => answers_enginePairEnable s he hd⟩,
    fun s ring hr hd => ?_, fun s die n _ hn hd => ?_, fun s die ep _ he hd => ?_⟩
  · refine ⟨_, congrArg Host.Outcome.next (if_neg (by simp [hd])), ?_⟩
    rw [ringAddr_ctrl]
    exact switched_enableReq s _ (regAlias_ringContext hr (by omega))
  · exact ⟨_, congrArg Host.Outcome.next (if_neg (by simp [hd])), switched_enableReq s _ (regAlias_mvCtrl hn)⟩
  · simpa only [Bool.and_assoc] using answers_ringDisable s hr hd
  · simpa only [Bool.and_assoc] using answers_moverDisable s hn hd
  · simpa only [Bool.and_assoc] using answers_enginePairDisable s he hd

end Sys2Proof
end

section
/-! SUPPORT. O9: the ends of ENABLING and DISABLING (R34, R67, R124, R166). -/

namespace Sys2Proof

open Machine

/-! ### A ring's set-up and target (R29, R34, R55) -/

theorem baseOk_iff (b n : Nat) :
    baseOk b n = true ↔ n ∣ b ∧ populated b = true ∧ populated (b + n - 1) = true ∧ ownerDie b = ownerDie (b + n - 1) := by
  simp only [baseOk, Bool.and_eq_true, beq_iff_eq, Nat.dvd_iff_mod_eq_zero, and_assoc]

theorem ringSetupOk_iff (s : State) (ring : Nat) :
    let c := ringContext ring
    let l := s.fld (c + 0x08) 4 0
    let m := s.fld (c + 0x08) 20 16
    let base (lo a : Nat) := 2 ^ 32 * s.fld (c + lo + 4) 15 0 + a * ((s.reg (c + lo)).toNat / a)
    let lies (b n : Nat) : Prop := n ∣ b ∧ populated b = true ∧ populated (b + n - 1) = true ∧ ownerDie b = ownerDie (b + n - 1)
    s.ringSetupOk ring = true ↔
      4 ≤ l ∧ l ≤ 16 ∧ 4 ≤ m ∧ m ≤ 16 ∧ lies (base 0x00 64) (64 * 2 ^ l) ∧ lies (base 0x10 32) (32 * 2 ^ m) := by
  intro c l m base lies
  have hl : s.ringLog2 ring = l := by rw [State.ringLog2, State.ringReg_eq, ringAddr_size]; rfl
  have hm : s.cplLog2 ring = m := by rw [State.cplLog2, State.ringReg_eq, ringAddr_size]; rfl
  have hb : s.ringDescBase ring = base 0x00 64 := by
    rw [State.ringDescBase, State.ringReg_eq, State.ringReg_eq, ringAddr_baseLo, ringAddr_baseHi]; rfl
  have hc : s.ringCplBase ring = base 0x10 32 := by
    rw [State.ringCplBase, State.ringReg_eq, State.ringReg_eq, ringAddr_cplLo, ringAddr_cplHi]; rfl
  simp only [State.ringSetupOk, hl, hm, hb, hc, Bool.and_eq_true, decide_eq_true_eq, baseOk_iff, Nat.mul_comm, and_assoc, lies]

theorem ringTargetOk_iff (s : State) (ring : Nat) :
    let h := s.reg (ringContext ring + 0x0C)
    s.ringTargetOk ring = true ↔ handleValid h = true ∧ hModule h = s.moduleId ∧
      (if hGang h = true then gangHome (hGangNo h) = ringDie ring else hDie h = ringDie ring) := by
  intro h
  simp only [State.ringTargetOk, State.ringReg_eq, ringAddr_target, Bool.and_eq_true, beq_iff_eq, and_assoc, h]
  split <;> simp_all

/-! ### The end of ENABLING of a ring -/

/-- A flag set unless a test holds. -/
theorem Machine.State.flag_unless (s : State) {a i : Nat} (b : Bool) (ha : regAlias a = a) (hi : i < 32) (j : Nat) :
    (if b then s else s.setFlag a i true).flag a j = if j = i then s.flag a j || !b else s.flag a j := by
  by_cases hj : j < 32
  · cases b
    · simp only [Bool.false_eq_true, if_false, Bool.not_false, Bool.or_true]
      exact State.flag_setFlag s a i j true ha hj
    · simp
  · rw [State.flag_ge _ _ _ (by omega), State.flag_ge _ _ _ (by omega), if_neg (by omega)]

theorem onlyRegs_unless (s : State) (a i : Nat) (b : Bool) : OnlyRegs [a] s (if b then s else s.setFlag a i true) := by
  cases b
  · exact onlyRegs_setFlag _ _ _ _
  · exact OnlyRegs.refl _ _

/-- The ring's set-up or its target is refused (R34). -/
theorem ringEnablingDone_refused (s : State) {ring : Nat} (hr : ring < 4096) (a b : Bool) (t : State)
    (ht : t = ((if b then (if a then s else s.setFlag (ringContext ring + 0x30) 5 true)
        else (if a then s else s.setFlag (ringContext ring + 0x30) 5 true).setFlag (ringContext ring + 0x30) 4 true).enablingEnd
          (ringContext ring + 0x18) false).log (ringDie ring) .ringRefused ring) :
    let c := ringContext ring
    OnlyRegs [c + 0x18, c + 0x30] s { t with flog := s.flog } ∧ t.flog = s.flog ++ [logEntry (ringDie ring) .ringRefused ring 0] ∧
      t.fnState (c + 0x18) = 0 ∧ t.flag (c + 0x18) 2 = true ∧
      (∀ i, t.flag (c + 0x30) i =
        if i = 4 then s.flag (c + 0x30) i || !b else if i = 5 then s.flag (c + 0x30) i || !a else s.flag (c + 0x30) i) := by
  intro c
  have hctrl : regAlias (c + 0x18) = c + 0x18 := regAlias_ringContext hr (by omega)
  have herr : regAlias (c + 0x30) = c + 0x30 := regAlias_ringContext hr (by omega)
  have ho5 := onlyRegs_unless s (c + 0x30) 5 a
  have hf5 := s.flag_unless a herr (i := 5) (by omega)
  generalize (if a then s else s.setFlag (c + 0x30) 5 true) = u at ht ho5 hf5
  have ho4 := onlyRegs_unless u (c + 0x30) 4 b
  have hf4 := u.flag_unless b herr (i := 4) (by omega)
  generalize (if b then u else u.setFlag (c + 0x30) 4 true) = v at ht ho4 hf4
  obtain ⟨ho, hst, -, he, -⟩ := switched_enablingEnd v (c + 0x18) false hctrl
  have hall : OnlyRegs [c + 0x18, c + 0x30] s (v.enablingEnd (c + 0x18) false) :=
    ((ho5.trans ho4).trans ho).mono (by simp)
  subst ht
  refine ⟨?_, ?_, hst, he.trans (by simp), fun i => ?_⟩
  · have hflog : (v.enablingEnd (c + 0x18) false).flog = s.flog := by rw [hall.eq]
    refine ⟨?_, hall.2⟩
    exact (congrArg (fun u : State => { u with flog := s.flog }) hall.1)
  · rw [State.log, show (v.enablingEnd (c + 0x18) false).flog = s.flog by rw [hall.eq]]
  · have hsame : (v.enablingEnd (c + 0x18) false).flag (c + 0x30) i = v.flag (c + 0x30) i := by
      unfold State.flag
      rw [ho.2 _ (by simp [herr])]
    refine hsame.trans ?_
    rw [hf4, hf5]
    by_cases h4 : i = 4
    · simp [h4]
    · simp [h4]

theorem answers_ringEnablingDone (s : State) {ring : Nat} (hr : ring < 4096) (hd : s.dieDown (ringDie ring) = false)
    (hst : s.fnState (ringContext ring + 0x18) = 1) :
    let c := ringContext ring
    Answers (.ringEnablingDone ring) s (fun t =>
      (s.ringSetupOk ring = true ∧ s.ringTargetOk ring = true →
        Switched (c + 0x18) 2 (s.flag (c + 0x18) 3) (s.flag (c + 0x18) 2) s t) ∧
      (¬ (s.ringSetupOk ring = true ∧ s.ringTargetOk ring = true) →
        OnlyRegs [c + 0x18, c + 0x30] s { t with flog := s.flog } ∧
            t.flog = s.flog ++ [logEntry (ringDie ring) .ringRefused ring 0] ∧
        t.fnState (c + 0x18) = 0 ∧ t.flag (c + 0x18) 2 = true ∧
        (t.flag (c + 0x30) 5 = true ↔ (s.flag (c + 0x30) 5 = true ∨ ¬ s.ringSetupOk ring = true)) ∧
        (t.flag (c + 0x30) 4 = true ↔ (s.flag (c + 0x30) 4 = true ∨ ¬ s.ringTargetOk ring = true)) ∧
        ∀ i, i ≠ 4 → i ≠ 5 → t.flag (c + 0x30) i = s.flag (c + 0x30) i)) := by
  intro c
  refine ⟨_, congrArg Host.Outcome.next (if_pos ⟨by rw [ringAddr_ctrl]; exact hst, hd⟩), ?_⟩
  dsimp only
  rw [ringAddr_ctrl, ringAddr_err]
  generalize s.ringSetupOk ring = a
  generalize s.ringTargetOk ring = b
  by_cases hab : (a && b) = true
  · rw [if_pos hab]
    refine ⟨fun _ => ?_, fun h => absurd (by simpa using hab) h⟩
    simpa using switched_enablingEnd s (c + 0x18) true (regAlias_ringContext hr (by omega))
  · rw [if_neg hab]
    refine ⟨fun h => absurd (by simpa using h) hab, fun _ => ?_⟩
    obtain ⟨ho, hlog, hoff, he, hf⟩ := ringEnablingDone_refused s hr a b _ rfl
    refine ⟨ho, hlog, hoff, he, ?_, ?_, fun i h4 h5 => ?_⟩
    · rw [hf]; simp [c]
    · rw [hf]; simp [c]
    · rw [hf, if_neg h4, if_neg h5]

/-! ### What an engine pair clears (R124, R166) -/

theorem cellKey_mem (die ep d e r c h : Nat) (hep : ep < 6) (he : e < 6) (hr : r < 256) (hc : c < 256) (hh : h < 2) :
    (cellKey die ep 0 0 0 ≤ cellKey d e r c h ∧ cellKey d e r c h < cellKey die (ep + 1) 0 0 0) ↔ d = die ∧ e = ep := by
  unfold cellKey
  omega

theorem tbKey_mem (die ep d e b row lane : Nat) (hep : ep < 6) (he : e < 6) (hb : b < 4) (hr : row < 256) (hl : lane < 256) :
    (tbKey die ep 0 0 0 ≤ tbKey d e b row lane ∧ tbKey d e b row lane < tbKey die (ep + 1) 0 0 0) ↔ d = die ∧ e = ep := by
  unfold tbKey tbRowKey
  omega

theorem vrKey_mem (die ep d e r lane : Nat) (hep : ep < 6) (he : e < 6) (hr : r < 33) (hl : lane < 256) :
    (vrKey die ep 0 0 ≤ vrKey d e r lane ∧ vrKey d e r lane < vrKey die (ep + 1) 0 0) ↔ d = die ∧ e = ep := by
  unfold vrKey
  omega

/-- The weight registers after a state in which they were erased. -/
theorem weightsCleared_of_erased {s t : State} {die ep : Nat} (hep : ep < 6) (ha : t.wAct = (s.clearWeights die ep).wAct)
    (hs : t.wShd = (s.clearWeights die ep).wShd) : WeightsCleared die ep s t := by
  intro d e r c h he hr hc hh
  rw [ha, hs, State.clearWeights, lookup_eraseRange, lookup_eraseRange]
  simp only [cellKey_mem die ep d e r c h hep he hr hc hh]
  exact ⟨rfl, rfl⟩

theorem buffersCleared_of_erased {s t : State} {die ep : Nat} (hep : ep < 6) (ht : t.tb = (s.tbClear die ep).tb)
    (hv : t.vr = (s.vrClear die ep).vr) : BuffersCleared die ep s t := by
  refine ⟨fun d e b row lane he hb hr hl => ?_, fun d e r lane he hr hl => ?_⟩
  · rw [ht, State.tbClear, lookup_eraseRange]
    simp only [tbKey_mem die ep d e b row lane hep he hb hr hl]
    rfl
  · rw [hv, State.vrClear, lookup_eraseRange]
    simp only [vrKey_mem die ep d e r lane hep he hr hl]
    rfl

/-- No mark is left on the buffers of an engine pair that are cleared. -/
theorem marks_cleared (s : State) (die ep : Nat) :
    ((((s.clearWeights die ep).tbClear die ep).vrClear die ep).tbMarks.any (fun m => decide (m.row / 1024 = die * 6 + ep)) ||
      (((s.clearWeights die ep).tbClear die ep).vrClear die ep).vrMarks.any
        (fun k => decide (k / (33 * 256) = die * 6 + ep))) = false := by
  simp only [State.vrClear, State.tbClear, setEraseRange, Bool.or_eq_false_iff, List.any_eq_false, List.mem_filter,
    decide_eq_true_eq, tbRowKey, vrKey]
  refine ⟨fun m ⟨_, hm⟩ => ?_, fun k ⟨_, hk⟩ => ?_⟩
  · have := of_decide_eq_true hm
    omega
  · have := of_decide_eq_true hk
    omega

/-- Clearing the buffers and weights of an engine pair leaves every register. -/
theorem OnlyRegs.of_cleared {as : List Nat} {s t : State} {die ep : Nat}
    (h : OnlyRegs as (((s.clearWeights die ep).tbClear die ep).vrClear die ep) t) :
    OnlyRegs as s { t with wAct := s.wAct, wShd := s.wShd, tb := s.tb, tbMarks := s.tbMarks, vr := s.vr, vrMarks := s.vrMarks } := by
  have ht := h.eq
  generalize t.regs = r at ht
  subst ht
  exact ⟨rfl, fun a ha => (h.2 a ha).trans (State.reg_congr rfl a)⟩

/-- With no mark on the buffers of an engine pair its poison bit is clear. -/
theorem flag_vePoisonBit (s : State) {die ep : Nat} (he : ep < 6)
    (hmarks : (s.tbMarks.any (fun m => decide (m.row / 1024 = die * 6 + ep)) ||
      s.vrMarks.any (fun k => decide (k / (33 * 256) = die * 6 + ep))) = false) :
    (s.vePoisonBit die ep).flag (Reg.veStatus die ep) 12 = false := by
  rw [State.vePoisonBit, hmarks]
  exact State.flag_setFlag_same _ _ _ _ (regAlias_veStatus he) (by omega)

/-- ENABLING of an engine pair ends ON with everything cleared (R124, R166). -/
theorem enginePair_cleared (s : State) {die ep : Nat} (he : ep < 6) :
    let c := Reg.maCtrl die ep
    let t := ((((s.clearWeights die ep).tbClear die ep).vrClear die ep).vePoisonBit die ep).enablingEnd c true
    OnlyRegs [c, Reg.veStatus die ep] s
        { t with wAct := s.wAct, wShd := s.wShd, tb := s.tb, tbMarks := s.tbMarks, vr := s.vr, vrMarks := s.vrMarks } ∧
      t.fnState c = 2 ∧ t.flag (Reg.veStatus die ep) 12 = false ∧ WeightsCleared die ep s t ∧ BuffersCleared die ep s t := by
  intro c t
  let v := ((s.clearWeights die ep).tbClear die ep).vrClear die ep
  have hne : Reg.veStatus die ep ≠ c := by simp only [c, Reg.veStatus, Reg.maCtrl]; omega
  obtain ⟨hend, hst, -⟩ := switched_enablingEnd (v.vePoisonBit die ep) c true (regAlias_maCtrl he)
  have hall : OnlyRegs [c, Reg.veStatus die ep] v t :=
    ((onlyRegs_setFlag _ _ _ _).trans hend).mono (fun a ha => by simpa [or_comm] using ha)
  refine ⟨hall.of_cleared, hst.trans (if_pos rfl), ?_, weightsCleared_of_erased he ?_ ?_, buffersCleared_of_erased he ?_ ?_⟩
  · have hsame : t.flag (Reg.veStatus die ep) 12 = (v.vePoisonBit die ep).flag (Reg.veStatus die ep) 12 := by
      unfold State.flag
      rw [hend.2 _ (by simpa [regAlias_veStatus he] using hne)]
    exact hsame.trans (flag_vePoisonBit v he (marks_cleared s die ep))
  all_goals rw [hall.eq]; rfl

/-- An engine pair whose parts is 3 does not leave ENABLING but to OFF (R124). -/
theorem enginePair_refused (s : State) {die ep : Nat} (he : ep < 6) :
    let c := Reg.maCtrl die ep
    let t := (s.setFlag (Reg.maErr die ep) 1 true).enablingEnd c false
    OnlyRegs [Reg.maErr die ep, c] s t ∧ t.flag (Reg.maErr die ep) 1 = true ∧ t.fnState c = 0 ∧ t.flag c 2 = true := by
  intro c t
  have hc : regAlias c = c := regAlias_maCtrl he
  have herr : regAlias (Reg.maErr die ep) = Reg.maErr die ep := regAlias_maErr he
  have hne : Reg.maErr die ep ≠ c := by simp only [c, Reg.maErr, Reg.maCtrl]; omega
  obtain ⟨hend, hst, -, hflag, -⟩ := switched_enablingEnd (s.setFlag (Reg.maErr die ep) 1 true) c false hc
  refine ⟨(onlyRegs_setFlag _ _ _ _).trans hend, ?_, hst, hflag.trans (by simp)⟩
  have hsame : t.flag (Reg.maErr die ep) 1 = (s.setFlag (Reg.maErr die ep) 1 true).flag (Reg.maErr die ep) 1 := by
    unfold State.flag
    rw [hend.2 _ (by simpa [herr] using hne)]
  exact hsame.trans (State.flag_setFlag_same _ _ _ _ herr (by omega))

/-- DISABLING of an engine pair ends with its weights cleared (R166). -/
theorem enginePair_disabled (s : State) {die ep : Nat} (he : ep < 6) :
    let c := Reg.maCtrl die ep
    let t := (s.clearWeights die ep).disablingEnd c
    Switched c 0 (s.flag c 3) (s.flag c 2) s { t with wAct := s.wAct, wShd := s.wShd } ∧ WeightsCleared die ep s t :=
  ⟨switched_disablingEnd s (Reg.maCtrl die ep) (regAlias_maCtrl he), weightsCleared_of_erased he rfl rfl⟩

/-- No descriptor that `p` names is in work. -/
theorem any_inWork_false {s : State} {p : Flight → Bool} (h : ∀ f ∈ s.flights, p f = true → f.inWork = false) :
    s.flights.any (fun f => p f && f.inWork) = false := by
  refine List.any_eq_false.2 fun f hf => ?_
  cases hp : p f
  · simp
  · simp [h f hf hp]

/-- Settles O9: ENABLING of a ring by its checks, the ends of the others by their control registers and what they clear. -/
theorem functionsEndAsR67 : Obligations.FunctionsEndAsR67 := by
  refine ⟨fun s ring hr hd hst => ?_, fun s ring hr hd hnone => ?_, fun s die n _ hn hd => ⟨fun hst => ?_, fun hst hidle => ?_⟩,
    fun s die ep _ he hd => ⟨fun hst hbad => ?_, fun hst hok => ?_, fun hst hidle => ?_⟩⟩
  · simpa only [ringSetupOk_iff, ringTargetOk_iff] using answers_ringEnablingDone s hr hd hst
  · intro c hst
    refine ⟨_, congrArg Host.Outcome.next (if_pos ⟨by rw [ringAddr_ctrl]; exact hst, by rw [hnone]; rfl, hd⟩), ?_⟩
    rw [ringAddr_ctrl]
    exact switched_disablingEnd s c (regAlias_ringContext hr (by omega))
  · refine ⟨_, congrArg Host.Outcome.next (if_pos ⟨hst, hd⟩), ?_⟩
    simpa using switched_enablingEnd s (Reg.mvCtrl die n) true (regAlias_mvCtrl hn)
  · exact ⟨_, congrArg Host.Outcome.next (if_pos ⟨hst, any_inWork_false hidle, hd⟩),
      switched_disablingEnd s (Reg.mvCtrl die n) (regAlias_mvCtrl hn)⟩
  · exact ⟨_, congrArg Host.Outcome.next ((if_pos ⟨hst, hd⟩).trans (if_pos hbad)), enginePair_refused s he⟩
  · exact ⟨_, congrArg Host.Outcome.next ((if_pos ⟨hst, hd⟩).trans (if_neg hok)), enginePair_cleared s he⟩
  · exact ⟨_, congrArg Host.Outcome.next (if_pos ⟨hst, any_inWork_false hidle, hd⟩), enginePair_disabled s he⟩

end Sys2Proof
end

section
/-! SUPPORT. O18: the fields of a completion record (R50). -/

namespace Sys2Proof

open Machine

/-- Settles O18: every field lies below its width, so the sum of R50 is a number written in digits. -/
theorem recordsHaveTheLayoutOfR50 : Obligations.RecordsHaveTheLayoutOfR50 := by
  intro lap rm sat detail member tag stepLo phase status index handle hm ht hs hp hst r bits
  have hd := detail.isLt
  have hi := index.isLt
  have hh := handle.isLt
  have hr := (rm.getD 0).isLt
  have hsat : min sat 0xFFFFFFFF < 2 ^ 32 := by omega
  obtain ⟨l, hl, hl2⟩ : ∃ l, (if lap then 1 else 0) = l ∧ l < 2 := ⟨_, rfl, by split <;> omega⟩
  obtain ⟨v, hv, hv2⟩ : ∃ v, (if rm.isSome then 1 else 0) = v ∧ v < 2 := ⟨_, rfl, by split <;> omega⟩
  have hr' : r = 2 ^ 255 * l + 2 ^ 192 * (rm.getD 0).toNat + 2 ^ 160 * min sat 0xFFFFFFFF + 2 ^ 128 * detail.toNat + 2 ^ 112 * v +
      2 ^ 104 * member + 2 ^ 96 * tag + 2 ^ 80 * stepLo + 2 ^ 72 * phase + 2 ^ 64 * status + 2 ^ 32 * index.toNat + handle.toNat := by
    simp only [r, recordBits, Nat.mod_eq_of_lt hm, Nat.mod_eq_of_lt ht, Nat.mod_eq_of_lt hs, Nat.mod_eq_of_lt hp,
      Nat.mod_eq_of_lt hst, ← hl, ← hv, mul_ite, mul_one, mul_zero]
  simp only [bits, hl, hv, hr']
  clear hl hv hr' bits r
  generalize (rm.getD 0).toNat = a at *
  generalize min sat 0xFFFFFFFF = b at *
  generalize detail.toNat = c at *
  generalize index.toNat = d at *
  generalize handle.toNat = e at *
  omega

end Sys2Proof
end

section
/-! SUPPORT. What accesses to memory leave of a state beside the memory, its coherence and what waits for it (R236, R351-R366). -/

namespace Sys2Proof

open Machine

/-- A state with the memory, its poison, the copies of its lines, the free values and the accesses that wait of another. -/
def Machine.State.withMemoryOf (t s : State) : State :=
  { t with mem := s.mem, poison := s.poison, host := s.host, free := s.free, pcie := s.pcie, answered := s.answered }

/-- Nothing changes but these. -/
def OnlyMemory (s t : State) : Prop := t.withMemoryOf s = s

namespace OnlyMemory

variable {s t u : State}

theorem refl (s : State) : OnlyMemory s s := rfl

theorem trans (h : OnlyMemory s t) (k : OnlyMemory t u) : OnlyMemory s u := by
  have hk : u.withMemoryOf s = t.withMemoryOf s := congrArg (·.withMemoryOf s) k
  exact hk.trans h

theorem ite {c : Prop} [Decidable c] (h : OnlyMemory s t) (k : OnlyMemory s u) : OnlyMemory s (if c then t else u) := by
  split
  · exact h
  · exact k

theorem regs (h : OnlyMemory s t) : t.regs = s.regs := congrArg (·.regs) h
theorem flights (h : OnlyMemory s t) : t.flights = s.flights := congrArg (·.flights) h
theorem nextFid (h : OnlyMemory s t) : t.nextFid = s.nextFid := congrArg (·.nextFid) h
theorem irqQ (h : OnlyMemory s t) : t.irqQ = s.irqQ := congrArg (·.irqQ) h
theorem sigQ (h : OnlyMemory s t) : t.sigQ = s.sigQ := congrArg (·.sigQ) h
theorem reg (h : OnlyMemory s t) (a : Nat) : t.reg a = s.reg a := State.reg_congr h.regs a

variable (s)

theorem unwait (who : Waiter) (line : Nat) : OnlyMemory s (s.unwait who line) := rfl
theorem freeCount : OnlyMemory s s.freeCount.2 := rfl
theorem dropCopy (agent line : Nat) : OnlyMemory s (s.dropCopy agent line) := rfl

theorem putMem (a : Nat) (bs : List Byte) : OnlyMemory s (s.putMem a bs) := rfl
theorem markPoison (line : Nat) : OnlyMemory s (s.markPoison line) := rfl
theorem clearPoison (line : Nat) : OnlyMemory s (s.clearPoison line) := rfl

theorem invalidate (line : Nat) : OnlyMemory s (s.invalidate line) := by
  unfold State.invalidate
  split <;> rfl

theorem filterRoom (home : Nat) : OnlyMemory s (s.filterRoom home) :=
  .ite (.refl s) (.trans (.freeCount s) (.invalidate _ _))

theorem setHost (host : HostSt) : OnlyMemory s { s with host := host } := rfl

theorem writeBack (c : Copy) : OnlyMemory s (s.writeBack c) := .ite ((putMem s _ _).trans (.clearPoison _ _)) (.refl s)

theorem releaseCopy (c : Copy) : OnlyMemory s (s.releaseCopy c) :=
  (writeBack s c).trans (.trans (.dropCopy _ _ _) (.trans (.setHost _ _) (.trans (.setHost _ _) (.setHost _ _))))

theorem cacheRoom (agent : Nat) : OnlyMemory s (s.cacheRoom agent) := by
  unfold State.cacheRoom
  dsimp only [State.freeCount]
  split
  · rfl
  split
  · split
    · exact (freeCount s).trans (.invalidate _ _)
    · exact (freeCount s).trans (.releaseCopy _ _)
  · rfl

theorem placeShared (agent line : Nat) : OnlyMemory s (s.placeShared agent line) := by
  have h : OnlyMemory s (if isHostMem (64 * line) && s.host.filter.all (fun e => decide (e.line ≠ line)) then
      { s.filterRoom (ownerDie (64 * line)) with host :=
        { (s.filterRoom (ownerDie (64 * line))).host with
          filter := (s.filterRoom (ownerDie (64 * line))).host.filter ++ [⟨line, none⟩] } } else s) :=
    .ite (.trans (.filterRoom s _) rfl) (.refl s)
  exact .ite h (h.trans (.trans (.cacheRoom _ _) rfl))

theorem shareCopies (line : Nat) : OnlyMemory s (s.shareCopies line) := by
  refine .ite ?_ (.refl s)
  split <;> rfl

theorem writeLine (a : Nat) (bs : List Byte) (mark : Bool) : OnlyMemory s (s.writeLine a bs mark).1 := by
  have h := (OnlyMemory.invalidate s (a / 64)).trans (.putMem _ a bs)
  unfold State.writeLine
  dsimp only
  split_ifs
  · exact h.trans (.markPoison _ _)
  · exact h.trans (.clearPoison _ _)
  · exact .invalidate s (a / 64)
  · exact h.trans (.markPoison _ _)
  · exact h

theorem writeRun (a : Nat) (bs : List Byte) (mark : Bool) (fuel : Nat) : OnlyMemory s (s.writeRun a bs mark fuel).1 := by
  induction fuel generalizing s a bs with
  | zero => rfl
  | succ n ih =>
    cases bs with
    | nil => rfl
    | cons b bs => exact (OnlyMemory.writeLine s _ _ _).trans (ih _ _ _)

theorem write (a : Nat) (bs : List Byte) (mark : Bool) : OnlyMemory s (s.write a bs mark).1 := .writeRun s _ _ _ _

end OnlyMemory

/-- A die controller's read of a line changes only how the line is held. -/
theorem onlyMemory_of_dcRead {s u : State} {die a n : Nat} {bs : List Byte} (h : s.dcRead die a n = .data u bs) : OnlyMemory s u := by
  unfold State.dcRead at h
  split at h
  · cases h
  split at h
  · cases h
  split at h
  · cases h
  split at h
  · cases h
  · cases h
    exact .trans (.ite (.trans (.shareCopies s _) (.placeShared _ _ _)) (.shareCopies s _)) (.unwait _ _ _)

end Sys2Proof
end

section
/-! SUPPORT. O11, O12: fetching a descriptor and its faults (R37, R465), and a record that cannot be written (R466). -/

namespace Sys2Proof

open Machine

/-! ### A ring's slot, its interrupt and its halt -/

/-- The address of a ring's next slot (R32 note 1). -/
def Machine.State.fetchAddr (s : State) (ring : Nat) : Nat :=
  s.ringDescBase ring + 64 * ((s.ringReg Reg.dcRingCons ring).toNat % 2 ^ s.ringLog2 ring)

theorem Machine.State.fetchAddr_eq (s : State) (ring : Nat) :
    s.fetchAddr ring = 2 ^ 32 * s.fld (ringContext ring + 0x04) 15 0 + 64 * ((s.reg (ringContext ring)).toNat / 64) +
      64 * ((s.reg (ringContext ring + 0x24)).toNat % 2 ^ s.fld (ringContext ring + 0x08) 4 0) := by
  unfold State.fetchAddr State.ringDescBase State.ringLog2 ringBase State.fld
  simp only [State.ringReg_eq, ringAddr_baseLo, ringAddr_baseHi, ringAddr_size, ringAddr_cons]

/-- The interrupt a ring sends when its irq_en is 1. -/
def ringIrqs (s : State) (ring : Nat) : List (Nat × BitVec 24) :=
  if s.flag (ringContext ring + 0x18) 11 = true then
    [(ringDie ring, BitVec.ofNat 24 (s.fld (ringContext ring + 0x1C) 23 0))] else []

theorem Machine.State.ringIrq_eq (s : State) (ring : Nat) : s.ringIrq ring = { s with irqQ := s.irqQ ++ ringIrqs s ring } := by
  unfold State.ringIrq ringIrqs
  rw [State.ringReg_eq, ringAddr_ctrl, ringAddr_irq]
  split
  · rfl
  · rw [List.append_nil]

/-- What a ring's interrupt depends on. -/
theorem ringIrqs_congr {s t : State} {ring : Nat} (hc : t.flag (ringContext ring + 0x18) 11 = s.flag (ringContext ring + 0x18) 11)
    (hi : t.reg (ringContext ring + 0x1C) = s.reg (ringContext ring + 0x1C)) : ringIrqs t ring = ringIrqs s ring := by
  unfold ringIrqs State.fld
  rw [hc, hi]

theorem Machine.State.flag_of_reg_or {s t : State} {a i j : Nat} (h : t.reg a = s.reg a ||| BitVec.twoPow 32 i) (hij : i ≠ j) :
    t.flag a j = s.flag a j := by
  unfold State.flag
  rw [h, BitVec.getLsbD_or, BitVec.getLsbD_twoPow]
  simp [hij]

/-- A ring halted with a bit of its error register set. -/
theorem halt_setErr (s : State) {ring i : Nat} (hr : ring < 4096) (hi : i < 32) :
    let c := ringContext ring
    let t := (s.halt ring).setFlag (ringAddr Reg.dcRingErr ring) i true
    OnlyRegs [c + 0x18, c + 0x30] s t ∧ t.reg (c + 0x18) = s.reg (c + 0x18) ||| 0x200 ∧
      t.reg (c + 0x30) = s.reg (c + 0x30) ||| BitVec.twoPow 32 i := by
  intro c t
  have h18 : regAlias (c + 0x18) = c + 0x18 := regAlias_ringContext hr (by omega)
  have h30 : regAlias (c + 0x30) = c + 0x30 := regAlias_ringContext hr (by omega)
  have ht : t = (s.setFlag (c + 0x18) 9 true).setFlag (c + 0x30) i true := by
    simp only [t, State.halt, ringAddr_ctrl, ringAddr_err, c]
  rw [ht]
  refine ⟨(onlyRegs_setFlag _ _ _ _).trans (onlyRegs_setFlag _ _ _ _), ?_, ?_⟩
  · rw [(onlyRegs_setFlag _ _ _ _).2 _ (by simp [h18]), State.reg_setFlag_true _ h18 (by omega)]
    rfl
  · rw [State.reg_setFlag_true _ h30 hi, (onlyRegs_setFlag _ _ _ _).2 _ (by simp [h30])]

/-! ### Fetching (R37, R465) -/

theorem fetch_data {s u : State} {ring : Nat} {bs : List Byte} (h : s.dcRead (ringDie ring) (s.fetchAddr ring) 64 = .data u bs) :
    s.fetch ring =
      let f := u.newFlight ring (BitVec.ofNat 512 (leNat bs))
      let t := { u with flights := u.flights ++ [f], nextFid := u.nextFid + 1 }
      let t := t.setReg (ringAddr Reg.dcRingCons ring) (s.ringReg Reg.dcRingCons ring + 1)
      if t.stepAborted (ringDie ring) f.desc then t.abort f else t := by
  unfold State.fetch
  unfold State.fetchAddr at h
  simp only [h]

theorem fetch_bad {s : State} {ring status : Nat} (h : s.dcRead (ringDie ring) (s.fetchAddr ring) 64 = .bad status) :
    s.fetch ring = (s.unwait (.controller (ringDie ring)) (s.fetchAddr ring / 64)).fetchFault ring (s.fetchAddr ring) status := by
  unfold State.fetch
  unfold State.fetchAddr at h
  simp only [h]
  rfl

/-- Below the diagnostics block of die 98 every register stands at its own address. -/
theorem regAlias_setupBase_of_lt {die off : Nat} (hd : die < 98) (ho : off < 0x1000000) :
    regAlias (Reg.setupBase die + off) = Reg.setupBase die + off := by
  refine regAlias_eq _ ?_
  have h40 : Reg.tdDie 40 = Reg.setupBase 98 + 0x1A0 := rfl
  rw [h40]
  unfold Reg.setupBase
  omega

theorem dcAbort_ne_cons {ring : Nat} (hr : ring < 4096) : regAlias (Reg.dcAbort (ringDie ring)) ≠ ringContext ring + 0x24 := by
  obtain ⟨hd, -, -⟩ := ringLocal_lt_ringsOn hr
  rw [Reg.dcAbort, regAlias_setupBase_of_lt hd (by omega), ringContext_add]
  omega

/-- Aborting the descriptor fetched last, whose number is new. -/
theorem flights_abort_last {s : State} {fs : List Flight} {f : Flight} (hs : s.flights = fs ++ [f])
    (hnew : ∀ g ∈ fs, g.fid ≠ f.fid) : (s.abort f).flights = fs ++ [Ended f 0x50 0] := by
  have h : fs.map (fun g => if g.fid = f.fid then Ended f 0x50 0 else g) = fs := by
    refine (List.map_congr_left fun g hg => ?_).trans (List.map_id fs)
    exact if_neg (hnew g hg)
  calc (s.abort f).flights = s.flights.map (fun g => if g.fid = f.fid then Ended f 0x50 0 else g) := rfl
    _ = fs ++ [Ended f 0x50 0] := by rw [hs, List.map_append, h]; simp

/-- A ring that is not ON, is halted or has no covered index may not fetch. -/
theorem mayFetch_false {s : State} {ring : Nat} (h : s.fnState (ringContext ring + 0x18) ≠ 2 ∨ s.flag (ringContext ring + 0x18) 9 = true ∨
    (s.reg (ringContext ring + 0x20) - s.reg (ringContext ring + 0x24)).toNat = 0 ∨
    2 ^ 31 ≤ (s.reg (ringContext ring + 0x20) - s.reg (ringContext ring + 0x24)).toNat) : s.mayFetch ring = false := by
  unfold State.mayFetch sub32
  simp only [State.ringReg_eq, ringAddr_ctrl, ringAddr_prod, ringAddr_cons, halfRange_eq]
  rcases h with h | h | h | h
  · simp [h]
  · simp [h]
  · rw [decide_eq_false (by omega : ¬ (_ ∧ _))]; simp
  · rw [decide_eq_false (by omega : ¬ (_ ∧ _))]; simp

/-- A fetch whose read meets no fault (R37). -/
theorem answers_fetch {s u : State} {ring : Nat} {bs : List Byte} (hr : ring < 4096) (hmay : s.mayFetch ring = true)
    (hread : s.dcRead (ringDie ring) (s.fetchAddr ring) 64 = .data u bs) (hnum : ∀ g ∈ s.flights, g.fid < s.nextFid) :
    Answers (.descriptorFetch ring) s (fun t => ∃ f : Flight,
      f.fid = s.nextFid ∧ f.ring = ring ∧ f.index = s.reg (ringContext ring + 0x24) ∧ f.desc = BitVec.ofNat 512 (leNat bs) ∧
      f.target = s.reg (ringContext ring + 0x0C) ∧ f.parent = none ∧
      t.flights = s.flights ++ [if s.stepAborted (ringDie ring) f.desc = true then Ended f 0x50 0 else f] ∧ f.phase = .waiting ∧
      t.nextFid = s.nextFid + 1 ∧ t.reg (ringContext ring + 0x24) = s.reg (ringContext ring + 0x24) + 1 ∧
      ∀ a, regAlias a ≠ ringContext ring + 0x24 → t.reg a = s.reg a) := by
  have hu := onlyMemory_of_dcRead hread
  let f := u.newFlight ring (BitVec.ofNat 512 (leNat bs))
  let v := { u with flights := u.flights ++ [f], nextFid := u.nextFid + 1 }.setReg (ringContext ring + 0x24)
    (s.reg (ringContext ring + 0x24) + 1)
  have hv : OnlyRegs [ringContext ring + 0x24] { u with flights := u.flights ++ [f], nextFid := u.nextFid + 1 } v :=
    onlyRegs_setReg _ _ _
  have hother : ∀ a, regAlias a ≠ ringContext ring + 0x24 → v.reg a = s.reg a := fun a ha =>
    (hv.2 a (by simpa using ha)).trans (hu.reg a)
  have habort : v.stepAborted (ringDie ring) f.desc = s.stepAborted (ringDie ring) f.desc := by
    unfold State.stepAborted State.flag State.fld
    rw [hother _ (dcAbort_ne_cons hr)]
  have hcons : v.reg (ringContext ring + 0x24) = s.reg (ringContext ring + 0x24) + 1 :=
    State.reg_setReg_same _ _ _ (regAlias_ringContext hr (by omega))
  refine ⟨if v.stepAborted (ringDie ring) f.desc then v.abort f else v, ?_, f, hu.nextFid, rfl, ?_, rfl, ?_, rfl, ?_, rfl, ?_⟩
  · refine congrArg Host.Outcome.next ((if_pos hmay).trans ((fetch_data hread).trans ?_))
    simp only [v, f, State.ringReg_eq, ringAddr_cons]
  · exact (hu.reg _).trans (congrArg s.reg (ringAddr_cons ring))
  · exact (hu.reg _).trans (congrArg s.reg (ringAddr_target ring))
  · rw [habort]
    split
    · exact flights_abort_last (congrArg (· ++ [f]) hu.flights) fun g hg =>
        ((hnum g hg).trans_eq hu.nextFid.symm).ne
    · exact congrArg (· ++ [f]) hu.flights
  · rw [habort]
    have hn : v.nextFid = s.nextFid + 1 := congrArg (· + 1) hu.nextFid
    split <;> exact ⟨hn, hcons, hother⟩

/-- Settles O11: a fetch reads the slot, adds the descriptor and counts it; the read itself touches only how the line is held. -/
theorem fetchFollowsR37 : Obligations.FetchFollowsR37 := by
  intro s ring hr c cons ahead slot
  have hslot : slot = s.fetchAddr ring := (s.fetchAddr_eq ring).symm
  refine ⟨fun h => ⟨s, congrArg Host.Outcome.next (if_neg (by simp [mayFetch_false h])), rfl⟩, fun u bs hmay hread hnum => ?_⟩
  rw [hslot] at hread
  exact answers_fetch hr hmay hread hnum

/-! ### Faults (R465, R466) -/

/-- A fetch whose read meets a fault (R465). -/
theorem fetchFault_spec (s : State) {ring : Nat} (hr : ring < 4096) (a status line : Nat) :
    let c := ringContext ring
    let t := (s.unwait (.controller (ringDie ring)) line).fetchFault ring a status
    OnlyRegs [c + 0x18, c + 0x30] s { t with flog := s.flog, irqQ := s.irqQ, pcie := s.pcie, answered := s.answered } ∧
      t.pcie = { s.pcie with waiters := t.pcie.waiters, exempt := t.pcie.exempt } ∧
      t.reg (c + 0x18) = s.reg (c + 0x18) ||| 0x200 ∧ t.reg (c + 0x30) = s.reg (c + 0x30) ||| 0x40 ∧
      t.flog = s.flog ++ [logEntry (ringDie ring) (.fetchFault status) a (s.reg (c + 0x24)).toNat (.controller (ringDie ring)) .read] ∧
      t.irqQ = s.irqQ ++ ringIrqs s ring := by
  intro c t
  let u := s.unwait (.controller (ringDie ring)) line
  let v := (u.halt ring).setFlag (ringAddr Reg.dcRingErr ring) 6 true
  obtain ⟨honly, hctrl, herr⟩ := halt_setErr u (i := 6) hr (by omega)
  have hcons : v.ringReg Reg.dcRingCons ring = s.reg (c + 0x24) := by
    rw [State.ringReg_eq, ringAddr_cons]
    refine honly.2 _ ?_
    rw [regAlias_ringContext hr (by omega)]
    simp
  have ht : t = { v with
      flog := v.flog ++ [logEntry (ringDie ring) (.fetchFault status) a (s.reg (c + 0x24)).toNat (.controller (ringDie ring)) .read],
      irqQ := v.irqQ ++ ringIrqs v ring } := by
    rw [← hcons]
    exact State.ringIrq_eq _ _
  have hirq : ringIrqs v ring = ringIrqs s ring := by
    refine ringIrqs_congr (State.flag_of_reg_or (i := 9) hctrl (by omega)) (honly.2 _ ?_)
    rw [regAlias_ringContext hr (by omega)]
    simp
  have hv : v = { u with regs := v.regs } := honly.eq
  rw [ht, hirq]
  refine ⟨⟨?_, honly.2⟩, ?_, hctrl, herr, ?_, ?_⟩
  all_goals rw [hv]; rfl

theorem due_ne_zero {f : Flight} (h : f.due = true) : dCmpl f.desc ≠ 0 := fun h0 => by simp [Flight.due, recordDue, h0] at h

/-- The only descriptor of a ring, completed with a record due, is the one whose record comes next. -/
theorem nextRecord_single {s : State} {f : Flight} (h : s.ringFlights f.ring = [f]) (hdue : f.due = true) :
    s.nextRecord f.ring = some f := by
  simp [State.nextRecord, h, Flight.records, due_ne_zero hdue, hdue]

/-- A ring whose only descriptor leaves holds none. -/
theorem ringFlights_dropFlight {s : State} {f : Flight} (h : s.ringFlights f.ring = [f]) :
    (s.dropFlight f.fid).ringFlights f.ring = [] := by
  refine List.filter_eq_nil_iff.2 fun g hg hp => ?_
  obtain ⟨hg, hne⟩ := List.mem_filter.1 hg
  have hmem : g ∈ s.ringFlights f.ring := List.mem_filter.2 ⟨hg, hp⟩
  rw [h, List.mem_singleton] at hmem
  simp [hmem] at hne

/-- A ring without descriptors has no record to write. -/
theorem drainRecords_nil {s : State} {ring : Nat} (h : s.ringFlights ring = []) : s.drainRecords ring = s := by
  simp [State.drainRecords, State.dropSilent, h, State.writeRecords]

/-- The ring's only descriptor leaves as its record counts as written. -/
theorem drainRecords_advanceRecord {s : State} {f : Flight} (h : s.ringFlights f.ring = [f]) :
    (s.advanceRecord f).drainRecords f.ring = s.advanceRecord f := drainRecords_nil (ringFlights_dropFlight h)

/-- A record of a ring's only descriptor that cannot be written (R466). -/
theorem recordLost_spec (s : State) {f : Flight} (hr : f.ring < 4096) (hone : s.ringFlights f.ring = [f]) :
    let c := ringContext f.ring
    let t := s.recordLost f
    OnlyRegs [c + 0x18, c + 0x28, c + 0x30] s
        { t with flights := s.flights, flog := s.flog, irqQ := s.irqQ, pcie := s.pcie, answered := s.answered } ∧
      t.pcie = { s.pcie with waiters := t.pcie.waiters, exempt := t.pcie.exempt } ∧
      t.reg (c + 0x28) = s.reg (c + 0x28) + 1 ∧ t.reg (c + 0x30) = s.reg (c + 0x30) ||| 0x80 ∧
      t.reg (c + 0x18) = s.reg (c + 0x18) ||| 0x200 ∧
      t.flog = s.flog ++ [logEntry (ringDie f.ring) .cplFault f.index.toNat f.res.status.toNat (.desc f.fid) .write] ∧
      t.flights = s.flights.filter (fun g => g.fid != f.fid) ∧ t.irqQ = s.irqQ ++ ringIrqs s f.ring := by
  intro c t
  have h18 : regAlias (c + 0x18) = c + 0x18 := regAlias_ringContext hr (by omega)
  have h28 : regAlias (c + 0x28) = c + 0x28 := regAlias_ringContext hr (by omega)
  have h30 : regAlias (c + 0x30) = c + 0x30 := regAlias_ringContext hr (by omega)
  have h1C : regAlias (c + 0x1C) = c + 0x1C := regAlias_ringContext hr (by omega)
  let e := s.setFlag (c + 0x30) 7 true
  let l := { e with
    flog := e.flog ++ [logEntry (ringDie f.ring) .cplFault f.index.toNat f.res.status.toNat (.desc f.fid) .write],
    irqQ := e.irqQ ++ ringIrqs s f.ring }
  let u := l.unwait (.controller (ringDie f.ring)) (e.recordAddr f.ring / 64)
  let v := (u.setFlag (c + 0x18) 9 true).setReg (c + 0x28) ((u.setFlag (c + 0x18) 9 true).reg (c + 0x28) + 1)
  have he : OnlyRegs [c + 0x30] s e := onlyRegs_setFlag _ _ _ _
  have hv : OnlyRegs [c + 0x18, c + 0x28] u v := (onlyRegs_setFlag _ _ _ _).trans (onlyRegs_setReg _ _ _)
  have hirq : ringIrqs e f.ring = ringIrqs s f.ring :=
    ringIrqs_congr (congrArg (·.getLsbD 11) (he.2 _ (by rw [h18]; simp))) (he.2 _ (by rw [h1C]; simp))
  let w := (e.log (ringDie f.ring) .cplFault f.index.toNat f.res.status.toNat (.desc f.fid) .write).unwait
    (.controller (ringDie f.ring)) (e.recordAddr f.ring / 64)
  have hw : w.ringIrq f.ring = u := (State.ringIrq_eq w f.ring).trans (congrArg (fun l => { w with irqQ := e.irqQ ++ l }) hirq)
  have ht : t = v.dropFlight f.fid := by
    have hlost : t = (((w.ringIrq f.ring).halt f.ring).advanceRecord f).drainRecords f.ring := by
      simp only [t, w, e, c, ← ringAddr_err]
      rfl
    have hleft : (((w.ringIrq f.ring).halt f.ring).advanceRecord f).drainRecords f.ring =
        ((w.ringIrq f.ring).halt f.ring).advanceRecord f := by
      rw [hw]
      exact drainRecords_advanceRecord (s := u.halt f.ring) hone
    rw [hlost, hleft, hw]
    simp only [State.halt, State.advanceRecord, State.ringReg_eq, ringAddr_ctrl, ringAddr_cplWr, v, c]
  rw [ht]
  refine ⟨⟨?_, fun a ha => ?_⟩, ?_, ?_, ?_, ?_, ?_, ?_, ?_⟩
  · rfl
  · rw [List.mem_cons, List.mem_cons, List.mem_singleton, not_or, not_or] at ha
    exact (hv.2 a (by simp [ha])).trans (he.2 a (by simp [ha]))
  · rfl
  · refine (State.reg_setReg_same _ _ _ h28).trans (congrArg (· + 1) ?_)
    refine ((onlyRegs_setFlag u (c + 0x18) 9 true).2 _ (by simp [h28])).trans (he.2 _ (by simp [h28]))
  · refine (hv.2 _ (by simp [h30])).trans ?_
    exact State.reg_setFlag_true s h30 (by omega)
  · refine ((onlyRegs_setReg _ _ _).2 _ (by simp [h18])).trans ?_
    refine (State.reg_setFlag_true u h18 (by omega)).trans (congrArg (· ||| 0x200#32) ?_)
    exact he.2 _ (by simp [h18])
  · rfl
  · rfl
  · rfl

/-- Settles O12: what a fetch fault and a lost record leave, read off the ring's registers one by one. -/
theorem ringFaultsFollowR465 : Obligations.RingFaultsFollowR465 := by
  refine ⟨fun s ring status hr => ?_, fun s f hr hfl hph hone hdue hfault => ?_⟩
  · intro c cons slot hmay hread
    have hslot : slot = s.fetchAddr ring := (s.fetchAddr_eq ring).symm
    rw [hslot] at hread ⊢
    exact ⟨_, congrArg Host.Outcome.next ((if_pos hmay).trans (fetch_bad hread)), fetchFault_spec s hr _ status _⟩
  · intro c
    refine ⟨_, congrArg Host.Outcome.next ?_, recordLost_spec s hr hone⟩
    have hnext : s.nextRecord f.ring = some f := nextRecord_single hone hdue
    simp [hfl, Flight.completed, hph, Flight.due, hdue, hnext, hfault]

end Sys2Proof
end

section
/-! SUPPORT. The descriptors of a state after one is set or leaves. -/

namespace Sys2Proof.Machine

section
variable {s : State} {f g : Flight}

theorem State.flight_setFlight_other {i : Nat} (h : i ≠ f.fid) : (s.setFlight f).flight i = s.flight i := by
  unfold State.flight State.setFlight
  generalize s.flights = fs
  induction fs with
  | nil => rfl
  | cons x fs ih =>
    rw [List.map_cons, List.find?_cons, List.find?_cons, ih]
    by_cases hx : x.fid = f.fid
    · rw [if_pos hx, decide_eq_false (by omega : ¬ f.fid = i), decide_eq_false (by omega : ¬ x.fid = i)]
    · rw [if_neg hx]

theorem State.flight_setFlight_same (h : s.flight f.fid = some g) : (s.setFlight f).flight f.fid = some f := by
  unfold State.flight State.setFlight at *
  generalize s.flights = fs at h
  induction fs with
  | nil => simp at h
  | cons x fs ih =>
    rw [List.map_cons, List.find?_cons]
    by_cases hx : x.fid = f.fid
    · rw [if_pos hx, decide_eq_true rfl]
    · rw [List.find?_cons, decide_eq_false hx] at h
      rw [if_neg hx, decide_eq_false hx]
      exact ih h

theorem State.map_fid_setFlight : (s.setFlight f).flights.map (·.fid) = s.flights.map (·.fid) := by
  unfold State.setFlight
  rw [List.map_map]
  refine List.map_congr_left fun x _ => ?_
  by_cases h : x.fid = f.fid <;> simp [h]

/-- Setting a descriptor that is there. -/
theorem State.flightSet_setFlight (h : s.flight f.fid = some g) : FlightSet f s (s.setFlight f) :=
  ⟨rfl, State.map_fid_setFlight, State.flight_setFlight_same h, fun _ => State.flight_setFlight_other⟩

/-- A descriptor that ends without having touched anything. -/
theorem State.flightSet_finishWith (h : s.flight f.fid = some f) (status : Nat) (detail : Word) :
    FlightSet (Ended f (BitVec.ofNat 8 status) detail) s (s.finishWith f status detail) :=
  State.flightSet_setFlight (f := Ended f (BitVec.ofNat 8 status) detail) h

theorem State.flightSet_abort (h : s.flight f.fid = some f) : FlightSet (Ended f 0x50 0) s (s.abort f) :=
  State.flightSet_finishWith h stStepAborted 0

theorem State.flight_dropFlight_same (i : Nat) : (s.dropFlight i).flight i = none :=
  List.find?_eq_none.2 fun x hx => by simpa using (List.mem_filter.1 hx).2

theorem State.flight_dropFlight_other {i j : Nat} (h : j ≠ i) : (s.dropFlight i).flight j = s.flight j := by
  unfold State.flight State.dropFlight
  rw [List.find?_filter]
  refine congrArg (fun p => s.flights.find? p) (funext fun x => ?_)
  by_cases hx : x.fid = j
  · simp [hx, h]
  · simp [hx]

end

end Sys2Proof.Machine
end

section
/-! SUPPORT. O22: reports of a gang's members and their combination (R63, R64). -/

namespace Sys2Proof

open Machine

/-! ### The lowest faulting member -/

/-- Of a report kept so far and a further one, the one that faults with the lower member. -/
def lowerFault (a : Option Report) (r : Report) : Option Report :=
  if isFault r.res.status.toNat then
    match a with
    | none => some r
    | some b => if r.member < b.member then some r else a
  else a

theorem firstFault_eq (rs : List Report) : firstFault rs = rs.foldl lowerFault none := rfl

theorem lowerFault_none {a : Option Report} {r : Report} :
    lowerFault a r = none ↔ a = none ∧ isFault r.res.status.toNat = false := by
  unfold lowerFault
  cases a <;> split <;> simp_all
  split <;> simp

theorem lowerFault_some {a : Option Report} {r m : Report} (h : lowerFault a r = some m) :
    (a = some m ∨ m = r ∧ isFault r.res.status.toNat = true) ∧ (∀ b, a = some b → m.member ≤ b.member) ∧
      (isFault r.res.status.toNat = true → m.member ≤ r.member) := by
  unfold lowerFault at h
  cases a with
  | none =>
    split at h
    · obtain rfl : r = m := by simpa using h
      simp_all
    · cases h
  | some b =>
    split at h
    · dsimp only at h
      split at h
      · obtain rfl : r = m := by simpa using h
        simp_all [Nat.le_of_lt]
      · obtain rfl : b = m := by simpa using h
        simp_all
    · obtain rfl : b = m := by simpa using h
      simp_all

theorem foldl_lowerFault_none (rs : List Report) (a : Option Report) :
    rs.foldl lowerFault a = none ↔ a = none ∧ ∀ r ∈ rs, isFault r.res.status.toNat = false := by
  induction rs generalizing a with
  | nil => simp
  | cons r rs ih => rw [List.foldl_cons, ih, lowerFault_none, List.forall_mem_cons, and_assoc]

theorem foldl_lowerFault_some {rs : List Report} {a : Option Report} {m : Report} (h : rs.foldl lowerFault a = some m) :
    (a = some m ∨ m ∈ rs ∧ isFault m.res.status.toNat = true) ∧ (∀ b, a = some b → m.member ≤ b.member) ∧
      ∀ q ∈ rs, isFault q.res.status.toNat = true → m.member ≤ q.member := by
  induction rs generalizing a with
  | nil => simp_all
  | cons r rs ih =>
    obtain ⟨hfrom, hle, hall⟩ := ih h
    cases hb : lowerFault a r with
    | none =>
      obtain ⟨rfl, hr⟩ := lowerFault_none.1 hb
      simp_all
    | some b =>
      obtain ⟨hbfrom, hble, hbr⟩ := lowerFault_some hb
      have hmb := hle b hb
      refine ⟨?_, fun c hc => hmb.trans (hble c hc), fun q hq hf => ?_⟩
      · rcases hfrom with hm | ⟨hm, hf⟩
        · obtain rfl : b = m := by simpa [hb] using hm
          rcases hbfrom with ha | ⟨rfl, hf⟩
          · exact .inl ha
          · exact .inr ⟨by simp, hf⟩
        · exact .inr ⟨by simp [hm], hf⟩
      · rcases List.mem_cons.1 hq with rfl | hq
        · exact hmb.trans (hbr hf)
        · exact hall q hq hf

theorem firstFault_none (rs : List Report) : firstFault rs = none ↔ ∀ r ∈ rs, r.res.status.toNat < 0x10 := by
  rw [firstFault_eq, foldl_lowerFault_none]
  simp [isFault]

theorem firstFault_some {rs : List Report} {m : Report} (h : firstFault rs = some m) :
    m ∈ rs ∧ 0x10 ≤ m.res.status.toNat ∧ ∀ q ∈ rs, 0x10 ≤ q.res.status.toNat → m.member ≤ q.member := by
  obtain ⟨hfrom, -, hall⟩ := foldl_lowerFault_some h
  simp only [isFault, decide_eq_true_eq] at hfrom hall
  exact ⟨(hfrom.resolve_left nofun).1, (hfrom.resolve_left nofun).2, hall⟩

/-! ### The largest of the members' maxima (R88) -/

theorem rmJoin_none {a b : Option Word} : rmJoin a b = none ↔ a = none ∧ b = none := by cases a <;> cases b <;> simp [rmJoin]

/-- Of two codes without a sign and not NaN, a join takes one, which is not smaller than the other. -/
theorem rmJoin_some {a b : Option Word} {m : Word} (ha : ∀ x, a = some x → x.toNat ≤ 0x7F800000)
    (hb : ∀ x, b = some x → x.toNat ≤ 0x7F800000) (h : rmJoin a b = some m) :
    (a = some m ∨ b = some m) ∧ (∀ x, a = some x → x.toNat ≤ m.toNat) ∧ ∀ x, b = some x → x.toNat ≤ m.toNat := by
  match a, b with
  | none, none => cases h
  | none, some y => obtain rfl : y = m := by simpa [rmJoin] using h
                    simp
  | some x, none => obtain rfl : x = m := by simpa [rmJoin] using h
                    simp
  | some x, some y =>
    have hx := ha x rfl
    have hy := hb y rfl
    have hmx : fpMag x = x.toNat := Nat.mod_eq_of_lt (by omega)
    have hmy : fpMag y = y.toNat := Nat.mod_eq_of_lt (by omega)
    have hy' : fpAbs y = y := by
      refine BitVec.eq_of_toNat_eq ?_
      rw [fpAbs, BitVec.toNat_and]
      exact (Nat.and_two_pow_sub_one_eq_mod y.toNat 31).trans (Nat.mod_eq_of_lt (by omega))
    have hm : (if x.toNat < y.toNat then y else x) = m := by
      have hnan : fpIsNaN y = false := by simp [fpIsNaN, hmy, hy]
      simpa [rmJoin, rmStep, hnan, hmx, hmy, hy'] using h
    split at hm
    · subst hm
      simp; omega
    · subst hm
      simp; omega

theorem foldl_rmJoin_none (rs : List Report) (a : Option Word) :
    rs.foldl (fun a r => rmJoin a r.res.runMax) a = none ↔ a = none ∧ ∀ r ∈ rs, r.res.runMax = none := by
  induction rs generalizing a with
  | nil => simp
  | cons r rs ih => rw [List.foldl_cons, ih, rmJoin_none, List.forall_mem_cons, and_assoc]

theorem foldl_rmJoin_some {rs : List Report} {a : Option Word} {m : Word} (ha : ∀ x, a = some x → x.toNat ≤ 0x7F800000)
    (hrs : ∀ r ∈ rs, ∀ x, r.res.runMax = some x → x.toNat ≤ 0x7F800000)
    (h : rs.foldl (fun a r => rmJoin a r.res.runMax) a = some m) :
    (a = some m ∨ ∃ r ∈ rs, r.res.runMax = some m) ∧ (∀ x, a = some x → x.toNat ≤ m.toNat) ∧
      ∀ r ∈ rs, ∀ x, r.res.runMax = some x → x.toNat ≤ m.toNat := by
  induction rs generalizing a with
  | nil => simp_all
  | cons r rs ih =>
    rw [List.forall_mem_cons] at hrs
    have hjoin : ∀ y, rmJoin a r.res.runMax = some y → y.toNat ≤ 0x7F800000 := fun y hy =>
      (rmJoin_some ha hrs.1 hy).1.elim (ha y) (hrs.1 y)
    obtain ⟨hfrom, hle, hall⟩ := ih hjoin hrs.2 h
    have hboth : (∀ x, a = some x → x.toNat ≤ m.toNat) ∧ ∀ x, r.res.runMax = some x → x.toNat ≤ m.toNat := by
      cases hy : rmJoin a r.res.runMax with
      | none =>
        obtain ⟨rfl, hr⟩ := rmJoin_none.1 hy
        simp [hr]
      | some y =>
        obtain ⟨-, hay, hry⟩ := rmJoin_some ha hrs.1 hy
        exact ⟨fun x hx => (hay x hx).trans (hle y hy), fun x hx => (hry x hx).trans (hle y hy)⟩
    refine ⟨?_, hboth.1, List.forall_mem_cons.2 ⟨hboth.2, hall⟩⟩
    rcases hfrom with hj | ⟨q, hq, hqm⟩
    · rcases (rmJoin_some ha hrs.1 hj).1 with h1 | h1
      · exact .inl h1
      · exact .inr ⟨r, by simp, h1⟩
    · exact .inr ⟨q, by simp [hq], hqm⟩

/-! ### The combination (R63) -/

theorem combine_sat (rs : List Report) : (combine rs).sat = min ((rs.map (·.res.sat)).sum) 0xFFFFFFFF := by
  unfold combine
  split <;> rfl

theorem combine_runMax (rs : List Report) : (combine rs).runMax = rs.foldl (fun a r => rmJoin a r.res.runMax) none := by
  unfold combine
  split <;> rfl

theorem combine_of_fault {rs : List Report} {m : Report} (h : firstFault rs = some m) :
    (combine rs).status = 0x40 ∧ (combine rs).detail = BitVec.ofNat 32 m.member ∧ (combine rs).member = m.res.status := by
  unfold combine
  rw [h]
  exact ⟨rfl, rfl, rfl⟩

/-- The status of a combination without a fault. -/
theorem combine_of_none {rs : List Report} (h : firstFault rs = none) :
    (combine rs).member = 0 ∧ (combine rs).detail = 0 ∧ (combine rs).status = BitVec.ofNat 8
      (if statusAny rs 3 then 3 else if statusAny rs 1 then 1
        else if rs.all (fun r => r.res.status.toNat == 2) then 2 else 0) := by
  unfold combine
  rw [h]
  exact ⟨rfl, rfl, rfl⟩

/-! ### Taking a report -/

/-- The state once the last report of a gang of this module is in. -/
def Machine.State.gangEnd (s : State) (g : Flight) (mine : List Report) : State :=
  ({ s.dropGangOut (fun x => x.fid == g.fid) with reports := s.reports.filter (fun x => decide (x.gang ≠ g.fid)) }).setFlight
    { g with phase := .done, res := combine mine }

/-- The reports of a gang with one more. -/
def Machine.State.reportsWith (s : State) (g : Flight) (member : Nat) (r : Result) : List Report :=
  s.reports.filter (fun x => decide (x.gang = g.fid)) ++ [⟨g.fid, member, r⟩]

section
variable {s : State} {g : Flight} {member : Nat} {r : Result}

theorem takeReport_own (hrem : g.remote = none) (hpar : g.parent = none) :
    s.takeReport g member r = if (s.reportsWith g member r).length < g.expect then
      { s with reports := s.reports ++ [⟨g.fid, member, r⟩] } else s.gangEnd g (s.reportsWith g member r) := by
  simp only [State.takeReport, hrem, hpar, List.filter_append, State.gangEnd, State.dropGangOut, State.reportsWith]
  simp

/-- A report that is not the last is kept. -/
theorem takeReport_more (hrem : g.remote = none) (hpar : g.parent = none) (h : (s.reportsWith g member r).length < g.expect) :
    s.takeReport g member r = { s with reports := s.reports ++ [⟨g.fid, member, r⟩] } := by
  rw [takeReport_own hrem hpar, if_pos h]

/-- With the last report the gang is done. -/
theorem takeReport_last (hrem : g.remote = none) (hpar : g.parent = none) (h : ¬ (s.reportsWith g member r).length < g.expect) :
    s.takeReport g member r = s.gangEnd g (s.reportsWith g member r) := by
  rw [takeReport_own hrem hpar, if_neg h]

theorem flight_gangEnd_same (mine : List Report) (h : s.flight g.fid = some g) :
    (s.gangEnd g mine).flight g.fid = some { g with phase := .done, res := combine mine } :=
  State.flight_setFlight_same (f := { g with phase := .done, res := combine mine }) h

theorem flight_gangEnd_other (mine : List Report) {i : Nat} (h : i ≠ g.fid) : (s.gangEnd g mine).flight i = s.flight i :=
  State.flight_setFlight_other (f := { g with phase := .done, res := combine mine }) h

end

theorem awaitsReport_of {s : State} {g : Flight} {member : Nat} (hph : g.phase = .started) (hg : hGang g.target = true)
    (hr : ∀ x ∈ s.reports, ¬ (x.gang = g.fid ∧ x.member = member)) : s.awaitsReport g member = true := by
  simpa [State.awaitsReport, Flight.running, hph, hg] using hr

/-- The report of a member copy of this module. -/
theorem exec_report_own {s : State} {g c : Flight} {member : Nat} (hfl : s.flight g.fid = some g)
    (hwait : s.awaitsReport g member = true)
    (hc : s.flights.find? (fun x => decide (x.parent = some (g.fid, member)) && x.completed) = some c) :
    exec (.gangMemberReport g.fid member none) s = .next ((s.dropFlight c.fid).takeReport g member c.res) := by
  refine congrArg Host.Outcome.next ?_
  simp only [hfl]
  rw [if_pos hwait]
  simp only [hc]

/-- The report that another module sends. -/
theorem exec_report_other {s : State} {g : Flight} {member : Nat} (r : RemoteReport) (hfl : s.flight g.fid = some g)
    (hwait : s.awaitsReport g member = true) (hrem : g.remote = none) (hown : s.ownShare g.fid member = false) :
    exec (.gangMemberReport g.fid member (some r)) s =
      .next (if member < g.expect then (s.answeredBy g member).takeReport g member (RemoteReport.toResult r) else s) := by
  refine congrArg Host.Outcome.next ?_
  simp only [hfl]
  rw [if_pos hwait]
  simp [hrem, hown]

/-- What taking a report leaves of a gang that is this module's own and no member itself. -/
theorem takeReport_spec {s : State} {g : Flight} {member : Nat} {r : Result} (hfl : s.flight g.fid = some g)
    (hrem : g.remote = none) (hpar : g.parent = none) :
    let mine := s.reportsWith g member r
    let t := s.takeReport g member r
    { t with flights := s.flights, reports := s.reports, fab := { t.fab with gangOut := s.fab.gangOut } } = s ∧
      (∀ i, i ≠ g.fid → t.flight i = s.flight i) ∧
      if mine.length < g.expect then
        t.reports = s.reports ++ [⟨g.fid, member, r⟩] ∧ t.flight g.fid = some g ∧ t.fab.gangOut = s.fab.gangOut
      else t.reports = s.reports.filter (fun x => decide (x.gang ≠ g.fid)) ∧
        t.flight g.fid = some { g with phase := .done, res := combine mine } ∧ ∀ x, x ∈ t.fab.gangOut → x.fid ≠ g.fid := by
  intro mine t
  by_cases hlt : mine.length < g.expect
  · have ht : t = { s with reports := s.reports ++ [⟨g.fid, member, r⟩] } := takeReport_more hrem hpar hlt
    rw [ht, if_pos hlt]
    exact ⟨rfl, fun _ _ => rfl, rfl, hfl, rfl⟩
  · have ht : t = s.gangEnd g mine := takeReport_last hrem hpar hlt
    rw [ht, if_neg hlt]
    refine ⟨rfl, fun i hi => flight_gangEnd_other _ hi, rfl, flight_gangEnd_same _ hfl, fun x hx => ?_⟩
    simpa using (List.mem_filter.1 hx).2

/-- The combination of reports none of which is a fault (R63). -/
theorem combine_clean {rs : List Report} (hnone : ∀ r ∈ rs, r.res.status.toNat < 0x10) :
    let st (r : Report) := r.res.status.toNat
    let c := combine rs
    c.member = 0 ∧ c.detail = 0 ∧
      ((∃ r ∈ rs, st r = 3) → c.status = 3) ∧ ((∀ r ∈ rs, st r ≠ 3) → (∃ r ∈ rs, st r = 1) → c.status = 1) ∧
      ((∀ r ∈ rs, st r = 2) → c.status = 2) ∧ ((∀ r ∈ rs, st r ≠ 3 ∧ st r ≠ 1) → (∃ r ∈ rs, st r ≠ 2) → c.status = 0) := by
  intro st c
  obtain ⟨hm, hd, hs⟩ := combine_of_none ((firstFault_none rs).2 hnone)
  have hany : ∀ n, statusAny rs n = true ↔ ∃ r ∈ rs, st r = n := fun n => by simp [statusAny, st]
  have hall : rs.all (fun r => r.res.status.toNat == 2) = true ↔ ∀ r ∈ rs, st r = 2 := by simp [st]
  rw [show c.status = _ from hs]
  refine ⟨hm, hd, fun h3 => ?_, fun h3 h1 => ?_, fun h2 => ?_, fun h31 h2 => ?_⟩
  · rw [if_pos ((hany 3).2 h3)]
    rfl
  · rw [if_neg (mt (hany 3).1 (by simpa using h3)), if_pos ((hany 1).2 h1)]
    rfl
  · have hne : ∀ n, n ≠ 2 → ¬ statusAny rs n = true := fun n hn h => by
      obtain ⟨r, hr, hst⟩ := (hany n).1 h
      exact hn (hst.symm.trans (h2 r hr))
    rw [if_neg (hne 3 (by omega)), if_neg (hne 1 (by omega)), if_pos (hall.2 h2)]
    rfl
  · rw [if_neg (mt (hany 3).1 fun ⟨r, hr, h⟩ => (h31 r hr).1 h), if_neg (mt (hany 1).1 fun ⟨r, hr, h⟩ => (h31 r hr).2 h),
      if_neg (mt hall.1 fun h => h2.elim fun r hr => hr.2 (h r hr.1))]
    rfl

/-- The combination of reports one of which is a fault (R63). -/
theorem combine_faulting {rs : List Report} (hfault : ∃ r ∈ rs, 0x10 ≤ r.res.status.toNat) :
    (combine rs).status = 0x40 ∧ ∃ r ∈ rs, 0x10 ≤ r.res.status.toNat ∧ (combine rs).detail = BitVec.ofNat 32 r.member ∧
      (combine rs).member = r.res.status ∧ ∀ q ∈ rs, 0x10 ≤ q.res.status.toNat → r.member ≤ q.member := by
  cases hff : firstFault rs with
  | none =>
    obtain ⟨r, hr, hst⟩ := hfault
    exact absurd ((firstFault_none rs).1 hff r hr) (Nat.not_lt.2 hst)
  | some m =>
    obtain ⟨hs, hd, hm⟩ := combine_of_fault hff
    obtain ⟨hmem, hge, hle⟩ := firstFault_some hff
    exact ⟨hs, m, hmem, hge, hd, hm, hle⟩

/-- Settles O22: reports by what taking one does, the combination by folds over the reports. -/
theorem reportsFollowR63 : Obligations.ReportsFollowR63 := by
  refine ⟨fun s g c member hfl hph hg hrem hpar hrep hc hne => ?_, fun s g member r hfl hph hg hrem hpar hrep hown => ?_,
    fun rs hrs => ?_⟩
  · intro mine
    obtain ⟨hframe, hother, hspec⟩ := takeReport_spec (s := s.dropFlight c.fid) (member := member) (r := c.res)
      ((State.flight_dropFlight_other (Ne.symm hne)).trans hfl) hrem hpar
    refine ⟨_, exec_report_own hfl (awaitsReport_of hph hg hrep) hc, ?_, congrArg (·.mem) hframe, ?_⟩
    · exact (hother _ hne).trans (State.flight_dropFlight_same _)
    · split at hspec
      · rename_i hlt
        rw [if_pos (by exact hlt)]
        exact ⟨hspec.1, hspec.2.1⟩
      · rename_i hlt
        rw [if_neg (by exact hlt)]
        exact ⟨hspec.1, hspec.2.1⟩
  · intro res mine
    refine ⟨_, exec_report_other r hfl (awaitsReport_of hph hg hrep) hrem hown, ?_⟩
    beta_reduce
    by_cases hle : g.expect ≤ member
    · rw [if_pos hle, if_neg (by omega)]
    · rw [if_neg hle, if_pos (by omega)]
      obtain ⟨hframe, hother, hspec⟩ := takeReport_spec (s := s.answeredBy g member) (member := member)
        (r := RemoteReport.toResult r) hfl hrem hpar
      exact ⟨congrArg (fun v : State => { v with fab := { v.fab with gangOut := s.fab.gangOut } }) hframe, hother, hspec⟩
  · intro st c
    have hmax : c.runMax = rs.foldl (fun a r => rmJoin a r.res.runMax) none := combine_runMax rs
    refine ⟨combine_sat rs, ?_, fun hn m hm => ?_, combine_faulting, combine_clean⟩
    · rw [hmax, foldl_rmJoin_none]
      simp
    · obtain ⟨hfrom, -, hall⟩ := foldl_rmJoin_some (a := none) (by simp) hn (hmax ▸ hm)
      exact ⟨hfrom.resolve_left nofun, hall⟩

end Sys2Proof
end

section
/-! SUPPORT. What the die's own work leaves: registers, turns and the power state change, nothing else. -/

namespace Sys2Proof

open Machine

/-- A state with the registers, the power state and the turns of the rings of another. -/
def Machine.State.withControlOf (t s : State) : State := { t with regs := s.regs, pw := s.pw, turns := s.turns }

/-- Nothing changes but these. -/
def OnlyControl (s t : State) : Prop := t.withControlOf s = s

namespace OnlyControl

variable {s t u : State}

theorem refl (s : State) : OnlyControl s s := rfl

theorem trans (h : OnlyControl s t) (k : OnlyControl t u) : OnlyControl s u := by
  have hk : u.withControlOf s = t.withControlOf s := congrArg (·.withControlOf s) k
  exact hk.trans h

theorem ite {c : Prop} [Decidable c] (h : OnlyControl s t) (k : OnlyControl s u) : OnlyControl s (if c then t else u) := by
  split
  · exact h
  · exact k

theorem mem (h : OnlyControl s t) : t.mem = s.mem := congrArg (·.mem) h
theorem poison (h : OnlyControl s t) : t.poison = s.poison := congrArg (·.poison) h
theorem flights (h : OnlyControl s t) : t.flights = s.flights := congrArg (·.flights) h
theorem nextStart (h : OnlyControl s t) : t.nextStart = s.nextStart := congrArg (·.nextStart) h
theorem flight (h : OnlyControl s t) (i : Nat) : t.flight i = s.flight i := by unfold State.flight; rw [h.flights]

theorem of_onlyRegs {as : List Nat} (h : OnlyRegs as s t) : OnlyControl s t := by
  rw [h.eq]
  rfl

variable (s)

theorem setReg (a : Nat) (v : Word) : OnlyControl s (s.setReg a v) := rfl
theorem putFld (a hi lo v : Nat) : OnlyControl s (s.putFld a hi lo v) := rfl
theorem setFlag (a i : Nat) (b : Bool) : OnlyControl s (s.setFlag a i b) := rfl
theorem setTurn (f : Flight) : OnlyControl s (s.setTurn f) := .ite rfl rfl
theorem setChange (die : Nat) (c : Option OpChange) : OnlyControl s (s.setChange die c) := rfl

theorem nextPart (die goal : Nat) : OnlyControl s (s.nextPart die goal) := .ite rfl (.ite rfl (.ite rfl rfl))

theorem evalDie (die : Nat) : OnlyControl s (s.evalDie die) := by
  unfold State.evalDie
  refine .ite (.refl s) ?_
  dsimp only
  generalize hu : ((s.putFld (Reg.pwDieStatus die) 15 12 (s.allowedOf die).2).putFld (Reg.pwDieStatus die) 11 8
    (s.allowedOf die).1).putFld (Reg.pwDieStatus die) 7 4 (s.targetOf die) = u
  have h : OnlyControl s u := by rw [← hu]; rfl
  refine .ite h ?_
  split
  · exact .ite (h.trans (.nextPart u _ _)) h
  · exact .ite h (h.trans (.nextPart u _ _))

theorem startBusy (f : Flight) : OnlyControl s (s.startBusy f) := by
  unfold State.startBusy
  split
  · exact .ite (.refl s) (.ite rfl rfl)
  · exact .ite rfl (.refl s)
  · rfl

theorem maFaultSet (die ep j status : Nat) (index : Word) : OnlyControl s (s.maFaultSet die ep j status index) := rfl
theorem veFaultSet (die ep : Nat) (f : Flight) (status : Nat) : OnlyControl s (s.veFaultSet die ep f status) := rfl
theorem vdFaultSet (die e : Nat) (f : Flight) (status : Nat) : OnlyControl s (s.vdFaultSet die e f status) := rfl
theorem mvFaultSet (die n : Nat) (f : Flight) (status : Nat) : OnlyControl s (s.mvFaultSet die n f status) := rfl

/-- What a unit notes of a descriptor that it does not execute. -/
theorem startFails (f : Flight) (status : Nat) (detail : Word) :
    OnlyControl (s.setFlight { f with phase := .done, res := s.unrun f status detail }) (s.startFails f status detail) := by
  unfold State.startFails
  generalize s.setFlight { f with phase := .done, res := s.unrun f status detail } = t
  refine .ite (.refl t) ?_
  split
  · exact .ite (.refl t) (.ite (.ite (.maFaultSet t _ _ _ _ _) (.refl t)) (.veFaultSet t _ _ _ _))
  · exact .ite ((vdFaultSet t _ _ _ _).trans (.trans (.putFld _ _ _ _ _) (.setReg _ _ _))) (.refl t)
  · exact .mvFaultSet t _ _ _ _
  · exact .refl t

end OnlyControl

/-- Evaluating a die's point writes one register. -/
theorem State.reg_nextPart (s : State) {die goal a : Nat} (h : regAlias a ≠ Reg.pwDieStatus die) :
    (s.nextPart die goal).reg a = s.reg a := by
  have hc : ∀ c, (s.setChange die c).reg a = s.reg a := fun c => State.reg_setReg_other _ _ _ _ h
  unfold State.nextPart
  dsimp only
  split_ifs
  · exact hc _
  · exact hc _
  · exact hc _
  · exact (State.reg_setReg_other _ _ _ _ h).trans (hc _)

theorem State.reg_evalDie (s : State) {die a : Nat} (h : regAlias a ≠ Reg.pwDieStatus die) : (s.evalDie die).reg a = s.reg a := by
  unfold State.evalDie
  split
  · rfl
  dsimp only
  generalize hu : ((s.putFld (Reg.pwDieStatus die) 15 12 (s.allowedOf die).2).putFld (Reg.pwDieStatus die) 11 8
    (s.allowedOf die).1).putFld (Reg.pwDieStatus die) 7 4 (s.targetOf die) = u
  have hreg : u.reg a = s.reg a := by
    rw [← hu]
    simp only [State.reg_putFld, if_neg h]
  split
  · exact hreg
  split
  · split
    · exact (State.reg_nextPart u h).trans hreg
    · exact hreg
  · split
    · exact hreg
    · exact (State.reg_nextPart u h).trans hreg

end Sys2Proof
end

section
/-! SUPPORT. O13: the start of a descriptor (R39, R69, R393, R464). -/

namespace Sys2Proof

open Machine

/-- A ready descriptor of a unit. -/
theorem exec_descriptorStart {s : State} {f : Flight} (hf : s.flight f.fid = some f) (hg : hGang f.target = false)
    (hr : s.ready f = true) : exec (.descriptorStart f.fid) s = .next (s.startOne f) := by
  refine congrArg Host.Outcome.next ?_
  simp [hf, hg, hr]

section
variable {s : State} {f : Flight}

theorem startOne_stepAborted (h : s.stepAborted (hDie f.target) f.desc = true) : s.startOne f = s.abort f := if_pos h

theorem dieLost_iff (die : Nat) : s.dieLost die = true ↔ s.dieState die = 3 ∨ s.dieState die = 4 := by simp [State.dieLost]

theorem startOne_lost (h : s.stepAborted (hDie f.target) f.desc = false) (hl : s.dieLost (hDie f.target) = true) :
    s.startOne f = s.finishWith f stDieLost (BitVec.ofNat 32 (hDie f.target)) := by
  simp only [State.startOne, h, hl, Bool.false_eq_true, if_false, if_true]

theorem domainGone_iff (die : Nat) : s.domainGone die = true ↔
    s.fnState (Reg.pwDom die) = 3 ∨ s.dieState die = 0 ∧ s.fnState (Reg.pwDom die) ≠ 1 := by
  simp [State.domainGone, State.domainWait]

theorem domainWait_iff (die : Nat) : s.domainWait die = true ↔ s.fnState (Reg.pwDom die) = 1 := by simp [State.domainWait]

/-- A descriptor on a die that is not lost, whose step is not aborted, with its domain or unit OFF or DISABLING. -/
theorem startOne_off (h : s.stepAborted (hDie f.target) f.desc = false) (hl : s.dieLost (hDie f.target) = false)
    (hoff : s.fnState (Reg.pwDom (hDie f.target)) = 3 ∨ s.fnState (Reg.pwDom (hDie f.target)) ≠ 1 ∧
      (s.dieState (hDie f.target) = 0 ∨ s.unitState f = 0 ∨ s.unitState f = 3)) : s.startOne f = s.abort f := by
  have hgone : s.domainGone (hDie f.target) = true ∨
      s.domainWait (hDie f.target) = false ∧ (s.unitState f = 0 ∨ s.unitState f = 3) := by
    rw [domainGone_iff, ← Bool.not_eq_true, domainWait_iff]
    omega
  simp only [State.startOne, h, hl, Bool.false_eq_true, if_false, hgone, if_true]

theorem not_off (hon : ¬ (s.fnState (Reg.pwDom (hDie f.target)) = 3 ∨ s.fnState (Reg.pwDom (hDie f.target)) ≠ 1 ∧
      (s.dieState (hDie f.target) = 0 ∨ s.unitState f = 0 ∨ s.unitState f = 3))) : ¬ (s.domainGone (hDie f.target) = true ∨
      s.domainWait (hDie f.target) = false ∧ (s.unitState f = 0 ∨ s.unitState f = 3)) := by
  rw [domainGone_iff, ← Bool.not_eq_true, domainWait_iff]
  omega

section
variable (h : s.stepAborted (hDie f.target) f.desc = false) (hl : s.dieLost (hDie f.target) = false)
  (hon : ¬ (s.fnState (Reg.pwDom (hDie f.target)) = 3 ∨ s.fnState (Reg.pwDom (hDie f.target)) ≠ 1 ∧
    (s.dieState (hDie f.target) = 0 ∨ s.unitState f = 0 ∨ s.unitState f = 3)))
include h hl hon

/-- It waits while its domain or its unit is ENABLING. -/
theorem startOne_enabling (hw : s.fnState (Reg.pwDom (hDie f.target)) = 1 ∨ s.unitState f = 1) : s.startOne f = s := by
  have hw' : s.domainWait (hDie f.target) = true ∨ s.unitState f = 1 ∨ s.myTurn f = false ∨ s.controllerBusy f = true := by
    rw [domainWait_iff]
    tauto
  simp only [State.startOne, h, hl, Bool.false_eq_true, if_false, not_off hon, hw', if_true]

/-- At its turn its checks decide. -/
theorem startOne_checked {g : Flight} (hw : ¬ (s.fnState (Reg.pwDom (hDie f.target)) = 1 ∨ s.unitState f = 1))
    (ht : s.myTurn f = true) (hb : s.controllerBusy f = false) (hsame : (s.startChecked f).flight f.fid = some g)
    (hg : g.waits = false) : s.startOne f = ((s.startChecked f).setTurn f).evalDie (hDie f.target) := by
  have hw' : ¬ (s.domainWait (hDie f.target) = true ∨ s.unitState f = 1 ∨ s.myTurn f = false ∨ s.controllerBusy f = true) := by
    rw [domainWait_iff]
    simpa [ht, hb] using hw
  simp only [State.startOne, h, hl, Bool.false_eq_true, if_false, not_off hon, hw', hsame, hg]

end

/-- What follows the checks of a descriptor that they end or start: its ring's turn is over, and its die is evaluated. -/
theorem answers_startChecked {u : State} {g : Flight} (hf : s.flight f.fid = some f) (hgang : hGang f.target = false)
    (hr : s.ready f = true) (ha : s.stepAborted (hDie f.target) f.desc = false) (hon : s.dieState (hDie f.target) = 2)
    (h1 : s.fnState (Reg.pwDom (hDie f.target)) ≠ 1) (h3 : s.fnState (Reg.pwDom (hDie f.target)) ≠ 3)
    (hu2 : s.unitState f = 2) (ht : s.myTurn f = true) (hb : s.controllerBusy f = false) (hfid : g.fid = f.fid)
    (hgw : g.waits = false) (hu : u.flight f.fid = some f) (hc : OnlyControl (u.setFlight g) (s.startChecked f)) :
    Answers (.descriptorStart f.fid) s (fun t => t.flight f.fid = some g ∧ (∀ i, i ≠ f.fid → t.flight i = u.flight i) ∧
      t.mem = u.mem ∧ t.nextStart = u.nextStart) := by
  have hl : s.dieLost (hDie f.target) = false := by simp [State.dieLost, hon]
  have hsame : (s.startChecked f).flight f.fid = some g := by
    rw [hc.flight, ← hfid]
    exact State.flight_setFlight_same (hfid ▸ hu)
  have hone := startOne_checked ha hl (by omega) (by omega) ht hb hsame hgw
  have hall : OnlyControl (u.setFlight g) (s.startOne f) := by
    rw [hone]
    exact hc.trans (.trans (.setTurn _ _) (.evalDie _ _))
  refine ⟨_, exec_descriptorStart hf hgang hr, ?_, fun i hi => ?_, hall.mem, hall.nextStart⟩
  · rw [hall.flight, ← hfid]
    exact State.flight_setFlight_same (hfid ▸ hu)
  · rw [hall.flight]
    exact State.flight_setFlight_other (hfid ▸ hi)

/-- A descriptor refused by its checks. -/
theorem unrun_descInvalid (d : Word) :
    (s.unrun f stDescInvalid d).status.toNat = stDescInvalid ∧ (s.unrun f stDescInvalid d).detail = d ∧
      (s.unrun f stDescInvalid d).merges = [] := ⟨rfl, rfl, rfl⟩

/-- A descriptor that its checks refuse. -/
theorem answers_startFails {d : Word} (hf : s.flight f.fid = some f) (hgang : hGang f.target = false)
    (hr : s.ready f = true) (ha : s.stepAborted (hDie f.target) f.desc = false) (hon : s.dieState (hDie f.target) = 2)
    (h1 : s.fnState (Reg.pwDom (hDie f.target)) ≠ 1) (h3 : s.fnState (Reg.pwDom (hDie f.target)) ≠ 3)
    (hu2 : s.unitState f = 2) (ht : s.myTurn f = true) (hb : s.controllerBusy f = false)
    (h : s.startChecked f = s.startFails f stDescInvalid d) :
    Answers (.descriptorStart f.fid) s (fun t => (t.mem = s.mem ∧ ∀ i, i ≠ f.fid → t.flight i = s.flight i) ∧
      ∃ r : Result, t.flight f.fid = some { f with phase := .done, res := r } ∧ r.status.toNat = stDescInvalid ∧ r.detail = d ∧
        r.merges = []) := by
  obtain ⟨t, hx, hfl, hoth, hmem, -⟩ := answers_startChecked hf hgang hr ha hon h1 h3 hu2 ht hb
    (g := { f with phase := .done, res := s.unrun f stDescInvalid d }) rfl rfl hf (h ▸ OnlyControl.startFails s f _ _)
  exact ⟨t, hx, ⟨hmem, hoth⟩, _, hfl, unrun_descInvalid d⟩

/-! ### The checks -/

theorem startChecked_noClass (h : s.bodyChecks f = none) : s.startChecked f = s.startFails f stDescInvalid 0xFFFFFFFF := by
  unfold State.startChecked
  simp only [h]
  rfl

section
variable {body : List (Option Nat)} (hbody : s.bodyChecks f = some body)
  (hcommit : ¬ (dClass f.desc = 0x68 ∧ (f.parent.isSome ∨ f.remote.isSome))) (hlost : s.groupLost f = false)
include hbody hcommit hlost

theorem startChecked_failed {b : Nat} (hpeek : s.peekWaits f (headerChecks f.desc ++ body) = none)
    (hlow : lowest (headerChecks f.desc ++ body ++ s.peekChecks f (headerChecks f.desc ++ body)) = some b) :
    s.startChecked f = s.startFails f stDescInvalid (BitVec.ofNat 32 b) := by
  unfold State.startChecked
  simp only [hbody, if_neg hcommit, hlost, Bool.false_eq_true, if_false, hlow, hpeek]

theorem startChecked_passed
    (hlow : lowest (headerChecks f.desc ++ body ++ s.peekChecks f (headerChecks f.desc ++ body)) = none) :
    s.startChecked f = s.startRead f := by
  unfold State.startChecked
  simp only [hbody, if_neg hcommit, hlost, Bool.false_eq_true, if_false, hlow]

end

/-- A descriptor whose class reads no record is of none of the classes that do. -/
theorem class_of_firstReads (h : firstReads f = []) : ∀ c ∈ [0x20, 0x21, 0x40, 0x41, 0x48, 0x61, 0x71], dClass f.desc ≠ c := by
  intro c hc hd
  simp only [List.mem_cons, List.not_mem_nil, or_false] at hc
  rcases hc with rfl | rfl | rfl | rfl | rfl | rfl | rfl <;> simp [firstReads, hd] at h

/-- A descriptor that reads no record starts at once. -/
theorem startRead_of_noReads (h : firstReads f = []) (hg : groupField f.desc = none) :
    s.startRead f = s.startGo { f with recs := [] } := by
  have hc := class_of_firstReads h
  simp only [List.forall_mem_cons, List.not_mem_nil, false_imp_iff, implies_true, and_true] at hc
  obtain ⟨h20, h21, h40, h41, h48, h61, h71⟩ := hc
  have hmore : moreReads f [] = [] := by simp [moreReads, h41, h48]
  have hok : s.recordsOk { f with recs := [] } = true := by simp [State.recordsOk, h20, h21, h40, h41, h48, h61, h71]
  simp [State.startRead, h, hmore, hg, Run.readAll, Run.clean, Run.start, hok]

end

/-- Settles O13: the branches of the start in their order; what follows the checks touches registers, turns and power only. -/
theorem startFollowsR39 : Obligations.StartFollowsR39 := by
  intro s f hf hgang hr die dom here invalid
  refine ⟨fun ha => ?_, fun ha => ⟨fun hl => ?_, fun h3 h4 => ⟨fun hoff => ?_, fun hw => ?_⟩, fun hon h1 h3 hu ht hb =>
    ⟨fun hnone => ?_, fun body b hbody hcom hlost hpeek hlow => ?_, fun body hbody hcom hlost hlow hreads hgrp => ?_⟩⟩⟩
  · exact ⟨_, exec_descriptorStart hf hgang hr, by rw [startOne_stepAborted ha]; exact State.flightSet_abort hf⟩
  · refine ⟨_, exec_descriptorStart hf hgang hr, ?_⟩
    rw [startOne_lost ha ((dieLost_iff die).2 hl)]
    exact State.flightSet_finishWith hf _ _
  · refine ⟨_, exec_descriptorStart hf hgang hr, ?_⟩
    rw [startOne_off ha (by simp [State.dieLost, h3, h4, die]) hoff]
    exact State.flightSet_abort hf
  · refine ⟨_, exec_descriptorStart hf hgang hr, startOne_enabling ha (by simp [State.dieLost, h3, h4, die]) ?_ ?_⟩ <;>
    · simp only [dom, die] at hw
      omega
  · exact answers_startFails hf hgang hr ha hon h1 h3 hu ht hb (startChecked_noClass hnone)
  · exact answers_startFails hf hgang hr ha hon h1 h3 hu ht hb (startChecked_failed hbody hcom hlost hpeek hlow)
  · have hgo := (startChecked_passed hbody hcom hlost hlow).trans (startRead_of_noReads hreads hgrp)
    let g : Flight := { f with recs := [] }
    obtain ⟨t, hx, hfl, hoth, hmem, hstart⟩ := answers_startChecked (u := { s with nextStart := s.nextStart + 1 })
      (g := { g with phase := .started, vals := s.startVals g, start := s.nextStart }) hf hgang hr ha hon h1 h3 hu ht hb rfl rfl hf
      (hgo ▸ OnlyControl.startBusy _ _)
    exact ⟨t, hx, ⟨hmem, hoth⟩, _, hfl, hstart⟩

end Sys2Proof
end

section
/-! SUPPORT. What sending frames leaves of a state: registers, fault log, frames and what leaves the module change (R323-R332). -/

namespace Sys2Proof

open Machine

/-- A state with the registers, the fault log, the fabric and the output of another. -/
def Machine.State.withFabricOf (t s : State) : State := { t with regs := s.regs, flog := s.flog, out := s.out, fab := s.fab }

/-- Nothing changes but these. -/
def OnlyFabric (s t : State) : Prop := t.withFabricOf s = s

namespace OnlyFabric

variable {s t u : State}

theorem refl (s : State) : OnlyFabric s s := rfl

theorem trans (h : OnlyFabric s t) (k : OnlyFabric t u) : OnlyFabric s u := by
  have hk : u.withFabricOf s = t.withFabricOf s := congrArg (·.withFabricOf s) k
  exact hk.trans h

theorem ite {c : Prop} [Decidable c] (h : OnlyFabric s t) (k : OnlyFabric s u) : OnlyFabric s (if c then t else u) := by
  split
  · exact h
  · exact k

theorem foldl {β : Type} {f : State → β → State} (hf : ∀ s x, OnlyFabric s (f s x)) (l : List β) (s : State) :
    OnlyFabric s (l.foldl f s) := by
  induction l generalizing s with
  | nil => exact .refl s
  | cons x l ih => exact (hf s x).trans (ih _)

theorem mem (h : OnlyFabric s t) : t.mem = s.mem := congrArg (·.mem) h
theorem flights (h : OnlyFabric s t) : t.flights = s.flights := congrArg (·.flights) h

variable (s)

theorem setFab (fab : FabricSt) : OnlyFabric s { s with fab := fab } := rfl
theorem setReg (a : Nat) (v : Word) : OnlyFabric s (s.setReg a v) := rfl
theorem emit (e : OutEvent) : OnlyFabric s (s.emit e) := rfl
theorem log (die : Nat) (kind : LogKind) (addr info : Nat) (who : LogBy) (acc : LogAcc) :
    OnlyFabric s (s.log die kind addr info who acc) := rfl
theorem setPools (p : Nat) (v : List Nat) : OnlyFabric s (s.setPools p v) := rfl

theorem payBack (owed : Option Owed) : OnlyFabric s (s.payBack owed) := by
  unfold State.payBack
  split
  · exact .ite rfl rfl
  · rfl

theorem pump (p n : Nat) (q : List TxFrame) (held : List Nat) : OnlyFabric s (s.pump p n q held).1 := by
  induction n generalizing s q held with
  | zero => rfl
  | succ n ih =>
    cases q with
    | nil => rfl
    | cons x q =>
      unfold State.pump
      dsimp only
      split
      · exact ih _ _ _
      · exact .trans (.trans (t := (s.setPools p (bump (s.pools p) x.pool (· - x.frame.blocks))).emit (.frame p x.frame)) rfl
          (.payBack _ _)) (ih _ _ _)

theorem drainPort (p : Nat) : OnlyFabric s (s.drainPort p) := .ite (.refl s) ((OnlyFabric.pump s _ _ _ _).trans (.setFab _ _))

theorem sendPort (io p vl : Nat) (f : Frame) (owed : Option Owed) : OnlyFabric s (s.sendPort io p vl f owed) := by
  have hpay := OnlyFabric.payBack s owed
  have hcount : OnlyFabric s (if p < 40 then (s.payBack owed).count (portReg Reg.fbPortDrop p) else s.payBack owed) :=
    .ite (hpay.trans rfl) hpay
  exact .ite ((OnlyFabric.setFab s _).trans (.drainPort _ _)) (hcount.trans rfl)

theorem sendRouted (io : Nat) (f : Frame) : OnlyFabric s (s.sendRouted io f) := .sendPort s _ _ _ _ _

theorem sendPlain (flow seq : Nat) (b : FrameBody) : OnlyFabric s (s.sendPlain flow seq b) := .sendRouted s _ _

theorem openWindow (flow n : Nat) : OnlyFabric s (s.openWindow flow n) := by
  induction n generalizing s with
  | zero => rfl
  | succ n ih =>
    unfold State.openWindow
    cases s.fab.unacked.find? (fun u => decide (u.flow = flow ∧ u.sends = 0)) with
    | none => rfl
    | some u => exact .ite (.trans (.trans (.trans (.setFab s _) (.setReg _ _ _)) (.sendRouted _ _ _)) (ih _)) rfl

theorem sendSeq (flow : Nat) (b : FrameBody) (fid : Option Nat) (ix : Nat) : OnlyFabric s (s.sendSeq flow b fid ix) :=
  .ite ((OnlyFabric.setFab s _).trans (.openWindow _ _ _)) (.setFab s _)

theorem sendAll (fid : Nat) (sends : List (Nat × FrameBody)) : OnlyFabric s (s.sendAll fid sends) :=
  .foldl (fun s _ => .sendSeq s _ _ _ _) _ s

end OnlyFabric

end Sys2Proof
end

section
/-! SUPPORT. O16: the end of a run that nothing stops or holds up, and what the units note of it (R41, R231, R249). -/

namespace Sys2Proof

open Machine

/-- The run of a descriptor that meets no fault that stops it and waits for nothing. -/
theorem runDone_ends {x : Run × Nat} {s : State} {f : Flight} (unitFault : Bool) (hf : s.flight f.fid = some f) (hx : Served x) :
    RunDone f x s (Run.ends x s f unitFault) := by
  obtain ⟨r, cycles⟩ := x
  obtain ⟨hstop, hfar, hext⟩ := hx
  dsimp only at hstop hfar hext
  let a := (r.s.sendAll f.fid r.sends).unwaitDesc f.fid
  let b := if r.sends.isEmpty && r.guards.isEmpty then a.dropLines f.fid else a
  let c : State := { b with fab := { b.fab with guards := b.fab.guards ++ r.guards }, flights := s.flights }
  let g : Flight := { f with phase := .done, res := r.result cycles }
  have hends : Run.ends (r, cycles) s f unitFault = c.setFlight g := by
    unfold Run.ends Run.finish
    simp only [hfar, hext, hstop, ne_eq, not_true_eq_false, or_self, if_false, Bool.false_and]
    rfl
  have hdata : c.mem = r.s.mem ∧ c.poison = r.s.poison ∧ c.tb = r.s.tb ∧ c.vr = r.s.vr ∧ c.wAct = r.s.wAct := by
    have hsend := OnlyFabric.sendAll r.s f.fid r.sends
    have hb : b.mem = a.mem ∧ b.poison = a.poison ∧ b.tb = a.tb ∧ b.vr = a.vr ∧ b.wAct = a.wAct := by
      simp only [b]
      split <;> exact ⟨rfl, rfl, rfl, rfl, rfl⟩
    obtain ⟨hm, hp, ht, hv, hw⟩ := hb
    exact ⟨hm.trans (congrArg (·.mem) hsend), hp.trans (congrArg (·.poison) hsend), ht.trans (congrArg (·.tb) hsend),
      hv.trans (congrArg (·.vr) hsend), hw.trans (congrArg (·.wAct) hsend)⟩
  rw [hends]
  exact ⟨State.flight_setFlight_same (f := g) (s := c) hf, fun i hi => State.flight_setFlight_other (f := g) (s := c) hi, hdata⟩

/-- What the unit's registers note leaves the run done. -/
theorem RunDone.onlyControl {f : Flight} {x : Run × Nat} {s t u : State} (h : RunDone f x s t) (hu : OnlyControl t u) :
    RunDone f x s u := by
  obtain ⟨hf, hoth, hm, hp, ht, hv, hw⟩ := h
  exact ⟨(hu.flight _).trans hf, fun i hi => (hu.flight i).trans (hoth i hi), hu.mem.trans hm, hu.poison.trans hp,
    (congrArg (·.tb) hu).trans ht, (congrArg (·.vr) hu).trans hv, (congrArg (·.wAct) hu).trans hw⟩

namespace OnlyControl

variable (s : State)

theorem movEnd (f : Flight) : OnlyControl s (s.movEnd f) := by
  unfold State.movEnd
  split
  · exact .ite (.mvFaultSet s _ _ _ _) (.refl s)
  · exact .refl s

theorem vdBusy (die e : Nat) : OnlyControl s (s.vdBusy die e) := rfl

theorem decEnd (f : Flight) : OnlyControl s (s.decEnd f) := by
  unfold State.decEnd
  split
  · split
    · dsimp only
      split
      · exact (vdBusy s _ _).trans ((vdFaultSet _ _ _ _ _).trans ((putFld _ _ _ _ _).trans (setReg _ _ _)))
      · exact vdBusy s _ _
    · rfl
  · rfl

end OnlyControl

section
variable {c : Nat} {f : Flight} {s : State}

theorem Started.runs (h : Started c f s) : s.runs f c = true := by
  obtain ⟨-, hph, hg, hc, hheld⟩ := h
  simp [State.runs, Flight.running, hph, hg, hc, hheld]

/-- A BIASFLIP whose home's table is not being initialised and that waits for nothing. -/
theorem biasflip_eq (hfree : s.flag (biasCtrl (hDie f.target)) 31 = false) (hext : (s.biasflipRun f).1.1.ext = []) :
    s.biasflip f =
      let t := Run.ends ((s.biasflipRun f).1.1, (s.biasflipRun f).2) s f false
      { t with host := { t.host with flips := holdFlips f.fid t.host.flips [] } } := by
  unfold State.biasflip
  rw [if_neg (by simp [hfree])]
  simp only [hext, List.isEmpty_nil, if_true]

/-- A DECODE that nothing stops: what follows its run is noted in the engine's registers. -/
theorem runDone_execDecode {scratch : Option Nat} (h : Started 0x48 f s) :
    let u := s.putFld (Reg.vdFault (hDie f.target) (hSlot f.target)) 27 24 0
    Served (u.decodeRun f scratch) → ∃ t, execDecode f.fid s scratch = .next t ∧ RunDone f (u.decodeRun f scratch) s t := by
  intro u hx
  let v := u.decode f scratch
  let old := s.reg (Reg.vdFault (hDie f.target) (hSlot f.target))
  have hv : RunDone f (u.decodeRun f scratch) s v := runDone_ends (s := u) false h.1 hx
  refine ⟨if recordsFault ((u.decodeRun f scratch).1.result (u.decodeRun f scratch).2).status.toNat then v.decEnd f
    else (v.decEnd f).setReg (Reg.vdFault (hDie f.target) (hSlot f.target)) old, congrArg Host.Outcome.next ?_,
    hv.onlyControl (.ite (.decEnd v f) ((OnlyControl.decEnd v f).trans (.setReg _ _ _)))⟩
  simp only [h.1, h.runs, if_true]
  rw [show State.flight _ f.fid = _ from hv.1]
  rfl

end

/-- Settles O16: each class ends with its run, which nothing stops; the units' registers follow. -/
theorem otherClassesComplete : Obligations.OtherClassesComplete := by
  intro s f scratch
  refine ⟨fun h hnear hx => ?_, ?_, fun h => ?_, fun h hx => ?_, fun h hx => ?_, fun h hx => ?_, fun h hx => ?_, fun h hx => ?_,
    fun h hx => ?_, fun h hx => ?_, fun h hfree hx => ?_, ?_⟩
  · refine ⟨(Run.ends (s.moveRun f) s f true).movEnd f, congrArg Host.Outcome.next ?_,
      (runDone_ends true h.1 hx).onlyControl (.movEnd _ f)⟩
    simp only [h.1, h.runs, if_true, State.move, hnear, Bool.false_eq_true, if_false]
  · intro x h hfar hack hstop hlast hx
    refine ⟨(Run.ends x s f true).movEnd f, congrArg Host.Outcome.next ?_, (runDone_ends true h.1 hx).onlyControl (.movEnd _ f)⟩
    simp only [h.1, h.runs, if_true, State.move, hfar, State.moveFar, hack, hstop, hlast, Bool.or_true, Bool.false_eq_true,
      if_false, x]
  · refine ⟨s.finishWith f stOK 0, congrArg Host.Outcome.next ?_, State.flightSet_finishWith h.1 _ _⟩
    simp only [h.1, h.runs, if_true]
  · refine ⟨(s.msopDesc f).movEnd f, congrArg Host.Outcome.next ?_, (runDone_ends true h.1 hx).onlyControl (.movEnd _ f)⟩
    simp only [h.1, h.runs, if_true]
  · refine ⟨(s.spill f).movEnd f, congrArg Host.Outcome.next ?_, (runDone_ends true h.1 hx).onlyControl (.movEnd _ f)⟩
    simp only [h.1, h.runs, if_true]
  · refine ⟨(s.recall f).movEnd f, congrArg Host.Outcome.next ?_, (runDone_ends true h.1 hx).onlyControl (.movEnd _ f)⟩
    simp only [h.1, h.runs, if_true]
  · refine ⟨s.slotload f, congrArg Host.Outcome.next ?_, runDone_ends false h.1 hx⟩
    simp only [h.1, h.runs, if_true]
  · refine ⟨s.slotimg f, congrArg Host.Outcome.next ?_, runDone_ends false h.1 hx⟩
    simp only [h.1, h.runs, if_true]
  · refine ⟨s.put f, congrArg Host.Outcome.next ?_, runDone_ends false h.1 hx⟩
    simp only [h.1, h.runs, if_true]
  · refine ⟨s.hfill f, congrArg Host.Outcome.next ?_, runDone_ends false h.1 hx⟩
    simp only [h.1, h.runs, if_true]
  · refine ⟨s.biasflip f, congrArg Host.Outcome.next ?_, ?_⟩
    · simp only [h.1, h.runs, if_true]
    · rw [biasflip_eq hfree hx.2.2]
      exact runDone_ends false h.1 hx
  · exact fun h hx => runDone_execDecode h hx

end Sys2Proof
end

section
/-! SUPPORT. O20: the lowest code that applies to an entry, and the entry's control word as it is written (R58, R268, R412). -/

namespace Sys2Proof

open Machine

/-! ### The lowest code -/

theorem lowest_eq_none {xs : List (Option Nat)} (h : lowest xs = none) : ∀ x ∈ xs, x = none := by
  induction xs with
  | nil => simp
  | cons x xs ih =>
    cases x with
    | none => exact List.forall_mem_cons.2 ⟨rfl, ih h⟩
    | some b =>
      unfold lowest at h
      split at h <;> cases h

theorem lowest_eq_some {xs : List (Option Nat)} {e : Nat} (h : lowest xs = some e) : some e ∈ xs ∧ ∀ x, some x ∈ xs → e ≤ x := by
  induction xs generalizing e with
  | nil => cases h
  | cons x xs ih =>
    cases x with
    | none =>
      obtain ⟨hm, hle⟩ := ih h
      exact ⟨List.mem_cons_of_mem _ hm, fun x hx => hle x (by simpa using hx)⟩
    | some b =>
      unfold lowest at h
      split at h
      · obtain rfl : b = e := by simpa using h
        have hnone := lowest_eq_none ‹_›
        refine ⟨by simp, fun x hx => ?_⟩
        rcases List.mem_cons.1 hx with hx | hx
        · simp_all
        · cases hnone _ hx
      · rename_i c hc
        obtain ⟨hm, hle⟩ := ih hc
        obtain rfl : min b c = e := by simpa using h
        refine ⟨?_, fun x hx => ?_⟩
        · rcases le_total b c with hbc | hbc
          · simp [hbc]
          · simp [hbc, hm]
        · rcases List.mem_cons.1 hx with hx | hx
          · obtain rfl : x = b := by simpa using hx
            exact min_le_left _ _
          · exact (min_le_right _ _).trans (hle x hx)

theorem lowest_map_some_none {errs : List Nat} : lowest (errs.map some) = none ↔ errs = [] := by
  refine ⟨fun h => ?_, fun h => by rw [h]; rfl⟩
  cases errs with
  | nil => rfl
  | cons e es => exact absurd (lowest_eq_none h (some e) (by simp)) nofun

theorem lowest_map_some {errs : List Nat} {e : Nat} (h : lowest (errs.map some) = some e) : e ∈ errs ∧ ∀ x ∈ errs, e ≤ x := by
  obtain ⟨hm, hle⟩ := lowest_eq_some h
  exact ⟨by simpa using hm, fun x hx => hle x (List.mem_map_of_mem hx)⟩

/-! ### The control word of an entry -/

/-- The word of an entry that is not valid: its err as given. -/
theorem entryWord_err {w : Word} (e : Nat) (hw : w.getLsbD 31 = false) :
    (wset w 13 8 e).getLsbD 31 = false ∧ wfld (wset w 13 8 e) 13 8 = e % 64 := by
  refine ⟨?_, wfld_wset_same _ _ _ _ (by omega) (by omega)⟩
  rw [getLsbD_wset _ _ _ _ _ (by omega) (by omega), if_neg (by omega), if_neg (by omega), hw]

/-- The word of a valid entry. -/
theorem entryWord_valid (w : Word) : (wset w 31 31 1).getLsbD 31 = true ∧
    ∀ hi lo, hi < 31 → wfld (wset w 31 31 1) hi lo = wfld w hi lo := by
  refine ⟨?_, fun hi lo h => wfld_wset_other _ _ _ _ _ _ (le_refl _) (by omega) (.inl h)⟩
  rw [getLsbD_wset _ _ _ _ _ (le_refl _) (by omega), if_neg (by omega), if_pos (le_refl _)]
  rfl

/-- A field below bit 31 leaves it clear. -/
theorem getLsbD_wset_below {w : Word} {hi lo : Nat} (v : Nat) (hl : lo ≤ hi) (h : hi < 31) (hw : w.getLsbD 31 = false) :
    (wset w hi lo v).getLsbD 31 = false := by
  rw [getLsbD_wset _ _ _ _ _ hl (by omega), if_neg (by omega), if_neg (by omega), hw]

/-! ### Gang entries: the codes (R58) -/

theorem gangErrs_eq (s : State) (g : Nat) (v : Word) : s.gangErrs g v =
    (if (s.gangMembers g (wfld v 5 0)).any (fun w => !handleValid w || wfld w 31 21 != 0) then [1] else []) ++
    (((s.gangMembers g (wfld v 5 0)).filter (fun w => handleValid w && hGang w)).flatMap
      (fun w => s.nestedErrs g (hGangNo w) 1 5)) ++
    (if 1 ≤ s.gangMcount g ∧ (wfld (s.gangSpan g) 31 23 = 0 ∨ 2048 ≤ s.gangModule g (s.gangMcount g - 1)) then [4] else []) ++
    (if wfld v 5 0 = 0 ∨ 48 < wfld v 5 0 then [5] else []) ++ (if 2 ≤ wfld v 25 24 then [8] else []) := rfl

theorem mem_gangMembers {s : State} {g n : Nat} {w : Word} : w ∈ s.gangMembers g n ↔ ∃ j, j < n ∧ j < 48 ∧ s.gangMember g j = w := by
  simp only [State.gangMembers, List.mem_map, List.mem_range, Nat.lt_min, and_assoc]

/-- Gang `h`, whose entry has n members, has a member gang `k`; of the entry being written only valid handles count. -/
def NamesGang (s : State) (g h n k : Nat) : Prop :=
  ∃ j, j < n ∧ j < 48 ∧ hGang (s.gangMember h j) = true ∧ hGangNo (s.gangMember h j) = k ∧
    (h = g → handleValid (s.gangMember h j) = true)

/-- A gang whose members are followed, and one of its member gangs. -/
def FollowsGang (s : State) (g a b : Nat) : Prop := a ≠ g ∧ s.gangValid a = true ∧ NamesGang s g a (s.gangCount a) b

/-- A chain of member gangs from an entry with count members. -/
def GangChain (s : State) (g count : Nat) (hs : List Nat) : Prop :=
  (∀ h, hs.head? = some h → NamesGang s g g count h) ∧ hs.IsChain (FollowsGang s g)

/-- What a chain of L levels that ends at gang x adds to the codes. -/
def GangCode (s : State) (g e L x : Nat) : Prop :=
  (e = 2 ∧ L = 4 ∧ (x = g ∨ s.gangValid x = true)) ∨ (e = 3 ∧ L ≤ 4 ∧ x = g) ∨
    (e = 6 ∧ L ≤ 3 ∧ x ≠ g ∧ s.gangValid x = true ∧ s.gangMcount x ≠ 0)

/-- The member gangs of an entry that is followed. -/
theorem mem_children {s : State} {g h b : Nat} (hne : h ≠ g) :
    b ∈ ((s.gangMembers h (s.gangCount h)).filter hGang).map hGangNo ↔ NamesGang s g h (s.gangCount h) b := by
  simp only [List.mem_map, List.mem_filter, mem_gangMembers, NamesGang]
  constructor
  · rintro ⟨w, ⟨⟨j, hj, h48, rfl⟩, hg⟩, rfl⟩
    exact ⟨j, hj, h48, hg, rfl, fun e => absurd e hne⟩
  · rintro ⟨j, hj, h48, hg, rfl, -⟩
    exact ⟨_, ⟨⟨j, hj, h48, rfl⟩, hg⟩, rfl⟩

section
variable {s : State} {g e h level : Nat}

/-- The chains from a gang that is not followed are that gang alone. -/
theorem chains_of_not_followed (hn : h = g ∨ s.gangValid h = false) :
    (∃ hs x, (h :: hs).IsChain (FollowsGang s g) ∧ (h :: hs).getLast? = some x ∧ GangCode s g e (level + hs.length) x) ↔
      GangCode s g e level h := by
  constructor
  · rintro ⟨hs, x, hc, hx, hcode⟩
    cases hs with
    | nil =>
      obtain rfl : h = x := by simpa using hx
      exact hcode
    | cons b hs =>
      obtain ⟨hne, hv, -⟩ := (List.isChain_cons_cons.1 hc).1
      simp_all
  · exact fun hcode => ⟨[], h, List.isChain_singleton _, rfl, hcode⟩

/-- The chains from a gang that is followed end there or go on with one of its member gangs. -/
theorem chains_of_followed (hne : h ≠ g) (hv : s.gangValid h = true) :
    (∃ hs x, (h :: hs).IsChain (FollowsGang s g) ∧ (h :: hs).getLast? = some x ∧ GangCode s g e (level + hs.length) x) ↔
      GangCode s g e level h ∨ ∃ b, NamesGang s g h (s.gangCount h) b ∧
        ∃ hs x, (b :: hs).IsChain (FollowsGang s g) ∧ (b :: hs).getLast? = some x ∧ GangCode s g e (level + 1 + hs.length) x := by
  constructor
  · rintro ⟨hs, x, hc, hx, hcode⟩
    cases hs with
    | nil =>
      obtain rfl : h = x := by simpa using hx
      exact .inl hcode
    | cons b hs =>
      obtain ⟨⟨-, -, hname⟩, hc⟩ := List.isChain_cons_cons.1 hc
      refine .inr ⟨b, hname, hs, x, hc, by simpa using hx, ?_⟩
      rwa [List.length_cons, Nat.add_comm hs.length, ← Nat.add_assoc] at hcode
  · rintro (hcode | ⟨b, hname, hs, x, hc, hx, hcode⟩)
    · exact ⟨[], h, List.isChain_singleton _, rfl, hcode⟩
    · refine ⟨b :: hs, x, List.isChain_cons_cons.2 ⟨⟨hne, hv, hname⟩, hc⟩, by simpa using hx, ?_⟩
      rwa [List.length_cons, Nat.add_comm hs.length, ← Nat.add_assoc]

theorem gangCode_four_lt {L x : Nat} (h : 4 < L) : ¬ GangCode s g e L x := by
  unfold GangCode
  omega

end

/-- The codes below gang `h` at a level are those of the chains that start there (R58). -/
theorem mem_nestedErrs {s : State} {g e : Nat} (fuel : Nat) : ∀ (h level : Nat), level + fuel = 6 → level ≤ 4 →
    (e ∈ s.nestedErrs g h level fuel ↔ ∃ hs x, (h :: hs).IsChain (FollowsGang s g) ∧ (h :: hs).getLast? = some x ∧
      GangCode s g e (level + hs.length) x) := by
  induction fuel with
  | zero => intro h level h6 h4; omega
  | succ fuel ih =>
    intro h level h6 h4
    unfold State.nestedErrs
    by_cases hg : h = g
    · rw [if_pos hg, chains_of_not_followed (.inl hg), List.mem_append, GangCode]
      by_cases h3 : 3 < level
      · simp [h3, hg]; omega
      · simp [h3, hg]; omega
    rw [if_neg hg]
    cases hv : s.gangValid h with
    | false =>
      rw [chains_of_not_followed (.inr hv), GangCode]
      simp [hg, hv]
    | true =>
      rw [chains_of_followed hg hv, GangCode]
      by_cases h3 : 3 < level
      · have hnone : ∀ b, ¬ ∃ hs x, (b :: hs).IsChain (FollowsGang s g) ∧ (b :: hs).getLast? = some x ∧
            GangCode s g e (level + 1 + hs.length) x := fun b ⟨hs, x, _, _, hcode⟩ => gangCode_four_lt (by omega) hcode
        simp only [hnone, and_false, exists_false, or_false]
        simp [h3, hg, hv]; omega
      · have hchild : e ∈ ((s.gangMembers h (s.gangCount h)).filter hGang).flatMap
            (fun w => s.nestedErrs g (hGangNo w) (level + 1) fuel) ↔
            ∃ b, NamesGang s g h (s.gangCount h) b ∧ e ∈ s.nestedErrs g b (level + 1) fuel := by
          simp only [← mem_children hg, List.mem_flatMap, List.mem_map]
          constructor
          · rintro ⟨w, hw, he⟩
            exact ⟨_, ⟨w, hw, rfl⟩, he⟩
          · rintro ⟨-, ⟨w, hw, rfl⟩, he⟩
            exact ⟨w, hw, he⟩
        simp only [← ih _ (level + 1) (by omega) (by omega), ← hchild]
        have hle : level ≤ 3 := by omega
        have hne : level ≠ 4 := by omega
        by_cases hm : s.gangMcount h = 0
        · simp [h3, hne, hm, hg]
        · simp [h3, hne, hle, hm, hg, hv]

/-- The codes of the chains of an entry with count members. -/
theorem mem_nestedErrs_of_entry {s : State} {g count e : Nat} :
    e ∈ ((s.gangMembers g count).filter (fun w => handleValid w && hGang w)).flatMap (fun w => s.nestedErrs g (hGangNo w) 1 5) ↔
      ∃ hs x, GangChain s g count hs ∧ hs.getLast? = some x ∧ GangCode s g e hs.length x := by
  simp only [List.mem_flatMap, List.mem_filter, mem_gangMembers, mem_nestedErrs 5 _ 1 rfl (by omega)]
  constructor
  · rintro ⟨w, ⟨⟨j, hj, h48, rfl⟩, hw⟩, hs, x, hc, hx, hcode⟩
    rw [Bool.and_eq_true] at hw
    refine ⟨_ :: hs, x, ⟨fun h hh => ?_, hc⟩, hx, by rwa [List.length_cons, Nat.add_comm]⟩
    obtain rfl : hGangNo (s.gangMember g j) = h := by simpa using hh
    exact ⟨j, hj, h48, hw.2, rfl, fun _ => hw.1⟩
  · rintro ⟨hs, x, ⟨hhead, hc⟩, hx, hcode⟩
    cases hs with
    | nil => cases hx
    | cons h hs =>
      obtain ⟨j, hj, h48, hg, rfl, hv⟩ := hhead h rfl
      exact ⟨_, ⟨⟨j, hj, h48, rfl⟩, by simp [hv rfl, hg]⟩, hs, x, hc, hx, by rwa [List.length_cons, Nat.add_comm] at hcode⟩

/-- Nested gangs give the codes 2, 3 and 6 only. -/
theorem gangCode_cases {s : State} {g e L x : Nat} (h : GangCode s g e L x) : e = 2 ∨ e = 3 ∨ e = 6 := by
  unfold GangCode at h
  omega

/-- Which codes of R58 apply to a gang entry. -/
theorem mem_gangErrs {s : State} {g : Nat} {v : Word} {e : Nat} : e ∈ s.gangErrs g v ↔
    (e = 1 ∧ ∃ j, j < wfld v 5 0 ∧ j < 48 ∧ (handleValid (s.gangMember g j) = false ∨ wfld (s.gangMember g j) 31 21 ≠ 0)) ∨
    (∃ hs x, GangChain s g (wfld v 5 0) hs ∧ hs.getLast? = some x ∧ GangCode s g e hs.length x) ∨
    (e = 4 ∧ 1 ≤ s.gangMcount g ∧ (wfld (s.gangSpan g) 31 23 = 0 ∨ 2048 ≤ s.gangModule g (s.gangMcount g - 1))) ∨
    (e = 5 ∧ (wfld v 5 0 = 0 ∨ 48 < wfld v 5 0)) ∨ (e = 8 ∧ 2 ≤ wfld v 25 24) := by
  have hone : (s.gangMembers g (wfld v 5 0)).any (fun w => !handleValid w || wfld w 31 21 != 0) = true ↔
      ∃ j, j < wfld v 5 0 ∧ j < 48 ∧ (handleValid (s.gangMember g j) = false ∨ wfld (s.gangMember g j) 31 21 ≠ 0) := by
    simp only [List.any_eq_true, mem_gangMembers, Bool.or_eq_true, Bool.not_eq_true', bne_iff_ne]
    constructor
    · rintro ⟨w, ⟨j, hj, h48, rfl⟩, hw⟩
      exact ⟨j, hj, h48, hw⟩
    · rintro ⟨j, hj, h48, hw⟩
      exact ⟨_, ⟨j, hj, h48, rfl⟩, hw⟩
  have hmem : ∀ (p : Prop) [Decidable p] (k : Nat), e ∈ (if p then [k] else []) ↔ e = k ∧ p := fun p _ k => by
    split <;> simp [*]
  rw [gangErrs_eq]
  simp only [List.mem_append, hmem, hone, mem_nestedErrs_of_entry, or_assoc]

theorem mem_gangErrs_unnested {s : State} {g : Nat} {v : Word} {e : Nat} (h : e ≠ 2 ∧ e ≠ 3 ∧ e ≠ 6) : e ∈ s.gangErrs g v ↔
    (e = 1 ∧ ∃ j, j < wfld v 5 0 ∧ j < 48 ∧ (handleValid (s.gangMember g j) = false ∨ wfld (s.gangMember g j) 31 21 ≠ 0)) ∨
    (e = 4 ∧ 1 ≤ s.gangMcount g ∧ (wfld (s.gangSpan g) 31 23 = 0 ∨ 2048 ≤ s.gangModule g (s.gangMcount g - 1))) ∨
    (e = 5 ∧ (wfld v 5 0 = 0 ∨ 48 < wfld v 5 0)) ∨ (e = 8 ∧ 2 ≤ wfld v 25 24) := by
  have hno : ¬ ∃ hs x, GangChain s g (wfld v 5 0) hs ∧ hs.getLast? = some x ∧ GangCode s g e hs.length x :=
    fun ⟨_, _, _, _, hcode⟩ => by have := gangCode_cases hcode; omega
  rw [mem_gangErrs]
  simp only [hno, false_or]

theorem mem_gangErrs_nested {s : State} {g : Nat} {v : Word} {e : Nat} (h : e = 2 ∨ e = 3 ∨ e = 6) : e ∈ s.gangErrs g v ↔
    ∃ hs x, GangChain s g (wfld v 5 0) hs ∧ hs.getLast? = some x ∧ GangCode s g e hs.length x := by
  have h1 : e ≠ 1 := by omega
  have h4 : e ≠ 4 := by omega
  have h5 : e ≠ 5 := by omega
  have h8 : e ≠ 8 := by omega
  rw [mem_gangErrs]
  simp only [h1, h4, h5, h8, false_and, false_or, or_false]

theorem gangErrs_le {s : State} {g : Nat} {v : Word} {e : Nat} (h : e ∈ s.gangErrs g v) : e < 64 := by
  rcases mem_gangErrs.1 h with ⟨rfl, -⟩ | ⟨_, _, _, _, hcode⟩ | ⟨rfl, -⟩ | ⟨rfl, -⟩ | ⟨rfl, -⟩
  case inr.inl => have := gangCode_cases hcode; omega
  all_goals omega

/-! ### Gang entries: the write (R58) -/

/-- The word of a gang entry as it is written, its valid bit apart. -/
def gangWord (v : Word) (err : Nat) : Word :=
  ((((0 : Word) |> (wset · 25 24 (wfld v 25 24))) |> (wset · 5 0 (wfld v 5 0))) |> (wset · 13 8 err))

theorem gangWord_valid (v : Word) (err : Nat) : (gangWord v err).getLsbD 31 = false :=
  getLsbD_wset_below _ (by omega) (by omega) (getLsbD_wset_below _ (by omega) (by omega)
    (getLsbD_wset_below _ (by omega) (by omega) rfl))

theorem gangWord_count (v : Word) (err : Nat) : wfld (gangWord v err) 5 0 = wfld v 5 0 := by
  unfold gangWord
  rw [wfld_wset_other _ _ _ _ _ _ (by omega) (by omega) (.inl (by omega)), wfld_wset_same _ _ _ _ (by omega) (by omega)]
  exact Nat.mod_eq_of_lt (wfld_lt v 5 0)

theorem gangWord_rule (v : Word) (err : Nat) : wfld (gangWord v err) 25 24 = wfld v 25 24 := by
  unfold gangWord
  rw [wfld_wset_other _ _ _ _ _ _ (by omega) (by omega) (.inr (by omega)),
    wfld_wset_other _ _ _ _ _ _ (by omega) (by omega) (.inr (by omega)), wfld_wset_same _ _ _ _ (by omega) (by omega)]
  exact Nat.mod_eq_of_lt (wfld_lt v 25 24)

theorem regAlias_dcGangCtrl {die slot : Nat} (hd : die < 98) (hs : slot < gangSlotsOn die) :
    regAlias (Reg.dcGangCtrl die slot) = Reg.dcGangCtrl die slot := by
  have : gangSlotsOn die ≤ 103 := by unfold gangSlotsOn; split_ifs <;> omega
  rw [Reg.dcGangCtrl, Nat.add_assoc]
  exact regAlias_setupBase_of_lt hd (by omega)

/-- A control register written with a word: the bits and fields it then has. -/
theorem setReg_entry (s : State) {a : Nat} (w : Word) (ha : regAlias a = a) :
    OnlyRegs [a] s (s.setReg a w) ∧ (s.setReg a w).flag a 31 = w.getLsbD 31 ∧ ∀ hi lo, (s.setReg a w).fld a hi lo = wfld w hi lo := by
  refine ⟨onlyRegs_setReg _ _ _, ?_, fun hi lo => ?_⟩
  · rw [State.flag, State.reg_setReg_same _ _ _ ha]
  · rw [State.fld, State.reg_setReg_same _ _ _ ha]

/-- A write of a gang entry's control word (R58). -/
theorem gangCtrlWrite_spec (s : State) {die slot : Nat} (v : Word) (hd : die < 98) (hs : slot < gangSlotsOn die) :
    let a := Reg.dcGangCtrl die slot
    let errs := s.gangErrs (slot * 40 + die) v
    let t := s.gangCtrlWrite die slot v
    OnlyRegs [a] s t ∧
      if bit v 31 = false then t.flag a 31 = false ∧ t.fld a 13 8 = s.fld a 13 8
      else if errs = [] then t.flag a 31 = true ∧ t.fld a 13 8 = 0 ∧ t.fld a 5 0 = wfld v 5 0 ∧ t.fld a 25 24 = wfld v 25 24
      else t.flag a 31 = false ∧ t.fld a 13 8 ∈ errs ∧ ∀ e ∈ errs, t.fld a 13 8 ≤ e := by
  intro a errs t
  have ha : regAlias a = a := regAlias_dcGangCtrl hd hs
  have hold : s.fld a 13 8 % 64 = s.fld a 13 8 := Nat.mod_eq_of_lt (wfld_lt (s.reg a) 13 8)
  have herr : ∀ e, wfld (gangWord v e) 13 8 = e % 64 := fun e => wfld_wset_same _ _ _ _ (by omega) (by omega)
  cases hv : bit v 31 with
  | false =>
    have ht : t = s.setReg a (gangWord v (s.fld a 13 8)) := by simp only [t, State.gangCtrlWrite, hv]; rfl
    obtain ⟨honly, hflag, hfld⟩ := setReg_entry s (gangWord v (s.fld a 13 8)) ha
    rw [ht, if_pos rfl, hflag, hfld, herr, hold]
    exact ⟨honly, gangWord_valid _ _, rfl⟩
  | true =>
    rw [if_neg (by simp)]
    cases hlow : lowest (errs.map some) with
    | some e =>
      obtain ⟨hm, hle⟩ := lowest_map_some hlow
      have hmod : e % 64 = e := Nat.mod_eq_of_lt (gangErrs_le hm)
      have ht : t = s.setReg a (wset (gangWord v (s.fld a 13 8)) 13 8 e) := by
        simp only [t, State.gangCtrlWrite, hv, if_true]
        rw [hlow]
        rfl
      obtain ⟨honly, hflag, hfld⟩ := setReg_entry s (wset (gangWord v (s.fld a 13 8)) 13 8 e) ha
      obtain ⟨h31, h13⟩ := entryWord_err e (gangWord_valid v (s.fld a 13 8))
      rw [ht, if_neg (List.ne_nil_of_mem hm), hflag, hfld, h13, hmod]
      exact ⟨honly, h31, hm, hle⟩
    | none =>
      have ht : t = s.setReg a (wset (wset (gangWord v (s.fld a 13 8)) 13 8 0) 31 31 1) := by
        simp only [t, State.gangCtrlWrite, hv, if_true]
        rw [hlow]
        rfl
      obtain ⟨honly, hflag, hfld⟩ := setReg_entry s (wset (wset (gangWord v (s.fld a 13 8)) 13 8 0) 31 31 1) ha
      obtain ⟨h31, hkeep⟩ := entryWord_valid (wset (gangWord v (s.fld a 13 8)) 13 8 0)
      rw [ht, if_pos (lowest_map_some_none.1 hlow), hflag]
      simp only [hfld]
      refine ⟨honly, h31, ?_, ?_, ?_⟩
      · rw [hkeep _ _ (by omega), wfld_wset_same _ _ _ _ (by omega) (by omega)]
        rfl
      · rw [hkeep _ _ (by omega), wfld_wset_other _ _ _ _ _ _ (by omega) (by omega) (.inl (by omega)), gangWord_count]
      · rw [hkeep _ _ (by omega), wfld_wset_other _ _ _ _ _ _ (by omega) (by omega) (.inr (by omega)), gangWord_rule]

end Sys2Proof
end

section
/-! SUPPORT. O20: parameter-group and power-group entries (R268, R412). -/

namespace Sys2Proof

open Machine

/-! ### Parameter groups (R268) -/

/-- The word of a parameter-group entry, its err and valid bit apart. -/
def paramWord (v : Word) : Word :=
  ((((0 : Word) |> (wset · 30 30 (wfld v 30 30))) |> (wset · 27 16 (wfld v 27 16))) |> (wset · 7 0 (wfld v 7 0)))

theorem paramWord_valid (v : Word) : (paramWord v).getLsbD 31 = false :=
  getLsbD_wset_below _ (by omega) (by omega) (getLsbD_wset_below _ (by omega) (by omega)
    (getLsbD_wset_below _ (by omega) (by omega) rfl))

theorem paramWord_err (v : Word) : wfld (paramWord v) 13 8 = 0 := by
  unfold paramWord
  rw [wfld_wset_other _ _ _ _ _ _ (by omega) (by omega) (.inr (by omega)),
    wfld_wset_other _ _ _ _ _ _ (by omega) (by omega) (.inl (by omega)),
    wfld_wset_other _ _ _ _ _ _ (by omega) (by omega) (.inl (by omega))]
  rfl

theorem regAlias_dcPgCtrl {die slot : Nat} (hs : slot < gangSlotsOn die) : regAlias (Reg.dcPgCtrl die slot) = Reg.dcPgCtrl die slot := by
  have : gangSlotsOn die ≤ 103 := by unfold gangSlotsOn; split_ifs <;> omega
  rw [Reg.dcPgCtrl, Nat.add_assoc]
  exact regAlias_setupBase (by omega)

/-- The first of three checks that fails. -/
theorem lowest_three (p q r : Prop) [Decidable p] [Decidable q] [Decidable r] :
    lowest [if p then none else some 1, if q then none else some 2, if r then none else some 3] =
      if ¬ p then some 1 else if ¬ q then some 2 else if ¬ r then some 3 else none := by
  split_ifs <;> rfl

/-- A write of a parameter group's control word (R268). -/
theorem pgCtrlWrite_spec (s : State) {die slot : Nat} (v : Word) (hs : slot < gangSlotsOn die) :
    let a := Reg.dcPgCtrl die slot
    let t := s.pgCtrlWrite die slot v
    OnlyRegs [a] s t ∧
      if bit v 31 = false then t.flag a 31 = false ∧ t.fld a 13 8 = s.fld a 13 8
      else match lowest (s.pgErrs die slot v) with
        | some e => t.flag a 31 = false ∧ t.fld a 13 8 = e % 64
        | none => t.flag a 31 = true ∧ t.fld a 13 8 = 0 := by
  intro a t
  have ha : regAlias a = a := regAlias_dcPgCtrl hs
  have hold : s.fld a 13 8 % 64 = s.fld a 13 8 := Nat.mod_eq_of_lt (wfld_lt (s.reg a) 13 8)
  cases hv : bit v 31 with
  | false =>
    have ht : t = s.setReg a (wset (paramWord v) 13 8 (s.fld a 13 8)) := by simp only [t, State.pgCtrlWrite, hv]; rfl
    obtain ⟨honly, hflag, hfld⟩ := setReg_entry s (wset (paramWord v) 13 8 (s.fld a 13 8)) ha
    obtain ⟨h31, h13⟩ := entryWord_err (s.fld a 13 8) (paramWord_valid v)
    rw [ht, if_pos rfl, hflag, hfld, h13, hold]
    exact ⟨honly, h31, rfl⟩
  | true =>
    rw [if_neg (by simp)]
    cases hlow : lowest (s.pgErrs die slot v) with
    | some e =>
      have ht : t = s.setReg a (wset (paramWord v) 13 8 e) := by
        simp only [t, State.pgCtrlWrite, hv, if_true, hlow]
        rfl
      obtain ⟨honly, hflag, hfld⟩ := setReg_entry s (wset (paramWord v) 13 8 e) ha
      obtain ⟨h31, h13⟩ := entryWord_err e (paramWord_valid v)
      rw [ht]
      exact ⟨honly, hflag.trans h31, (hfld _ _).trans h13⟩
    | none =>
      have ht : t = s.setReg a (wset (paramWord v) 31 31 1) := by
        simp only [t, State.pgCtrlWrite, hv, if_true, hlow]
        rfl
      obtain ⟨honly, hflag, hfld⟩ := setReg_entry s (wset (paramWord v) 31 31 1) ha
      obtain ⟨h31, hkeep⟩ := entryWord_valid (paramWord v)
      rw [ht]
      exact ⟨honly, hflag.trans h31, (hfld _ _).trans ((hkeep _ _ (by omega)).trans (paramWord_err v))⟩

/-! ### Power groups (R412) -/

theorem mem_grpErrs {s : State} {g : Nat} {v : Word} {e : Nat} : e ∈ s.grpErrs g v ↔
    (e = 1 ∧ ∃ h, h ∈ s.validGroups ∧ h ≠ g ∧ ∃ d, d < 40 ∧ s.grpHas g d = true ∧ s.grpHas h d = true) ∨
    (e = 2 ∧ 1 ≤ wfld (s.reg (Reg.pwGrpSpan g)) 22 11 ∧ (wfld (s.reg (Reg.pwGrpSpan g)) 31 23 = 0 ∨
      2048 ≤ wfld (s.reg (Reg.pwGrpSpan g)) 10 0 + (wfld (s.reg (Reg.pwGrpSpan g)) 22 11 - 1) * wfld (s.reg (Reg.pwGrpSpan g)) 31 23)) ∨
    (e = 3 ∧ bit v 30 = true ∧ ¬ (6000 ≤ s.fld (Reg.pwGrpShare g) 15 0 ∧ s.fld (Reg.pwGrpShare g) 15 0 ≤ 16000)) := by
  have hmem : ∀ (p : Prop) [Decidable p] (k : Nat), e ∈ (if p then [k] else []) ↔ e = k ∧ p := fun p _ k => by
    split <;> simp [*]
  have hone : ((s.validGroups.filter (fun h => h != g)).any (fun h => (List.range 40).any (fun d => s.grpHas g d && s.grpHas h d)) = true) ↔
      ∃ h, h ∈ s.validGroups ∧ h ≠ g ∧ ∃ d, d < 40 ∧ s.grpHas g d = true ∧ s.grpHas h d = true := by
    simp only [List.any_eq_true, List.mem_filter, List.mem_range, bne_iff_ne, Bool.and_eq_true, and_assoc]
  unfold State.grpErrs
  simp only [List.mem_append, hmem, hone, or_assoc]

/-- The row found is one of the rows, and counts the register's index. -/
theorem findRow_mem {rows : List RegRow} {die off : Nat} {r : RegRow} {i j : Nat} (h : findRow rows die off = some (r, i, j)) :
    r ∈ rows ∧ i < r.count die := by
  induction rows with
  | nil => cases h
  | cons x rows ih =>
    unfold findRow at h
    split at h
    · rename_i i' j' hx
      split at h
      · obtain ⟨rfl, rfl, rfl⟩ : x = r ∧ i' = i ∧ j' = j := by simpa using h
        refine ⟨by simp, ?_⟩
        unfold RegRow.index at hx
        split at hx
        · cases hx
        · dsimp only at hx
          split at hx
          · rename_i hb
            obtain ⟨rfl, -⟩ : _ = i' ∧ _ := by simpa using hx
            exact hb.1
          · cases hx
      · cases h
    · obtain ⟨hm, hi⟩ := ih h
      exact ⟨List.mem_cons_of_mem _ hm, hi⟩

theorem fieldsReset_lt : ∀ r ∈ regRows, 0 < r.count 99 → fieldsReset r.fields < 2 ^ 31 := by decide +kernel

/-- No register of SM's die has bit 31 set at reset. -/
theorem regReset_sm {off : Nat} (h : off < 0x1000000) : (regReset (Reg.setupBase 99 + off)).getLsbD 31 = false := by
  have hdie : (Reg.setupBase 99 + off - Reg.setupBase 0) / 0x1000000 = 99 := by unfold Reg.setupBase; omega
  unfold regReset
  rw [hdie]
  split
  · rename_i r i j hrow
    rw [regAt, if_neg (by unfold Reg.setupBase; omega), hdie] at hrow
    obtain ⟨hm, hi⟩ := findRow_mem hrow
    rw [RegRow.resetVal, if_neg (by simp [isCd]), if_neg (by simp), BitVec.getLsbD_ofNat]
    simp [Nat.testBit_lt_two_pow (fieldsReset_lt r hm (by omega))]
  · rfl

/-- In a canonical map an entry is what its key reads. -/
theorem lookup_of_mem {α : Type} {d : Nat → α} {m : List (Nat × α)} (h : Canonical d m) {p : Nat × α} (hp : p ∈ m) :
    lookup d m p.1 = p.2 := by
  obtain ⟨hsort, -⟩ := h
  induction m with
  | nil => cases hp
  | cons q m ih =>
    obtain ⟨hq, hsort⟩ := List.pairwise_cons.1 hsort
    rcases List.mem_cons.1 hp with rfl | hp
    · simp [lookup]
    · have hne : q.1 ≠ p.1 := (hq p hp).ne
      simp only [lookup, if_neg hne]
      exact ih hp hsort

/-- A key that reads something else than unlisted has an entry. -/
theorem mem_of_lookup_ne {α : Type} {d : Nat → α} {m : List (Nat × α)} {k : Nat} (h : lookup d m k ≠ d k) :
    (k, lookup d m k) ∈ m := by
  induction m with
  | nil => exact absurd rfl h
  | cons q m ih =>
    by_cases hq : q.1 = k
    · simp only [lookup, if_pos hq] at h ⊢
      simp [← hq]
    · simp only [lookup, if_neg hq] at h ⊢
      exact List.mem_cons_of_mem _ (ih h)

theorem regAlias_pwGrp {off : Nat} (h : off < 0x100000) : regAlias (Reg.setupBase 99 + (0x110000 + off)) = Reg.setupBase 99 + (0x110000 + off) :=
  regAlias_setupBase (by omega)

theorem pwGrpCtrl_eq (g : Nat) : Reg.pwGrpCtrl g = Reg.setupBase 99 + (0x110000 + 0x20 * g) := by rw [Reg.pwGrpCtrl, Nat.add_assoc]

theorem regAlias_pwGrpCtrl {g : Nat} (h : g < 4096) : regAlias (Reg.pwGrpCtrl g) = Reg.pwGrpCtrl g := by
  rw [pwGrpCtrl_eq]
  exact regAlias_pwGrp (by omega)

/-- The valid groups are those whose control word says so. -/
theorem mem_validGroups {s : State} (hs : s.Wf) {h : Nat} :
    h ∈ s.validGroups ↔ h < 4096 ∧ s.flag (Reg.pwGrpCtrl h) 31 = true := by
  have hread : h < 4096 → s.flag (Reg.pwGrpCtrl h) 31 = (lookup regReset s.regs (Reg.pwGrpCtrl h)).getLsbD 31 := fun hh => by
    rw [State.flag, State.reg, regAlias_pwGrpCtrl hh]
  unfold State.validGroups
  rw [List.mem_filterMap]
  constructor
  · rintro ⟨p, hp, hx⟩
    split at hx
    · rename_i hcond
      obtain ⟨hlo, hhi, hmod, hbit⟩ := hcond
      have hh : (p.1 - Reg.pwGrpCtrl 0) / 0x20 = h := by simpa using hx
      have hkey : p.1 = Reg.pwGrpCtrl h := by unfold Reg.pwGrpCtrl at *; omega
      have hlt : h < 4096 := by unfold Reg.pwGrpCtrl at *; omega
      exact ⟨hlt, by rw [hread hlt, ← hkey, lookup_of_mem hs.regs hp]; exact hbit⟩
    · cases hx
  · rintro ⟨hlt, hflag⟩
    rw [hread hlt] at hflag
    have hreset : (regReset (Reg.pwGrpCtrl h)).getLsbD 31 = false := by
      rw [pwGrpCtrl_eq]
      exact regReset_sm (by omega)
    have hne : lookup regReset s.regs (Reg.pwGrpCtrl h) ≠ regReset (Reg.pwGrpCtrl h) := fun e => by
      rw [e, hreset] at hflag
      cases hflag
    refine ⟨_, mem_of_lookup_ne hne, ?_⟩
    rw [if_pos ⟨by unfold Reg.pwGrpCtrl; omega, by unfold Reg.pwGrpCtrl; omega, by unfold Reg.pwGrpCtrl; omega, hflag⟩]
    exact congrArg some (by unfold Reg.pwGrpCtrl; omega)

/-- Evaluating every die leaves the registers of SM's die. -/
theorem evalAll_frame (s : State) : OnlyControl s s.evalAll ∧
    ∀ a, (∀ die, die < 40 → regAlias a ≠ Reg.pwDieStatus die) → s.evalAll.reg a = s.reg a := by
  have key : ∀ (l : List Nat), (∀ d ∈ l, d < 40) → ∀ s : State, OnlyControl s (l.foldl (fun s d => s.evalDie d) s) ∧
      ∀ a, (∀ die, die < 40 → regAlias a ≠ Reg.pwDieStatus die) → (l.foldl (fun s d => s.evalDie d) s).reg a = s.reg a := by
    intro l
    induction l with
    | nil => exact fun _ s => ⟨.refl s, fun _ _ => rfl⟩
    | cons d l ih =>
      intro hl s
      rw [List.forall_mem_cons] at hl
      obtain ⟨hframe, hreg⟩ := ih hl.2 (s.evalDie d)
      exact ⟨(OnlyControl.evalDie s d).trans hframe, fun a ha => (hreg a ha).trans (State.reg_evalDie s (ha d hl.1))⟩
  exact key _ (fun d hd => List.mem_range.1 hd) s

theorem pwGrpCtrl_ne_pwDieStatus {g die : Nat} : Reg.pwGrpCtrl g ≠ Reg.pwDieStatus die := by
  unfold Reg.pwGrpCtrl Reg.pwDieStatus Reg.setupBase
  omega

/-- What a control word written and what follows of it leave. -/
theorem evalAll_setReg {s u : State} {g : Nat} (w : Word) (hg : g < 4096) (hu : OnlyControl (s.setReg (Reg.pwGrpCtrl g) w) u)
    (hreg : u.regs = (s.setReg (Reg.pwGrpCtrl g) w).regs) :
    u.evalAll.mem = s.mem ∧ u.evalAll.flights = s.flights ∧ u.evalAll.flag (Reg.pwGrpCtrl g) 31 = w.getLsbD 31 ∧
      u.evalAll.fld (Reg.pwGrpCtrl g) 13 8 = wfld w 13 8 := by
  obtain ⟨hframe, hkeep⟩ := evalAll_frame u
  have ha := regAlias_pwGrpCtrl hg
  have hr : u.evalAll.reg (Reg.pwGrpCtrl g) = w := by
    rw [hkeep _ (fun die _ => by rw [ha]; exact pwGrpCtrl_ne_pwDieStatus), State.reg_congr hreg, State.reg_setReg_same _ _ _ ha]
  exact ⟨hframe.mem.trans hu.mem, hframe.flights.trans hu.flights, by rw [State.flag, hr], by rw [State.fld, hr]⟩

/-- A write of a power group's control word (R412). -/
theorem grpCtrlWrite_spec (s : State) {g : Nat} (v : Word) (hg : g < 4096) :
    let a := Reg.pwGrpCtrl g
    let errs := s.grpErrs g v
    let t := s.grpCtrlWrite g v
    t.mem = s.mem ∧ t.flights = s.flights ∧
      if bit v 31 = false then t.flag a 31 = false ∧ t.fld a 13 8 = s.fld a 13 8
      else if errs = [] then t.flag a 31 = true ∧ t.fld a 13 8 = 0
      else t.flag a 31 = false ∧ t.fld a 13 8 ∈ errs ∧ ∀ e ∈ errs, t.fld a 13 8 ≤ e := by
  intro a errs t
  let base := wset (wset 0 30 30 (wfld v 30 30)) 13 8 (s.fld a 13 8)
  have hold : s.fld a 13 8 % 64 = s.fld a 13 8 := Nat.mod_eq_of_lt (wfld_lt (s.reg a) 13 8)
  have h30 : (wset 0 30 30 (wfld v 30 30)).getLsbD 31 = false := getLsbD_wset_below _ (by omega) (by omega) rfl
  obtain ⟨hb31, hb13⟩ := entryWord_err (s.fld a 13 8) h30
  cases hv : bit v 31 with
  | false =>
    have ht : t = ((s.setReg a base).dropGroup g).evalAll := by simp only [t, State.grpCtrlWrite, hv]; rfl
    obtain ⟨hm, hf, hflag, hfld⟩ := evalAll_setReg (s := s) (u := (s.setReg a base).dropGroup g) base hg rfl rfl
    rw [ht, if_pos rfl, hflag, hfld]
    exact ⟨hm, hf, hb31, hb13.trans hold⟩
  | true =>
    rw [if_neg (by simp)]
    cases hlow : lowest (errs.map some) with
    | some e =>
      obtain ⟨hmem, hle⟩ := lowest_map_some hlow
      have hmod : e % 64 = e := by
        rcases mem_grpErrs.1 hmem with ⟨rfl, -⟩ | ⟨rfl, -⟩ | ⟨rfl, -⟩ <;> rfl
      have ht : t = ((s.setReg a (wset base 13 8 e)).dropGroup g).evalAll := by
        simp only [t, State.grpCtrlWrite, hv, if_true]
        rw [hlow]
      obtain ⟨hm, hf, hflag, hfld⟩ :=
        evalAll_setReg (s := s) (u := (s.setReg a (wset base 13 8 e)).dropGroup g) (wset base 13 8 e) hg rfl rfl
      obtain ⟨h31, h13⟩ := entryWord_err e hb31
      rw [ht, if_neg (List.ne_nil_of_mem hmem), hflag, hfld, h13, hmod]
      exact ⟨hm, hf, h31, hmem, hle⟩
    | none =>
      have ht : t = (s.setReg a (wset (wset base 13 8 0) 31 31 1)).evalAll := by
        simp only [t, State.grpCtrlWrite, hv, if_true]
        rw [hlow]
      obtain ⟨hm, hf, hflag, hfld⟩ :=
        evalAll_setReg (s := s) (u := s.setReg a (wset (wset base 13 8 0) 31 31 1)) (wset (wset base 13 8 0) 31 31 1) hg rfl rfl
      obtain ⟨h31, hkeep⟩ := entryWord_valid (wset base 13 8 0)
      rw [ht, if_pos (lowest_map_some_none.1 hlow), hflag, hfld, hkeep _ _ (by omega)]
      exact ⟨hm, hf, h31, wfld_wset_same _ _ _ _ (by omega) (by omega)⟩

/-! ### The three entries -/

/-- Which codes a gang entry's words give, code by code (R58). -/
theorem gangErrs_codes (s : State) (g : Nat) (v : Word) :
    (2 ∈ s.gangErrs g v ↔ ∃ hs h, GangChain s g (wfld v 5 0) hs ∧ hs.length = 4 ∧ hs.getLast? = some h ∧
      (h = g ∨ s.gangValid h = true)) ∧
    (3 ∈ s.gangErrs g v ↔ ∃ hs, GangChain s g (wfld v 5 0) hs ∧ hs.length ≤ 4 ∧ hs.getLast? = some g) ∧
    (6 ∈ s.gangErrs g v ↔ ∃ hs h, GangChain s g (wfld v 5 0) hs ∧ hs.length ≤ 3 ∧ hs.getLast? = some h ∧ h ≠ g ∧
      s.gangValid h = true ∧ s.gangMcount h ≠ 0) := by
  rw [mem_gangErrs_nested (by omega), mem_gangErrs_nested (by omega), mem_gangErrs_nested (by omega)]
  refine ⟨⟨?_, ?_⟩, ⟨?_, ?_⟩, ⟨?_, ?_⟩⟩
  · rintro ⟨hs, x, hc, hx, ⟨-, h4, hv⟩ | ⟨h, -⟩ | ⟨h, -⟩⟩
    · exact ⟨hs, x, hc, h4, hx, hv⟩
    · cases h
    · cases h
  · rintro ⟨hs, x, hc, h4, hx, hv⟩
    exact ⟨hs, x, hc, hx, .inl ⟨rfl, h4, hv⟩⟩
  · rintro ⟨hs, x, hc, hx, ⟨h, -⟩ | ⟨-, h4, rfl⟩ | ⟨h, -⟩⟩
    · cases h
    · exact ⟨hs, hc, h4, hx⟩
    · cases h
  · rintro ⟨hs, hc, h4, hx⟩
    exact ⟨hs, g, hc, hx, .inr (.inl ⟨rfl, h4, rfl⟩)⟩
  · rintro ⟨hs, x, hc, hx, ⟨h, -⟩ | ⟨h, -⟩ | ⟨-, h3, hv⟩⟩
    · cases h
    · cases h
    · exact ⟨hs, x, hc, h3, hx, hv⟩
  · rintro ⟨hs, x, hc, h3, hx, hv⟩
    exact ⟨hs, x, hc, hx, .inr (.inr ⟨rfl, h3, hv⟩)⟩

/-- The checks of a parameter group's words in their order (R268). -/
theorem pgErrs_lowest (s : State) (die slot : Nat) (v : Word) :
    let beta (f : Nat → Nat → Nat) := betaOk (s.reg (f die slot))
    let ok (f : Nat → Nat → Nat) := nonNegFinite (s.reg (f die slot))
    lowest (s.pgErrs die slot v) =
      if ¬ (beta Reg.dcPgBeta1 = true ∧ beta Reg.dcPgBeta2 = true) then some 1
      else if ¬ (ok Reg.dcPgLr = true ∧ ok Reg.dcPgDecay = true ∧ ok Reg.dcPgClip = true) then some 2
      else if ¬ (-126 ≤ sgn8 (wfld v 7 0) ∧ sgn8 (wfld v 7 0) ≤ -1) then some 3 else none := by
  intro beta ok
  rw [← lowest_three]
  simp only [State.pgErrs, beta, ok, Bool.and_eq_true, and_assoc]

theorem grpHas_eq (s : State) (g : Nat) {d : Nat} (hd : d < 40) : s.grpHas g d =
    if d < 32 then s.flag (Reg.pwGrpDiesLo g) d else s.flag (Reg.pwGrpDiesHi g) (d - 32) := by
  unfold State.grpHas
  simp [hd]

/-- Settles O20: the codes are those of the chains of gangs and of the words' checks; the write keeps the lowest. -/
theorem entriesFollowR58 : Obligations.EntriesFollowR58 := by
  refine ⟨fun s die slot v hd hs hdown => ?_, fun s die slot v hd hs hdown => ?_, fun s g v hg hctl => ?_⟩
  · intro a g span count errs
    obtain ⟨h2, h3, h6⟩ := gangErrs_codes s g v
    refine ⟨⟨_, congrArg Host.Outcome.next (if_pos ⟨hs, hdown⟩), gangCtrlWrite_spec s v hd hs⟩, ?_, ?_, ?_, ?_, h2, h3, h6⟩
    · simp only [errs, mem_gangErrs_unnested (e := 5) (by omega)]
      simp [count]
    · simp only [errs, mem_gangErrs_unnested (e := 8) (by omega)]
      simp
    · simp only [errs, mem_gangErrs_unnested (e := 4) (by omega)]
      simp
      rfl
    · simp only [errs, mem_gangErrs_unnested (e := 1) (by omega)]
      simp [count]
  · intro a beta ok eps
    obtain ⟨honly, hspec⟩ := pgCtrlWrite_spec s v hs
    refine ⟨_, congrArg Host.Outcome.next (if_pos ⟨hs, hdown⟩), honly, ?_⟩
    rw [pgErrs_lowest] at hspec
    by_cases hv : bit v 31 = false
    · rw [if_pos hv] at hspec ⊢
      exact hspec
    rw [if_neg hv] at hspec ⊢
    split_ifs at hspec ⊢ <;> exact hspec
  · intro a errs
    refine ⟨⟨_, congrArg Host.Outcome.next (if_pos hctl), grpCtrlWrite_spec s v hg⟩, fun hwf => ?_, ?_, ?_⟩
    · simp only [errs, mem_grpErrs, mem_validGroups hwf]
      constructor
      · rintro (⟨-, h, ⟨hlt, hflag⟩, hne, d, hd, hg1, hh1⟩ | ⟨h, -⟩ | ⟨h, -⟩)
        · rw [grpHas_eq s _ hd] at hg1 hh1
          exact ⟨h, d, hlt, hne, hflag, hd, hg1, hh1⟩
        · cases h
        · cases h
      · rintro ⟨h, d, hlt, hne, hflag, hd, hg1, hh1⟩
        exact .inl ⟨trivial, h, ⟨hlt, hflag⟩, hne, d, hd, (grpHas_eq s g hd).trans hg1, (grpHas_eq s h hd).trans hh1⟩
    · simp only [errs, mem_grpErrs]
      simp
    · simp only [errs, mem_grpErrs]
      simp

end Sys2Proof
end

section
/-! SUPPORT. O17: running-maximum slots after merges and a close (R88-R92). -/

namespace Sys2Proof

open Machine

/-! ### The registers of the slots -/

/-- The address of a running-maximum slot's register (R89). -/
def SlotReg (a : Nat) : Prop := ∃ die o, 0x80000 ≤ o ∧ o < 0xA0000 ∧ a = Reg.setupBase die + o

/-- Nothing changes but registers of the slots. -/
def OnlySlots (s t : State) : Prop := { t with regs := s.regs } = s ∧ ∀ a, ¬ SlotReg (regAlias a) → t.reg a = s.reg a

namespace OnlySlots

variable {s t u : State}

theorem refl (s : State) : OnlySlots s s := ⟨rfl, fun _ _ => rfl⟩

theorem trans (h : OnlySlots s t) (k : OnlySlots t u) : OnlySlots s u :=
  ⟨(congrArg (fun v : State => { v with regs := s.regs }) k.1).trans h.1, fun a ha => (k.2 a ha).trans (h.2 a ha)⟩

theorem of_onlyRegs {as : List Nat} (h : OnlyRegs as s t) (has : ∀ a ∈ as, SlotReg a) : OnlySlots s t :=
  ⟨h.1, fun a ha => h.2 a fun hm => ha (has _ hm)⟩

theorem setReg {a : Nat} (v : Word) (ha : SlotReg a) : OnlySlots s (s.setReg a v) :=
  of_onlyRegs (onlyRegs_setReg s a v) (by simpa using ha)

theorem putFld {a : Nat} (hi lo v : Nat) (ha : SlotReg a) : OnlySlots s (s.putFld a hi lo v) := setReg _ ha
theorem setFlag {a : Nat} (i : Nat) (b : Bool) (ha : SlotReg a) : OnlySlots s (s.setFlag a i b) := setReg _ ha

theorem foldl {β : Type} {f : State → β → State} {l : List β} (hf : ∀ s, ∀ x ∈ l, OnlySlots s (f s x)) (s : State) :
    OnlySlots s (l.foldl f s) := by
  induction l generalizing s with
  | nil => exact .refl s
  | cons x l ih => exact (hf s x (by simp)).trans (ih (fun s y hy => hf s y (by simp [hy])) _)

end OnlySlots

theorem rmSlotsOn_le (die : Nat) : rmSlotsOn die ≤ 1024 := by unfold rmSlotsOn; split_ifs <;> omega

/-- The register of a slot at an offset. -/
def slotAt (die slot o : Nat) : Nat := Reg.setupBase die + 0x80000 + 0x80 * slot + o

section
variable (die slot : Nat)

theorem slotAt_inj {o p : Nat} : slotAt die slot o = slotAt die slot p ↔ o = p := by unfold slotAt; omega
theorem ruRmCur_eq : Reg.ruRmCur die slot = slotAt die slot 0 := rfl
theorem ruRmCtrl_eq : Reg.ruRmCtrl die slot = slotAt die slot 0x04 := by unfold Reg.ruRmCtrl slotAt; omega
theorem ruRmDepth_eq : Reg.ruRmDepth die slot = slotAt die slot 0x08 := by unfold Reg.ruRmDepth slotAt; omega
theorem ruRmPrev_eq : Reg.ruRmPrev die slot = slotAt die slot 0x0C := by unfold Reg.ruRmPrev slotAt; omega
theorem ruRmShadow_eq : Reg.ruRmShadow die slot = slotAt die slot 0x10 := by unfold Reg.ruRmShadow slotAt; omega
theorem ruRmHist_eq (k : Nat) : Reg.ruRmHist die slot k = slotAt die slot (0x40 + 4 * k) := by unfold Reg.ruRmHist slotAt; omega

end

theorem slotReg_slotAt {die slot o : Nat} (hs : slot < rmSlotsOn die) (ho : o < 0x80) : SlotReg (slotAt die slot o) :=
  ⟨die, 0x80000 + 0x80 * slot + o, by omega, by have := rmSlotsOn_le die; omega, by unfold slotAt; omega⟩

theorem regAlias_of_slotReg {a : Nat} (h : SlotReg a) : regAlias a = a := by
  obtain ⟨die, o, hlo, hhi, rfl⟩ := h
  exact regAlias_setupBase (by omega)

/-! ### A close, register by register (R90) -/

theorem reg_foldl_setReg_other (f : Nat → Nat) (v : Nat → Word) (n : Nat) (s : State) {a : Nat}
    (h : ∀ k < n, regAlias a ≠ f k) : ((List.range n).foldl (fun s k => s.setReg (f k) (v k)) s).reg a = s.reg a := by
  induction n with
  | zero => rfl
  | succ n ih =>
    rw [List.range_succ, List.foldl_append, List.foldl_cons, List.foldl_nil, State.reg_setReg_other _ _ _ _ (h n (by omega))]
    exact ih fun k hk => h k (by omega)

theorem reg_foldl_setReg_same (f : Nat → Nat) (v : Nat → Word) (hinj : ∀ i j, f i = f j → i = j) (n : Nat) (s : State)
    {a k : Nat} (hk : k < n) (ha : regAlias a = f k) :
    ((List.range n).foldl (fun s k => s.setReg (f k) (v k)) s).reg a = v k := by
  induction n with
  | zero => omega
  | succ n ih =>
    rw [List.range_succ, List.foldl_append, List.foldl_cons, List.foldl_nil, State.reg_setReg]
    by_cases hkn : k = n
    · rw [if_pos (by rw [ha, hkn]), hkn]
    · rw [if_neg (fun e => hkn (hinj _ _ (ha ▸ e)))]
      exact ih (by omega)

theorem onlyRegs_rmRules (s : State) (die slot : Nat) : OnlyRegs [Reg.ruRmCtrl die slot] s (s.rmRules die slot) := by
  unfold State.rmRules
  dsimp only
  split_ifs
  · exact onlyRegs_setFlag _ _ _ _
  · exact .refl _ _
  · exact (onlyRegs_putFld _ _ _ _ _).trans_same (onlyRegs_putFld _ _ _ _ _)

theorem regAlias_slotAt {die slot o : Nat} (hs : slot < rmSlotsOn die) (ho : o < 0x80) :
    regAlias (slotAt die slot o) = slotAt die slot o := regAlias_of_slotReg (slotReg_slotAt hs ho)

/-- The rules leave what says that a close can be taken back. -/
theorem flag_rmRules (s : State) {die slot : Nat} (hs : slot < rmSlotsOn die) :
    (s.rmRules die slot).flag (Reg.ruRmCtrl die slot) 28 = s.flag (Reg.ruRmCtrl die slot) 28 := by
  have ha : regAlias (Reg.ruRmCtrl die slot) = Reg.ruRmCtrl die slot := by
    rw [ruRmCtrl_eq]
    exact regAlias_slotAt hs (by omega)
  unfold State.rmRules
  dsimp only
  split_ifs
  · exact State.flag_setFlag_beside _ _ _ _ _ ha (by omega) (by omega)
  · rfl
  · rw [State.flag_putFld_beside _ _ _ _ _ _ ha (by omega) (by omega) (by omega),
      State.flag_putFld_beside _ _ _ _ _ _ ha (by omega) (by omega) (by omega)]

/-- The state of a close before its rules are applied. -/
def closedSlot (s : State) (die slot : Nat) : State :=
  let depth := wfld (s.reg (Reg.ruRmDepth die slot)) 4 0
  let c := s.rmCtrl die slot
  let old := (List.range 16).map (fun k => s.reg (Reg.ruRmHist die slot k))
  let s1 := s.setReg (Reg.ruRmPrev die slot) (BitVec.ofNat 32 (2 ^ 16 * depth + 2 ^ 8 * wfld c 15 8 + wfld c 7 0))
  let s2 := s1.setReg (Reg.ruRmShadow die slot) (old.getD 15 0)
  let s3 := (List.range 15).foldl (fun t k => t.setReg (Reg.ruRmHist die slot (k + 1)) (old.getD k 0)) s2
  let s4 := s3.setReg (Reg.ruRmHist die slot 0) (s3.reg (Reg.ruRmCur die slot))
  let s5 := s4.setReg (Reg.ruRmDepth die slot) (BitVec.ofNat 32 (min 16 (depth + 1)))
  let s6 := s5.setReg (Reg.ruRmCur die slot) 0
  s6.setFlag (Reg.ruRmCtrl die slot) 28 true

theorem rmCloseSlot_eq (s : State) (die slot : Nat) : s.rmCloseSlot die slot = (closedSlot s die slot).rmRules die slot := rfl

/-- A close moves the slot's registers on by one (R90). -/
theorem closedSlot_regs (s : State) {die slot : Nat} (hs : slot < rmSlotsOn die) :
    let t := closedSlot s die slot
    t.reg (Reg.ruRmCur die slot) = 0 ∧ t.reg (Reg.ruRmHist die slot 0) = s.reg (Reg.ruRmCur die slot) ∧
      (∀ k, k < 15 → t.reg (Reg.ruRmHist die slot (k + 1)) = s.reg (Reg.ruRmHist die slot k)) ∧
      t.reg (Reg.ruRmShadow die slot) = s.reg (Reg.ruRmHist die slot 15) ∧
      t.reg (Reg.ruRmDepth die slot) = BitVec.ofNat 32 (min 16 (wfld (s.reg (Reg.ruRmDepth die slot)) 4 0 + 1)) ∧
      t.reg (Reg.ruRmPrev die slot) = BitVec.ofNat 32 (2 ^ 16 * wfld (s.reg (Reg.ruRmDepth die slot)) 4 0 +
        2 ^ 8 * wfld (s.rmCtrl die slot) 15 8 + wfld (s.rmCtrl die slot) 7 0) ∧
      t.flag (Reg.ruRmCtrl die slot) 28 = true := by
  intro t
  have hal : ∀ o, o < 0x80 → regAlias (slotAt die slot o) = slotAt die slot o := fun o ho => regAlias_slotAt hs ho
  have hsame : ∀ (u : State) (o : Nat) (v : Word), o < 0x80 → (u.setReg (slotAt die slot o) v).reg (slotAt die slot o) = v :=
    fun u o v ho => State.reg_setReg_same _ _ _ (hal o ho)
  have hother : ∀ (u : State) (o p : Nat) (v : Word), o < 0x80 → o ≠ p →
      (u.setReg (slotAt die slot p) v).reg (slotAt die slot o) = u.reg (slotAt die slot o) := fun u o p v ho hne =>
    State.reg_setReg_other _ _ _ _ (by rwa [hal o ho, Ne, slotAt_inj])
  have hfold : ∀ (v : Nat → Word) (u : State) (o : Nat), o < 0x44 →
      ((List.range 15).foldl (fun t k => t.setReg (slotAt die slot (0x40 + 4 * (k + 1))) (v k)) u).reg (slotAt die slot o) =
        u.reg (slotAt die slot o) := fun v u o ho =>
    reg_foldl_setReg_other (fun k => slotAt die slot (0x40 + 4 * (k + 1))) v 15 u fun k _ => by
      rw [hal o (by omega), Ne, slotAt_inj]
      omega
  have hhist : ∀ (v : Nat → Word) (u : State) (k : Nat), k < 15 →
      ((List.range 15).foldl (fun t k => t.setReg (slotAt die slot (0x40 + 4 * (k + 1))) (v k)) u).reg
        (slotAt die slot (0x40 + 4 * (k + 1))) = v k := fun v u k hk =>
    reg_foldl_setReg_same (fun k => slotAt die slot (0x40 + 4 * (k + 1))) v (fun i j h => by
      have := (slotAt_inj die slot).1 h
      omega) 15 u hk (hal _ (by omega))
  have hold : ∀ k, k < 16 → ((List.range 16).map (fun k => s.reg (slotAt die slot (0x40 + 4 * k)))).getD k 0 =
      s.reg (slotAt die slot (0x40 + 4 * k)) := fun k hk => by simp [hk]
  simp only [t, closedSlot, ruRmCur_eq, ruRmCtrl_eq, ruRmDepth_eq, ruRmPrev_eq, ruRmShadow_eq, ruRmHist_eq, State.rmCtrl]
  refine ⟨?_, ?_, fun k hk => ?_, ?_, ?_, ?_, State.flag_setFlag_same _ _ _ _ (hal _ (by omega)) (by omega)⟩ <;>
    simp (disch := omega) only [State.setFlag, State.putFld, hsame, hother, hfold, hhist, hold]

/-! ### Merges and closes of a completion (R88, R90, R92) -/

theorem rmStep_toNat {a x : Word} (ha : a.toNat ≤ 0x7F800000) (hx : x.toNat ≤ 0x7F800000) :
    (rmStep a x).toNat = max a.toNat x.toNat := by
  obtain ⟨hfrom, hle, hle'⟩ := rmJoin_some (a := some a) (b := some x) (m := rmStep a x) (by simpa using ha) (by simpa using hx) rfl
  have hla := hle a rfl
  have hlx := hle' x rfl
  rcases hfrom with h | h
  · have := Option.some.inj h
    rw [← this] at hla hlx ⊢
    omega
  · have := Option.some.inj h
    rw [← this] at hla hlx ⊢
    omega

theorem OnlySlots.rmMerge (s : State) {die slot : Nat} (hs : slot < rmSlotsOn die) (x : Word) :
    OnlySlots s (s.rmMerge die slot x) := .setReg _ (slotReg_slotAt (o := 0) hs (by omega))

theorem OnlySlots.rmCloseSlot (s : State) {die slot : Nat} (hs : slot < rmSlotsOn die) : OnlySlots s (s.rmCloseSlot die slot) := by
  have hreg : ∀ (u : State) (o : Nat) (v : Word), o < 0x80 → OnlySlots u (u.setReg (slotAt die slot o) v) :=
    fun u o v ho => .setReg _ (slotReg_slotAt hs ho)
  have hrules : OnlySlots (closedSlot s die slot) ((closedSlot s die slot).rmRules die slot) :=
    .of_onlyRegs (onlyRegs_rmRules _ _ _) (by simpa [ruRmCtrl_eq] using slotReg_slotAt hs (by omega))
  rw [rmCloseSlot_eq]
  refine .trans ?_ hrules
  simp only [closedSlot, ruRmCur_eq, ruRmCtrl_eq, ruRmDepth_eq, ruRmPrev_eq, ruRmShadow_eq, ruRmHist_eq]
  refine .trans (.trans (.trans (.trans (.trans (.trans (hreg _ _ _ (by omega)) (hreg _ _ _ (by omega)))
    (.foldl (fun u k hk => ?_) _)) (hreg _ _ _ (by omega))) (hreg _ _ _ (by omega))) (hreg _ _ _ (by omega))) (hreg _ _ _ (by omega))
  have := List.mem_range.1 hk
  exact hreg _ _ _ (by omega)

theorem OnlySlots.applyMerges (s : State) (all : List (Nat × Nat × Word × Bool)) : OnlySlots s (s.applyMerges all) := by
  refine .trans (.foldl (fun u m hm => ?_) s) (.foldl (fun u m hm => ?_) _)
  · exact .rmMerge u (of_decide_eq_true (List.mem_filter.1 hm).2) _
  · obtain ⟨x, hx, rfl⟩ := List.mem_map.1 (List.mem_dedup.1 hm)
    exact .rmCloseSlot u (of_decide_eq_true (List.mem_filter.1 (List.mem_filter.1 hx).1).2)

theorem applyMerges_one (s : State) {die slot : Nat} (hs : slot < rmSlotsOn die) (x : Word) (close : Bool) :
    s.applyMerges [(die, slot, x, close)] =
      if close then (s.rmMerge die slot x).rmCloseSlot die slot else s.rmMerge die slot x := by
  cases close <;> simp [State.applyMerges, hs]

/-- A merge that does not close its slot. -/
theorem merged_reg (s : State) {die slot : Nat} (hs : slot < rmSlotsOn die) {x : Word} (hx : x.toNat ≤ 0x7F800000)
    (hc : (s.reg (Reg.ruRmCur die slot)).toNat ≤ 0x7F800000) :
    ((s.rmMerge die slot x).reg (Reg.ruRmCur die slot)).toNat = max (s.reg (Reg.ruRmCur die slot)).toNat x.toNat := by
  have ha : regAlias (Reg.ruRmCur die slot) = Reg.ruRmCur die slot := regAlias_slotAt (o := 0) hs (by omega)
  rw [State.rmMerge, State.reg_setReg_same _ _ _ ha]
  exact rmStep_toNat hc hx

/-- A merge that closes its slot (R90). -/
theorem merged_closed (s : State) {die slot : Nat} (hs : slot < rmSlotsOn die) {x : Word} (hx : x.toNat ≤ 0x7F800000)
    (hc : (s.reg (Reg.ruRmCur die slot)).toNat ≤ 0x7F800000) :
    let t := (s.rmMerge die slot x).rmCloseSlot die slot
    t.reg (Reg.ruRmCur die slot) = 0 ∧
      (t.reg (Reg.ruRmHist die slot 0)).toNat = max (s.reg (Reg.ruRmCur die slot)).toNat x.toNat ∧
      (∀ k, k < 15 → t.reg (Reg.ruRmHist die slot (k + 1)) = s.reg (Reg.ruRmHist die slot k)) ∧
      t.reg (Reg.ruRmShadow die slot) = s.reg (Reg.ruRmHist die slot 15) ∧
      (t.reg (Reg.ruRmDepth die slot)).toNat = min 16 (s.fld (Reg.ruRmDepth die slot) 4 0 + 1) ∧
      (t.reg (Reg.ruRmPrev die slot)).toNat = 2 ^ 16 * s.fld (Reg.ruRmDepth die slot) 4 0 + s.fld (Reg.ruRmCtrl die slot) 15 0 ∧
      t.flag (Reg.ruRmCtrl die slot) 28 = true := by
  intro t
  let m := s.rmMerge die slot x
  obtain ⟨hcur, hhist0, hhist, hshadow, hdepth, hprev, hflag⟩ := closedSlot_regs m hs
  have hrules : ∀ o, o < 0x80 → o ≠ 4 → t.reg (slotAt die slot o) = (closedSlot m die slot).reg (slotAt die slot o) := fun o ho hne =>
    (onlyRegs_rmRules _ die slot).2 _ (by rw [regAlias_slotAt hs ho, ruRmCtrl_eq]; simpa [slotAt_inj] using hne)
  have hmerge : ∀ o, o < 0x80 → o ≠ 0 → m.reg (slotAt die slot o) = s.reg (slotAt die slot o) := fun o ho hne =>
    State.reg_setReg_other _ _ _ _ (by rw [regAlias_slotAt hs ho, ruRmCur_eq]; simpa [slotAt_inj] using hne)
  have hm := merged_reg s hs hx hc
  simp only [ruRmCur_eq, ruRmCtrl_eq, ruRmDepth_eq, ruRmPrev_eq, ruRmShadow_eq, ruRmHist_eq, State.rmCtrl, State.fld] at *
  refine ⟨?_, ?_, fun k hk => ?_, ?_, ?_, ?_, ?_⟩
  · rw [hrules _ (by omega) (by omega), hcur]
  · rw [hrules _ (by omega) (by omega), hhist0, hm]
  · rw [hrules _ (by omega) (by omega), hhist k hk, hmerge _ (by omega) (by omega)]
  · rw [hrules _ (by omega) (by omega), hshadow, hmerge _ (by omega) (by omega)]
  · rw [hrules _ (by omega) (by omega), hdepth, hmerge _ (by omega) (by omega), BitVec.toNat_ofNat]
    omega
  · rw [hrules _ (by omega) (by omega), hprev, hmerge _ (by omega) (by omega), hmerge _ (by omega) (by omega), BitVec.toNat_ofNat]
    unfold wfld
    omega
  · rw [← ruRmCtrl_eq] at hflag ⊢
    exact (flag_rmRules _ hs).trans hflag

end Sys2Proof
end

section
/-! SUPPORT. O17: what a completion makes of the state, and the records of a ring's only descriptor (R44-R52). -/

namespace Sys2Proof

open Machine

/-! ### The parts of a completion -/

/-- The descriptor once it has completed. -/
def completedFlight (f : Flight) : Flight := { f with phase := .completed }

/-- The maxima of a descriptor merged into their slots, unless its status says that it has none (R90). -/
def mergedState (s : State) (f : Flight) : State :=
  if f.res.status.toNat = stDescInvalid ∨ f.res.status.toNat = stStepAborted then s else s.applyMerges f.res.merges

/-- The state with the descriptor completed and its die evaluated. -/
def completedState (s : State) (f : Flight) : State :=
  ((mergedState s f).setFlight (completedFlight f)).evalDie (hDie f.target)

/-- The signal of a descriptor (R46). -/
def signalOf (f : Flight) : List (Nat × Nat) :=
  if dSigEn f.desc = true ∧ ringBearing (dSigDie f.desc) = true then [(dSigDie f.desc, dSigCtr f.desc)] else []

/-- A state with more signals under way. -/
def Machine.State.withSignals (s : State) (l : List (Nat × Nat)) : State := { s with sigQ := s.sigQ ++ l }

theorem withSignals_nil (s : State) : s.withSignals [] = s := congrArg (fun l => { s with sigQ := l }) (List.append_nil s.sigQ)

theorem ite_withSignals (p : Bool) (s : State) (x : Nat × Nat) :
    (if p then { s with sigQ := s.sigQ ++ [x] } else s) = s.withSignals (if p = true then [x] else []) := by
  cases p
  · exact (withSignals_nil s).symm
  · rfl

/-- The state with its signal sent and its lines of other modules given up. -/
def signalledState (s : State) (f : Flight) : State := ((completedState s f).dropLines f.fid).withSignals (signalOf f)

/-- A fault halts the ring when its halt_on_err is 1 (R49). -/
def Halts (s : State) (f : Flight) : Prop := 0x10 ≤ f.res.status.toNat ∧ s.flag (ringContext f.ring + 0x18) 10 = true

theorem dropLines_ite (p : Prop) [Decidable p] (s t : State) (i : Nat) :
    (if p then s else t).dropLines i = if p then s.dropLines i else t.dropLines i := apply_ite (State.dropLines · i) p s t

theorem nextPart_dropLines (s : State) (die goal i : Nat) : (s.dropLines i).nextPart die goal = (s.nextPart die goal).dropLines i := by
  unfold State.nextPart
  simp only [dropLines_ite]
  rfl

/-- A die's status with its allowed point, its limiter and its target. -/
def evalLimits (s : State) (die : Nat) : State :=
  ((s.putFld (Reg.pwDieStatus die) 15 12 (s.allowedOf die).2).putFld (Reg.pwDieStatus die) 11 8 (s.allowedOf die).1).putFld
    (Reg.pwDieStatus die) 7 4 (s.targetOf die)

/-- The change that a new target calls for. -/
def evalMove (u : State) (die t : Nat) : State :=
  if u.pw.droops.contains die || u.isSafe then u
  else match u.change die with
    | some c => if c.slew ∧ c.goal ≠ t then u.nextPart die t else u
    | none => if u.curOp die = t then u else u.nextPart die t

theorem evalDie_eq (s : State) (die : Nat) :
    s.evalDie die = if !isCd die || s.dieState die != 2 then s else evalMove (evalLimits s die) die (s.targetOf die) := rfl

theorem evalMove_dropLines (u : State) (die t i : Nat) : evalMove (u.dropLines i) die t = (evalMove u die t).dropLines i := by
  have hc : (u.dropLines i).change die = u.change die := rfl
  unfold evalMove
  rw [hc, dropLines_ite]
  refine ite_congr rfl (fun _ => rfl) fun _ => ?_
  cases u.change die with
  | some c => simp only [nextPart_dropLines, dropLines_ite]
  | none =>
    simp only [nextPart_dropLines, dropLines_ite]
    rfl

/-- Evaluating a die takes no account of lines of other modules. -/
theorem evalDie_dropLines (s : State) (die i : Nat) : (s.dropLines i).evalDie die = (s.evalDie die).dropLines i := by
  rw [evalDie_eq, evalDie_eq, dropLines_ite]
  exact ite_congr rfl (fun _ => rfl) fun _ => evalMove_dropLines (evalLimits s die) die (s.targetOf die) i

theorem evalDie_setFlight_dropLines (m : State) (g : Flight) (die i : Nat) :
    ((m.dropLines i).setFlight g).evalDie die = ((m.setFlight g).evalDie die).dropLines i := evalDie_dropLines (m.setFlight g) die i

/-- A completion of a ring's own descriptor: its parts, the halt and the records. -/
theorem complete_eq {s : State} {f : Flight} (hpar : f.parent = none) (hrem : f.remote = none) :
    s.complete f =
      (if isFault f.res.status.toNat && (signalledState s f).flag (ringAddr Reg.dcRingCtrl f.ring) 10 then
        (signalledState s f).halt f.ring else signalledState s f).drainRecords f.ring := by
  have hsig : signalOf f = if (dSigEn f.desc && ringBearing (dSigDie f.desc)) = true then [(dSigDie f.desc, dSigCtr f.desc)] else [] := by
    simp only [signalOf, Bool.and_eq_true]
  unfold State.complete
  dsimp only
  rw [← mergedState, hrem, evalDie_setFlight_dropLines]
  simp only [hpar, Option.isSome_none, Bool.false_eq_true, if_false]
  unfold signalledState completedState completedFlight
  rw [ite_withSignals, ← hsig, hpar, hrem]

/-! ### What a completion leaves -/

theorem OnlyControl.setFlight {s t : State} (h : OnlyControl s t) (g : Flight) : OnlyControl (s.setFlight g) (t.setFlight g) := by
  have hfl := h.flights
  unfold State.setFlight
  rw [hfl]
  exact congrArg (fun v : State => { v with flights := s.flights.map (fun x : Flight => if x.fid = g.fid then g else x) }) h

theorem OnlySlots.onlyControl {s t : State} (h : OnlySlots s t) : OnlyControl s t := by
  have ht : t = { s with regs := t.regs } := congrArg (fun v : State => { v with regs := t.regs }) h.1
  rw [ht]
  rfl

theorem onlySlots_mergedState (s : State) (f : Flight) : OnlySlots s (mergedState s f) := by
  unfold mergedState
  split
  · exact .refl s
  · exact .applyMerges s _

/-- Beside registers and the power state only the descriptor itself changes. -/
theorem onlyControl_completedState (s : State) (f : Flight) :
    OnlyControl (s.setFlight (completedFlight f)) (completedState s f) :=
  ((onlySlots_mergedState s f).onlyControl.setFlight _).trans (.evalDie _ _)

theorem reg_completedState (s : State) (f : Flight) {a : Nat} (hp : regAlias a ≠ Reg.pwDieStatus (hDie f.target)) :
    (completedState s f).reg a = (mergedState s f).reg a := State.reg_evalDie _ hp

theorem pwDieStatus_not_slotReg (die : Nat) : ¬ SlotReg (Reg.pwDieStatus die) := by
  rintro ⟨d, o, hlo, hhi, h⟩
  unfold Reg.pwDieStatus Reg.setupBase at h
  omega

section
variable {f : Flight} (hr : f.ring < 4096)
include hr

/-- A word of a ring context is neither a slot's register nor a die's status. -/
theorem ringContext_apart {o : Nat} (ho : o < 0x40) : ¬ SlotReg (ringContext f.ring + o) ∧
    ∀ die, ringContext f.ring + o ≠ Reg.pwDieStatus die := by
  obtain ⟨-, -, hk⟩ := ringLocal_lt_ringsOn hr
  have hrings := ringsOn_le (ringDie f.ring)
  rw [ringContext_add]
  refine ⟨?_, fun die h => ?_⟩
  · rintro ⟨d, p, hlo, hhi, h⟩
    unfold Reg.setupBase at h
    omega
  · unfold Reg.pwDieStatus Reg.setupBase at h
    omega

/-- The words of the ring's context are as before. -/
theorem reg_completedState_ring (s : State) {o : Nat} (ho : o < 0x40) :
    (completedState s f).reg (ringContext f.ring + o) = s.reg (ringContext f.ring + o) := by
  have ha := regAlias_ringContext hr ho
  obtain ⟨hslot, hpw⟩ := ringContext_apart hr ho
  rw [reg_completedState s f (by rw [ha]; exact hpw _), (onlySlots_mergedState s f).2 _ (by rwa [ha])]

end

/-! ### The records of a ring -/

theorem dropFlights_eq (l : List Flight) (s : State) :
    l.foldl (fun s f => s.dropFlight f.fid) s = { s with flights := s.flights.filter (fun g => l.all (fun f => g.fid != f.fid)) } := by
  induction l generalizing s with
  | nil => exact congrArg (fun x => { s with flights := x }) (List.filter_eq_self.2 fun _ _ => rfl).symm
  | cons x l ih =>
    rw [List.foldl_cons, ih]
    refine congrArg (fun y => { s with flights := y }) ?_
    simp only [State.dropFlight, List.filter_filter, List.all_cons]
    exact List.filter_congr fun g _ => Bool.and_comm _ _

theorem mem_ring_of_nextRecord {s : State} {ring : Nat} {f : Flight} (h : s.nextRecord ring = some f) : f.ring = ring := by
  have hm := List.mem_filter.1 (List.mem_of_find?_eq_some h)
  exact (of_decide_eq_true hm.2).1

theorem reg_holdFor (s : State) (line io : Nat) (who : Option Waiter) (a : Nat) : (s.holdFor line io who).reg a = s.reg a := by
  unfold State.holdFor
  dsimp only
  split
  · rfl
  split <;> split_ifs <;> rfl

/-- Writing records counts them in DC_RING_CPL_WR and leaves every other register. -/
theorem reg_recordStep (s : State) {ring a : Nat} (ha : regAlias a ≠ ringContext ring + 0x28) :
    (s.recordStep ring).1.reg a = s.reg a := by
  unfold State.recordStep
  cases hn : s.nextRecord ring with
  | none => rfl
  | some f =>
    dsimp only
    split
    · rfl
    split
    · rfl
    cases s.extHolder (s.recordAddr ring / 64) (some (.controller (ringDie ring))) with
    | some io => exact reg_holdFor _ _ _ _ _
    | none =>
      have hring := mem_ring_of_nextRecord hn
      have hw := (OnlyMemory.write s (s.recordAddr ring) (leBytes 32 (s.recordOf f)) false).trans (.unwait _
        (.controller (ringDie ring)) (s.recordAddr ring / 64))
      have hirq : ∀ (b : Bool) (t : State), (if b then t.ringIrq ring else t).reg a = t.reg a := fun b t => by
        cases b
        · rfl
        · rw [if_pos rfl, State.ringIrq_eq]
          rfl
      refine (State.reg_setReg_other _ _ _ _ ?_).trans ((hirq _ _).trans (hw.reg a))
      rwa [hring, ringAddr_cplWr]

theorem reg_writeRecords (ring n : Nat) {a : Nat} (ha : regAlias a ≠ ringContext ring + 0x28) (s : State) :
    (s.writeRecords ring n).reg a = s.reg a := by
  induction n generalizing s with
  | zero => rfl
  | succ n ih =>
    unfold State.writeRecords
    split
    · exact (ih _).trans (reg_recordStep s ha)
    · exact reg_recordStep s ha

theorem reg_drainRecords (s : State) {ring a : Nat} (ha : regAlias a ≠ ringContext ring + 0x28) :
    (s.drainRecords ring).reg a = s.reg a := by
  refine (reg_writeRecords ring _ ha _).trans ?_
  rw [State.dropSilent, dropFlights_eq]
  rfl

/-! ### The only descriptor of its ring, completed -/

/-- A descriptor set before it leaves is not seen. -/
theorem filter_map_setFlight (fs : List Flight) (f : Flight) :
    (fs.map (fun x => if x.fid = f.fid then f else x)).filter (fun x => x.fid != f.fid) = fs.filter (fun x => x.fid != f.fid) := by
  induction fs with
  | nil => rfl
  | cons x fs ih =>
    rw [List.map_cons, List.filter_cons, List.filter_cons, ih]
    by_cases h : x.fid = f.fid <;> simp [h]

theorem flights_dropped {s h : State} {f : Flight} (hfl : h.flights = (s.setFlight (completedFlight f)).flights) :
    (h.dropFlight f.fid).flights = s.flights.filter (fun g => g.fid != f.fid) := by
  unfold State.dropFlight
  dsimp only
  rw [hfl]
  exact filter_map_setFlight s.flights (completedFlight f)

section
variable {s h : State} {f : Flight} (hone : s.ringFlights f.ring = [f])
  (hfl : h.flights = (s.setFlight (completedFlight f)).flights)
include hone hfl

/-- The ring then holds the completed descriptor and no other. -/
theorem ringFlights_completed : (∀ g ∈ h.ringFlights f.ring, g = completedFlight f) ∧ completedFlight f ∈ h.ringFlights f.ring := by
  have hf : f ∈ s.ringFlights f.ring := by rw [hone]; exact List.mem_singleton.2 rfl
  obtain ⟨hmem, hring⟩ := List.mem_filter.1 hf
  unfold State.ringFlights
  rw [hfl]
  refine ⟨fun g hg => ?_, List.mem_filter.2 ⟨List.mem_map.2 ⟨f, hmem, if_pos rfl⟩, hring⟩⟩
  obtain ⟨hg, hgr⟩ := List.mem_filter.1 hg
  obtain ⟨x, hx, hxg⟩ := List.mem_map.1 hg
  by_cases he : x.fid = (completedFlight f).fid
  · rw [if_pos he] at hxg
    exact hxg.symm
  · rw [if_neg he] at hxg
    subst hxg
    have hxf : x ∈ s.ringFlights f.ring := List.mem_filter.2 ⟨hx, hgr⟩
    rw [hone, List.mem_singleton] at hxf
    exact absurd (congrArg (·.fid) hxf) he

/-- Its leaving empties the ring. -/
theorem ringFlights_of_dropped {x : State} (hx : x.flights = (h.dropFlight f.fid).flights) : x.ringFlights f.ring = [] := by
  refine List.filter_eq_nil_iff.2 fun g hg hp => ?_
  rw [hx] at hg
  obtain ⟨hg, hne⟩ := List.mem_filter.1 hg
  have hgf := (ringFlights_completed hone hfl).1 g (List.mem_filter.2 ⟨hg, hp⟩)
  rw [hgf] at hne
  simp [completedFlight] at hne

end

theorem writeRecords_nil {s : State} {ring : Nat} (h : s.ringFlights ring = []) (n : Nat) : s.writeRecords ring n = s := by
  cases n with
  | zero => rfl
  | succ n => simp [State.writeRecords, State.recordStep, State.nextRecord, h]

section
variable {s h : State} {f : Flight} (hone : s.ringFlights f.ring = [f])
  (hfl : h.flights = (s.setFlight (completedFlight f)).flights)
include hone hfl

/-- A descriptor without a record leaves its ring at once. -/
theorem drainRecords_silent (hdue : f.due = false) : h.drainRecords f.ring = h.dropFlight f.fid := by
  obtain ⟨hall, hmem⟩ := ringFlights_completed hone hfl
  have hsilent : h.dropSilent f.ring = h.dropFlight f.fid := by
    have hfilter : (h.ringFlights f.ring).filter (fun f => f.completed && !f.due) = h.ringFlights f.ring :=
      List.filter_eq_self.2 fun g hg => by
        rw [hall g hg]
        rw [show (completedFlight f).due = false from hdue]
        rfl
    rw [State.dropSilent, hfilter, dropFlights_eq]
    refine congrArg (fun x => { h with flights := x }) (List.filter_congr fun g _ => ?_)
    refine Bool.eq_iff_iff.2 ⟨fun hx => List.all_eq_true.1 hx (completedFlight f) hmem, fun hx => List.all_eq_true.2 fun x hx' => ?_⟩
    rw [hall x hx']
    exact hx
  rw [State.drainRecords, hsilent, writeRecords_nil (ringFlights_of_dropped hone hfl rfl)]

/-- A descriptor whose record is due: the record is next. -/
theorem nextRecord_completed (hdue : f.due = true) : h.nextRecord f.ring = some (completedFlight f) := by
  obtain ⟨hall, hmem⟩ := ringFlights_completed hone hfl
  have hrec : (completedFlight f).records = true := by
    have hd : (completedFlight f).due = true := hdue
    have h0 : dCmpl (completedFlight f).desc ≠ 0 := due_ne_zero hd
    simp [Flight.records, hd, h0]
  unfold State.nextRecord
  cases hx : (h.ringFlights f.ring).find? (·.records) with
  | none => exact absurd hrec (by simpa using List.find?_eq_none.1 hx _ hmem)
  | some g => rw [hall g (List.mem_of_find?_eq_some hx)]

/-- Its record written, it leaves and the ring is done. -/
theorem drainRecords_written (hdue : f.due = true) {x : State} (hstep : h.recordStep f.ring = (x, true))
    (hx : x.flights = (h.dropFlight f.fid).flights) : h.drainRecords f.ring = x := by
  obtain ⟨hall, hmem⟩ := ringFlights_completed hone hfl
  have hsilent : h.dropSilent f.ring = h := by
    have hfilter : (h.ringFlights f.ring).filter (fun f => f.completed && !f.due) = [] :=
      List.filter_eq_nil_iff.2 fun g hg => by
        rw [hall g hg]
        have : (completedFlight f).due = true := hdue
        simp [this]
    rw [State.dropSilent, hfilter]
    rfl
  obtain ⟨n, hn⟩ := Nat.exists_eq_succ_of_ne_zero (List.length_pos_of_mem hmem).ne'
  rw [State.drainRecords, hsilent, hn, State.writeRecords, hstep, if_pos rfl,
    writeRecords_nil (ringFlights_of_dropped hone hfl hx)]

end

end Sys2Proof
end

section
/-! SUPPORT. O17: the record of a ring's only descriptor, written (R50-R52), and the obligation. -/

namespace Sys2Proof

open Machine

/-! ### Signals and lines of other modules do not bear on a record's write -/

section
variable (s : State) (i : Nat) (l : List (Nat × Nat))

theorem walkMesh_quiet (k : Spread) (dst x v fuel : Nat) :
    ((s.dropLines i).withSignals l).walkMesh k dst x v fuel = s.walkMesh k dst x v fuel := by
  induction fuel generalizing x v with
  | zero => rfl
  | succ fuel ih =>
    unfold State.walkMesh
    simp only [ih]
    rfl

theorem path_quiet (src dst a : Nat) : ((s.dropLines i).withSignals l).path src dst a = s.path src dst a := by
  unfold State.path State.way
  simp only [walkMesh_quiet]
  rfl

theorem meets_quiet (die a : Nat) (who : Option Waiter) :
    ((s.dropLines i).withSignals l).meets die a who = s.meets die a who := by
  unfold State.meets
  simp only [path_quiet]
  rfl

theorem recordFault_quiet (ring : Nat) : ((s.dropLines i).withSignals l).recordFault ring = s.recordFault ring := by
  unfold State.recordFault
  simp only [meets_quiet]
  rfl

theorem extHolder_quiet (line : Nat) (who : Option Waiter) :
    ((s.dropLines i).withSignals l).extHolder line who = s.extHolder line who := rfl

theorem recordAddr_quiet (ring : Nat) : ((s.dropLines i).withSignals l).recordAddr ring = s.recordAddr ring := rfl

end

/-! ### The bytes of a record -/

/-- Bytes written within one line that is not poisoned. -/
theorem write_bytes {s : State} {a : Nat} {bs : List Byte} (hn : a % 64 + bs.length ≤ 64) (h0 : 0 < bs.length)
    (hp : s.linePoisoned (a / 64) = false) (x : Nat) :
    (s.write a bs).1.byte x = if a ≤ x ∧ x < a + bs.length then bs.getD (x - a) 0 else s.byte x := by
  rw [State.write_eq_writeLine false hn h0, State.byte_writeLine false hn]
  simp [State.refusesPart, hp]

theorem bytes_of_write {s t : State} {a : Nat} {bs : List Byte}
    (h : ∀ x, t.byte x = if a ≤ x ∧ x < a + bs.length then bs.getD (x - a) 0 else s.byte x) :
    t.bytes a bs.length = bs ∧ BytesBut a bs.length s t := by
  refine ⟨List.ext_getElem (by simp [State.bytes]) fun k hk hk' => ?_, fun x hx => ?_⟩
  · simp only [State.bytes, List.getElem_map, List.getElem_range]
    rw [h, if_pos ⟨by omega, by omega⟩, Nat.add_sub_cancel_left, List.getD_eq_getElem _ _ hk']
  · rw [h, if_neg (by omega)]

theorem leBytes_length (n v : Nat) : (leBytes n v).length = n := by
  induction n generalizing v with
  | zero => rfl
  | succ n ih => simp [leBytes, ih]

/-- The state that a ring's next record, written, leaves. -/
def recordWritten (h : State) (g : Flight) : State :=
  let t := ((h.write (h.recordAddr g.ring) (leBytes 32 (h.recordOf g))).1).unwait (.controller (ringDie g.ring)) (h.recordAddr g.ring / 64)
  (if dIrq g.desc then t.ringIrq g.ring else t).advanceRecord g

theorem recordStep_written {h : State} {g : Flight} (hnext : h.nextRecord g.ring = some g) (hdone : g.completed = true)
    (hfault : h.recordFault g.ring = false)
    (hext : h.extHolder (h.recordAddr g.ring / 64) (some (.controller (ringDie g.ring))) = none) :
    h.recordStep g.ring = (recordWritten h g, true) := by
  unfold State.recordStep
  simp only [hnext, hdone, hfault, hext, Bool.not_true, Bool.false_eq_true, if_false]
  rfl

theorem recordAddr_mod (h : State) (ring : Nat) : h.recordAddr ring % 64 + 32 ≤ 64 := by
  unfold State.recordAddr State.ringCplBase ringBase
  omega

/-- A ring's interrupt, when the descriptor asks for one. -/
theorem ringIrq_ite (w : State) (b : Bool) (ring : Nat) :
    (if b then w.ringIrq ring else w) = { w with irqQ := w.irqQ ++ if b = true then ringIrqs w ring else [] } := by
  cases b
  · exact congrArg (fun l => { w with irqQ := l }) (List.append_nil w.irqQ).symm
  · rw [if_pos rfl, if_pos rfl, State.ringIrq_eq]

/-- A record counted: the bytes stay, the count goes up by one and the descriptor leaves. -/
theorem advanceRecord_spec (w : State) {g : Flight} (hr : g.ring < 4096) :
    let c := ringContext g.ring
    (∀ x, (w.advanceRecord g).byte x = w.byte x) ∧ (w.advanceRecord g).reg (c + 0x28) = w.reg (c + 0x28) + 1 ∧
      (w.advanceRecord g).sigQ = w.sigQ ∧ (w.advanceRecord g).flights = (w.dropFlight g.fid).flights ∧
      (w.advanceRecord g).irqQ = w.irqQ := by
  intro c
  have h28 : regAlias (c + 0x28) = c + 0x28 := regAlias_ringContext hr (by omega)
  refine ⟨fun x => State.byte_congr rfl rfl x, ?_, rfl, rfl, rfl⟩
  rw [State.advanceRecord, State.ringReg_eq, ringAddr_cplWr]
  exact State.reg_setReg_same _ _ _ h28

/-- The state with the bytes of a record written at `a`. -/
def recordBytes (h : State) (g : Flight) (a : Nat) (bs : List Byte) : State :=
  ((h.write a bs).1).unwait (.controller (ringDie g.ring)) (a / 64)

theorem recordBytes_spec {h : State} {g : Flight} {a : Nat} {bs : List Byte} (hlen : bs.length = 32) (ha : a % 64 + 32 ≤ 64)
    (hpoison : h.linePoisoned (a / 64) = false) :
    OnlyMemory h (recordBytes h g a bs) ∧ (recordBytes h g a bs).bytes a 32 = bs ∧ BytesBut a 32 h (recordBytes h g a bs) := by
  have hbytes := bytes_of_write (s := h) (t := recordBytes h g a bs) (write_bytes (by omega) (by omega) hpoison)
  rw [hlen] at hbytes
  exact ⟨(OnlyMemory.write h a bs false).trans (.unwait _ _ _), hbytes⟩

theorem recordWritten_eq (h : State) (g : Flight) :
    recordWritten h g = State.advanceRecord (if dIrq g.desc then (recordBytes h g (h.recordAddr g.ring) (leBytes 32 (h.recordOf g))).ringIrq
      g.ring else recordBytes h g (h.recordAddr g.ring) (leBytes 32 (h.recordOf g))) g := rfl

/-- A record written: its bytes, its count, the ring's interrupt, and the descriptor that leaves (R50-R52). -/
theorem recordWritten_spec {h : State} {g : Flight} (hr : g.ring < 4096) (hfault : h.recordFault g.ring = false) :
    let a := h.recordAddr g.ring
    let c := ringContext g.ring
    let t := recordWritten h g
    t.bytes a 32 = leBytes 32 (h.recordOf g) ∧ BytesBut a 32 h t ∧ t.reg (c + 0x28) = h.reg (c + 0x28) + 1 ∧ t.sigQ = h.sigQ ∧
      t.flights = (h.dropFlight g.fid).flights ∧ t.irqQ = h.irqQ ++ if dIrq g.desc = true then ringIrqs h g.ring else [] := by
  intro a c t
  have hpoison : h.linePoisoned (a / 64) = false := by
    unfold State.recordFault at hfault
    exact (Bool.or_eq_false_iff.1 hfault).2
  obtain ⟨hw, hbytes, hbut⟩ := recordBytes_spec (g := g) (leBytes_length 32 (h.recordOf g)) (recordAddr_mod h g.ring) hpoison
  have ht : t = _ := recordWritten_eq h g
  clear_value t
  generalize recordBytes h g (h.recordAddr g.ring) (leBytes 32 (h.recordOf g)) = w at ht hw hbytes hbut
  rw [ringIrq_ite] at ht
  have hirqs : ringIrqs w g.ring = ringIrqs h g.ring := ringIrqs_congr (congrArg (·.getLsbD 11) (hw.reg _)) (hw.reg _)
  generalize hv : ({ w with irqQ := w.irqQ ++ if dIrq g.desc = true then ringIrqs w g.ring else [] } : State) = v at ht
  obtain ⟨hvb, hvr, hvs, hvf, hvi⟩ := advanceRecord_spec v hr
  rw [← ht] at hvb hvr hvs hvf hvi
  subst hv
  have hbyte : ∀ x, t.byte x = w.byte x := fun x => (hvb x).trans (State.byte_congr rfl rfl x)
  refine ⟨(State.bytes_congr hbyte _ _).trans hbytes, fun x hx => (hbyte x).trans (hbut x hx), ?_, hvs.trans hw.sigQ, ?_, ?_⟩
  · exact hvr.trans (congrArg (· + 1) (hw.reg _))
  · exact hvf.trans (congrArg (fun l => l.filter (fun f => f.fid != g.fid)) hw.flights)
  · exact hvi.trans (congrArg₂ (· ++ ·) hw.irqQ (congrArg (fun l => if dIrq g.desc = true then l else []) hirqs))

/-! ### A completion as a whole -/

section
variable {s : State} {f : Flight}

theorem exec_descriptorComplete (hf : s.flight f.fid = some f) (hph : f.phase = .done) (hack : s.awaitsAck f.fid = false) :
    exec (.descriptorComplete f.fid) s = .next (s.complete f) := by
  refine congrArg Host.Outcome.next ?_
  simp [hf, Flight.isDone, hph, hack]

/-- The signalled state: what of it is as before. -/
theorem signalledState_frame (s : State) (f : Flight) :
    (signalledState s f).flights = (s.setFlight (completedFlight f)).flights ∧ (signalledState s f).sigQ = s.sigQ ++ signalOf f ∧
      (signalledState s f).mem = s.mem ∧ (signalledState s f).irqQ = s.irqQ ∧ (∀ x, (signalledState s f).byte x = s.byte x) := by
  have hu := onlyControl_completedState s f
  refine ⟨hu.flights, congrArg (· ++ signalOf f) (congrArg (·.sigQ) hu), hu.mem, congrArg (·.irqQ) hu, fun x => ?_⟩
  exact State.byte_congr hu.mem (congrArg (·.host.copies) hu) x

/-- The state before the records: the ring halted or not. -/
theorem complete_cases (hr : f.ring < 4096) (hpar : f.parent = none) (hrem : f.remote = none) :
    (Halts s f → s.complete f = ((signalledState s f).halt f.ring).drainRecords f.ring) ∧
      (¬ Halts s f → s.complete f = (signalledState s f).drainRecords f.ring) := by
  have hreg : (signalledState s f).reg (ringContext f.ring + 0x18) = s.reg (ringContext f.ring + 0x18) :=
    reg_completedState_ring hr s (by omega)
  have hcond : (isFault f.res.status.toNat && (signalledState s f).flag (ringAddr Reg.dcRingCtrl f.ring) 10) = true ↔ Halts s f := by
    rw [ringAddr_ctrl, State.flag, hreg]
    simp [Halts, isFault, State.flag]
  rw [complete_eq hpar hrem]
  exact ⟨fun h => by rw [if_pos (hcond.2 h)], fun h => by rw [if_neg (mt hcond.1 h)]⟩

/-- The registers of the slots are those of the merges. -/
theorem complete_slot (hr : f.ring < 4096) (hpar : f.parent = none) (hrem : f.remote = none) {a : Nat} (ha : SlotReg a) :
    (s.complete f).reg a = (mergedState s f).reg a := by
  have hal := regAlias_of_slotReg ha
  have hring : ∀ o, o < 0x40 → regAlias a ≠ ringContext f.ring + o := fun o ho e =>
    (ringContext_apart hr ho).1 (by rw [← e, hal]; exact ha)
  have hpw : regAlias a ≠ Reg.pwDieStatus (hDie f.target) := fun e => pwDieStatus_not_slotReg _ (by rw [← e, hal]; exact ha)
  have hu : (signalledState s f).reg a = (mergedState s f).reg a := reg_completedState s f hpw
  rw [complete_eq hpar hrem, reg_drainRecords _ (hring _ (by omega))]
  split
  · rw [State.halt, ringAddr_ctrl, (onlyRegs_setFlag _ _ _ _).2 _ (by simpa using hring _ (by omega)), hu]
  · exact hu

end

/-! ### The obligation -/

section
variable {s : State} {f : Flight} (hr : f.ring < 4096)
include hr

theorem reg_signalledState_ring (s : State) {o : Nat} (ho : o < 0x40) :
    (signalledState s f).reg (ringContext f.ring + o) = s.reg (ringContext f.ring + o) := reg_completedState_ring hr s ho

theorem recordAddr_signalled (s : State) :
    (signalledState s f).recordAddr f.ring = 2 ^ 32 * s.fld (ringContext f.ring + 0x14) 15 0 +
      32 * ((s.reg (ringContext f.ring + 0x10)).toNat / 32) +
      32 * ((s.reg (ringContext f.ring + 0x28)).toNat % 2 ^ s.fld (ringContext f.ring + 0x08) 20 16) := by
  unfold State.recordAddr State.ringCplBase State.cplLog2 ringBase State.fld
  simp only [State.ringReg_eq, ringAddr_cplLo, ringAddr_cplHi, ringAddr_cplWr, ringAddr_size]
  simp (disch := omega) only [reg_signalledState_ring hr]

theorem recordOf_signalled (s : State) :
    (signalledState s f).recordOf (completedFlight f) =
      recordBits (decide ((s.reg (ringContext f.ring + 0x28)).toNat / 2 ^ s.fld (ringContext f.ring + 0x08) 20 16 % 2 = 0))
        f.res.runMax f.res.sat f.res.detail f.res.member.toNat (dTag f.desc) (dStepLo f.desc) (dPhase f.desc)
        f.res.status.toNat f.index f.target := by
  unfold State.recordOf State.cplLog2 State.fld
  simp only [State.ringReg_eq, ringAddr_cplWr, ringAddr_size, completedFlight]
  simp (disch := omega) only [reg_signalledState_ring hr]

theorem ringIrqs_signalled (s : State) : ringIrqs (signalledState s f) f.ring = ringIrqs s f.ring :=
  ringIrqs_congr (congrArg (·.getLsbD 11) (reg_signalledState_ring hr s (by omega))) (reg_signalledState_ring hr s (by omega))

variable (hpar : f.parent = none) (hrem : f.remote = none) (hone : s.ringFlights f.ring = [f])
include hpar hrem hone

/-- A completion without a record: the descriptor leaves, its signal is sent, a fault may halt the ring. -/
theorem complete_silent (hdue : f.due = false) :
    let c := ringContext f.ring
    let t := s.complete f
    t.flights = s.flights.filter (fun g => g.fid != f.fid) ∧ t.sigQ = s.sigQ ++ signalOf f ∧ t.mem = s.mem ∧
      t.reg (c + 0x28) = s.reg (c + 0x28) ∧ (Halts s f → t.flag (c + 0x18) 9 = true) ∧
      (¬ Halts s f → t.reg (c + 0x18) = s.reg (c + 0x18)) := by
  intro c t
  obtain ⟨hfl, hsig, hmem, -, -⟩ := signalledState_frame s f
  obtain ⟨hyes, hno⟩ := complete_cases (s := s) hr hpar hrem
  have h18 : regAlias (c + 0x18) = c + 0x18 := regAlias_ringContext hr (by omega)
  have h28 : regAlias (c + 0x28) = c + 0x28 := regAlias_ringContext hr (by omega)
  have hreg18 : (signalledState s f).reg (c + 0x18) = s.reg (c + 0x18) := reg_signalledState_ring hr s (by omega)
  have hreg28 : (signalledState s f).reg (c + 0x28) = s.reg (c + 0x28) := reg_signalledState_ring hr s (by omega)
  by_cases hh : Halts s f
  · have ht : t = ((signalledState s f).halt f.ring).dropFlight f.fid := (hyes hh).trans (drainRecords_silent hone hfl hdue)
    rw [State.halt, ringAddr_ctrl] at ht
    rw [ht]
    refine ⟨flights_dropped hfl, hsig, hmem, ?_, fun _ => ?_, fun hn => absurd hh hn⟩
    · exact ((onlyRegs_setFlag _ _ _ _).2 _ (by rw [h28]; simp [c])).trans hreg28
    · exact State.flag_setFlag_same _ _ _ _ h18 (by omega)
  · have ht : t = (signalledState s f).dropFlight f.fid := (hno hh).trans (drainRecords_silent hone hfl hdue)
    rw [ht]
    exact ⟨flights_dropped hfl, hsig, hmem, hreg28, fun hy => absurd hy hh, fun _ => hreg18⟩

/-- A completion with a record that can be written at once. -/
theorem complete_written (hdue : f.due = true) (hh : ¬ Halts s f) (hfault : (completedState s f).recordFault f.ring = false)
    (hext : (completedState s f).extHolder ((completedState s f).recordAddr f.ring / 64) (some (.controller (ringDie f.ring))) = none) :
    s.complete f = recordWritten (signalledState s f) (completedFlight f) ∧ (signalledState s f).recordFault f.ring = false := by
  obtain ⟨hfl, -, -, -, -⟩ := signalledState_frame s f
  have hfault' : (signalledState s f).recordFault f.ring = false := by
    rw [signalledState, recordFault_quiet]
    exact hfault
  have hext' : (signalledState s f).extHolder ((signalledState s f).recordAddr f.ring / 64) (some (.controller (ringDie f.ring))) =
      none := by
    rw [signalledState, recordAddr_quiet, extHolder_quiet]
    exact hext
  have hnext := nextRecord_completed hone hfl hdue
  have hstep := recordStep_written (g := completedFlight f) hnext rfl hfault' hext'
  exact ⟨((complete_cases hr hpar hrem).2 hh).trans
    (drainRecords_written hone hfl hdue hstep (recordWritten_spec (g := completedFlight f) hr hfault').2.2.2.2.1), hfault'⟩

end

/-- Settles O17: a completion merges the descriptor's maxima, sends its signal and then writes the ring's records; the
record of the ring's only descriptor stands at the slot that the registers name. -/
theorem completionFollowsR44 : Obligations.CompletionFollowsR44 := by
  unfold Obligations.CompletionFollowsR44
  intro s f hr hf hph hack hpar hrem hone c st sig halts m u
  have hexec := exec_descriptorComplete hf hph hack
  have hm : m = mergedState s f := rfl
  have hu : u = completedState s f := rfl
  clear_value m u
  subst hm hu
  refine ⟨?_, fun hdue => ⟨_, hexec, complete_silent hr hpar hrem hone hdue⟩, ?_⟩
  · intro die slot x close hmerges hslot cur hx hcur
    have hkeep : st = 0x10 ∨ st = 0x50 → mergedState s f = s := fun h => if_pos h
    have hmerge : st ≠ 0x10 → st ≠ 0x50 → mergedState s f =
        if close then (s.rmMerge die slot x).rmCloseSlot die slot else s.rmMerge die slot x := fun h1 h2 => by
      rw [← applyMerges_one s hslot, ← hmerges]
      exact if_neg (not_or.2 ⟨h1, h2⟩)
    have hreg : ∀ o, o < 0x80 → (s.complete f).reg (slotAt die slot o) = (mergedState s f).reg (slotAt die slot o) := fun o ho =>
      complete_slot hr hpar hrem (slotReg_slotAt hslot ho)
    refine ⟨_, hexec, fun h => ?_, fun h1 h2 hc => ?_, fun h1 h2 hc => ?_⟩
    · exact (hreg 0 (by omega)).trans (by rw [hkeep h]; rfl)
    · rw [show (s.complete f).reg cur = _ from hreg 0 (by omega), hmerge h1 h2, hc]
      exact merged_reg s hslot hx hcur
    · have hspec := merged_closed s hslot hx hcur
      have hw := hmerge h1 h2
      rw [hc, if_pos rfl] at hw
      rw [← hw] at hspec
      obtain ⟨h0, hhist, hmoved, hshadow, hdepth, hprev, hflag⟩ := hspec
      simp only [cur, ruRmCur_eq, ruRmCtrl_eq, ruRmDepth_eq, ruRmPrev_eq, ruRmShadow_eq, ruRmHist_eq, State.flag] at *
      exact ⟨(hreg _ (by omega)).trans h0, (congrArg BitVec.toNat (hreg _ (by omega))).trans hhist,
        fun k hk => (hreg _ (by omega)).trans (hmoved k hk), (hreg _ (by omega)).trans hshadow,
        (congrArg BitVec.toNat (hreg _ (by omega))).trans hdepth, (congrArg BitVec.toNat (hreg _ (by omega))).trans hprev,
        (congrArg (·.getLsbD 28) (hreg _ (by omega))).trans hflag⟩
  · intro hdue hh hfault hext wr a
    obtain ⟨hfl, hsig, -, hirq, hbyte⟩ := signalledState_frame s f
    obtain ⟨ht, hfault'⟩ := complete_written hr hpar hrem hone hdue hh hfault hext
    obtain ⟨hbytes, hbut, hwr, hsig', hfl', hirq'⟩ := recordWritten_spec (g := completedFlight f) hr hfault'
    rw [← ht] at hbytes hbut hwr hsig' hfl' hirq'
    have ha : (signalledState s f).recordAddr (completedFlight f).ring = a := recordAddr_signalled hr s
    rw [ha] at hbytes hbut
    rw [recordOf_signalled hr s] at hbytes
    refine ⟨_, hexec, hbytes, fun x hx => (hbut x hx).trans (hbyte x),
      hwr.trans (congrArg (· + 1) (reg_signalledState_ring hr s (by omega))),
      hsig'.trans hsig, hfl'.trans (flights_dropped hfl), hirq'.trans ?_⟩
    rw [hirq]
    refine congrArg (s.irqQ ++ ·) ?_
    rw [show ringIrqs (signalledState s f) (completedFlight f).ring = ringIrqs s f.ring from ringIrqs_signalled hr s, ringIrqs, ite_and]
    rfl

end Sys2Proof
end

section
/-! SUPPORT. O40: a gang's copy received from another module, whose list of modules the end of a flow acts on. -/

namespace Sys2Proof

open Machine

/-- Gang 0, received from module 1 as its report 0, under way here. Its list of modules names module 1, where one member has still
to report: no fan-out makes such a copy, but the statement speaks of every state. -/
def relayedGang : Flight :=
  { fid := 7, ring := 0, place := (1, 0, 0), start := 1, index := 0, desc := 0, target := 0x100000, step := 0, lenSrc := false,
    seed := 0, stream := 0, mover := 0, parent := none, level := 0, remote := some (1, 0), expect := 1, mods := [1],
    phase := .started, res := Flight.noRes, recs := [], vals := [], rows := 0 }

/-- Flow 10 of IO0 is DISABLING, with nothing unacknowledged; it carried the gang's copy to module 1. -/
def relaying : State :=
  { (State.reset.setReg (Reg.tdDie 88) 0x200).setReg (Reg.fbFlowCtrl 88 1) 0x30 with
    flights := [relayedGang]
    nextFid := 8
    fab := { State.reset.fab with gangOut := [⟨7, 1, 10, 0⟩] } }

theorem relaying_dieDown : relaying.dieDown 88 = false := by decide +kernel

theorem relaying_disabling : relaying.fnState (Reg.fbFlowCtrl 88 1) = 3 := by decide +kernel

theorem relaying_unacked : ∀ u ∈ relaying.fab.unacked, u.flow ≠ 10 := by decide +kernel

/-- The only gang is another module's: it sends its reports there. -/
theorem relaying_noGangWaits : NoGangWaits relaying := fun _ hg _ => by
  rw [List.mem_singleton.1 hg]
  exact .inr rfl

/-- The member that has not reported is taken to have met FLOW_TIMEOUT: its report goes to module 1 and the copy leaves. -/
theorem relaying_ended : ((relaying.flowFail 10).disablingEnd (fCtrl 10)).flights = [] := by decide +kernel

theorem exec_relaying : exec (.flowDisablingDone 10) relaying = .next ((relaying.flowFail 10).disablingEnd (fCtrl 10)) :=
  congrArg Host.Outcome.next (if_pos (by decide +kernel))

/-- Refutes O40: FLOW_DISABLING_DONE with a gang's copy of another module under way that names modules of its own. In `relaying` no
gang waits for reports as `NoGangWaits` has it, yet the end of the flow makes the copy report and leave. -/
theorem not_synchronisingFollowsR330 : ¬ Obligations.SynchronisingFollowsR330 := by
  rintro ⟨hall, -⟩
  obtain ⟨-, -, -, hdone, -⟩ := hall relaying 10 (by decide) relaying_dieDown
  obtain ⟨t, ht, -, -, -, -, -, hflights⟩ := hdone relaying_disabling relaying_unacked rfl relaying_noGangWaits
  cases exec_relaying.symm.trans ht
  exact List.cons_ne_nil _ _ (hflights.symm.trans relaying_ended)

end Sys2Proof
end

section
/-! SUPPORT. O21: a spanning gang's descriptor whose number is the next to be given out. -/

namespace Sys2Proof

open Machine

/-- The descriptor of gang 0, of ring 5, with the number 7. -/
def numberedGang : Flight :=
  { fid := 7, ring := 5, place := (0, 5, 7), start := 1, index := 0, desc := BitVec.ofNat 512 (2 ^ 108), target := 0x100000, step := 0,
    lenSrc := false, seed := 0, stream := 0, mover := 0, parent := none, level := 0, remote := none, expect := 0, mods := [],
    phase := .waiting, res := Flight.noRes, recs := [], vals := [], rows := 0 }

/-- Gang 0 of CD0 has one member, EP0 of CD0, and spans this module alone. The next number to be given out is the number that its
descriptor has: no run of commands comes to that (O55), but the statement speaks of every state. -/
def renumbering : State :=
  { ([(Reg.tdDie 0, 0x200), (Reg.pwDom 0, 0x20), (Reg.dcGangCtrl 0 0, 0x80000001), (Reg.dcGangMember 0 0 0, 0),
      (Reg.dcGangSpan 0 0, 0x800)] : List (Nat × Word)).foldl (fun s x => s.setReg x.1 x.2) State.reset with
    flights := [numberedGang]
    nextFid := 7 }

/-- The gang's descriptor, fanned out. -/
def fannedGang : Flight := { numberedGang with phase := .started, expect := 1, mods := [0] }

theorem renumbering_ready : renumbering.ready numberedGang = true := by decide +kernel

theorem renumbering_lives : renumbering.dieLost 0 = false ∧ renumbering.domainGone 0 = false ∧ renumbering.fnState (Reg.pwDom 0) = 2 ∧
    renumbering.stepAborted 0 numberedGang.desc = false ∧ renumbering.domainWait 0 = false := by decide +kernel

theorem renumbering_accepts : renumbering.gangRefuses numberedGang = false ∧ badSignal numberedGang = false := by decide +kernel

theorem renumbering_room : renumbering.hasRoom numberedGang = true := by
  have h : renumbering.reserved 0 + renumbering.reportsOf numberedGang ≤ 98304 := by decide +kernel
  exact decide_eq_true (Nat.le_trans h (Nat.le_add_right _ _))

theorem renumbering_gang : renumbering.gangCount 0 = 1 ∧ renumbering.gangMcount 0 = 1 ∧ renumbering.ownPositions 0 = [0] ∧
    renumbering.gangModule 0 0 = renumbering.moduleId := by decide +kernel

/-- The gang's descriptor is written back over the copy that has taken its number. -/
theorem renumbering_fanout : (renumbering.fanout numberedGang).flights = [fannedGang, fannedGang] := by
  unfold State.fanout
  dsimp only
  rw [if_neg (by simp [renumbering_accepts.1]), if_neg (by simp [renumbering_accepts.2]), if_neg (by simp [renumbering_room])]
  decide +kernel

theorem exec_renumbering : exec (.gangFanout 7) renumbering = .next (renumbering.fanout numberedGang) := by
  obtain ⟨hlost, hgone, -, habort, hwait⟩ := renumbering_lives
  refine congrArg Host.Outcome.next ((if_pos (?_ : (true && renumbering.ready numberedGang) = true)).trans ?_)
  · rw [renumbering_ready]
    rfl
  · rw [show gangHome (hGangNo numberedGang.target) = 0 from rfl]
    exact (if_neg (by rw [hlost]; decide)).trans ((if_neg (by rw [hgone, habort]; decide)).trans (if_neg (by rw [hwait]; decide)))

/-- Refutes O21: the fan-out of a gang that spans, of a descriptor that has the next free number. The first copy takes that number
too, and as the descriptor is marked as started the copy is replaced by it: no copy names the gang as its parent. -/
theorem not_fanoutFollowsR61 : ¬ Obligations.FanoutFollowsR61 := by
  rintro ⟨hall, -⟩
  obtain ⟨hlost, hgone, hon, habort, -⟩ := renumbering_lives
  obtain ⟨hcount, hmcount, hown, hmodule⟩ := renumbering_gang
  obtain ⟨-, -, -, -, hfans⟩ := hall renumbering numberedGang rfl rfl renumbering_ready
  obtain ⟨-, -, hspans⟩ := hfans hlost hgone (fun h => absurd (hon.symm.trans h) (by decide)) habort renumbering_accepts.1
    renumbering_accepts.2 renumbering_room (by rw [show hGangNo numberedGang.target = 0 from rfl, hcount]; decide)
  obtain ⟨-, -, -, -, hsent⟩ := hspans rfl hmcount.ge hcount.ge (congrArg List.length hown).le (fun x hx => absurd hx List.not_mem_nil)
  obtain ⟨t, ht, cs, -, hcopies, ⟨hflights, -, -⟩, -, -⟩ :=
    hsent ⟨0, List.mem_append_left _ (hown ▸ List.mem_singleton.2 rfl), .inl hmodule⟩
  have hfanout : renumbering.fanout numberedGang = t := Host.Outcome.next.inj (exec_renumbering.symm.trans ht)
  obtain ⟨hlen, hcopy⟩ := hcopies 0 (hown ▸ List.mem_singleton.2 rfl)
  have hcs : cs = [fannedGang] := by
    rw [← hfanout, renumbering_fanout] at hflights
    exact (List.cons.inj hflights).2.symm
  obtain ⟨-, hparent, -⟩ := hcopy 0 fannedGang (by rw [hcs]; rfl)
  exact Option.some_ne_none _ hparent.symm

end Sys2Proof
end

section
/-! SUPPORT. O46: the bits of registers that say what functions, domains and dies are doing, and what leaves them (R66, R417). -/

namespace Sys2Proof

open Machine

/-! ### The fields, by die and offset -/

/-- Bits 6 to 2 of a ring's, an engine pair's or a mover's control register: state, pend and err. -/
def unitOff (d o i : Nat) : Prop :=
  2 ≤ i ∧ i ≤ 6 ∧ ((0x10000 ≤ o ∧ o < 0x20000 ∧ o % 0x40 = 0x18) ∨ (d < 40 ∧ 0x100000 ≤ o ∧ o < 0x700000 ∧ o % 0x100000 = 0) ∨
    (d < 40 ∧ 0x700000 ≤ o ∧ o < 0x700100 ∧ o % 0x40 = 0))

/-- The same bits of a course pair's control register. -/
def courseOff (d o i : Nat) : Prop :=
  2 ≤ i ∧ i ≤ 6 ∧ ((d < 40 ∧ 0xA00000 ≤ o ∧ o < 0xA00400 ∧ o % 0x40 = 0) ∨
    (88 ≤ d ∧ d < 98 ∧ 0x400000 ≤ o ∧ o < 0x400100 ∧ o % 0x40 = 0))

/-- The same bits of a domain's control register. -/
def domOff (d o i : Nat) : Prop := 2 ≤ i ∧ i ≤ 6 ∧ d = 99 ∧ 0x100100 ≤ o ∧ o < 0x100300

/-- The registers that say which dies run. -/
def runOff (d o _i : Nat) : Prop := d = 98 ∧ 0x100 ≤ o ∧ o < 0x300

/-- All of these. -/
def stateOff (d o i : Nat) : Prop := unitOff d o i ∨ courseOff d o i ∨ domOff d o i ∨ runOff d o i

theorem setupBase_inj {d e o p : Nat} (ho : o < 0x1000000) (hp : p < 0x1000000) (h : Reg.setupBase d + o = Reg.setupBase e + p) :
    d = e ∧ o = p := by
  unfold Reg.setupBase at h
  omega

theorem wfld_congr {v w : Word} {hi lo : Nat} (h : ∀ i, lo ≤ i → i ≤ hi → v.getLsbD i = w.getLsbD i) : wfld v hi lo = wfld w hi lo := by
  refine Nat.eq_of_testBit_eq fun j => ?_
  unfold wfld
  rw [Nat.testBit_mod_two_pow, Nat.testBit_mod_two_pow, Nat.testBit_div_two_pow, Nat.testBit_div_two_pow]
  by_cases hj : j < hi + 1 - lo
  · exact congrArg (decide (j < hi + 1 - lo) && ·) (h (j + lo) (by omega) (by omega))
  · simp [hj]

/-! ### What leaves bits of registers, memory and, where `w` holds, the descriptors -/

/-- The bits that `off` names of the registers, memory and the host dies' copies are as before, and where `w` holds so are the
descriptors and the frames not acknowledged. -/
structure Calm (w : Prop) (off : Nat → Nat → Nat → Prop) (s t : State) : Prop where
  bits : ∀ d o i a, o < 0x1000000 → off d o i → regAlias a = Reg.setupBase d + o → t.flag a i = s.flag a i
  mem : t.mem = s.mem
  poison : t.poison = s.poison
  copies : t.host.copies = s.host.copies
  flights : w → t.flights = s.flights
  unacked : w → t.fab.unacked = s.fab.unacked

namespace Calm

variable {w v : Prop} {off off' : Nat → Nat → Nat → Prop} {s t u : State}

theorem refl (s : State) : Calm w off s s := ⟨fun _ _ _ _ _ _ _ => rfl, rfl, rfl, rfl, fun _ => rfl, fun _ => rfl⟩

theorem trans (h : Calm w off s t) (k : Calm w off t u) : Calm w off s u where
  bits d o i a ho hp ha := (k.bits d o i a ho hp ha).trans (h.bits d o i a ho hp ha)
  mem := k.mem.trans h.mem
  poison := k.poison.trans h.poison
  copies := k.copies.trans h.copies
  flights hw := (k.flights hw).trans (h.flights hw)
  unacked hw := (k.unacked hw).trans (h.unacked hw)

theorem mono (h : Calm w off s t) (hw : v → w) (hoff : ∀ d o i, off' d o i → off d o i) : Calm v off' s t :=
  ⟨fun d o i a ho hp => h.bits d o i a ho (hoff d o i hp), h.mem, h.poison, h.copies, h.flights ∘ hw, h.unacked ∘ hw⟩

theorem ite {c : Prop} [Decidable c] (h : c → Calm w off s t) (k : ¬ c → Calm w off s u) : Calm w off s (if c then t else u) := by
  by_cases hc : c
  · rw [if_pos hc]
    exact h hc
  · rw [if_neg hc]
    exact k hc

theorem foldl {β : Type} {f : State → β → State} {l : List β} (hf : ∀ s, ∀ x ∈ l, Calm w off s (f s x)) (s : State) :
    Calm w off s (l.foldl f s) := by
  induction l generalizing s with
  | nil => exact .refl s
  | cons x l ih => exact (hf s x (by simp)).trans (ih (fun s y hy => hf s y (by simp [hy])) _)

/-- The registers are as before, and all that counts. -/
theorem same (hr : t.regs = s.regs) (hm : t.mem = s.mem) (hp : t.poison = s.poison) (hc : t.host.copies = s.host.copies)
    (hf : w → t.flights = s.flights) (hu : w → t.fab.unacked = s.fab.unacked) : Calm w off s t :=
  ⟨fun _ _ i a _ _ _ => congrArg (·.getLsbD i) (State.reg_congr hr a), hm, hp, hc, hf, hu⟩

theorem of_onlyControl (h : OnlyControl s t) (hb : ∀ d o i a, o < 0x1000000 → off d o i → regAlias a = Reg.setupBase d + o →
    t.flag a i = s.flag a i) : Calm w off s t :=
  ⟨hb, h.mem, h.poison, congrArg (·.host.copies) h, fun _ => h.flights, fun _ => congrArg (·.fab.unacked) h⟩

/-! Fields of registers that change beside the bits named. -/

section
variable {d o : Nat} (ho : o < 0x1000000)
include ho

theorem putFld (s : State) {hi lo : Nat} (x : Nat) (hl : lo ≤ hi) (hn : ∀ i, lo ≤ i → i ≤ hi → ¬ off d o i) :
    Calm w off s (s.putFld (Reg.setupBase d + o) hi lo x) := by
  refine ⟨fun e p i a hp hoff ha => ?_, rfl, rfl, rfl, fun _ => rfl, fun _ => rfl⟩
  by_cases hsame : regAlias a = Reg.setupBase d + o
  · obtain ⟨rfl, rfl⟩ := setupBase_inj hp ho (ha.symm.trans hsame)
    have hout : i < lo ∨ hi < i := by
      by_contra hin
      exact hn i (by omega) (by omega) hoff
    by_cases h32 : i < 32
    · have hal : regAlias (Reg.setupBase e + p) = Reg.setupBase e + p := by
        rw [← ha]
        unfold regAlias
        split_ifs <;> unfold Reg.tdDie Reg.setupBase at * <;> omega
      have hread : ∀ u : State, u.flag a i = u.flag (Reg.setupBase e + p) i := fun u =>
        congrArg (·.getLsbD i) (congrArg (lookup regReset u.regs) (ha.trans hal.symm))
      rw [hread, hread]
      exact State.flag_putFld_beside _ _ _ _ _ _ hal hl h32 hout
    · rw [State.flag_ge _ _ _ (by omega), State.flag_ge _ _ _ (by omega)]
  · exact State.flag_putFld_other _ _ _ _ _ _ _ hsame

theorem setFlag (s : State) {i : Nat} (b : Bool) (hn : ¬ off d o i) : Calm w off s (s.setFlag (Reg.setupBase d + o) i b) :=
  putFld ho s _ le_rfl fun j hj hj' => by
    rwa [le_antisymm hj' hj]

theorem setReg (s : State) (x : Word) (hn : ∀ i, ¬ off d o i) : Calm w off s (s.setReg (Reg.setupBase d + o) x) := by
  refine ⟨fun e p i a hp hoff ha => ?_, rfl, rfl, rfl, fun _ => rfl, fun _ => rfl⟩
  refine congrArg (·.getLsbD i) (State.reg_setReg_other _ _ _ _ fun hsame => ?_)
  obtain ⟨rfl, rfl⟩ := setupBase_inj hp ho (ha.symm.trans hsame)
  exact hn i hoff

end

/-! What the bits say is as before. -/

theorem fld (h : Calm w off s t) {d o a hi lo : Nat} (ha : regAlias a = Reg.setupBase d + o) (ho : o < 0x1000000)
    (hoff : ∀ i, lo ≤ i → i ≤ hi → off d o i) : t.fld a hi lo = s.fld a hi lo :=
  wfld_congr fun i hlo hhi => h.bits d o i a ho (hoff i hlo hhi) ha

theorem byte (h : Calm w off s t) (x : Nat) : t.byte x = s.byte x := State.byte_congr h.mem h.copies x

end Calm

end Sys2Proof
end

section
/-! SUPPORT. O46: a course that fails, and the routes, levels and shutdowns of dies, as far as they leave the states of functions
(R249, R381, R417). -/

namespace Sys2Proof

open Machine

namespace Calm

variable (s : State)

/-! ### A descriptor that meets a fault of its frames -/

/-- Nothing but descriptors and the fabric changes. -/
theorem work {off : Nat → Nat → Nat → Prop} {s t : State} (h : { t with flights := s.flights, fab := s.fab } = s) :
    Calm False off s t :=
  same (congrArg (·.regs) h) (congrArg (·.mem) h) (congrArg (·.poison) h) (congrArg (·.host.copies) h) False.elim False.elim

theorem setFlight (g : Flight) {off : Nat → Nat → Nat → Prop} : Calm False off s (s.setFlight g) := work rfl

theorem dropGuards (fid : Nat) (ixs : List Nat) : Calm False stateOff s (s.dropGuards fid ixs) := work rfl

theorem haltSends (fid : Nat) : Calm False stateOff s (s.haltSends fid) := work rfl

theorem haltDrain (f : Flight) : Calm False stateOff s (s.haltDrain f) := .ite (fun _ => work rfl) fun _ => .refl s

theorem haltUnit (fid code : Nat) : Calm False stateOff s (s.haltUnit fid code) := by
  unfold State.haltUnit
  cases s.flight fid with
  | none => exact .refl s
  | some f => exact .ite (fun _ => .ite (fun _ => .haltSends s fid) fun _ => .ite (fun _ => .haltDrain s f) fun _ => .refl s) fun _ => .refl s

theorem maStatus_flag {w : Prop} {die ep i : Nat} (he : ep < 8) (b : Bool) :
    Calm w stateOff s (s.setFlag (Reg.maStatus die ep) i b) := by
  rw [show Reg.maStatus die ep = Reg.setupBase die + (0x100004 + 0x100000 * ep) from Nat.add_assoc _ _ _]
  refine .setFlag (by omega) s b ?_
  unfold stateOff unitOff courseOff domOff runOff
  omega

theorem hSlot_lt (h : Word) : hSlot h < 8 := Nat.mod_lt _ (by decide)

theorem maBusy {w : Prop} (f : Flight) : Calm w stateOff s (s.maBusy f) := .maStatus_flag s (hSlot_lt _) _

theorem vePoisonBit {w : Prop} {die ep : Nat} (he : ep < 8) : Calm w stateOff s (s.vePoisonBit die ep) := by
  unfold State.vePoisonBit
  rw [show Reg.veStatus die ep = Reg.setupBase die + (0x100100 + 0x100000 * ep) from Nat.add_assoc _ _ _]
  refine .setFlag (by omega) s _ ?_
  unfold stateOff unitOff courseOff domOff runOff
  omega

theorem matEnd {w : Prop} (f : Flight) : Calm w stateOff s (s.matEnd f) := by
  unfold State.matEnd
  cases s.flight f.fid with
  | none => exact .refl s
  | some g =>
    have hbit : Calm w stateOff s (s.vePoisonBit (hDie f.target) (hSlot f.target)) := .vePoisonBit s (hSlot_lt _)
    have hpass : ∀ u : State, Calm w stateOff u (u.passesEnd f) := fun u => same rfl rfl rfl rfl (fun _ => rfl) fun _ => rfl
    dsimp only
    cases g.phase with
    | started => exact hbit
    | faulted => exact (hbit.trans (hpass _)).trans (.maStatus_flag _ (hSlot_lt _) _)
    | waiting => exact hbit.trans (.maBusy _ f)
    | done => exact hbit.trans (.maBusy _ f)
    | completed => exact hbit.trans (.maBusy _ f)

theorem maFaultSet {w : Prop} {die ep j : Nat} (he : ep < 6) (hj : j < 4) (st : Nat) (ix : Word) :
    Calm w stateOff s (s.maFaultSet die ep j st ix) := by
  unfold State.maFaultSet
  rw [show Reg.maFault die ep j = Reg.setupBase die + (0x100020 + 0x100000 * ep + 8 * j) by unfold Reg.maFault; omega,
    show Reg.maFaultIx die ep j = Reg.setupBase die + (0x100024 + 0x100000 * ep + 8 * j) by unfold Reg.maFaultIx; omega]
  refine .trans (.trans (.setReg (by omega) _ _ fun i => ?_) (.setReg (by omega) _ _ fun i => ?_)) (.maStatus_flag _ (by omega) _) <;>
    (unfold stateOff unitOff courseOff domOff runOff; omega)

theorem veFaultSet {w : Prop} {die ep : Nat} (hd : die < 40) (he : ep < 6) (f : Flight) (st : Nat) :
    Calm w stateOff s (s.veFaultSet die ep f st) := by
  unfold State.veFaultSet
  rw [show Reg.veStatus die ep = Reg.setupBase die + (0x100100 + 0x100000 * ep) from Nat.add_assoc _ _ _,
    show Reg.veFault die ep = Reg.setupBase die + (0x100104 + 0x100000 * ep) from Nat.add_assoc _ _ _,
    show Reg.veFaultIx die ep = Reg.setupBase die + (0x100108 + 0x100000 * ep) from Nat.add_assoc _ _ _]
  refine .trans (.trans (.setFlag (by omega) _ _ ?_) (.setReg (by omega) _ _ fun i => ?_)) (.setReg (by omega) _ _ fun i => ?_) <;>
    (unfold stateOff unitOff courseOff domOff runOff; omega)

theorem mvFaultSet {w : Prop} {die n : Nat} (hd : die < 40) (hn : n < 4) (f : Flight) (st : Nat) :
    Calm w stateOff s (s.mvFaultSet die n f st) := by
  unfold State.mvFaultSet
  rw [show Reg.mvFault die n = Reg.setupBase die + (0x700004 + 0x40 * n) from Nat.add_assoc _ _ _,
    show Reg.mvFaultIx die n = Reg.setupBase die + (0x700008 + 0x40 * n) from Nat.add_assoc _ _ _]
  refine .trans (.setReg (by omega) _ _ fun i => ?_) (.setReg (by omega) _ _ fun i => ?_) <;>
    (unfold stateOff unitOff courseOff domOff runOff; omega)

theorem vdFaultSet {w : Prop} {die e : Nat} (hd : 88 ≤ die ∧ die < 98) (he : e < 2) (f : Flight) (st : Nat) (x : Word) :
    Calm w stateOff s ((s.vdFaultSet die e f st).setReg (Reg.vdFaultPos die e) x) := by
  unfold State.vdFaultSet
  rw [show Reg.vdStatus die e = Reg.setupBase die + (0x200000 + 0x100000 * e) from Nat.add_assoc _ _ _,
    show Reg.vdFault die e = Reg.setupBase die + (0x200004 + 0x100000 * e) from Nat.add_assoc _ _ _,
    show Reg.vdFaultIx die e = Reg.setupBase die + (0x200008 + 0x100000 * e) from Nat.add_assoc _ _ _,
    show Reg.vdFaultPos die e = Reg.setupBase die + (0x20000C + 0x100000 * e) from Nat.add_assoc _ _ _]
  refine .trans (.trans (.trans (.setFlag (by omega) _ _ ?_) (.setReg (by omega) _ _ fun i => ?_)) (.setReg (by omega) _ _ fun i => ?_))
    (.setReg (by omega) _ _ fun i => ?_) <;>
    (unfold stateOff unitOff courseOff domOff runOff; omega)

theorem matPart_lt (d : Desc) : matPart d < 4 := by
  unfold matPart dfld
  split_ifs <;> omega

theorem unitFaultSet {w : Prop} (f : Flight) (st : Nat) : Calm w stateOff s (s.unitFaultSet f st) := by
  unfold State.unitFaultSet
  dsimp only
  cases hu : unitAt (hDie f.target) (hSlot f.target) with
  | none => exact .refl s
  | some unit =>
    cases unit with
    | enginePair =>
      have hbounds : hDie f.target < 40 ∧ hSlot f.target < 6 := by
        unfold unitAt isCd at hu
        split_ifs at hu <;> simp_all
      exact .ite (fun _ => .maFaultSet s hbounds.2 (matPart_lt _) _ _) fun _ => .veFaultSet s hbounds.1 hbounds.2 _ _
    | moverGroup =>
      have hcd : hDie f.target < 40 := by
        unfold unitAt isCd at hu
        split_ifs at hu <;> simp_all
      exact .mvFaultSet s hcd f.mover.isLt _ _
    | decodeEngine =>
      have hio : (88 ≤ hDie f.target ∧ hDie f.target < 98) ∧ hSlot f.target < 2 := by
        unfold unitAt isIo at hu
        split_ifs at hu <;> simp_all
      exact .vdFaultSet s hio.1 hio.2 _ _ _
    | _ => exact .refl s

theorem unitMeets (f : Flight) (code : Nat) (detail : Word) : Calm False stateOff s (s.unitMeets f code detail) := by
  have hmat : ∀ l, Calm False stateOff s
      (if matClass (dClass f.desc) && stopsPartition code then
        ((s.setFlight { f with phase := .faulted (BitVec.ofNat 8 code) detail l }).matEnd f).maBusy f
       else s.unitFaultSet f code) := fun l =>
    .ite (fun _ => ((setFlight s _).trans (.matEnd _ f)).trans (.maBusy _ f)) fun _ => .unitFaultSet s f code
  unfold State.unitMeets
  cases f.phase with
  | started => exact .refl s
  | faulted => exact setFlight s _
  | waiting => exact hmat _
  | done => exact hmat _
  | completed => exact hmat _

theorem raiseFlight (fid code : Nat) (detail : Word) : Calm False stateOff s (s.raiseFlight fid code detail) := by
  unfold State.raiseFlight
  have hhalt := haltUnit s fid code
  dsimp only
  cases (s.haltUnit fid code).flight fid with
  | none => exact hhalt
  | some f =>
    exact hhalt.trans (.ite (fun _ => .ite (fun _ => setFlight _ _) fun _ => (setFlight _ _).trans (.unitMeets _ _ _ _)) fun _ => .refl _)

theorem frameFails (u : Sent) (code : Nat) (detail : Word) : Calm False stateOff s (s.frameFails u code detail) := by
  unfold State.frameFails State.readFails
  cases u.fid with
  | none => exact .ite (fun _ => .refl s) fun _ => .refl s
  | some fid => exact .ite (fun _ => (haltUnit s fid code).trans (work rfl)) fun _ => (dropGuards s fid _).trans (.raiseFlight _ _ _ _)

theorem answerSent (u : Sent) (code : Nat) (detail : Word) : Calm False stateOff s (s.answerSent u code detail) := by
  unfold State.answerSent
  refine .trans ?_ (.frameFails _ u code detail)
  exact work rfl

/-! ### A course that fails (R381) -/

theorem log {w : Prop} {off : Nat → Nat → Nat → Prop} (die : Nat) (kind : LogKind) (a info : Nat) (who : LogBy) (acc : LogAcc) :
    Calm w off s (s.log die kind a info who acc) := same rfl rfl rfl rfl (fun _ => rfl) fun _ => rfl

theorem freeCount {w : Prop} {off : Nat → Nat → Nat → Prop} : Calm w off s s.freeCount.2 :=
  same rfl rfl rfl rfl (fun _ => rfl) fun _ => rfl

theorem courseFail (die pair : Nat) : Calm False stateOff s (courseFail die pair s) := by
  unfold Machine.courseFail
  refine .trans (.foldl (fun u x _ => ?_) s) (.foldl (fun u x _ => ?_) _)
  · exact .ite (fun _ => ((freeCount u).trans (.log _ _ _ _ _ _ _)).trans (.answerSent _ _ _ _)) fun _ => freeCount u
  · exact .ite (fun _ => ((freeCount u).trans (.log _ _ _ _ _ _ _)).trans (.raiseFlight _ _ _ _)) fun _ => freeCount u

end Calm

/-- With nothing issued and nothing unacknowledged a course that fails meets nothing. -/
theorem courseFail_idle {s : State} (hf : ∀ f ∈ s.flights, f.issued = false) (hu : s.fab.unacked = []) (die pair : Nat) :
    courseFail die pair s = s := by
  unfold Machine.courseFail
  have hnone : ∀ p : Flight → Bool, s.flights.filter (fun f => f.issued && p f) = [] := fun p =>
    List.filter_eq_nil_iff.2 fun f hmem => by simp [hf f hmem]
  simp only [hu, List.filter_nil, List.foldl_nil, hnone]

end Sys2Proof
end

section
/-! SUPPORT. O46: what a die does as its domain comes ON, as far as it leaves the states of domains and dies (R13, R379, R417). -/

namespace Sys2Proof

open Machine

/-- The bits that say what domains and dies are doing. -/
def dieOff (d o i : Nat) : Prop := domOff d o i ∨ runOff d o i

theorem stateOff_of_dieOff {d o i : Nat} (h : dieOff d o i) : stateOff d o i := .inr (.inr h)

namespace Calm

theorem of_onlyRegs {w : Prop} {off : Nat → Nat → Nat → Prop} {s t : State} {d o : Nat} (h : OnlyRegs [Reg.setupBase d + o] s t)
    (ho : o < 0x1000000) (hn : ∀ i, ¬ off d o i) : Calm w off s t := by
  have ht : t = { s with regs := t.regs } := h.eq
  refine ⟨fun e p i a hp hoff ha => ?_, congrArg (·.mem) ht, congrArg (·.poison) ht, congrArg (·.host.copies) ht,
    fun _ => congrArg (·.flights) ht, fun _ => congrArg (·.fab.unacked) ht⟩
  refine congrArg (·.getLsbD i) (h.2 a fun hmem => ?_)
  obtain ⟨rfl, rfl⟩ := setupBase_inj hp ho (ha.symm.trans (List.mem_singleton.1 hmem))
  exact hn i hoff

variable {w : Prop} (s : State)

/-! ### Levels and routes -/

theorem evalDie (die : Nat) : Calm w stateOff s (s.evalDie die) := by
  refine .of_onlyControl (.evalDie s die) fun d o i a ho hoff ha => congrArg (·.getLsbD i) (State.reg_evalDie s fun h => ?_)
  obtain ⟨rfl, rfl⟩ := setupBase_inj (o := o) (p := 0xB00204) ho (by omega) (ha.symm.trans h)
  unfold stateOff unitOff courseOff domOff runOff at hoff
  omega

theorem evalAll : Calm w stateOff s s.evalAll := .foldl (fun u d _ => .evalDie u d) s

theorem dcRoute_setFlag {x d v : Nat} (hd : d < 100) (hv : v < 2) (b : Bool) :
    Calm w stateOff s (s.setFlag (Reg.dcRoute x d v) 31 b) := by
  rw [show Reg.dcRoute x d v = Reg.setupBase x + (0x60000 + 0x8 * d + 4 * v) by unfold Reg.dcRoute; omega]
  refine .setFlag (by omega) s b ?_
  unfold stateOff unitOff courseOff domOff runOff
  omega

theorem dcRoute_setReg {x d v : Nat} (hd : d < 100) (hv : v < 2) (y : Word) :
    Calm w stateOff s (s.setReg (Reg.dcRoute x d v) y) := by
  rw [show Reg.dcRoute x d v = Reg.setupBase x + (0x60000 + 0x8 * d + 4 * v) by unfold Reg.dcRoute; omega]
  refine .setReg (by omega) s y fun i => ?_
  unfold stateOff unitOff courseOff domOff runOff
  omega

theorem clearRoutes (die : Nat) : Calm w stateOff s (s.clearRoutes die) := by
  refine .foldl (fun u x _ => .foldl (fun u d hd => .foldl (fun u v hv => ?_) u) u) s
  have hd := List.mem_range.1 hd
  have hv : v < 2 := by
    simp only [List.mem_cons, List.not_mem_nil, or_false] at hv
    omega
  exact .ite (fun _ => .dcRoute_setFlag u hd hv false) fun _ => .refl u

theorem loadRoute {x d : Nat} (hd : d < 100) : Calm w stateOff s (s.loadRoute x d) :=
  .ite (fun _ => .refl s) fun _ => (dcRoute_setReg s hd (by omega) _).trans (.dcRoute_setReg _ hd (by omega) _)

theorem restoreRoutes (die : Nat) : Calm w stateOff s (s.restoreRoutes die) :=
  .foldl (fun u _ _ => .foldl (fun u _ hd => .loadRoute u (List.mem_range.1 (List.mem_filter.1 hd).1)) u) s

theorem pwOp_putFld {die k hi lo : Nat} (hk : k < 16) (hl : lo ≤ hi) (x : Nat) :
    Calm w stateOff s (s.putFld (Reg.pwOp die k) hi lo x) := by
  rw [show Reg.pwOp die k = Reg.setupBase die + (0xB00000 + 0x4 * k) from Nat.add_assoc _ _ _]
  refine .putFld (by omega) s x hl fun i _ _ => ?_
  unfold stateOff unitOff courseOff domOff runOff
  omega

theorem loadDie (die : Nat) : Calm w stateOff s (s.loadDie die) := by
  unfold State.loadDie
  refine .ite (fun _ => ?_) fun _ => .refl s
  have hops : ∀ volts : List Nat, Calm w stateOff s
      ((List.range 16).foldl (fun s k => s.putFld (Reg.pwOp die k) 27 16 (volts.getD k 0)) s) := fun volts =>
    .foldl (fun u k hk => .pwOp_putFld u (List.mem_range.1 hk) (by omega) _) s
  dsimp only
  split
  · exact (hops _).trans (.pwOp_putFld _ (by omega) (by omega) _)
  · exact hops _

/-! ### Courses in training -/

/-- A register of a course pair. -/
theorem cpReg_eq (k die p : Nat) : ∃ o, Reg.cpReg k die p = Reg.setupBase die + o ∧ 0x400000 ≤ o ∧ o ≤ 0xA00000 + 0x40 * p + k := by
  refine ⟨(if isCd die then 0xA00000 else 0x400000) + 0x40 * p + k, by unfold Reg.cpReg; omega, ?_, ?_⟩ <;> split_ifs <;> omega

theorem not_dieOff {d o i : Nat} (ho : 0x400000 ≤ o) : ¬ dieOff d o i := by
  unfold dieOff domOff runOff
  omega

section
variable {k die p : Nat} (hk : k < 0x40) (hp : p < 32)
include hk hp

theorem cp_setReg (y : Word) : Calm w dieOff s (s.setReg (Reg.cpReg k die p) y) := by
  obtain ⟨o, heq, hlo, hhi⟩ := cpReg_eq k die p
  rw [heq]
  exact .setReg (by omega) s y fun i => not_dieOff hlo

theorem cp_putFld {hi lo : Nat} (hl : lo ≤ hi) (x : Nat) : Calm w dieOff s (s.putFld (Reg.cpReg k die p) hi lo x) := by
  obtain ⟨o, heq, hlo, hhi⟩ := cpReg_eq k die p
  rw [heq]
  exact .putFld (by omega) s x hl fun i _ _ => not_dieOff hlo

theorem cp_onlyRegs {t : State} (h : OnlyRegs [Reg.cpReg k die p] s t) : Calm w dieOff s t := by
  obtain ⟨o, heq, hlo, hhi⟩ := cpReg_eq k die p
  rw [heq] at h
  exact of_onlyRegs h (by omega) fun i => not_dieOff hlo

end

theorem regAlias_cpReg {k die p : Nat} (hk : k < 0x40) (hp : p < 32) : regAlias (Reg.cpReg k die p) = Reg.cpReg k die p := by
  obtain ⟨o, heq, hlo, hhi⟩ := cpReg_eq k die p
  rw [heq]
  exact regAlias_setupBase (by omega)

section
variable {die p : Nat} (hp : p < 32)
include hp

theorem setLink (x : Nat) : Calm w dieOff s (s.setLink die p x) := cp_putFld s (k := 0x04) (by omega) hp (by omega) x

theorem coursePairEnable : Calm w dieOff s (s.coursePairEnable die p) := by
  have hreq : Calm w dieOff s (s.enableReq (Reg.cpCtrl die p)) :=
    cp_onlyRegs s (k := 0) (by omega) hp (switched_enableReq s _ (regAlias_cpReg (by omega) hp)).1
  unfold State.coursePairEnable
  refine .ite (fun _ => ?_) fun _ => .ite (fun _ => ?_) fun _ => hreq
  · exact (cp_putFld s (k := 0) (by omega) hp le_rfl _).trans (.log _ _ _ _ _ _ _)
  · exact (hreq.trans (.setLink _ hp 2)).trans (cp_setReg _ (k := 0x1C) (by omega) hp 0)

theorem enablingEnd (ok : Bool) : Calm w dieOff s (s.enablingEnd (Reg.cpCtrl die p) ok) :=
  cp_onlyRegs s (k := 0) (by omega) hp (switched_enablingEnd s _ ok (regAlias_cpReg (by omega) hp)).1

theorem setModes (rx tx : Nat) : Calm w dieOff s (s.setModes die p rx tx) :=
  (cp_putFld s (k := 0x04) (by omega) hp (by omega) rx).trans (cp_putFld _ (k := 0x04) (by omega) hp (by omega) tx)

theorem courseRefuse (link reason : Nat) : Calm w dieOff s (s.courseRefuse die p link reason) :=
  ((((enablingEnd s hp false).trans (.setLink _ hp link)).trans (.setModes _ hp 0 0)).trans
    (cp_setReg _ (k := 0x1C) (by omega) hp _)).trans (.log _ _ _ _ _ _ _)

theorem rxMap (m : BitVec 18) (ck : Bool) : Calm w dieOff s (s.rxMap die p m ck) := by
  have hmap : ∀ (x y : Word) (a b : Nat), Calm w dieOff s ((((s.setReg (Reg.cpRxNew die p) x).setReg (Reg.cpRxBad die p) y).putFld
      (Reg.cpStatus die p) 4 0 a).putFld (Reg.cpStatus die p) 19 16 b) := fun x y a b =>
    (((cp_setReg s (k := 0x10) (by omega) hp x).trans (cp_setReg _ (k := 0x08) (by omega) hp y)).trans
      (cp_putFld _ (k := 0x04) (by omega) hp (by omega) a)).trans (cp_putFld _ (k := 0x04) (by omega) hp (by omega) b)
  exact .ite (fun _ => hmap _ _ _ _) fun _ => (hmap _ _ _ _).trans (.log _ _ _ _ _ _ _)

theorem txMap (m : BitVec 18) (ck : Bool) : Calm w dieOff s (s.txMap die p m ck) :=
  (cp_setReg s (k := 0x14) (by omega) hp _).trans (cp_putFld _ (k := 0x04) (by omega) hp (by omega) _)

end

/-- The other end of a pair has a number in its die. -/
theorem peerPair_lt {die p d q : Nat} (hp : p < 16) (h : peerPair die p = some (d, q)) : q < 32 := by
  unfold peerPair at h
  cases hpeer : pairPeer die p with
  | none => simp [hpeer] at h
  | some e =>
    rw [hpeer] at h
    have hedge : attachEdge die < 4 := by
      unfold attachEdge
      split_ifs <;> omega
    dsimp only at h
    split_ifs at h <;> (have := congrArg (Option.map Prod.snd) h; simp at this; omega)

theorem laneMaps {die p : Nat} (hp : p < 16) (r : LaneResult) : Calm w dieOff s (s.laneMaps die p r) := by
  unfold State.laneMaps
  dsimp only
  cases hpeer : peerPair die p with
  | none => exact (rxMap s (by omega) _ _).trans (.txMap _ (by omega) _ _)
  | some e =>
    have hq := peerPair_lt hp hpeer
    exact (((rxMap s (by omega) _ _).trans (.rxMap _ hq _ _)).trans (.txMap _ (by omega) _ _)).trans (.txMap _ hq _ _)

theorem atEnds {die p : Nat} (hp : p < 16) {act : State → Nat → Nat → State}
    (hact : ∀ u d q, q < 32 → Calm w dieOff u (act u d q)) : Calm w dieOff s (s.atEnds die p act) := by
  refine .foldl (fun u e he => ?_) s
  rcases List.mem_cons.1 he with rfl | he
  · exact hact u _ _ (by simpa using Nat.lt_of_lt_of_le hp (by decide))
  · exact hact u _ _ (peerPair_lt hp (Option.mem_toList.1 he))

theorem courseEnablingDone {die p : Nat} (hp : p < 16) (r : LaneResult) : Calm w dieOff s (s.courseEnablingDone die p r) := by
  unfold State.courseEnablingDone
  refine (laneMaps s (die := die) hp r).trans (.ite (fun _ => ?_) fun _ => ?_)
  · exact atEnds _ hp fun u d q hq => (enablingEnd u hq true).trans (.setLink _ hq 3)
  · exact atEnds _ hp fun u d q hq => ((enablingEnd u hq false).trans (.setLink _ hq 5)).trans (cp_setReg _ (k := 0x1C) (by omega) hq _)

theorem pairTrain {die p : Nat} (hp : p < 16) (tests : List PairTest) : Calm w dieOff s (s.pairTrain tests die p) := by
  have henable := atEnds s (w := w) (die := die) hp (act := fun s d p => s.coursePairEnable d p) fun u d q hq => .coursePairEnable u hq
  unfold State.pairTrain
  dsimp only
  cases testOf tests die p with
  | some r => exact henable.trans (.ite (fun _ => .courseEnablingDone _ hp r) fun _ => .refl _)
  | none => exact henable.trans (.atEnds _ hp fun u d q hq => .ite (fun _ => .courseRefuse u hq 1 5) fun _ => .refl u)

theorem pairsOn_le (die : Nat) : pairsOn die ≤ 16 := by unfold pairsOn; split_ifs <;> omega

theorem mem_pairsTo {die : Nat} {e : Nat × Nat} (h : e ∈ pairsTo die) :
    (e.1 < 40 ∨ 88 ≤ e.1 ∧ e.1 < 98) ∧ e.2 < pairsOn e.1 ∧ pairPeer e.1 e.2 = some die := by
  obtain ⟨hmem, hpeer⟩ := List.mem_filter.1 h
  obtain ⟨d, hd, hp⟩ := List.mem_flatMap.1 hmem
  obtain ⟨p, hlt, rfl⟩ := List.mem_map.1 hp
  refine ⟨?_, List.mem_range.1 hlt, of_decide_eq_true hpeer⟩
  rcases List.mem_append.1 hd with hd | hd
  · exact .inl (List.mem_range.1 hd)
  · obtain ⟨x, hx, rfl⟩ := List.mem_map.1 hd
    have := List.mem_range.1 hx
    exact .inr (by dsimp only; omega)

theorem startPairs (tests : List PairTest) (dies : List Nat) : Calm w dieOff s (s.startPairs tests dies) := by
  refine .foldl (fun u e he => .ite (fun _ => .refl u) fun _ => .pairTrain u ?_ tests) s
  obtain ⟨d, -, he⟩ := List.mem_flatMap.1 (List.mem_filter.1 he).1
  have hlt : e.2 < pairsOn e.1 := by
    unfold pairsOf at he
    split at he
    · obtain ⟨p, hp, rfl⟩ := List.mem_map.1 (List.mem_filter.1 he).1
      exact List.mem_range.1 hp
    · exact (mem_pairsTo he).2.1
  exact Nat.lt_of_lt_of_le hlt (pairsOn_le _)

/-! ### The rest of a die's restoring -/

theorem loadMaps (die : Nat) : Calm w dieOff s (s.loadMaps die) := by
  refine .foldl (fun u p hp => ?_) s
  have hp : p < 32 := by
    have := List.mem_range.1 hp
    have := pairsOn_le die
    omega
  split
  · exact cp_setReg u (k := 0x0C) (by omega) hp _
  · exact .refl u

theorem setTimer (hd : Nat) : Calm w dieOff s (s.setTimer hd) := by
  unfold State.setTimer
  split
  · exact .refl s
  · have hoff : ∀ o i, 0x100030 ≤ o → o < 0x100100 → ¬ dieOff hd o i := fun o i _ _ => by
      unfold dieOff domOff runOff
      omega
    exact ((freeCount s).trans (.setReg (o := 0x100030) (by omega) _ _ fun i => hoff _ i (by omega) (by omega))).trans
      (.setReg (o := 0x100034) (by omega) _ _ fun i => hoff _ i (by omega) (by omega))

end Calm

end Sys2Proof
end

section
/-! SUPPORT. O46: domains that are enabled and come ON (R67, R417). -/

namespace Sys2Proof

open Machine

/-! ### The registers of domains and dies -/

theorem lt_of_ringBearing {die : Nat} (h : ringBearing die = true) : die < 98 ∧ (die < 40 ∨ 80 ≤ die) := by
  unfold ringBearing isCd isHd isIo at h
  simp only [Bool.or_eq_true, decide_eq_true_eq] at h
  omega

theorem attachedTo_lt {die : Nat} (h : die < 98) : attachedTo die < 40 := by
  unfold attachedTo isCd isStack isHd isIo
  simp only [decide_eq_true_eq]
  split_ifs <;> omega

theorem attachedTo_ne {die : Nat} (hd : die < 98) (h : isCd die = false) : attachedTo die ≠ die := fun e => by
  have := attachedTo_lt hd
  rw [e] at this
  simp [isCd, this] at h

section
variable {die : Nat} (hd : die < 98)
include hd

theorem regAlias_pwDom : regAlias (Reg.pwDom die) = Reg.setupBase 99 + (0x100100 + 0x4 * die) := by
  rw [show Reg.pwDom die = Reg.setupBase 99 + (0x100100 + 0x4 * die) from Nat.add_assoc _ _ _]
  exact regAlias_setupBase (by omega)

theorem regAlias_pwDom_self : regAlias (Reg.pwDom die) = Reg.pwDom die := (regAlias_pwDom hd).trans (Nat.add_assoc _ _ _).symm

theorem regAlias_tdDie : ∃ o, 0x100 ≤ o ∧ o < 0x300 ∧ regAlias (Reg.tdDie die) = Reg.setupBase 98 + o := by
  unfold regAlias
  by_cases h : Reg.tdDie 40 ≤ Reg.tdDie die ∧ Reg.tdDie die ≤ Reg.tdDie 79
  · rw [if_pos h]
    unfold Reg.tdDie at h ⊢
    exact ⟨0x100 + 0x4 * die - 160, by omega, by omega, by omega⟩
  · rw [if_neg h]
    exact ⟨0x100 + 0x4 * die, by omega, by omega, Nat.add_assoc _ _ _⟩

end

theorem pwDom_inj {d e : Nat} (h : Reg.pwDom d = Reg.pwDom e) : d = e := by
  unfold Reg.pwDom at h
  omega

theorem tdDie_ne_pwDom {d e : Nat} (hd : d < 98) (he : e < 98) : regAlias (Reg.tdDie d) ≠ Reg.pwDom e := by
  obtain ⟨o, -, hlt, heq⟩ := regAlias_tdDie hd
  rw [heq]
  unfold Reg.pwDom Reg.setupBase
  omega

namespace Calm

variable {w : Prop} {off : Nat → Nat → Nat → Prop} {s t : State}

theorem dom_fnState (h : Calm w off s t) (hoff : ∀ d o i, domOff d o i → off d o i) {die : Nat} (hd : die < 98) :
    t.fnState (Reg.pwDom die) = s.fnState (Reg.pwDom die) :=
  h.fld (regAlias_pwDom hd) (by omega) fun i hlo hhi => hoff _ _ _ (by unfold domOff; omega)

theorem dom_flag (h : Calm w off s t) (hoff : ∀ d o i, domOff d o i → off d o i) {die i : Nat} (hd : die < 98) (hi : 2 ≤ i ∧ i ≤ 6) :
    t.flag (Reg.pwDom die) i = s.flag (Reg.pwDom die) i :=
  h.bits _ _ _ _ (by omega) (hoff _ _ _ (by unfold domOff; omega)) (regAlias_pwDom hd)

theorem dieState (h : Calm w off s t) (hoff : ∀ d o i, runOff d o i → off d o i) {die : Nat} (hd : die < 98) :
    t.dieState die = s.dieState die := by
  obtain ⟨o, hlo, hhi, heq⟩ := regAlias_tdDie hd
  exact h.fld heq (by omega) fun i _ _ => hoff _ _ _ ⟨rfl, hlo, hhi⟩

end Calm

/-! ### Enabling (R67) -/

theorem Switched.trans {c st st' : Nat} {p p' e e' : Bool} {s t u : State} (h : Switched c st p e s t) (k : Switched c st' p' e' t u) :
    Switched c st' p' e' s u := by
  obtain ⟨hregs, -, -, -, hrest⟩ := h
  obtain ⟨hregs', hst, hp, he, hrest'⟩ := k
  exact ⟨hregs.trans_same hregs', hst, hp, he, fun i hi => (hrest' i hi).trans (hrest i hi)⟩

/-- ENABLING of a domain is refused (R417). -/
def DomainRefused (s : State) (die : Nat) : Prop :=
  s.dieState die = 3 ∨ isCd die = false ∧ s.fnState (Reg.pwDom (attachedTo die)) ≠ 2

theorem domainRefused_iff (s : State) (die : Nat) : s.domainRefused die = true ↔ DomainRefused s die := by
  unfold State.domainRefused DomainRefused
  cases isCd die <;> simp

/-- What a domain's own register says has no part in the refusal. -/
theorem domainRefused_onlyDom {s t : State} {die : Nat} (hd : die < 98) (h : OnlyRegs [Reg.pwDom die] s t) :
    DomainRefused t die ↔ DomainRefused s die := by
  have hdie : t.dieState die = s.dieState die :=
    congrArg (wfld · 11 8) (h.2 _ fun hm => tdDie_ne_pwDom hd hd (List.mem_singleton.1 hm))
  unfold DomainRefused
  rw [hdie]
  refine or_congr_right (and_congr_right fun hcd => ?_)
  have hat : t.fnState (Reg.pwDom (attachedTo die)) = s.fnState (Reg.pwDom (attachedTo die)) :=
    congrArg (wfld · 6 4) (h.2 _ fun hm => by
      rw [regAlias_pwDom_self (Nat.lt_trans (attachedTo_lt hd) (by omega))] at hm
      exact attachedTo_ne hd hcd (pwDom_inj (List.mem_singleton.1 hm)))
  rw [hat]

theorem domainEnable_refused {s : State} {die : Nat} (hd : die < 98) (hr : DomainRefused s die) (h0 : s.fnState (Reg.pwDom die) = 0) :
    Switched (Reg.pwDom die) 0 false true s (s.domainEnable die) := by
  have hself := regAlias_pwDom_self hd
  have hreq := switched_enableReq s _ hself
  have hr' := (domainRefused_iff _ die).2 ((domainRefused_onlyDom hd hreq.1).2 hr)
  rw [h0] at hreq
  obtain ⟨-, hst, hp, -⟩ := id hreq
  have hend := switched_enablingEnd (s.enableReq (Reg.pwDom die)) _ false hself
  rw [hp] at hend
  unfold State.domainEnable
  dsimp only
  rw [if_pos ⟨hst, hr'⟩]
  simpa [h0] using hreq.trans hend

theorem domainEnable_switched {s : State} {die : Nat} (hd : die < 98)
    (h : ¬ DomainRefused s die ∨ s.fnState (Reg.pwDom die) ≠ 0 ∧ s.fnState (Reg.pwDom die) ≠ 1) :
    Switched (Reg.pwDom die) (if s.fnState (Reg.pwDom die) = 0 then 1 else s.fnState (Reg.pwDom die))
      (s.flag (Reg.pwDom die) 3 && s.fnState (Reg.pwDom die) != 0 || s.fnState (Reg.pwDom die) == 3) false s (s.domainEnable die) := by
  have hreq := switched_enableReq s _ (regAlias_pwDom_self hd)
  have hgo : ¬ ((s.enableReq (Reg.pwDom die)).fnState (Reg.pwDom die) = 1 ∧ (s.enableReq (Reg.pwDom die)).domainRefused die = true) := by
    rintro ⟨hst, hr⟩
    rw [domainRefused_iff, domainRefused_onlyDom hd hreq.1] at hr
    rcases h with h | ⟨h0, h1⟩
    · exact h hr
    · rw [hreq.2.1, if_neg h0] at hst
      exact h1 hst
  unfold State.domainEnable
  dsimp only
  rw [if_neg hgo]
  exact hreq

/-- DOMAIN_ENABLE (R67, R417). -/
theorem answers_domainEnable {s : State} {die : Nat} (hb : ringBearing die = true) (hc : s.controls = true) :
    let dom := Reg.pwDom die
    Answers (.domainEnable die) s (fun t =>
      (s.fnState dom = 0 → DomainRefused s die → Switched dom 0 false true s t) ∧
      (s.fnState dom = 1 → DomainRefused s die ∨ Switched dom 1 (s.flag dom 3) false s t) ∧
      (¬ (s.fnState dom = 0 ∧ DomainRefused s die) → s.fnState dom ≠ 1 →
        Switched dom (if s.fnState dom = 0 then 1 else s.fnState dom)
          (s.flag dom 3 && s.fnState dom != 0 || s.fnState dom == 3) false s t)) := by
  intro dom
  obtain ⟨hd, -⟩ := lt_of_ringBearing hb
  refine ⟨s.domainEnable die, congrArg Host.Outcome.next (if_pos (by simp [hb, hc])), fun h0 hr => domainEnable_refused hd hr h0,
    fun h1 => ?_, fun h0 h1 => domainEnable_switched hd ?_⟩
  · by_cases hr : DomainRefused s die
    · exact .inl hr
    · have h := domainEnable_switched hd (.inl hr)
      rw [show s.fnState (Reg.pwDom die) = 1 from h1] at h
      exact .inr (by simpa using h)
  · by_cases hr : DomainRefused s die
    · exact .inr ⟨fun h => h0 ⟨h, hr⟩, h1⟩
    · exact .inl hr

/-! ### A latched enable in the next cycle -/

theorem ctrl_of_fnOf {a : Nat} {fn : Fn} (h : fnOf a = some fn) : fn.ctrl = a := by
  unfold fnOf at h
  split at h
  · have := List.find?_some h
    simp only [Bool.and_eq_true, beq_iff_eq] at this
    exact this.2
  · exact absurd h (by simp)

/-- A function that is latched is OFF with pend set. -/
theorem latched_off {s : State} (hwf : s.Wf) {fn : Fn} (h : fn ∈ s.latched) (hal : regAlias fn.ctrl = fn.ctrl) :
    s.fnState fn.ctrl = 0 := by
  obtain ⟨p, hp, hfn⟩ := List.mem_filterMap.1 (List.mem_filter.1 h).1
  split at hfn
  · next hlatch =>
    have hctrl := ctrl_of_fnOf hfn
    have hreg : s.reg fn.ctrl = p.2 := by
      unfold State.reg
      rw [hal, hctrl]
      exact lookup_of_mem hwf.regs hp
    unfold State.fnState State.fld
    rw [hreg]
    unfold wfld at hlatch ⊢
    omega
  · exact absurd hfn (by simp)

/-- The state in which a cycle's latched enables begin. -/
def cycled (s : State) : State := s.tick.compareTimers.releaseGuards

theorem calm_tick {w : Prop} (s : State) : Calm w dieOff s s.tick := by
  refine .foldl (fun u h hh => .ite (fun _ => ?_) fun _ => .refl u) s
  have hh := List.mem_range.1 hh
  have hoff : ∀ o i, 0x100030 ≤ o → o < 0x100100 → ¬ dieOff (80 + h) o i := fun o i _ _ => by
    unfold dieOff domOff runOff
    omega
  exact (Calm.setReg (o := 0x100030) (by omega) _ _ fun i => hoff _ i (by omega) (by omega)).trans
    (.setReg (o := 0x100034) (by omega) _ _ fun i => hoff _ i (by omega) (by omega))

theorem releaseGuards_none {s : State} (h : ∀ g ∈ s.fab.guards, s.guardDue g = false) :
    s.releaseGuards = { s with fab := { s.fab with guards := s.fab.guards.filter (fun g => !s.guardDue g) } } := by
  have hdue : s.fab.guards.filter s.guardDue = [] := List.filter_eq_nil_iff.2 fun g hg => by simp [h g hg]
  unfold State.releaseGuards
  rw [hdue]
  rfl

theorem tick_fab (s : State) : s.tick.fab = s.fab := by
  have hstep : ∀ (l : List Nat) (u : State), (l.foldl (fun s h => s.tickTimer (80 + h)) u).fab = u.fab := fun l => by
    induction l with
    | nil => exact fun _ => rfl
    | cons h l ih =>
      intro u
      refine (ih _).trans ?_
      show (u.tickTimer (80 + h)).fab = u.fab
      unfold State.tickTimer
      split <;> rfl
  exact hstep _ s

theorem calm_cycled {s : State} (h : ∀ g ∈ s.fab.guards, s.guardDue g = false) : Calm True dieOff s (cycled s) := by
  have hguards : ∀ g ∈ s.tick.compareTimers.fab.guards, s.tick.compareTimers.guardDue g = false := by
    have hfab : s.tick.compareTimers.fab = s.fab := tick_fab s
    unfold State.guardDue at h ⊢
    rw [hfab]
    exact h
  have hcompare : ∀ u : State, Calm True dieOff u u.compareTimers := fun u => .same rfl rfl rfl rfl (fun _ => rfl) fun _ => rfl
  unfold cycled
  rw [releaseGuards_none hguards]
  exact ((calm_tick s).trans (hcompare _)).trans (.same rfl rfl rfl rfl (fun _ => rfl) fun _ => rfl)

/-- The next cycle of a domain with an enable latched (R67, R417). -/
theorem step_latchedDomain {s : State} {die : Nat} (hb : ringBearing die = true) (hwf : s.Wf) (hpend : s.pending = [])
    (hlatch : s.latched = [.domain die]) (hguards : ∀ g ∈ s.fab.guards, s.guardDue g = false) :
    let dom := Reg.pwDom die
    ∃ t, step s = .next t ∧ t.flag dom 3 = false ∧
      (DomainRefused s die → t.fnState dom = 0 ∧ t.flag dom 2 = true) ∧
      (¬ DomainRefused s die → t.fnState dom = 1 ∧ t.flag dom 2 = false) := by
  intro dom
  obtain ⟨hd, -⟩ := lt_of_ringBearing hb
  have hstep : step s = .next ((cycled s).domainEnable die) := by
    unfold step
    rw [hpend]
    unfold State.cycle
    rw [hlatch]
    rfl
  have hcalm := calm_cycled hguards
  have h0 : (cycled s).fnState dom = 0 := (hcalm.dom_fnState (fun _ _ _ h => .inl h) hd).trans
    (latched_off hwf (fn := .domain die) (by rw [hlatch]; exact List.mem_singleton.2 rfl) (regAlias_pwDom_self hd))
  have hrefused : DomainRefused (cycled s) die ↔ DomainRefused s die := by
    unfold DomainRefused
    rw [hcalm.dieState (fun _ _ _ h => .inr h) hd,
      hcalm.dom_fnState (fun _ _ _ h => .inl h) (Nat.lt_trans (attachedTo_lt hd) (by omega))]
  by_cases hr : DomainRefused s die
  · obtain ⟨-, hst, hp, he, -⟩ := domainEnable_refused hd (hrefused.2 hr) h0
    exact ⟨_, hstep, hp, fun _ => ⟨hst, he⟩, fun h => absurd hr h⟩
  · obtain ⟨-, hst, hp, he, -⟩ := domainEnable_switched hd (.inl (mt hrefused.1 hr))
    rw [show (cycled s).fnState (Reg.pwDom die) = 0 from h0] at hst hp
    exact ⟨_, hstep, by simpa using hp, fun h => absurd h hr, fun _ => ⟨hst, he⟩⟩

/-! ### A die that comes ON (R417) -/

/-- The state with the die marked as running. -/
def dieMarked (s : State) (die : Nat) : State := (s.putFld (Reg.tdDie die) 11 8 2).putFld (Reg.tdDie die) 7 4 0

/-- The state with a compute die's working memory initialised. -/
def wmCleared (u : State) (die : Nat) : State :=
  { u with
    mem := eraseRange u.mem (wmBase die) (wmBase die + wmSize)
    poison := setEraseRange u.poison (wmBase die / 64) ((wmBase die + wmSize) / 64) }

/-- The state of a die that has begun to run, before its levels and routes are loaded. -/
def dieStarted (s : State) (die : Nat) : State := if isCd die then wmCleared (dieMarked s die) die else dieMarked s die

theorem regAlias_tdDie_self {die : Nat} (h : die < 40 ∨ 80 ≤ die) : regAlias (Reg.tdDie die) = Reg.tdDie die :=
  regAlias_eq _ (by unfold Reg.tdDie; omega)

theorem dieStarted_spec (s : State) {die : Nat} (hd : die < 98 ∧ (die < 40 ∨ 80 ≤ die)) :
    (dieStarted s die).dieState die = 2 ∧ (dieStarted s die).fnState (Reg.pwDom die) = s.fnState (Reg.pwDom die) ∧
      (dieStarted s die).flights = s.flights := by
  have hself := regAlias_tdDie_self hd.2
  have hne : regAlias (Reg.pwDom die) ≠ Reg.tdDie die := by
    rw [regAlias_pwDom_self hd.1]
    unfold Reg.pwDom Reg.tdDie Reg.setupBase
    omega
  have hregs : (dieStarted s die).regs = (dieMarked s die).regs ∧ (dieStarted s die).flights = (dieMarked s die).flights := by
    unfold dieStarted
    split <;> exact ⟨rfl, rfl⟩
  refine ⟨?_, ?_, hregs.2⟩
  · refine (congrArg (wfld · 11 8) (State.reg_congr hregs.1 _)).trans ?_
    refine (State.fld_putFld_beside _ _ _ _ _ 11 8 hself (by omega) (by omega) (by omega)).trans ?_
    exact State.fld_putFld_same _ _ _ _ _ hself (by omega) (by omega)
  · refine (congrArg (wfld · 6 4) (State.reg_congr hregs.1 _)).trans ?_
    exact (State.fld_putFld_other _ _ _ _ _ _ _ _ hne).trans (State.fld_putFld_other _ _ _ _ _ _ _ _ hne)

/-- A compute die's working memory reads 0 and holds no poison. -/
theorem dieStarted_memory (s : State) {die o : Nat} (hcd : isCd die = true) (ho : o < 0x8000000) :
    (dieStarted s die).memByte (0x0C0000000000 + 0x100000000 * die + o) = 0 ∧
      (dieStarted s die).linePoisoned ((0x0C0000000000 + 0x100000000 * die + o) / 64) = false := by
  unfold dieStarted
  rw [if_pos hcd]
  unfold wmCleared State.memByte State.linePoisoned wmBase wmSize
  dsimp only
  refine ⟨?_, ?_⟩
  · rw [lookup_eraseRange, if_pos (by omega)]
    rfl
  · rw [Bool.eq_false_iff, Ne, List.contains_iff_mem]
    intro hmem
    have := of_decide_eq_true (List.mem_filter.1 hmem).2
    omega

/-- A compute die with its levels and routes loaded. -/
def dieLoaded (v : State) (die : Nat) : State :=
  let s := (v.loadDie die).putFld (Reg.pwDieStatus die) 31 20 (v.opMhz die 0)
  let s : State := { s with
    pw := { s.pw with
      volts := setDie s.pw.volts die (s.opMv die 0)
      changes := s.pw.changes.filter (fun c => decide (c.die ≠ die))
      droops := setErase s.pw.droops die
      deferred := setErase s.pw.deferred die } }
  ((List.range 100).foldl (fun s d => s.loadRoute die d) s).evalDie die

theorem dieRuns_eq (s : State) (die : Nat) :
    s.dieRuns die = if isCd die then dieLoaded (dieStarted s die) die else dieStarted s die := by
  by_cases hcd : isCd die = true
  · rw [if_pos hcd, dieStarted, if_pos hcd]
    exact if_pos hcd
  · rw [if_neg hcd, dieStarted, if_neg hcd]
    exact if_neg hcd

theorem calm_setPw {w : Prop} {off : Nat → Nat → Nat → Prop} (s : State) (pw : PowerSt) : Calm w off s { s with pw := pw } :=
  .same rfl rfl rfl rfl (fun _ => rfl) fun _ => rfl

theorem calm_dieLoaded (v : State) (die : Nat) : Calm True stateOff v (dieLoaded v die) := by
  have hlevel : ∀ (u : State) (x : Nat), Calm True stateOff u (u.putFld (Reg.pwDieStatus die) 31 20 x) := fun u x =>
    .putFld (o := 0xB00204) (by omega) u x (by omega) fun i _ _ => by
      unfold stateOff unitOff courseOff domOff runOff
      omega
  unfold dieLoaded
  exact ((((Calm.loadDie v die).trans (hlevel _ _)).trans (calm_setPw _ _)).trans
    (.foldl (fun u d hd => .loadRoute u (List.mem_range.1 hd)) _)).trans (.evalDie _ die)

/-- The rest of a die's start loads its levels and routes. -/
theorem calm_dieRuns (s : State) (die : Nat) : Calm True dieOff (dieStarted s die) (s.dieRuns die) := by
  rw [dieRuns_eq]
  exact .ite (fun _ => (calm_dieLoaded _ die).mono id fun _ _ _ => stateOff_of_dieOff) fun _ => .refl _

/-- DOMAIN_ENABLING_DONE (R417). -/
theorem answers_domainEnablingDone {s : State} {die : Nat} (hb : ringBearing die = true) (hc : s.controls = true)
    (h1 : s.fnState (Reg.pwDom die) = 1) (tests : List PairTest) :
    Answers (.domainEnablingDone die tests) s (fun t => t.fnState (Reg.pwDom die) = 2 ∧ t.dieState die = 2 ∧ t.flights = s.flights ∧
      ∀ o, o < 0x8000000 → isCd die = true → t.memByte (0x0C0000000000 + 0x100000000 * die + o) = 0 ∧
        t.linePoisoned ((0x0C0000000000 + 0x100000000 * die + o) / 64) = false) := by
  obtain ⟨hd, hd'⟩ := lt_of_ringBearing hb
  obtain ⟨honly, hst, -⟩ := switched_enablingEnd s _ true (regAlias_pwDom_self hd)
  let u := s.enablingEnd (Reg.pwDom die) true
  obtain ⟨hrun, hdom, hflights⟩ := dieStarted_spec u ⟨hd, hd'⟩
  have htimer : ∀ v : State, Calm True dieOff v (if isHd die then v.setTimer die else v) := fun v =>
    .ite (fun _ => .setTimer v die) fun _ => .refl v
  have hcalm : Calm True dieOff (dieStarted u die) (s.domainUp die tests) :=
    ((((calm_dieRuns u die).trans (htimer _)).trans (.loadMaps _ die)).trans (.startPairs _ tests _)).trans
      ((Calm.restoreRoutes _ die).trans (.evalAll _) |>.mono id fun _ _ _ => stateOff_of_dieOff)
  refine ⟨s.domainUp die tests, congrArg Host.Outcome.next (if_pos (by simp [hb, hc, h1])), ?_, ?_, ?_, fun o ho hcd => ?_⟩
  · exact ((hcalm.dom_fnState (fun _ _ _ h => .inl h) hd).trans hdom).trans hst
  · exact (hcalm.dieState (fun _ _ _ h => .inr h) hd).trans hrun
  · exact ((hcalm.flights trivial).trans hflights).trans (congrArg (·.flights) honly.eq)
  · have hmem := dieStarted_memory u hcd ho
    unfold State.memByte State.linePoisoned at hmem ⊢
    rwa [hcalm.mem, hcalm.poison]

end Sys2Proof
end

section
/-! SUPPORT. O46: domains that are disabled, and the work of their dies (R67, R417). -/

namespace Sys2Proof

open Machine

/-! ### A run of disable requests -/

section
variable {f : State → Nat → State} {c : Nat → Nat} {n : Nat} (hself : ∀ k, k < n → regAlias (c k) = c k)
  (hf : ∀ u k, k < n → (f u k).regs = (u.disableReq (c k)).regs)
include hself hf

theorem fnState_disabled (u : State) {k : Nat} (hk : k < n) (h : u.fnState (c k) = 2) : (f u k).fnState (c k) = 3 := by
  obtain ⟨-, hst, -⟩ := switched_disableReq u (c k) (hself k hk)
  rw [h] at hst
  exact (congrArg (wfld · 6 4) (State.reg_congr (hf u k hk) _)).trans hst

theorem reg_disabled_other (u : State) {k a : Nat} (hk : k < n) (ha : regAlias a ≠ c k) : (f u k).reg a = u.reg a :=
  (State.reg_congr (hf u k hk) a).trans ((switched_disableReq u (c k) (hself k hk)).1.2 a (by simpa using ha))

theorem reg_foldl_disabled_other (s : State) {a : Nat} (ha : ∀ k, k < n → regAlias a ≠ c k) :
    ((List.range n).foldl f s).reg a = s.reg a := by
  have hall : ∀ (l : List Nat) (u : State), (∀ k ∈ l, k < n) → (l.foldl f u).reg a = u.reg a := fun l => by
    induction l with
    | nil => exact fun _ _ => rfl
    | cons k l ih =>
      intro u hl
      have hk := hl k List.mem_cons_self
      exact (ih (f u k) fun j hj => hl j (List.mem_cons_of_mem _ hj)).trans (reg_disabled_other hself hf u hk (ha k hk))
  exact hall _ s fun k hk => List.mem_range.1 hk

/-- Each function that was ON is DISABLING after the run. -/
theorem fnState_foldl_disabled (hinj : ∀ j k, c j = c k → j = k) (s : State) {k : Nat} (hk : k < n) (h : s.fnState (c k) = 2) :
    ((List.range n).foldl f s).fnState (c k) = 3 := by
  have hall : ∀ m, m ≤ n → ((List.range m).foldl f s).fnState (c k) = if k < m then 3 else 2 := fun m => by
    induction m with
    | zero => exact fun _ => h
    | succ m ih =>
      intro hm
      have ih := ih (by omega)
      rw [List.range_succ, List.foldl_append, List.foldl_cons, List.foldl_nil]
      by_cases hkm : k = m
      · subst hkm
        rw [if_neg (lt_irrefl k)] at ih
        rw [if_pos (by omega)]
        exact fnState_disabled hself hf _ hk ih
      · have hother : regAlias (c k) ≠ c m := by
          rw [hself k hk]
          exact fun e => hkm (hinj _ _ e)
        refine (congrArg (wfld · 6 4) (reg_disabled_other hself hf _ (by omega) hother)).trans (ih.trans ?_)
        exact if_congr (by omega) rfl rfl
  exact (hall n le_rfl).trans (if_pos hk)

end

/-! ### The units of a die -/

theorem regs_abortAll (s : State) (fs : List Flight) : (s.abortAll fs).regs = s.regs := congrArg (·.regs) (s.abortAll_spec fs).1

theorem calm_abortAll {off : Nat → Nat → Nat → Prop} (s : State) (fs : List Flight) : Calm False off s (s.abortAll fs) := by
  have h := (s.abortAll_spec fs).1
  exact .same (congrArg (·.regs) h) (congrArg (·.mem) h) (congrArg (·.poison) h) (congrArg (·.host.copies) h) False.elim False.elim

theorem regs_abort_ite (u : State) (p : Prop) [Decidable p] (fs : List Flight) : (if p then u.abortAll fs else u).regs = u.regs := by
  split
  · exact regs_abortAll _ _
  · rfl

theorem regs_ringDisable (u : State) (ring : Nat) :
    (u.ringDisable ring).regs = (u.disableReq (ringAddr Reg.dcRingCtrl ring)).regs := regs_abort_ite _ _ _
theorem regs_epDisable (u : State) (die ep : Nat) : (u.epDisable die ep).regs = (u.disableReq (Reg.maCtrl die ep)).regs :=
  regs_abort_ite _ _ _
theorem regs_moverDisable (u : State) (die n : Nat) : (u.moverDisable die n).regs = (u.disableReq (Reg.mvCtrl die n)).regs :=
  regs_abort_ite _ _ _

/-- The bits that say what courses, domains and dies are doing. -/
def apartOff (d o i : Nat) : Prop := courseOff d o i ∨ domOff d o i ∨ runOff d o i

theorem stateOff_of_apartOff {d o i : Nat} (h : apartOff d o i) : stateOff d o i := .inr h

theorem calm_disableReq {w : Prop} {off : Nat → Nat → Nat → Prop} (s : State) {c d o : Nat} (hc : c = Reg.setupBase d + o)
    (ho : o < 0x1000000) (hself : regAlias c = c) (hn : ∀ i, ¬ off d o i) : Calm w off s (s.disableReq c) := by
  have h := (switched_disableReq s c hself).1
  rw [hc] at h ⊢
  exact .of_onlyRegs h ho hn

theorem ringOf_spec {die k : Nat} (hk : k < ringsOn die) :
    ringDie (ringOf die k) = die ∧ ringLocal (ringOf die k) = k := by
  unfold ringsOn at hk
  unfold ringOf ringDie ringLocal
  unfold isCd isHd isIo at *
  simp only [decide_eq_true_eq] at *
  split_ifs at * <;> omega

theorem ringAddr_ringOf {die k : Nat} (hk : k < ringsOn die) :
    ringAddr Reg.dcRingCtrl (ringOf die k) = Reg.dcRingCtrl die k := by
  obtain ⟨hdie, hlocal⟩ := ringOf_spec hk
  unfold ringAddr
  rw [hdie, hlocal]

theorem dcRingCtrl_eq (die k : Nat) : Reg.dcRingCtrl die k = Reg.setupBase die + (0x10018 + 0x40 * k) := Nat.add_assoc _ _ _
theorem maCtrl_eq (die e : Nat) : Reg.maCtrl die e = Reg.setupBase die + (0x100000 + 0x100000 * e) := Nat.add_assoc _ _ _
theorem mvCtrl_eq (die n : Nat) : Reg.mvCtrl die n = Reg.setupBase die + (0x700000 + 0x40 * n) := Nat.add_assoc _ _ _

theorem regAlias_dcRingCtrl {die k : Nat} (hk : k < ringsOn die) : regAlias (Reg.dcRingCtrl die k) = Reg.dcRingCtrl die k := by
  have := ringsOn_le die
  rw [dcRingCtrl_eq]
  exact regAlias_setupBase (by omega)

/-- The rings, engine pairs and movers of a die that were ON are DISABLING. -/
def UnitsDown (s : State) (d : Nat) (t : State) : Prop :=
  (∀ k, k < ringsOn d → s.fnState (Reg.dcRingCtrl d k) = 2 → t.fnState (Reg.dcRingCtrl d k) = 3) ∧
  (isCd d = true → (∀ e, e < 6 → s.fnState (Reg.maCtrl d e) = 2 → t.fnState (Reg.maCtrl d e) = 3) ∧
    ∀ n, n < 4 → s.fnState (Reg.mvCtrl d n) = 2 → t.fnState (Reg.mvCtrl d n) = 3)

/-- The states of a die's units are as before. -/
def SameUnits (d : Nat) (s t : State) : Prop :=
  (∀ k, k < ringsOn d → t.fnState (Reg.dcRingCtrl d k) = s.fnState (Reg.dcRingCtrl d k)) ∧
  (isCd d = true → (∀ e, e < 6 → t.fnState (Reg.maCtrl d e) = s.fnState (Reg.maCtrl d e)) ∧
    ∀ n, n < 4 → t.fnState (Reg.mvCtrl d n) = s.fnState (Reg.mvCtrl d n))

theorem SameUnits.refl (d : Nat) (s : State) : SameUnits d s s := ⟨fun _ _ => rfl, fun _ => ⟨fun _ _ => rfl, fun _ _ => rfl⟩⟩

theorem SameUnits.trans {d : Nat} {s t u : State} (h : SameUnits d s t) (k : SameUnits d t u) : SameUnits d s u :=
  ⟨fun i hi => (k.1 i hi).trans (h.1 i hi),
    fun hcd => ⟨fun e he => ((k.2 hcd).1 e he).trans ((h.2 hcd).1 e he), fun n hn => ((k.2 hcd).2 n hn).trans ((h.2 hcd).2 n hn)⟩⟩

theorem UnitsDown.of_same {d : Nat} {s s' t t' : State} (h : UnitsDown s' d t) (hs : SameUnits d s s') (ht : SameUnits d t t') :
    UnitsDown s d t' :=
  ⟨fun k hk hon => (ht.1 k hk).trans (h.1 k hk ((hs.1 k hk).trans hon)), fun hcd =>
    ⟨fun e he hon => ((ht.2 hcd).1 e he).trans ((h.2 hcd).1 e he (((hs.2 hcd).1 e he).trans hon)),
      fun n hn hon => ((ht.2 hcd).2 n hn).trans ((h.2 hcd).2 n hn (((hs.2 hcd).2 n hn).trans hon))⟩⟩

theorem Calm.sameUnits {w : Prop} {off : Nat → Nat → Nat → Prop} {s t : State} (h : Calm w off s t) {d : Nat}
    (hoff : ∀ o i, unitOff d o i → off d o i) : SameUnits d s t := by
  refine ⟨fun k hk => ?_, fun hcd => ⟨fun e he => ?_, fun n hn => ?_⟩⟩
  · have := ringsOn_le d
    refine h.fld ((regAlias_dcRingCtrl hk).trans (dcRingCtrl_eq d k)) (by omega) fun i hlo hhi => hoff _ _ ?_
    unfold unitOff
    omega
  · have hd : d < 40 := of_decide_eq_true hcd
    refine h.fld ((regAlias_maCtrl he).trans (maCtrl_eq d e)) (by omega) fun i hlo hhi => hoff _ _ ?_
    unfold unitOff
    omega
  · have hd : d < 40 := of_decide_eq_true hcd
    refine h.fld ((regAlias_mvCtrl hn).trans (mvCtrl_eq d n)) (by omega) fun i hlo hhi => hoff _ _ ?_
    unfold unitOff
    omega

/-- Every ring, engine pair and mover of a die disabled. -/
def unitsShut (s : State) (die : Nat) : State :=
  let s := (List.range (ringsOn die)).foldl (fun s k => s.ringDisable (ringOf die k)) s
  if isCd die then
    let s := (List.range 6).foldl (fun s e => s.epDisable die e) s
    (List.range 4).foldl (fun s m => s.moverDisable die m) s
  else s

theorem unitsShut_down (s : State) {die : Nat} : UnitsDown s die (unitsShut s die) := by
  have hrings := ringsOn_le die
  let r := (List.range (ringsOn die)).foldl (fun s k => s.ringDisable (ringOf die k)) s
  have hrself : ∀ k, k < ringsOn die → regAlias (Reg.dcRingCtrl die k) = Reg.dcRingCtrl die k := fun k hk => regAlias_dcRingCtrl hk
  have hrregs : ∀ (u : State) (k : Nat), k < ringsOn die → (u.ringDisable (ringOf die k)).regs =
      (u.disableReq (Reg.dcRingCtrl die k)).regs := fun u k hk => by rw [regs_ringDisable, ringAddr_ringOf hk]
  have hring : ∀ k, k < ringsOn die → s.fnState (Reg.dcRingCtrl die k) = 2 → r.fnState (Reg.dcRingCtrl die k) = 3 := fun k hk =>
    fnState_foldl_disabled hrself hrregs (fun j k h => by unfold Reg.dcRingCtrl at h; omega) s hk
  have hrother : ∀ {a o : Nat}, regAlias a = Reg.setupBase die + o → 0x100000 ≤ o → o < 0x1000000 → r.fnState a = s.fnState a :=
    fun {a o} ha hlo hhi => congrArg (wfld · 6 4) (reg_foldl_disabled_other hrself hrregs s fun k hk e => by
      rw [ha, dcRingCtrl_eq] at e
      have := setupBase_inj hhi (by omega) e
      omega)
  unfold unitsShut
  change UnitsDown s die (if isCd die then _ else r)
  by_cases hcd : isCd die = true
  · rw [if_pos hcd]
    let e := (List.range 6).foldl (fun s e => s.epDisable die e) r
    have heself : ∀ k, k < 6 → regAlias (Reg.maCtrl die k) = Reg.maCtrl die k := fun k hk => regAlias_maCtrl hk
    have heregs : ∀ (u : State) (k : Nat), k < 6 → (u.epDisable die k).regs = (u.disableReq (Reg.maCtrl die k)).regs :=
      fun u k _ => regs_epDisable u die k
    have hmself : ∀ k, k < 4 → regAlias (Reg.mvCtrl die k) = Reg.mvCtrl die k := fun k hk => regAlias_mvCtrl hk
    have hmregs : ∀ (u : State) (k : Nat), k < 4 → (u.moverDisable die k).regs = (u.disableReq (Reg.mvCtrl die k)).regs :=
      fun u k _ => regs_moverDisable u die k
    have heother : ∀ {a o : Nat}, regAlias a = Reg.setupBase die + o → o < 0x1000000 → (∀ k, k < 6 → o ≠ 0x100000 + 0x100000 * k) →
        e.fnState a = r.fnState a := fun {a o} ha hhi hne =>
      congrArg (wfld · 6 4) (reg_foldl_disabled_other heself heregs r fun k hk h => by
        rw [ha, maCtrl_eq] at h
        exact hne k hk (setupBase_inj hhi (by omega) h).2)
    have hmother : ∀ {a o : Nat}, regAlias a = Reg.setupBase die + o → o < 0x700000 →
        ((List.range 4).foldl (fun s m => s.moverDisable die m) e).fnState a = e.fnState a := fun {a o} ha hhi =>
      congrArg (wfld · 6 4) (reg_foldl_disabled_other hmself hmregs e fun k hk h => by
        rw [ha, mvCtrl_eq] at h
        have := setupBase_inj (by omega) (by omega) h
        omega)
    refine ⟨fun k hk hon => ?_, fun _ => ⟨fun k hk hon => ?_, fun k hk hon => ?_⟩⟩
    · have ha := (hrself k hk).trans (dcRingCtrl_eq die k)
      exact (hmother ha (by omega)).trans ((heother ha (by omega) fun j _ => by omega).trans (hring k hk hon))
    · have ha := (heself k hk).trans (maCtrl_eq die k)
      refine (hmother ha (by omega)).trans (fnState_foldl_disabled heself heregs (fun i j h => ?_) r hk ?_)
      · unfold Reg.maCtrl at h
        omega
      · exact (hrother ha (by omega) (by omega)).trans hon
    · have ha := (hmself k hk).trans (mvCtrl_eq die k)
      refine fnState_foldl_disabled hmself hmregs (fun i j h => ?_) e hk ?_
      · unfold Reg.mvCtrl at h
        omega
      · exact (heother ha (by omega) fun j _ => by omega).trans ((hrother ha (by omega) (by omega)).trans hon)
  · rw [if_neg hcd]
    exact ⟨hring, fun h => absurd h hcd⟩

theorem calm_unitsShut (s : State) {die : Nat} (hb : ringBearing die = true) : Calm False apartOff s (unitsShut s die) := by
  have hrings := ringsOn_le die
  have hnot : ∀ {o i : Nat}, o < 0x800000 → 0x10000 ≤ o → (die < 40 ∨ o < 0x20000) → (80 ≤ die → o < 0x20000) →
      ¬ apartOff die o i := by
    intro o i _ _ _ _
    have := lt_of_ringBearing hb
    unfold apartOff courseOff domOff runOff
    omega
  unfold unitsShut
  refine .trans (.foldl (fun u k hk => ?_) s)
    (.ite (fun hcd => .trans (.foldl (fun u e he => ?_) _) (.foldl (fun u m hm => ?_) _)) fun _ => .refl _)
  · have hk := List.mem_range.1 hk
    refine .trans (calm_disableReq u ((ringAddr_ringOf hk).trans (dcRingCtrl_eq die k)) (by omega) ?_ fun i => ?_)
      (.ite (fun _ => calm_abortAll _ _) fun _ => .refl _)
    · rw [ringAddr_ringOf hk]
      exact regAlias_dcRingCtrl hk
    · exact hnot (by omega) (by omega) (by omega) (by omega)
  · have he := List.mem_range.1 he
    have hd : die < 40 := of_decide_eq_true hcd
    exact .trans (calm_disableReq u (maCtrl_eq die e) (by omega) (regAlias_maCtrl he) fun i => hnot (by omega) (by omega) (by omega) (by omega))
      (.ite (fun _ => calm_abortAll _ _) fun _ => .refl _)
  · have hm := List.mem_range.1 hm
    have hd : die < 40 := of_decide_eq_true hcd
    exact .trans (calm_disableReq u (mvCtrl_eq die m) (by omega) (regAlias_mvCtrl hm) fun i => hnot (by omega) (by omega) (by omega) (by omega))
      (.ite (fun _ => calm_abortAll _ _) fun _ => .refl _)

/-! ### Flows and the external host of an I/O die -/

theorem calm_cxlLoss (s : State) (io : Nat) : Calm False stateOff s (s.cxlLoss io) := by
  have hstat : ∀ (u : State) (hi lo x : Nat), lo ≤ hi →
      Calm False stateOff u (u.putFld (Reg.hxPcieStat (ioDie io)) hi lo x) := fun u hi lo x hl => .putFld (o := 0x90004) (by omega) u x hl fun i _ _ => by
      unfold stateOff unitOff courseOff domOff runOff
      omega
  refine .ite (fun _ => ?_) fun _ => .refl s
  refine ((((hstat s 0 0 _ le_rfl).trans (hstat _ 10 8 0 (by omega))).trans (hstat _ 7 5 0 (by omega))).trans
    (hstat _ 4 3 2 (by omega))).trans (.same rfl rfl rfl rfl False.elim False.elim)

theorem calm_flowShut {s : State} {die : Nat} (hio : isIo die = true) {f : Nat} (hf : f ∈ s.flowsActive die) (u : State) :
    Calm False stateOff u ((u.disableReq (fCtrl f)).endSync f) := by
  have hd : 88 ≤ die ∧ die < 98 := of_decide_eq_true hio
  obtain ⟨p, -, hp⟩ := List.mem_filterMap.1 hf
  have hlt : f / 10 < 6554 := by
    have hn : flowsOn die ≤ 6554 := by
      unfold flowsOn
      split_ifs <;> omega
    split at hp
    · next h =>
      have hstride : Reg.fbFlowCtrl die 1 - Reg.fbFlowCtrl die 0 = 0x40 := by
        unfold Reg.fbFlowCtrl
        omega
      rw [hstride] at hp
      have := Option.some.inj hp
      unfold Reg.fbFlowCtrl at *
      omega
    · exact absurd hp (by simp)
  have heq : fCtrl f = Reg.setupBase (88 + f % 10) + (0x110000 + 0x40 * (f / 10)) := Nat.add_assoc _ _ _
  refine (calm_disableReq u heq (by omega) ?_ fun i => ?_).trans (.same rfl rfl rfl rfl False.elim False.elim)
  · rw [heq]
    exact regAlias_setupBase (by omega)
  · unfold stateOff unitOff courseOff domOff runOff
    omega

/-- Every flow of an I/O die that is not OFF disabled. -/
def flowsShut (s : State) (die : Nat) : State := (s.flowsActive die).foldl (fun s f => (s.disableReq (fCtrl f)).endSync f) s

theorem domainWork_eq (s : State) (die : Nat) :
    s.domainWork die =
      if isIo die then
        (if (flowsShut (unitsShut s die) die).cxlState (die - 88) = 1 then (flowsShut (unitsShut s die) die).cxlLoss (die - 88)
         else flowsShut (unitsShut s die) die)
      else unitsShut s die := rfl

theorem calm_ioShut (s : State) (die : Nat) : Calm False stateOff (unitsShut s die) (s.domainWork die) := by
  rw [domainWork_eq]
  refine .ite (fun hio => ?_) fun _ => .refl _
  have hflows : Calm False stateOff (unitsShut s die) (flowsShut (unitsShut s die) die) := .foldl (fun u f hf => calm_flowShut hio hf u) _
  exact .ite (fun _ => hflows.trans (calm_cxlLoss _ _)) fun _ => hflows

/-- The work of a die that goes off: its units are disabled, and courses, domains and dies stay as they are. -/
theorem domainWork_spec (s : State) {die : Nat} (hb : ringBearing die = true) :
    UnitsDown s die (s.domainWork die) ∧ Calm False apartOff s (s.domainWork die) := by
  have hio := calm_ioShut s die
  refine ⟨(unitsShut_down s).of_same (.refl _ _)
    (hio.sameUnits fun _ _ h => .inl h), ?_⟩
  exact (calm_unitsShut s hb).trans (hio.mono id fun _ _ _ => stateOff_of_apartOff)

end Sys2Proof
end

section
/-! SUPPORT. O46: a domain disabled with those attached to it, and the rails removed (R381, R417), and the obligation. -/

namespace Sys2Proof

open Machine

/-! ### Disabling a domain and those attached to it -/

theorem attachedDies_lt {t d : Nat} (h : d ∈ attachedDies t) : 80 ≤ d ∧ d < 98 := by
  unfold attachedDies at h
  split_ifs at h <;> simp only [List.mem_cons, List.not_mem_nil, or_false] at h <;> omega

theorem ringBearing_attached {t d : Nat} (h : d ∈ attachedDies t) : ringBearing d = true := by
  have := attachedDies_lt h
  unfold ringBearing isCd isHd isIo
  simp only [Bool.or_eq_true, decide_eq_true_eq]
  omega

theorem dom_other {s t : State} {die e : Nat} (he : e < 98) (h : OnlyRegs [Reg.pwDom die] s t) (hne : e ≠ die) :
    t.reg (Reg.pwDom e) = s.reg (Reg.pwDom e) :=
  h.2 _ fun hm => by
    rw [regAlias_pwDom_self he] at hm
    exact hne (pwDom_inj (List.mem_singleton.1 hm))

/-- Whether the attached domains are OFF is for their own registers to say. -/
theorem attachedOff_congr {s t : State} {die : Nat} (h : ∀ d ∈ attachedDies die, t.fnState (Reg.pwDom d) = s.fnState (Reg.pwDom d)) :
    t.attachedOff die = s.attachedOff die := by
  unfold State.attachedOff
  refine congrArg (!isCd die || ·) (Bool.eq_iff_iff.2 ?_)
  simp only [List.all_eq_true]
  exact forall₂_congr fun d hd => by rw [h d hd]

theorem attachedDies_ne {die d : Nat} (hcd : isCd die = true) (h : d ∈ attachedDies die) : d ≠ die := by
  have := attachedDies_lt h
  have : die < 40 := of_decide_eq_true hcd
  omega

theorem calm_apart_dom {d o i : Nat} (h : domOff d o i) : apartOff d o i := .inr (.inl h)

theorem attachedOff_disabled {s : State} {die : Nat} (hd : die < 98) :
    (s.disableReq (Reg.pwDom die)).attachedOff die = s.attachedOff die := by
  have honly := (switched_disableReq s _ (regAlias_pwDom_self hd)).1
  by_cases hcd : isCd die = true
  · exact attachedOff_congr fun d hmem =>
      congrArg (wfld · 6 4) (dom_other (attachedDies_lt hmem).2 honly (attachedDies_ne hcd hmem))
  · simp [State.attachedOff, hcd]

/-- What a disable makes of the domain's register, and that the others' stay. -/
theorem domainDisable_spec (s : State) {die : Nat} (hb : ringBearing die = true) :
    let dom := Reg.pwDom die
    let t := s.domainDisable die
    t.mem = s.mem ∧ t.fnState dom = (if s.fnState dom = 1 ∨ s.fnState dom = 2 then 3 else s.fnState dom) ∧
      t.flag dom 3 = (s.flag dom 3 && s.fnState dom != 3) ∧
      (∀ e, e < 98 → e ≠ die → t.fnState (Reg.pwDom e) = s.fnState (Reg.pwDom e) ∧ t.flag (Reg.pwDom e) 3 = s.flag (Reg.pwDom e) 3) ∧
      (s.fnState dom = 2 → s.attachedOff die = true → UnitsDown s die t) := by
  intro dom t
  obtain ⟨hd, -⟩ := lt_of_ringBearing hb
  let u := s.disableReq dom
  obtain ⟨honly, hst, hp, -⟩ := switched_disableReq s dom (regAlias_pwDom_self hd)
  have hwork := domainWork_spec u hb
  have hcalm : Calm False apartOff u t := .ite (fun _ => hwork.2) fun _ => .refl u
  refine ⟨hcalm.mem.trans (congrArg (·.mem) honly.eq), (hcalm.dom_fnState (fun _ _ _ => calm_apart_dom) hd).trans hst,
    (hcalm.dom_flag (fun _ _ _ => calm_apart_dom) hd (by omega)).trans hp, fun e he hne => ⟨?_, ?_⟩, fun hon hoff => ?_⟩
  · exact (hcalm.dom_fnState (fun _ _ _ => calm_apart_dom) he).trans (congrArg (wfld · 6 4) (dom_other he honly hne))
  · exact (hcalm.dom_flag (fun _ _ _ => calm_apart_dom) he (by omega)).trans (congrArg (·.getLsbD 3) (dom_other he honly hne))
  · have ht : t = u.domainWork die := if_pos (by
      rw [show (s.disableReq (Reg.pwDom die)).attachedOff die = true from (attachedOff_disabled hd).trans hoff]
      simp [show s.fnState (Reg.pwDom die) = 2 from hon])
    have hsame : Calm False unitOff s u := calm_disableReq s (o := 0x100100 + 0x4 * die) (d := 99) (Nat.add_assoc _ _ _) (by omega)
      (regAlias_pwDom_self hd) fun i => by
        unfold unitOff
        omega
    rw [ht]
    exact hwork.1.of_same (hsame.sameUnits fun _ _ h => h) (.refl _ _)

/-- A domain that is OFF has nothing to disable. -/
theorem domainDisable_off {s : State} {die : Nat} (h : s.fnState (Reg.pwDom die) = 0) : s.domainDisable die = s := by
  have hreq : s.disableReq (Reg.pwDom die) = s := by
    unfold State.disableReq
    simp only [h]
  unfold State.domainDisable
  dsimp only
  rw [hreq, h]
  rfl

section
variable {l : List Nat} (hl : ∀ d ∈ l, ringBearing d = true)
include hl

/-- The domains of a list disabled one after the other. -/
theorem foldl_domainDisable (s : State) :
    let t := l.foldl (fun s d => s.domainDisable d) s
    t.mem = s.mem ∧
      (∀ e, e < 98 → e ∉ l → t.fnState (Reg.pwDom e) = s.fnState (Reg.pwDom e) ∧ t.flag (Reg.pwDom e) 3 = s.flag (Reg.pwDom e) 3) ∧
      ∀ e ∈ l, s.fnState (Reg.pwDom e) = 2 ∨ s.fnState (Reg.pwDom e) = 3 → t.fnState (Reg.pwDom e) = 3 := by
  induction l generalizing s with
  | nil => exact ⟨rfl, fun _ _ _ => ⟨rfl, rfl⟩, fun _ h => absurd h List.not_mem_nil⟩
  | cons d l ih =>
    obtain ⟨hmem, hst, -, hother, -⟩ := domainDisable_spec s (hl d List.mem_cons_self)
    obtain ⟨hmem', hother', hdown'⟩ := ih (fun e he => hl e (List.mem_cons_of_mem _ he)) (s.domainDisable d)
    refine ⟨hmem'.trans hmem, fun e he hne => ?_, fun e he hon => ?_⟩
    · obtain ⟨hed, hel⟩ := not_or.1 (mt List.mem_cons.2 hne)
      exact ⟨(hother' e he hel).1.trans (hother e he hed).1, (hother' e he hel).2.trans (hother e he hed).2⟩
    · have hlt := (lt_of_ringBearing (hl e he)).1
      have hnext : (s.domainDisable d).fnState (Reg.pwDom e) = 2 ∨ (s.domainDisable d).fnState (Reg.pwDom e) = 3 := by
        by_cases hed : e = d
        · subst hed
          refine .inr (hst.trans ?_)
          rcases hon with hon | hon <;> simp [hon]
        · rw [(hother e hlt hed).1]
          exact hon
      by_cases hel : e ∈ l
      · exact hdown' e hel hnext
      · have hed : e = d := (List.mem_cons.1 he).resolve_right hel
        subst hed
        refine (hother' e hlt hel).1.trans (hst.trans ?_)
        rcases hon with hon | hon <;> simp [hon]

end

theorem foldl_domainDisable_off {s : State} {l : List Nat} (h : ∀ d ∈ l, s.fnState (Reg.pwDom d) = 0) :
    l.foldl (fun s d => s.domainDisable d) s = s := by
  induction l with
  | nil => rfl
  | cons d l ih =>
    rw [List.foldl_cons, domainDisable_off (h d List.mem_cons_self)]
    exact ih fun e he => h e (List.mem_cons_of_mem _ he)

/-- DOMAIN_DISABLE (R417). -/
theorem answers_domainDisable {s : State} {die : Nat} (hb : ringBearing die = true) (hc : s.controls = true) :
    let dom := Reg.pwDom die
    Answers (.domainDisable die) s (fun t => t.mem = s.mem ∧
      t.fnState dom = (if s.fnState dom = 1 ∨ s.fnState dom = 2 then 3 else s.fnState dom) ∧
      t.flag dom 3 = (s.flag dom 3 && s.fnState dom != 3) ∧
      (s.fnState dom = 2 → (isCd die = true → ∀ d ∈ attachedDies die, s.fnState (Reg.pwDom d) = 2 → t.fnState (Reg.pwDom d) = 3) ∧
        (s.attachedOff die = true → UnitsDown s die t))) := by
  intro dom
  obtain ⟨hd, -⟩ := lt_of_ringBearing hb
  refine ⟨s.domainDisableAll die, congrArg Host.Outcome.next (if_pos (by simp [hb, hc])), ?_⟩
  let l := if isCd die && s.fnState (Reg.pwDom die) == 2 then attachedDies die else []
  have hbearing : ∀ d ∈ l, ringBearing d = true := fun d hmem => by
    simp only [l] at hmem
    split at hmem
    · exact ringBearing_attached hmem
    · exact absurd hmem List.not_mem_nil
  have hself : die ∉ l := fun hmem => by
    simp only [l] at hmem
    split at hmem
    · next h => exact attachedDies_ne (Bool.and_eq_true_iff.1 h).1 hmem rfl
    · exact absurd hmem List.not_mem_nil
  let u := l.foldl (fun s d => s.domainDisable d) s
  obtain ⟨humem, huother, hudown⟩ := foldl_domainDisable hbearing s
  obtain ⟨hmem, hst, hp, hother, hunits⟩ := domainDisable_spec u hb
  obtain ⟨hfn, hflag⟩ := huother die hd hself
  rw [hfn] at hst hp hunits
  rw [hflag] at hp
  refine ⟨hmem.trans humem, hst, hp, fun hon => ⟨fun hcd d hmem hdon => ?_, fun hoff => ?_⟩⟩
  · have hdl : d ∈ l := by
      simp only [l]
      rwa [if_pos (by simp [hcd, show s.fnState (Reg.pwDom die) = 2 from hon])]
    exact (hother d (attachedDies_lt hmem).2 (attachedDies_ne hcd hmem)).1.trans (hudown d hdl (.inl hdon))
  · have hu : u = s := foldl_domainDisable_off fun d hmem => by
      simp only [l] at hmem
      split at hmem
      · next h =>
        have hall : (attachedDies die).all (fun d => s.fnState (Reg.pwDom d) == 0) = true := by
          simpa [State.attachedOff, (Bool.and_eq_true_iff.1 h).1] using hoff
        exact beq_iff_eq.1 (List.all_eq_true.1 hall d hmem)
      · exact absurd hmem List.not_mem_nil
    rw [hu] at hunits
    have hdown := hunits hon hoff
    show UnitsDown s die (u.domainDisable die)
    rwa [hu]

/-! ### The rails removed -/

/-- What a host die's caches hold goes home: every byte, register and descriptor is as before. -/
theorem flushAgent_spec (s : State) (die : Nat) :
    (s.flushAgent die).regs = s.regs ∧ (s.flushAgent die).flights = s.flights ∧ (s.flushAgent die).fab = s.fab ∧
      ∀ x, (s.flushAgent die).byte x = s.byte x := by
  have hfold : ∀ (l : List Copy) (u : State), OnlyMemory u (l.foldl (fun s c => s.invalidate c.line) u) ∧
      ∀ x, (l.foldl (fun s c => s.invalidate c.line) u).byte x = u.byte x := fun l => by
    induction l with
    | nil => exact fun u => ⟨.refl u, fun _ => rfl⟩
    | cons c l ih =>
      intro u
      obtain ⟨hmem, hbyte⟩ := ih (u.invalidate c.line)
      exact ⟨(OnlyMemory.invalidate u c.line).trans hmem, fun x => (hbyte x).trans (State.byte_invalidate u c.line x)⟩
  obtain ⟨hmem, hbyte⟩ := hfold (s.host.copies.filter (fun c => agentDie c.agent == die)) s
  refine ⟨hmem.regs, hmem.flights, congrArg (·.fab) hmem, fun x => ?_⟩
  unfold State.flushAgent
  generalize (s.host.copies.filter (fun c => agentDie c.agent == die)).foldl (fun s c => s.invalidate c.line) s = u at hbyte
  exact (State.byte_congr rfl rfl x).trans (hbyte x)

end Sys2Proof
end

section
/-! SUPPORT. O46: the rails of a die removed, its courses and its registers (R381, R417), and the obligation. -/

namespace Sys2Proof

open Machine

/-! ### The courses of a die that goes off -/

/-- A course pair on the list, at an end that has registers. -/
def PairEnd (p : Nat × Nat) : Prop := (p.1 < 40 ∨ 88 ≤ p.1 ∧ p.1 < 98) ∧ p.2 < pairsOn p.1

/-- All bits that say what is going on but those of the course pairs of a list. -/
def offBut (l : List (Nat × Nat)) (d o i : Nat) : Prop := stateOff d o i ∧ ∀ q ∈ l, Reg.setupBase d + o ≠ Reg.cpCtrl q.1 q.2

/-- Nothing is issued and nothing is unacknowledged. -/
def Idle (s : State) : Prop := (∀ f ∈ s.flights, f.issued = false) ∧ s.fab.unacked = []

theorem cpCtrl_eq {p : Nat × Nat} (hp : PairEnd p) : ∃ o, Reg.cpCtrl p.1 p.2 = Reg.setupBase p.1 + o ∧ 0x400000 ≤ o ∧ o < 0xA00400 ∧
    (p.1 < 40 → 0xA00000 ≤ o) ∧ (∀ i, 2 ≤ i → i ≤ 6 → courseOff p.1 o i) := by
  obtain ⟨hd, hlt⟩ := hp
  unfold pairsOn isCd isIo at hlt
  simp only [decide_eq_true_eq] at hlt
  refine ⟨(if isCd p.1 then 0xA00000 else 0x400000) + 0x40 * p.2, by unfold Reg.cpCtrl Reg.cpReg; omega, ?_, ?_, ?_, fun i _ _ => ?_⟩ <;>
    (unfold isCd; simp only [decide_eq_true_eq])
  · split_ifs <;> omega
  · split_ifs at * <;> omega
  · intro h
    rw [if_pos h]
    omega
  · unfold courseOff
    split_ifs at * <;> omega

theorem regAlias_cpCtrl {p : Nat × Nat} (hp : PairEnd p) : regAlias (Reg.cpCtrl p.1 p.2) = Reg.cpCtrl p.1 p.2 := by
  obtain ⟨o, heq, hlo, hhi, -⟩ := cpCtrl_eq hp
  rw [heq]
  exact regAlias_setupBase (by omega)

theorem cpStatus_putFld {w : Prop} (s : State) {p : Nat × Nat} (hp : PairEnd p) {hi lo : Nat} (hl : lo ≤ hi) (x : Nat) :
    Calm w stateOff s (s.putFld (Reg.cpStatus p.1 p.2) hi lo x) := by
  obtain ⟨o, heq, hlo, hhi, -⟩ := cpCtrl_eq hp
  have hmod : (o % 0x40 = 0) := by
    unfold Reg.cpCtrl Reg.cpReg at heq
    split_ifs at heq <;> omega
  rw [show Reg.cpStatus p.1 p.2 = Reg.setupBase p.1 + (o + 4) by
    unfold Reg.cpStatus Reg.cpReg
    unfold Reg.cpCtrl Reg.cpReg at heq
    omega]
  refine .putFld (by omega) s x hl fun i _ _ => ?_
  unfold stateOff unitOff courseOff domOff runOff
  omega

/-- A course pair of a die that goes off: disabled and OFF, what it carried lost. -/
def pairShut (s : State) (p : Nat × Nat) : State :=
  if s.fnState (Reg.cpCtrl p.1 p.2) = 0 then s else courseFail p.1 p.2 ((s.disableReq (Reg.cpCtrl p.1 p.2)).pairOff p.1 p.2)

section
variable {p : Nat × Nat} (hp : PairEnd p)
include hp

theorem calm_pairOff {w : Prop} (u : State) : Calm w stateOff (u.disablingEnd (Reg.cpCtrl p.1 p.2)) (u.pairOff p.1 p.2) := by
  unfold State.pairOff
  generalize u.disablingEnd (Reg.cpCtrl p.1 p.2) = v
  have hmodes : Calm w stateOff v (v.setModes p.1 p.2 0 0) := (cpStatus_putFld v hp (by omega) 0).trans (cpStatus_putFld _ hp (by omega) 0)
  have hreplay : ∀ x : State, Calm w stateOff x (x.clearReplay p.1 p.2) := fun x => .same rfl rfl rfl rfl (fun _ => rfl) fun _ => rfl
  exact (hmodes.trans (hreplay _)).trans (cpStatus_putFld _ hp (by omega) 1)

/-- A pair disabled and OFF. -/
theorem disabledPair_spec {w : Prop} (s : State) :
    let c := Reg.cpCtrl p.1 p.2
    let t := (s.disableReq c).pairOff p.1 p.2
    Calm w (offBut [p]) s t ∧ t.fnState c = 0 ∧ t.flag c 3 = (s.flag c 3 && s.fnState c != 3) := by
  intro c t
  have hself := regAlias_cpCtrl hp
  obtain ⟨o, heq, hlo, hhi, -, hoff⟩ := cpCtrl_eq hp
  obtain ⟨hu, -, hpend, -⟩ := switched_disableReq s c hself
  obtain ⟨hv, hst, hpend', -⟩ := switched_disablingEnd (s.disableReq c) c hself
  have hrest : Calm w stateOff ((s.disableReq c).disablingEnd c) t := calm_pairOff hp _
  have hregs : Calm w (offBut [p]) s ((s.disableReq c).disablingEnd c) := by
    have h := hu.trans_same hv
    generalize (s.disableReq c).disablingEnd c = v at h
    rw [show c = Reg.setupBase p.1 + o from heq] at h
    exact .of_onlyRegs h (by omega) fun i hn => hn.2 p (List.mem_singleton.2 rfl) heq.symm
  refine ⟨hregs.trans (hrest.mono id fun _ _ _ h => h.1), ?_, ?_⟩
  · exact (hrest.fld (hself.trans heq) (by omega) fun i _ _ => .inr (.inl (hoff i (by omega) (by omega)))).trans hst
  · refine (hrest.bits _ _ _ _ (by omega) (.inr (.inl (hoff 3 (by omega) (by omega)))) (hself.trans heq)).trans ?_
    exact hpend'.trans hpend

end

theorem calm_courseFail {w : Prop} {s : State} (hidle : w → Idle s) (die pair : Nat) : Calm w stateOff s (courseFail die pair s) := by
  by_cases hw : w
  · rw [courseFail_idle (hidle hw).1 (hidle hw).2]
    exact .refl _
  · exact (Calm.courseFail s die pair).mono hw fun _ _ _ h => h

section
variable {w : Prop} {s : State} (hidle : w → Idle s)
include hidle

theorem pairShut_spec {p : Nat × Nat} (hp : PairEnd p) :
    let c := Reg.cpCtrl p.1 p.2
    let t := pairShut s p
    Calm w (offBut [p]) s t ∧ t.fnState c = 0 ∧ t.flag c 3 = (s.flag c 3 && s.fnState c != 3) := by
  intro c t
  by_cases h0 : s.fnState c = 0
  · have ht : t = s := if_pos h0
    rw [ht]
    exact ⟨.refl s, h0, by rw [h0]; simp⟩
  have ht : t = courseFail p.1 p.2 ((s.disableReq c).pairOff p.1 p.2) := if_neg h0
  obtain ⟨hpair, hst, hpend⟩ := disabledPair_spec (w := w) hp s
  obtain ⟨o, heq, hlo, hhi, -, hoff⟩ := cpCtrl_eq hp
  have hal := (regAlias_cpCtrl hp).trans heq
  have hfail := calm_courseFail (s := (s.disableReq c).pairOff p.1 p.2)
    (fun hw => ⟨by rw [hpair.flights hw]; exact (hidle hw).1, (hpair.unacked hw).trans (hidle hw).2⟩) p.1 p.2
  rw [ht]
  exact ⟨hpair.trans (hfail.mono id fun _ _ _ h => h.1),
    (hfail.fld hal (by omega) fun i _ _ => .inr (.inl (hoff i (by omega) (by omega)))).trans hst,
    (hfail.bits _ _ _ _ (by omega) (.inr (.inl (hoff 3 (by omega) (by omega)))) hal).trans hpend⟩

/-- The course pairs of a list, one after the other. -/
theorem foldl_pairShut {l : List (Nat × Nat)} (hl : ∀ p ∈ l, PairEnd p) :
    let t := l.foldl pairShut s
    Calm w (offBut l) s t ∧ ∀ p ∈ l, t.fnState (Reg.cpCtrl p.1 p.2) = 0 ∧
      t.flag (Reg.cpCtrl p.1 p.2) 3 = (s.flag (Reg.cpCtrl p.1 p.2) 3 && s.fnState (Reg.cpCtrl p.1 p.2) != 3) := by
  induction l generalizing s with
  | nil => exact ⟨.refl s, fun p h => absurd h List.not_mem_nil⟩
  | cons q l ih =>
    have hq := hl q List.mem_cons_self
    obtain ⟨hcalm, hst, hp⟩ := pairShut_spec hidle hq
    obtain ⟨hcalm', hall⟩ := ih (s := pairShut s q)
      (fun hw => ⟨by rw [hcalm.flights hw]; exact (hidle hw).1, (hcalm.unacked hw).trans (hidle hw).2⟩)
      fun p h => hl p (List.mem_cons_of_mem _ h)
    refine ⟨.trans (hcalm.mono id fun _ _ _ h => ⟨h.1, fun p hp => h.2 p (by rw [List.mem_singleton.1 hp]; exact List.mem_cons_self)⟩)
      (hcalm'.mono id fun _ _ _ h => ⟨h.1, fun p hp => h.2 p (List.mem_cons_of_mem _ hp)⟩), fun p hmem => ?_⟩
    have hpe := hl p hmem
    obtain ⟨o, heq, hlo, hhi, -, hoff⟩ := cpCtrl_eq hpe
    have hal := (regAlias_cpCtrl hpe).trans heq
    have hstate : ∀ i, 2 ≤ i → i ≤ 6 → stateOff p.1 o i := fun i h2 h6 => .inr (.inl (hoff i h2 h6))
    by_cases hsame : Reg.cpCtrl p.1 p.2 = Reg.cpCtrl q.1 q.2
    · rw [hsame] at heq hal ⊢
      by_cases hin : ∃ r ∈ l, Reg.cpCtrl r.1 r.2 = Reg.cpCtrl q.1 q.2
      · obtain ⟨r, hr, hrq⟩ := hin
        obtain ⟨hst', hp'⟩ := hall r hr
        rw [hrq] at hst' hp'
        refine ⟨hst', hp'.trans ?_⟩
        rw [hst, hp]
        simp
      · have hbut : ∀ i, 2 ≤ i → i ≤ 6 → offBut l p.1 o i := fun i h2 h6 =>
          ⟨hstate i h2 h6, fun r hr e => hin ⟨r, hr, e.symm.trans heq.symm⟩⟩
        exact ⟨(hcalm'.fld hal (by omega) fun i _ _ => hbut i (by omega) (by omega)).trans hst,
          (hcalm'.bits _ _ _ _ (by omega) (hbut 3 (by omega) (by omega)) hal).trans hp⟩
    · have hbut : ∀ i, 2 ≤ i → i ≤ 6 → offBut [q] p.1 o i := fun i h2 h6 =>
        ⟨hstate i h2 h6, fun r hr e => hsame (by rw [List.mem_singleton.1 hr] at e; exact heq.trans e)⟩
      have hsfn := hcalm.fld (hi := 6) (lo := 4) hal (by omega) fun i _ _ => hbut i (by omega) (by omega)
      have hsflag := hcalm.bits _ _ 3 _ (by omega) (hbut 3 (by omega) (by omega)) hal
      by_cases hpl : p ∈ l
      · obtain ⟨hst', hp'⟩ := hall p hpl
        refine ⟨hst', hp'.trans ?_⟩
        rw [hsflag, show (pairShut s q).fnState (Reg.cpCtrl p.1 p.2) = s.fnState (Reg.cpCtrl p.1 p.2) from hsfn]
      · exact absurd (congrArg (fun x : Nat × Nat => Reg.cpCtrl x.1 x.2) ((List.mem_cons.1 hmem).resolve_right hpl)) hsame

end

/-- Nothing of the pairs of a die is among the bits of units, domains and dies. -/
theorem offBut_of_plain {die d o i : Nat} (ho : o < 0x1000000) (h : unitOff d o i ∨ domOff d o i ∨ runOff d o i) :
    offBut (pairsTo die) d o i := by
  refine ⟨h.imp_right .inr, fun q hq e => ?_⟩
  obtain ⟨hd, hlt, -⟩ := Calm.mem_pairsTo hq
  obtain ⟨p, heq, hlo, hhi, hcd, -⟩ := cpCtrl_eq (p := q) ⟨hd, hlt⟩
  obtain ⟨rfl, rfl⟩ := setupBase_inj ho (by omega) (e.trans heq)
  unfold unitOff domOff runOff at h
  omega

theorem neighbour_ne {d k e : Nat} (h : neighbour d k = some e) (hd : d < 40) : e ≠ d := by
  unfold neighbour at h
  dsimp only at h
  split at h
  · split_ifs at h <;> (have := Option.some.inj h; omega)
  · split_ifs at h <;> (have := Option.some.inj h; omega)
  · split_ifs at h <;> (have := Option.some.inj h; omega)
  · split_ifs at h <;> (have := Option.some.inj h; omega)
  · exact absurd h (by simp)

theorem pairPeer_ne {d p e : Nat} (hd : d < 40 ∨ 88 ≤ d ∧ d < 98) (h : pairPeer d p = some e) : e ≠ d := by
  unfold pairPeer at h
  split_ifs at h with hio hat
  · have hio : 88 ≤ d ∧ d < 98 := of_decide_eq_true hio
    have := attachedTo_lt (die := d) (by omega)
    have := Option.some.inj h
    omega
  · have hio : ¬ (88 ≤ d ∧ d < 98) := fun h => hio (decide_eq_true h)
    exact neighbour_ne h (by omega)

end Sys2Proof
end

section
/-! SUPPORT. O46: the end of a domain's disabling (R417), and the obligation. -/

namespace Sys2Proof

open Machine

/-! ### The parts of the end -/

/-- The state with the caches, routes and courses of a die given up. -/
def coursesShut (s : State) (die : Nat) : State := (pairsTo die).foldl pairShut ((s.flushAgent die).clearRoutes die)

/-- The die off, and its registers at their resets. -/
def dieShut (u : State) (die : Nat) : State :=
  let s : State := { u with courses := u.courses.filter (fun c => decide (c.die ≠ die)) }
  let s := s.putFld (Reg.tdDie die) 11 8 0
  let s := if isIo die then s.dropIo die else s
  s.resetRegs die

/-- The state with the domain OFF. -/
def domainShut (s : State) (die : Nat) : State := (dieShut (coursesShut s die) die).disablingEnd (Reg.pwDom die)

theorem domainOff_eq (s : State) (die : Nat) : s.domainOff die = ((domainShut s die).attachedGone die).evalAll := rfl

/-- The window of die `d` is none of those that go with die `die`. -/
def FarDie (die d : Nat) : Prop := d ≠ die ∧ (isCd die = true → d ≠ die + 40)

/-- The bits that a die's end leaves: of other dies, beside those that say which dies run. -/
def keptOff (die d o i : Nat) : Prop :=
  (unitOff d o i ∨ courseOff d o i ∨ domOff d o i) ∧ FarDie die d

theorem calm_resetRegs {w : Prop} (s : State) (die : Nat) :
    Calm w (fun d _ _ => FarDie die d) s (s.resetRegs die) := by
  refine ⟨fun d o i a ho hoff ha => congrArg (fun v : Word => v.getLsbD i) ?_, rfl, rfl, rfl, fun _ => rfl, fun _ => rfl⟩
  have hout : ∀ e, d ≠ e → ¬ (Reg.setupBase e ≤ regAlias a ∧ regAlias a < Reg.setupBase (e + 1)) := fun e he h => by
    rw [ha] at h
    unfold Reg.setupBase at h
    omega
  unfold State.reg State.resetRegs
  dsimp only
  by_cases hcd : isCd die = true
  · rw [if_pos hcd, lookup_eraseRange, if_neg (hout _ (hoff.2 hcd)), lookup_eraseRange, if_neg (hout _ hoff.1)]
  · rw [if_neg hcd, lookup_eraseRange, if_neg (hout _ hoff.1)]

theorem calm_dropIo {w : Prop} {off : Nat → Nat → Nat → Prop} (s : State) (die : Nat) :
    Calm w off s (if isIo die then s.dropIo die else s) :=
  .ite (fun _ => .same rfl rfl rfl rfl (fun _ => rfl) fun _ => rfl) fun _ => .refl s

theorem dieShut_spec (u : State) {die : Nat} (hb : ringBearing die = true) :
    Calm True (keptOff die) u (dieShut u die) ∧ (dieShut u die).dieState die = 0 := by
  obtain ⟨hd, hself⟩ := lt_of_ringBearing hb
  let c : State := { u with courses := u.courses.filter (fun c => decide (c.die ≠ die)) }
  let v := c.putFld (Reg.tdDie die) 11 8 0
  have hcourses : Calm True (keptOff die) u c := .same rfl rfl rfl rfl (fun _ => rfl) fun _ => rfl
  have hrun : Calm True (keptOff die) c v := by
    simp only [v, show Reg.tdDie die = Reg.setupBase 98 + (0x100 + 0x4 * die) from Nat.add_assoc _ _ _]
    refine .putFld (by omega) c 0 (by omega) fun i _ _ h => ?_
    unfold keptOff unitOff courseOff domOff at h
    omega
  have hrest : Calm True (fun d _ _ => FarDie die d) v (dieShut u die) :=
    (calm_dropIo v die).trans (calm_resetRegs _ die)
  refine ⟨(hcourses.trans hrun).trans (hrest.mono (off' := keptOff die) id fun _ _ _ h => h.2), ?_⟩
  obtain ⟨o, hlo, hhi, heq⟩ := regAlias_tdDie hd
  refine (hrest.fld heq (by omega) fun i _ _ => ⟨by omega, fun hcd => ?_⟩).trans ?_
  · have : die < 40 := of_decide_eq_true hcd
    omega
  · exact State.fld_putFld_same _ _ _ _ _ (regAlias_tdDie_self hself) (by omega) (by omega)

theorem coursesShut_spec (s : State) (die : Nat) :
    Calm (Idle s) (offBut (pairsTo die)) (s.flushAgent die) (coursesShut s die) ∧
      ∀ p ∈ pairsTo die, (coursesShut s die).fnState (Reg.cpCtrl p.1 p.2) = 0 ∧
        (coursesShut s die).flag (Reg.cpCtrl p.1 p.2) 3 = (s.flag (Reg.cpCtrl p.1 p.2) 3 && s.fnState (Reg.cpCtrl p.1 p.2) != 3) := by
  obtain ⟨hregs, hflights, hfab, -⟩ := flushAgent_spec s die
  have hroutes : Calm True stateOff (s.flushAgent die) ((s.flushAgent die).clearRoutes die) := .clearRoutes _ die
  have hidle : Idle s → Idle ((s.flushAgent die).clearRoutes die) := fun h =>
    ⟨by rw [hroutes.flights trivial, hflights]; exact h.1,
      (hroutes.unacked trivial).trans ((congrArg (·.unacked) hfab).trans h.2)⟩
  have hends : ∀ p ∈ pairsTo die, PairEnd p := fun p hp => ⟨(Calm.mem_pairsTo hp).1, (Calm.mem_pairsTo hp).2.1⟩
  obtain ⟨hcalm, hall⟩ := foldl_pairShut hidle hends
  refine ⟨(hroutes.mono (fun _ => trivial) fun _ _ _ h => h.1).trans hcalm, fun p hp => ?_⟩
  obtain ⟨o, heq, hlo, hhi, -, hoff⟩ := cpCtrl_eq (hends p hp)
  have hal := (regAlias_cpCtrl (hends p hp)).trans heq
  have hstate : ∀ i, 2 ≤ i → i ≤ 6 → stateOff p.1 o i := fun i h2 h6 => .inr (.inl (hoff i h2 h6))
  obtain ⟨hst, hpend⟩ := hall p hp
  refine ⟨hst, hpend.trans ?_⟩
  have hfn : ((s.flushAgent die).clearRoutes die).fnState (Reg.cpCtrl p.1 p.2) = s.fnState (Reg.cpCtrl p.1 p.2) :=
    (hroutes.fld hal (by omega) fun i _ _ => hstate i (by omega) (by omega)).trans (congrArg (wfld · 6 4) (State.reg_congr hregs _))
  have hflag : ((s.flushAgent die).clearRoutes die).flag (Reg.cpCtrl p.1 p.2) 3 = s.flag (Reg.cpCtrl p.1 p.2) 3 :=
    (hroutes.bits _ _ 3 _ (by omega) (hstate 3 (by omega) (by omega)) hal).trans (congrArg (·.getLsbD 3) (State.reg_congr hregs _))
  rw [hfn, hflag]

/-! ### The state with the domain OFF -/

theorem SameUnits.of_regs {s t : State} (h : t.regs = s.regs) (d : Nat) : SameUnits d s t :=
  ⟨fun _ _ => congrArg (wfld · 6 4) (State.reg_congr h _), fun _ =>
    ⟨fun _ _ => congrArg (wfld · 6 4) (State.reg_congr h _), fun _ _ => congrArg (wfld · 6 4) (State.reg_congr h _)⟩⟩

/-- What the end of a domain's disabling comes to before a compute die that waited for it goes on. -/
structure DomainShut (die : Nat) (s t : State) : Prop where
  state : t.fnState (Reg.pwDom die) = 0
  flags : ∀ i, i = 2 ∨ i = 3 → t.flag (Reg.pwDom die) i = s.flag (Reg.pwDom die) i
  run : t.dieState die = 0
  bytes : ∀ x, t.byte x = s.byte x
  pairs : ∀ p ∈ pairsTo die, t.fnState (Reg.cpCtrl p.1 p.2) = 0 ∧
    t.flag (Reg.cpCtrl p.1 p.2) 3 = (s.flag (Reg.cpCtrl p.1 p.2) 3 && s.fnState (Reg.cpCtrl p.1 p.2) != 3)
  others : ∀ e, e < 98 → e ≠ die → t.fnState (Reg.pwDom e) = s.fnState (Reg.pwDom e)
  units : isCd die = false → ∀ d, d ≠ die → SameUnits d s t
  flights : Idle s → t.flights = s.flights

theorem domainShut_spec (s : State) {die : Nat} (hb : ringBearing die = true) : DomainShut die s (domainShut s die) := by
  obtain ⟨hd, -⟩ := lt_of_ringBearing hb
  obtain ⟨hregs, hflights, -, hbytes⟩ := flushAgent_spec s die
  obtain ⟨hcourses, hpairs⟩ := coursesShut_spec s die
  obtain ⟨hdie, hrun⟩ := dieShut_spec (coursesShut s die) hb
  obtain ⟨honly, hst, hp, he, -⟩ := switched_disablingEnd (dieShut (coursesShut s die) die) _ (regAlias_pwDom_self hd)
  have hend : ∀ off : Nat → Nat → Nat → Prop, (∀ i, ¬ off 99 (0x100100 + 0x4 * die) i) →
      Calm True off (dieShut (coursesShut s die) die) (domainShut s die) := fun off hn => by
    change OnlyRegs [Reg.pwDom die] _ (domainShut s die) at honly
    rw [show Reg.pwDom die = Reg.setupBase 99 + (0x100100 + 0x4 * die) from Nat.add_assoc _ _ _] at honly
    exact .of_onlyRegs honly (by omega) hn
  have hdom : ∀ e, e < 98 → ∀ i, 2 ≤ i → i ≤ 6 →
      (dieShut (coursesShut s die) die).flag (Reg.pwDom e) i = s.flag (Reg.pwDom e) i := fun e he i h2 h6 => by
    have hoff : domOff 99 (0x100100 + 0x4 * e) i := by
      unfold domOff
      omega
    refine (hdie.bits _ _ i _ (by omega) ⟨.inr (.inr hoff), by omega, fun hcd => ?_⟩ (regAlias_pwDom he)).trans
      ((hcourses.bits _ _ i _ (by omega) (offBut_of_plain (by omega) (.inr (.inl hoff))) (regAlias_pwDom he)).trans
        (congrArg (·.getLsbD i) (State.reg_congr hregs _)))
    have : die < 40 := of_decide_eq_true hcd
    omega
  refine ⟨hst, fun i hi => ?_, ?_, fun x => ?_, fun p hpair => ?_, fun e he hne => ?_, fun hcd d hne => ?_, fun hidle => ?_⟩
  · rcases hi with rfl | rfl
    · exact he.trans (hdom die hd 2 (by omega) (by omega))
    · exact hp.trans (hdom die hd 3 (by omega) (by omega))
  · refine ((hend runOff fun i => ?_).dieState (fun _ _ _ h => h) hd).trans hrun
    unfold runOff
    omega
  · exact ((hend (fun _ _ _ => False) fun _ h => h).byte x).trans ((hdie.byte x).trans ((hcourses.byte x).trans (hbytes x)))
  · obtain ⟨hends, hlt, hpeer⟩ := Calm.mem_pairsTo hpair
    obtain ⟨o, heq, hlo, hhi, -, hoff⟩ := cpCtrl_eq ⟨hends, hlt⟩
    have hal := (regAlias_cpCtrl ⟨hends, hlt⟩).trans heq
    have hcalm : Calm True (fun d o i => courseOff d o i ∧ FarDie die d) (coursesShut s die) (domainShut s die) :=
      (hdie.mono id fun _ _ _ h => ⟨.inr (.inl h.1), h.2⟩).trans (hend _ fun i h => by
        have := h.1
        unfold courseOff at this
        omega)
    have hbit : ∀ i, 2 ≤ i → i ≤ 6 → courseOff p.1 o i ∧ FarDie die p.1 := fun i h2 h6 =>
      ⟨hoff i h2 h6, (pairPeer_ne hends hpeer).symm, fun hcd => by
        have : die < 40 := of_decide_eq_true hcd
        omega⟩
    exact ⟨(hcalm.fld hal (by omega) fun i _ _ => hbit i (by omega) (by omega)).trans (hpairs p hpair).1,
      (hcalm.bits _ _ 3 _ (by omega) (hbit 3 (by omega) (by omega)) hal).trans (hpairs p hpair).2⟩
  · refine (congrArg (wfld · 6 4) (dom_other he honly hne)).trans (wfld_congr fun i hlo hhi => hdom e he i (by omega) (by omega))
  · have hplain : ∀ o i, unitOff d o i → offBut (pairsTo die) d o i := fun o i h => by
      refine offBut_of_plain ?_ (.inl h)
      unfold unitOff at h
      omega
    have hkept : ∀ o i, unitOff d o i → keptOff die d o i := fun o i h => ⟨.inl h, hne, fun h => by simp [hcd] at h⟩
    have hlast := hend unitOff fun i => by
      unfold unitOff
      omega
    exact (((SameUnits.of_regs hregs d).trans (hcourses.sameUnits hplain)).trans (hdie.sameUnits hkept)).trans
      (hlast.sameUnits fun _ _ h => h)
  · exact ((hend (fun _ _ _ => False) fun _ h => h).flights trivial).trans
      ((hdie.flights trivial).trans ((hcourses.flights hidle).trans hflights))

/-! ### A compute die that waited for it -/

theorem isCd_attachedTo {die : Nat} (hd : die < 98) : isCd (attachedTo die) = true := decide_eq_true (attachedTo_lt hd)

/-- The compute die that attaches a die is DISABLING and waits for no other domain. -/
def LastAttached (s : State) (die : Nat) : Prop :=
  isCd die = false ∧ s.fnState (Reg.pwDom (attachedTo die)) = 3 ∧
    ∀ d ∈ attachedDies (attachedTo die), d ≠ die → s.fnState (Reg.pwDom d) = 0

theorem attachedGone_eq {s t : State} {die : Nat} (hb : ringBearing die = true) (h : DomainShut die s t) :
    (LastAttached s die → t.attachedGone die = t.domainWork (attachedTo die)) ∧ (¬ LastAttached s die → t.attachedGone die = t) := by
  obtain ⟨hd, -⟩ := lt_of_ringBearing hb
  have hlt := attachedTo_lt hd
  have hguard : (!isCd die && t.fnState (Reg.pwDom (attachedTo die)) == 3 && t.attachedOff (attachedTo die)) = true ↔ LastAttached s die := by
    unfold LastAttached State.attachedOff
    simp only [Bool.and_eq_true, Bool.not_eq_true', beq_iff_eq, Bool.or_eq_true, isCd_attachedTo hd, Bool.true_eq_false, false_or,
      List.all_eq_true, and_assoc]
    refine and_congr_right fun hcd => ?_
    rw [h.others _ (by omega) (attachedTo_ne hd hcd)]
    refine and_congr_right fun _ => forall₂_congr fun d hmem => ?_
    by_cases hne : d = die
    · subst hne
      simp [h.state]
    · rw [h.others d (attachedDies_lt hmem).2 hne]
      simp [hne]
  unfold State.attachedGone
  exact ⟨fun hlast => if_pos (hguard.2 hlast), fun hlast => if_neg (mt hguard.1 hlast)⟩

/-- DOMAIN_DISABLING_DONE (R417). -/
theorem answers_domainDisablingDone {s : State} {die : Nat} (hb : ringBearing die = true) (hc : s.controls = true)
    (h3 : s.fnState (Reg.pwDom die) = 3) (hidle : s.domainIdle die = true) :
    let dom := Reg.pwDom die
    Answers (.domainDisablingDone die) s (fun t =>
      t.fnState dom = 0 ∧ t.flag dom 3 = s.flag dom 3 ∧ t.flag dom 2 = s.flag dom 2 ∧ t.dieState die = 0 ∧ (∀ a, t.byte a = s.byte a) ∧
      (∀ p ∈ pairsTo die, t.fnState (Reg.cpCtrl p.1 p.2) = 0 ∧
        t.flag (Reg.cpCtrl p.1 p.2) 3 = (s.flag (Reg.cpCtrl p.1 p.2) 3 && s.fnState (Reg.cpCtrl p.1 p.2) != 3)) ∧
      (LastAttached s die → UnitsDown s (attachedTo die) t) ∧ (¬ LastAttached s die → Idle s → t.flights = s.flights)) := by
  intro dom
  obtain ⟨hd, -⟩ := lt_of_ringBearing hb
  have hshut := domainShut_spec s hb
  obtain ⟨hyes, hno⟩ := attachedGone_eq hb hshut
  have hexec : exec (.domainDisablingDone die) s = .next (((domainShut s die).attachedGone die).evalAll) :=
    congrArg Host.Outcome.next ((if_pos (by simp [hb, hc, h3, hidle])).trans (domainOff_eq s die))
  have hbt : ringBearing (attachedTo die) = true := by simp [ringBearing, isCd_attachedTo hd]
  obtain ⟨hdown, hwork⟩ := domainWork_spec (domainShut s die) hbt
  have hgone : Calm (¬ LastAttached s die) apartOff (domainShut s die) ((domainShut s die).attachedGone die) := by
    by_cases hlast : LastAttached s die
    · rw [hyes hlast]
      exact hwork.mono (fun hn => hn hlast) fun _ _ _ h => h
    · rw [hno hlast]
      exact .refl _
  have heval : Calm True stateOff ((domainShut s die).attachedGone die) ((domainShut s die).attachedGone die).evalAll := .evalAll _
  have hcalm := hgone.trans (heval.mono (fun _ => trivial) fun _ _ _ => stateOff_of_apartOff)
  refine ⟨_, hexec, ?_, ?_, ?_, ?_, fun a => (hcalm.byte a).trans (hshut.bytes a), fun p hp => ?_, fun hlast => ?_, fun hlast hi => ?_⟩
  · exact (hcalm.dom_fnState (fun _ _ _ => calm_apart_dom) hd).trans hshut.state
  · exact (hcalm.dom_flag (fun _ _ _ => calm_apart_dom) hd (by omega)).trans (hshut.flags 3 (.inr rfl))
  · exact (hcalm.dom_flag (fun _ _ _ => calm_apart_dom) hd (by omega)).trans (hshut.flags 2 (.inl rfl))
  · exact (hcalm.dieState (fun _ _ _ h => .inr (.inr h)) hd).trans hshut.run
  · have hend : PairEnd p := ⟨(Calm.mem_pairsTo hp).1, (Calm.mem_pairsTo hp).2.1⟩
    obtain ⟨o, heq, hlo, hhi, -, hoff⟩ := cpCtrl_eq hend
    have hal := (regAlias_cpCtrl hend).trans heq
    exact ⟨(hcalm.fld hal (by omega) fun i _ _ => .inl (hoff i (by omega) (by omega))).trans (hshut.pairs p hp).1,
      (hcalm.bits _ _ 3 _ (by omega) (.inl (hoff 3 (by omega) (by omega))) hal).trans (hshut.pairs p hp).2⟩
  · rw [hyes hlast] at heval ⊢
    exact hdown.of_same (hshut.units hlast.1 _ (attachedTo_ne hd hlast.1)) (heval.sameUnits fun _ _ h => .inl h)
  · exact (hcalm.flights hlast).trans (hshut.flights hi)

/-- Settles O46: each command of a domain by what it leaves of the bits that say what functions, domains and dies are doing. -/
theorem domainsFollowR417 : Obligations.DomainsFollowR417 := by
  unfold Obligations.DomainsFollowR417
  intro s die hb hc dom refused down
  refine ⟨?_, fun h1 tests => answers_domainEnablingDone hb hc h1 tests, answers_domainDisable hb hc, fun hwf hpend hlatch hguards => ?_,
    fun h3 hidle => ?_⟩
  · obtain ⟨t, ht, hrefused, hwaits, helse⟩ := answers_domainEnable hb hc
    refine ⟨t, ht, ?_⟩
    beta_reduce
    by_cases h0 : s.fnState dom = 0 ∧ refused
    · rw [if_pos h0]
      exact hrefused h0.1 h0.2
    rw [if_neg h0]
    by_cases h1 : s.fnState dom = 1
    · rw [if_pos h1]
      exact hwaits h1
    · rw [if_neg h1]
      exact helse h0 h1
  · obtain ⟨t, ht, hpend, hrefused, hgoes⟩ := step_latchedDomain hb hwf hpend hlatch hguards
    refine ⟨t, ht, hpend, ?_⟩
    split
    · next h => exact hrefused h
    · next h => exact hgoes h
  · obtain ⟨t, ht, hst, hp, he, hrun, hbytes, hpairs, hlast, hidle⟩ := answers_domainDisablingDone hb hc h3 hidle
    refine ⟨t, ht, hst, hp, he, hrun, fun a _ => hbytes a, hpairs, ?_⟩
    split
    · next h => exact hlast h
    · next h => exact fun hissued hun => hidle h ⟨hissued, hun⟩

end Sys2Proof
end

section
/-! SUPPORT. O19: a slot closed, and its last close taken back (R90). -/

namespace Sys2Proof

open Machine

/-! ### A close -/

/-- The registers that a close of a slot changes (R90). -/
def closeRegs (die slot : Nat) : List Nat :=
  [Reg.ruRmCtrl die slot, Reg.ruRmPrev die slot, Reg.ruRmShadow die slot, Reg.ruRmDepth die slot, Reg.ruRmCur die slot] ++
    (List.range 16).map (Reg.ruRmHist die slot)

theorem OnlyRegs.thenSetReg {as : List Nat} {s t : State} (h : OnlyRegs as s t) {a : Nat} (v : Word) (ha : a ∈ as) :
    OnlyRegs as s (t.setReg a v) :=
  h.trans_same ((onlyRegs_setReg t a v).mono (by simpa using ha))

theorem OnlyRegs.foldl {β : Type} {as : List Nat} {g : State → β → State} {l : List β}
    (hg : ∀ t, ∀ x ∈ l, OnlyRegs as t (g t x)) (s : State) : OnlyRegs as s (l.foldl g s) := by
  induction l generalizing s with
  | nil => exact .refl _ s
  | cons x l ih => exact (hg s x (by simp)).trans_same (ih (fun t y hy => hg t y (by simp [hy])) _)

theorem hist_mem_closeRegs (die slot : Nat) {k : Nat} (hk : k < 16) : Reg.ruRmHist die slot k ∈ closeRegs die slot :=
  List.mem_append_right _ (List.mem_map_of_mem (List.mem_range.2 hk))

theorem onlyRegs_rmCloseSlot (s : State) (die slot : Nat) : OnlyRegs (closeRegs die slot) s (s.rmCloseSlot die slot) := by
  have hmem : ∀ a ∈ [Reg.ruRmCtrl die slot, Reg.ruRmPrev die slot, Reg.ruRmShadow die slot, Reg.ruRmDepth die slot,
      Reg.ruRmCur die slot], a ∈ closeRegs die slot := fun a ha => List.mem_append_left _ ha
  have hhead : OnlyRegs (closeRegs die slot) s (closedSlot s die slot) := by
    refine .thenSetReg (.thenSetReg (.thenSetReg (.thenSetReg (.trans_same (.thenSetReg (.thenSetReg (.refl _ s) _ ?_) _ ?_)
      (.foldl (fun t k hk => ?_) _)) _ ?_) _ ?_) _ ?_) _ ?_
    · exact hmem _ (by simp)
    · exact hmem _ (by simp)
    · exact (OnlyRegs.refl _ t).thenSetReg _ (hist_mem_closeRegs die slot (by have := List.mem_range.1 hk; omega))
    · exact hist_mem_closeRegs die slot (by omega)
    · exact hmem _ (by simp)
    · exact hmem _ (by simp)
    · exact hmem _ (by simp)
  rw [rmCloseSlot_eq]
  exact hhead.trans_same ((onlyRegs_rmRules _ die slot).mono (fun a ha => hmem a (by simp_all)))

/-- The rules after a close leave every register of the slot but RU_RM_CTRL. -/
theorem reg_rmRules_slotAt (s : State) {die slot o : Nat} (hs : slot < rmSlotsOn die) (ho : o < 0x80) (hne : o ≠ 4) :
    (s.rmRules die slot).reg (slotAt die slot o) = s.reg (slotAt die slot o) :=
  (onlyRegs_rmRules s die slot).2 _ (by rw [regAlias_slotAt hs ho, ruRmCtrl_eq]; simpa [slotAt_inj] using hne)

/-- The word that a close keeps of depth, exp and eref reads back as they were. -/
theorem wfld_prevWord {d e g : Nat} (hd : d < 32) (he : e < 256) (hg : g < 256) :
    let w := BitVec.ofNat 32 (2 ^ 16 * d + 2 ^ 8 * e + g)
    wfld w 20 16 = d ∧ wfld w 15 8 = e ∧ wfld w 7 0 = g := by
  unfold wfld
  simp only [BitVec.toNat_ofNat]
  omega

/-- What a close leaves in the registers of its slot. -/
theorem rmCloseSlot_regs (s : State) {die slot : Nat} (hs : slot < rmSlotsOn die) :
    let t := s.rmCloseSlot die slot
    t.fld (Reg.ruRmPrev die slot) 20 16 = s.fld (Reg.ruRmDepth die slot) 4 0 ∧
      t.fld (Reg.ruRmPrev die slot) 15 8 = s.fld (Reg.ruRmCtrl die slot) 15 8 ∧
      t.fld (Reg.ruRmPrev die slot) 7 0 = s.fld (Reg.ruRmCtrl die slot) 7 0 ∧
      t.reg (Reg.ruRmShadow die slot) = s.reg (Reg.ruRmHist die slot 15) ∧
      (∀ k, k < 15 → t.reg (Reg.ruRmHist die slot (k + 1)) = s.reg (Reg.ruRmHist die slot k)) ∧
      t.reg (Reg.ruRmHist die slot 0) = s.reg (Reg.ruRmCur die slot) ∧
      t.fld (Reg.ruRmDepth die slot) 4 0 = min 16 (s.fld (Reg.ruRmDepth die slot) 4 0 + 1) ∧
      t.reg (Reg.ruRmCur die slot) = 0 ∧ t.flag (Reg.ruRmCtrl die slot) 28 = true := by
  intro t
  obtain ⟨hcur, hhist0, hhist, hshadow, hdepth, hprev, hflag⟩ := closedSlot_regs s hs
  have hreg : ∀ o, o < 0x80 → o ≠ 4 → t.reg (slotAt die slot o) = (closedSlot s die slot).reg (slotAt die slot o) :=
    fun o ho hne => reg_rmRules_slotAt _ hs ho hne
  obtain ⟨hpd, hpe, hpg⟩ := wfld_prevWord (wfld_lt (s.reg (Reg.ruRmDepth die slot)) 4 0)
    (wfld_lt (s.reg (Reg.ruRmCtrl die slot)) 15 8) (wfld_lt (s.reg (Reg.ruRmCtrl die slot)) 7 0)
  have hsame : t.reg (Reg.ruRmPrev die slot) = (closedSlot s die slot).reg (Reg.ruRmPrev die slot) := by
    rw [ruRmPrev_eq]
    exact hreg _ (by omega) (by omega)
  have hword := hsame.trans hprev
  refine ⟨?_, ?_, ?_, ?_, fun k hk => ?_, ?_, ?_, ?_, ?_⟩
  · exact (congrArg (wfld · 20 16) hword).trans hpd
  · exact (congrArg (wfld · 15 8) hword).trans hpe
  · exact (congrArg (wfld · 7 0) hword).trans hpg
  · rw [ruRmShadow_eq, hreg _ (by omega) (by omega), ← ruRmShadow_eq, hshadow]
  · rw [ruRmHist_eq, hreg _ (by omega) (by omega), ← ruRmHist_eq, hhist k hk]
  · rw [ruRmHist_eq, hreg _ (by omega) (by omega), ← ruRmHist_eq, hhist0]
  · unfold State.fld
    rw [ruRmDepth_eq, hreg _ (by omega) (by omega), ← ruRmDepth_eq, hdepth]
    unfold wfld
    rw [BitVec.toNat_ofNat]
    omega
  · rw [ruRmCur_eq, hreg _ (by omega) (by omega), ← ruRmCur_eq, hcur]
  · exact (flag_rmRules _ hs).trans hflag

/-- The slot's die answers as before. -/
theorem dieDown_rmCloseSlot (s : State) {die slot : Nat} (hd : die < 98) (hs : slot < rmSlotsOn die) :
    (s.rmCloseSlot die slot).dieDown die = s.dieDown die := by
  obtain ⟨o, hlo, hhi, ha⟩ := regAlias_tdDie hd
  have hreg : (s.rmCloseSlot die slot).reg (Reg.tdDie die) = s.reg (Reg.tdDie die) := by
    refine (OnlySlots.rmCloseSlot s hs).2 _ ?_
    rw [ha]
    rintro ⟨e, p, hplo, hphi, heq⟩
    unfold Reg.setupBase at heq
    omega
  unfold State.dieDown State.dieState State.fld
  rw [hreg]

/-! ### A revert -/

/-- The state of a revert of a slot with rev_ok, before cur is cleared. -/
def revertedSlot (s : State) (die slot : Nat) : State :=
  let ca := Reg.ruRmCtrl die slot
  let p := s.reg (Reg.ruRmPrev die slot)
  let old := (List.range 16).map (fun k => s.reg (Reg.ruRmHist die slot k))
  let s1 := (List.range 15).foldl (fun t k => t.setReg (Reg.ruRmHist die slot k) (old.getD (k + 1) 0)) s
  let s2 := s1.setReg (Reg.ruRmHist die slot 15) (s.reg (Reg.ruRmShadow die slot))
  let s3 := s2.setReg (Reg.ruRmDepth die slot) (BitVec.ofNat 32 (wfld p 20 16))
  ((s3.putFld ca 15 8 (wfld p 15 8)).putFld ca 7 0 (wfld p 7 0)).setFlag ca 28 false

theorem rmRevertSlot_eq (s : State) (die slot : Nat) : s.rmRevertSlot die slot =
    (if s.flag (Reg.ruRmCtrl die slot) 28 then revertedSlot s die slot else s).setReg (Reg.ruRmCur die slot) 0 := rfl

section
variable (u : State) (v : Word) {die slot o p : Nat} (hs : slot < rmSlotsOn die) (ho : o < 0x80)
include hs ho

theorem reg_setReg_slotAt_same : (u.setReg (slotAt die slot o) v).reg (slotAt die slot o) = v :=
  State.reg_setReg_same _ _ _ (regAlias_slotAt hs ho)

theorem reg_setReg_slotAt_other (hne : o ≠ p) :
    (u.setReg (slotAt die slot p) v).reg (slotAt die slot o) = u.reg (slotAt die slot o) :=
  State.reg_setReg_other _ _ _ _ (by rwa [regAlias_slotAt hs ho, Ne, slotAt_inj])

end

/-- A revert moves the slot's registers back by one (R90). -/
theorem rmRevertSlot_regs (s : State) {die slot : Nat} (hs : slot < rmSlotsOn die)
    (hrev : s.flag (Reg.ruRmCtrl die slot) 28 = true) :
    let u := s.rmRevertSlot die slot
    (∀ k, k < 15 → u.reg (Reg.ruRmHist die slot k) = s.reg (Reg.ruRmHist die slot (k + 1))) ∧
      u.reg (Reg.ruRmHist die slot 15) = s.reg (Reg.ruRmShadow die slot) ∧
      u.fld (Reg.ruRmDepth die slot) 4 0 = s.fld (Reg.ruRmPrev die slot) 20 16 ∧
      u.fld (Reg.ruRmCtrl die slot) 15 8 = s.fld (Reg.ruRmPrev die slot) 15 8 ∧
      u.fld (Reg.ruRmCtrl die slot) 7 0 = s.fld (Reg.ruRmPrev die slot) 7 0 ∧ u.reg (Reg.ruRmCur die slot) = 0 ∧
      u.flag (Reg.ruRmCtrl die slot) 28 = false := by
  intro u
  have hu : u = (revertedSlot s die slot).setReg (Reg.ruRmCur die slot) 0 := by
    rw [show u = _ from rmRevertSlot_eq s die slot, if_pos hrev]
  have hhist : ∀ (v : Nat → Word) (u : State) (k : Nat), k < 15 →
      ((List.range 15).foldl (fun t k => t.setReg (slotAt die slot (0x40 + 4 * k)) (v k)) u).reg
        (slotAt die slot (0x40 + 4 * k)) = v k := fun v u k hk =>
    reg_foldl_setReg_same (fun k => slotAt die slot (0x40 + 4 * k)) v (fun i j h => by
      have := (slotAt_inj die slot).1 h
      omega) 15 u hk (regAlias_slotAt hs (by omega))
  have hold : ∀ k, k < 16 → ((List.range 16).map (fun k => s.reg (slotAt die slot (0x40 + 4 * k)))).getD k 0 =
      s.reg (slotAt die slot (0x40 + 4 * k)) := fun k hk => by simp [hk]
  have hw := wfld_lt (s.reg (slotAt die slot 0x0C))
  have hctrl := regAlias_slotAt (o := 0x04) hs (by omega)
  simp only [hu, revertedSlot, ruRmCur_eq, ruRmCtrl_eq, ruRmDepth_eq, ruRmPrev_eq, ruRmShadow_eq, ruRmHist_eq]
  refine ⟨fun k hk => ?_, ?_, ?_, ?_, ?_, ?_, ?_⟩
  · simp (disch := omega) only [State.setFlag, State.putFld, reg_setReg_slotAt_same, reg_setReg_slotAt_other, hhist, hold]
  · simp (disch := omega) only [State.setFlag, State.putFld, reg_setReg_slotAt_same, reg_setReg_slotAt_other]
  · simp (disch := omega) only [State.setFlag, State.putFld, State.fld, reg_setReg_slotAt_same, reg_setReg_slotAt_other]
    unfold wfld
    rw [BitVec.toNat_ofNat]
    omega
  · rw [State.fld, reg_setReg_slotAt_other _ _ hs (by omega) (by omega), ← State.fld, State.fld_setFlag_beside _ _ _ _ _ _ hctrl (by omega) (by omega),
      State.fld_putFld_beside _ _ _ _ _ _ _ hctrl (by omega) (by omega) (by omega),
      State.fld_putFld_same _ _ _ _ _ hctrl (by omega) (by omega), Nat.mod_eq_of_lt (hw 15 8), State.fld]
  · rw [State.fld, reg_setReg_slotAt_other _ _ hs (by omega) (by omega), ← State.fld, State.fld_setFlag_beside _ _ _ _ _ _ hctrl (by omega) (by omega),
      State.fld_putFld_same _ _ _ _ _ hctrl (by omega) (by omega), Nat.mod_eq_of_lt (hw 7 0), State.fld]
  · exact reg_setReg_slotAt_same _ _ hs (by omega)
  · rw [State.flag, reg_setReg_slotAt_other _ _ hs (by omega) (by omega), ← State.flag, State.flag_setFlag_same _ _ _ _ hctrl (by omega)]

/-- Settles O19: a close and a revert register by register; the revert reads back what the close put away. -/
theorem slotsFollowR90 : Obligations.SlotsFollowR90 := by
  intro s die slot hd hs hdown ctrl hist
  refine ⟨⟨s.rmCloseSlot die slot, congrArg Host.Outcome.next (if_pos ⟨hs, hdown⟩), onlyRegs_rmCloseSlot s die slot, ?_⟩,
    fun hrev => ⟨s.rmRevertSlot die slot, congrArg Host.Outcome.next (if_pos ⟨hs, hdown⟩), ?_⟩⟩
  · obtain ⟨hpd, hpe, hpg, hshadow, hhist, hhist0, hdepth, hcur, hflag⟩ := rmCloseSlot_regs s hs
    obtain ⟨hback, hback15, hbdepth, hbexp, hberef, hbcur, hbflag⟩ := rmRevertSlot_regs _ hs hflag
    refine ⟨hpd, hpe, hpg, hshadow, hhist, hhist0, hdepth, hcur, hflag, (s.rmCloseSlot die slot).rmRevertSlot die slot,
      congrArg Host.Outcome.next (if_pos ⟨hs, (dieDown_rmCloseSlot s hd hs).trans hdown⟩), fun k hk => ?_, hbdepth.trans hpd,
      hbexp.trans hpe, hberef.trans hpg, hbcur, hbflag⟩
    rcases Nat.lt_or_eq_of_le (Nat.le_of_lt_succ hk) with hlt | rfl
    · exact (hback k hlt).trans (hhist k hlt)
    · exact hback15.trans hshadow
  · have hrevert : s.rmRevertSlot die slot = s.setReg (Reg.ruRmCur die slot) 0 := by
      rw [rmRevertSlot_eq, if_neg (by simp only [ctrl] at hrev; simp [hrev])]
    rw [hrevert]
    exact ⟨onlyRegs_setReg _ _ _, State.reg_setReg_same _ _ _ (regAlias_slotAt (o := 0) hs (by omega))⟩

end Sys2Proof
end

section
/-! SUPPORT. O60: accesses of a run that are served, and groups of a class 0x12 descriptor that its partition reads and writes
(R121, R126). -/

namespace Sys2Proof

open Machine

/-! ### What a served access leaves of a run -/

/-- A run with the maximum, the lines and the ways that another has noted. -/
def Machine.Run.withNotesOf (t r : Run) : Run := { t with rm := r.rm, lines := r.lines, uses := r.uses, pairs := r.pairs }

/-- The run on another state. -/
def Machine.Run.onState (r : Run) (s : State) : Run := { r with s := s }

/-- Nothing changes but these. -/
def OnlyNotes (r t : Run) : Prop := t.withNotesOf r = r

namespace OnlyNotes

variable {r t u : Run}

theorem refl (r : Run) : OnlyNotes r r := rfl

theorem trans (h : OnlyNotes r t) (k : OnlyNotes t u) : OnlyNotes r u := by
  have hk : u.withNotesOf r = t.withNotesOf r := congrArg (·.withNotesOf r) k
  exact hk.trans h

theorem s (h : OnlyNotes r t) : t.s = r.s := congrArg (·.s) h
theorem die (h : OnlyNotes r t) : t.die = r.die := congrArg (·.die) h
theorem fid (h : OnlyNotes r t) : t.fid = r.fid := congrArg (·.fid) h
theorem stop (h : OnlyNotes r t) : t.stop = r.stop := congrArg (·.stop) h
theorem code (h : OnlyNotes r t) : t.code = r.code := congrArg (·.code) h
theorem sat (h : OnlyNotes r t) : t.sat = r.sat := congrArg (·.sat) h
theorem far (h : OnlyNotes r t) : t.far = r.far := congrArg (·.far) h
theorem ext (h : OnlyNotes r t) : t.ext = r.ext := congrArg (·.ext) h
theorem hint (h : OnlyNotes r t) : t.hint = r.hint := congrArg (·.hint) h

theorem addSat (h : OnlyNotes r t) (n : Nat) : OnlyNotes (r.addSat n) (t.addSat n) := congrArg (fun x : Run => x.addSat n) h

theorem onState (h : OnlyNotes r t) (s : State) : OnlyNotes (r.onState s) (t.onState s) := congrArg (fun x : Run => x.onState s) h

theorem answered {a : Nat} {acc : LogAcc} (h : r.s.answerMiss r.die a = none) : OnlyNotes r (r.answered a acc) := by
  unfold Run.answered
  dsimp only
  rw [h]
  rfl

end OnlyNotes

/-- A read of a line here is served, and what it reads is not poisoned. -/
def Readable (s : State) (die fid a : Nat) : Prop :=
  s.meets die a (some (.desc fid)) = none ∧ s.extHolder (a / 64) (some (.desc fid)) = none ∧
    (s.shareCopies (a / 64)).answerMiss die a = none ∧ (s.shareCopies (a / 64)).linePoisoned (a / 64) = false

/-- A write within a line here is served, and the line takes it. -/
def Writable (s : State) (die fid a : Nat) (bs : List Byte) : Prop :=
  s.meets die a (some (.desc fid)) = none ∧ s.extHolder (a / 64) (some (.desc fid)) = none ∧
    (s.writeLine a bs false).1.answerMiss die a = none ∧ (s.writeLine a bs false).2 = false

section
variable {r : Run} {a : Nat}

theorem readLine_readable (hs : r.stop = false) (h : Readable r.s r.die r.fid a) (n : Nat) :
    ∃ t, r.readLine (.here a) n = (t, (r.s.shareCopies (a / 64)).bytes a n, false) ∧
      OnlyNotes (r.onState (r.s.shareCopies (a / 64))) t := by
  obtain ⟨hmeets, hholder, hback, hpoison⟩ := h
  have hnotes : OnlyNotes { r with s := r.s.shareCopies (a / 64) }
      (Run.answered { r with s := r.s.shareCopies (a / 64) } a .read) := .answered hback
  refine ⟨_, ?_, hnotes⟩
  unfold Run.readLine Run.meets Run.holder
  dsimp only
  rw [hmeets, hholder]
  dsimp only
  rw [if_neg (by rw [hnotes.stop]; simp [hs]), hnotes.s, hpoison]
  rfl

theorem writeLine_writable {bs : List Byte} (hh : r.hint = 0) (h : Writable r.s r.die r.fid a bs) :
    OnlyNotes (r.onState (r.s.writeLine a bs false).1) (r.writeLine (.here a) bs false) := by
  obtain ⟨hmeets, hholder, hback, hbad⟩ := h
  unfold Run.writeLine Run.meets Run.holder
  dsimp only
  rw [hmeets, hholder]
  dsimp only
  rw [hbad, if_neg (fun h => h.2.1 hh : ¬ (bs.length = 64 ∧ r.hint ≠ 0 ∧ false = false)), if_neg Bool.false_ne_true]
  have hline : OnlyNotes (r.onState (r.s.writeLine a bs false).1) { r with
      s := (r.s.writeLine a bs false).1, lines := setInsert r.lines ((2 ^ 48 * r.s.moduleId + a) / 64) } := rfl
  exact hline.trans (.answered hback)

variable {w : AddrWord} {off : Nat} (hplace : w.at r.s.moduleId r.die off = .here a)
include hplace

/-- A read within one line. -/
theorem read_readable {n : Nat} (hs : r.stop = false) (h0 : 0 < n) (hn : n ≤ chunk w off) (h : Readable r.s r.die r.fid a) :
    ∃ t, r.read w off n = (t, (r.s.shareCopies (a / 64)).bytes a n, false) ∧
      OnlyNotes (r.onState (r.s.shareCopies (a / 64))) t := by
  obtain ⟨t, ht, hnotes⟩ := readLine_readable hs h n
  refine ⟨t, ?_, hnotes⟩
  unfold Run.read
  rw [Run.readRun]
  simp only [hs, Bool.or_false, decide_eq_true_eq, if_neg (Nat.pos_iff_ne_zero.1 h0), Nat.min_eq_left hn, hplace, ht, hnotes.stop,
    Nat.sub_self]
  cases n / 64 + 1 <;> simp [Run.readRun]

/-- A write within one line. -/
theorem write_writable {bs : List Byte} (hs : r.stop = false) (hh : r.hint = 0) (h0 : 0 < bs.length) (hn : bs.length ≤ chunk w off)
    (h : Writable r.s r.die r.fid a bs) : OnlyNotes (r.onState (r.s.writeLine a bs false).1) (r.write w off bs) := by
  have hline := writeLine_writable hh h
  have hne : bs ≠ [] := List.length_pos_iff.1 h0
  have hwrite : r.write w off bs = r.writeLine (.here a) bs false := by
    unfold Run.write
    rw [Run.writeRun]
    simp only [hs, Bool.or_false, List.isEmpty_iff, hne, if_false, List.take_of_length_le hn, hplace, hline.stop,
      List.drop_eq_nil_of_le hn]
    cases bs.length / 64 + 1 <;> simp [Run.writeRun]
  rw [hwrite]
  exact hline

end

/-- A write that its home's bias refuses. -/
theorem write_biasFault {r : Run} {w : AddrWord} {off a home : Nat} {bs : List Byte} (hs : r.stop = false) (hcode : r.code = 0)
    (h0 : 0 < bs.length) (hplace : w.at r.s.moduleId r.die off = .here a)
    (h : r.s.meets r.die a (some (.desc r.fid)) = some (.bias home)) : (r.write w off bs).code = stBiasFault := by
  have hne : bs ≠ [] := List.length_pos_iff.1 h0
  unfold Run.write
  rw [Run.writeRun]
  simp only [hs, Bool.or_false, List.isEmpty_iff, hne, if_false, hplace, Run.writeLine, Run.meets, h, Run.miss, Run.raiseLog, Run.raise]
  simp [hcode, stBiasFault]

/-- A line that no cache holds, in a state whose host cores and homes list nothing beside the copies. -/
theorem invalidate_uncached {s : State} {l : Nat} (hmod : s.modifiedCopy l = none) (hcopies : ∀ c ∈ s.host.copies, c.line ≠ l)
    (hcores : s.host.cores = []) (hfilter : s.host.filter = []) (hgrants : s.host.grants = []) (hresv : s.host.resv = []) :
    s.invalidate l = s := by
  have hkept : s.host.copies.filter (fun c => decide (c.line ≠ l)) = s.host.copies :=
    List.filter_eq_self.2 fun c hc => decide_eq_true (hcopies c hc)
  unfold State.invalidate
  rw [hmod]
  dsimp only
  rw [hkept, hcores, hfilter, hgrants, hresv]
  simp only [List.filter_nil]
  rw [← hcores, ← hfilter, ← hgrants, ← hresv]

/-! ### Elements of an operand -/

/-- Consecutive elements of an operand from an address, as FP32 values with the saturations counted. -/
def readsAt (s : State) (o : Opnd) (a n : Nat) : List Read :=
  (numsOf (o.fmt.bits / 8) n (s.bytes a (n * (o.fmt.bits / 8)))).map (readCode o.fmt o.v)

/-- The values saturated among reads, or writes. -/
def satsOf {α : Type} (l : List (α × Nat)) : Nat := l.foldl (fun n c => n + c.2) 0

section
variable {r : Run} {o : Opnd} {off a : Nat} (hs : r.stop = false) (hk : 0 < o.fmt.bits / 8)
  (hplace : o.w.at r.s.moduleId r.die off = .here a)
include hs hk hplace

theorem readElems_readable {n : Nat} (h0 : 0 < n) (hn : n * (o.fmt.bits / 8) ≤ chunk o.w off) (h : Readable r.s r.die r.fid a) :
    let l := readsAt (r.s.shareCopies (a / 64)) o a n
    ∃ t, r.readElems o off n = (t, l.map (·.1), false) ∧
      OnlyNotes ((r.onState (r.s.shareCopies (a / 64))).addSat (satsOf l)) t := by
  intro l
  obtain ⟨t, ht, hnotes⟩ := read_readable hplace hs (Nat.mul_pos h0 hk) hn h
  have hlen : ((r.s.shareCopies (a / 64)).bytes a (n * (o.fmt.bits / 8))).length / (o.fmt.bits / 8) = n := by
    simp [State.bytes, Nat.mul_div_cancel n hk]
  refine ⟨t.addSat (satsOf l), ?_, hnotes.addSat _⟩
  unfold Run.readElems
  simp only [ht, hlen]
  rfl

end

/-- The codes of consecutive elements as they are written, with the saturations counted. -/
def codesOf (o : Opnd) (xs : List Word) : List (Nat × Nat) := xs.map (writeCode o.fmt o.v)

/-- The bytes of consecutive elements as they are written. -/
def bytesOf (o : Opnd) (xs : List Word) : List Byte := (codesOf o xs).flatMap (fun c => leBytes (o.fmt.bits / 8) c.1)

theorem writeElems_writable {r : Run} {o : Opnd} {off a : Nat} {xs : List Word} (gather : Bool) (hs : r.stop = false)
    (hh : r.hint = 0) (hplace : o.w.at r.s.moduleId r.die off = .here a) (h0 : 0 < (bytesOf o xs).length)
    (hn : (bytesOf o xs).length ≤ chunk o.w off) (h : Writable r.s r.die r.fid a (bytesOf o xs)) :
    OnlyNotes ((r.onState (r.s.writeLine a (bytesOf o xs) false).1).addSat (satsOf (codesOf o xs)))
      (r.writeElems o gather off xs false) := by
  cases gather
  · exact write_writable (r := r.addSat (satsOf (codesOf o xs))) hplace hs hh h0 hn h
  · have hnotes := write_writable (r := (r.addSat (satsOf (codesOf o xs))).maxes xs) hplace hs hh h0 hn h
    exact OnlyNotes.trans (t := ((r.addSat (satsOf (codesOf o xs))).maxes xs).onState _) rfl hnotes

/-- A step of a run that meets nothing. -/
theorem meeting_onlyNotes {r b : Run} {go : Run → Run} (hb : b.code = r.code) (hd : b.detail = r.detail)
    (h : OnlyNotes { b with code := 0, detail := 0 } (go { r with code := 0, detail := 0 })) :
    ∃ t, r.meeting go = (t, false) ∧ OnlyNotes b t := by
  have hcode := h.code
  refine ⟨{ go { r with code := 0, detail := 0 } with code := r.code, detail := r.detail }, ?_, ?_⟩
  · unfold Run.meeting
    dsimp only
    rw [hcode, if_neg (Nat.not_lt_zero _)]
    rfl
  · have hx := congrArg (fun x : Run => { x with code := b.code, detail := b.detail }) h
    rw [hb, hd] at hx
    refine hx.trans ?_
    rw [← hb, ← hd]

/-- A write of elements that meets nothing. -/
theorem meeting_writeElems {r : Run} {o : Opnd} {off a : Nat} {xs : List Word} (gather : Bool) (hs : r.stop = false)
    (hh : r.hint = 0) (hplace : o.w.at r.s.moduleId r.die off = .here a) (h0 : 0 < (bytesOf o xs).length)
    (hn : (bytesOf o xs).length ≤ chunk o.w off) (h : Writable r.s r.die r.fid a (bytesOf o xs)) :
    ∃ t, r.meeting (fun r => r.writeElems o gather off xs false) = (t, false) ∧
      OnlyNotes ((r.onState (r.s.writeLine a (bytesOf o xs) false).1).addSat (satsOf (codesOf o xs))) t :=
  meeting_onlyNotes (b := (r.onState (r.s.writeLine a (bytesOf o xs) false).1).addSat (satsOf (codesOf o xs))) rfl rfl
    (writeElems_writable (r := { r with code := 0, detail := 0 }) gather hs hh hplace h0 hn h)

/-! ### Groups of a class 0x12 descriptor -/

section
variable (c : ElemCfg)

/-- What the cells make of a group with its z values. -/
def groupOut (xs ys zs : List Word) : List Word :=
  xs.mapIdx (fun i a => if c.fp32 then fpAdd (zs.getD i 0) (fpMul a (ys.getD i 0)) else fpFma a (ys.getD i 0) (zs.getD i 0))

/-- A group whose sources are read. -/
theorem enter_eq {c : ElemCfg} {r tx ty tz : Run} {g : Nat × Nat} {xs ys zs : List Word} (hb : c.beta = true)
    (hx : r.readElems c.x ((c.base + g.1) * ElemCfg.size c.x) g.2 = (tx, xs, false)) (hxs : tx.stop = false)
    (hy : tx.readElems c.y ((c.base + g.1) * ElemCfg.size c.y) g.2 = (ty, ys, false)) (hys : ty.stop = false)
    (hz : ty.readElems c.z ((c.base + g.1) * ElemCfg.size c.z) g.2 = (tz, zs, false)) (hzs : tz.stop = false) :
    c.enter r g = (tz, groupOut c xs ys zs) := by
  unfold ElemCfg.enter groupOut
  simp only [hx, hxs, hy, hys, hb, hz, hzs, Bool.or_self, Bool.false_eq_true, if_false, if_true]

/-- Groups that enter and leave only notes, before others. -/
theorem enterAll_append {out : Nat × Nat → List Word} {gs hs : List (Nat × Nat)} {r : Run} (hr : r.stop = false)
    (hgs : ∀ g ∈ gs, ∀ t, OnlyNotes r t → ∃ u, c.enter t g = (u, out g) ∧ OnlyNotes r u) {t : Run} (ht : OnlyNotes r t) :
    ∃ u, OnlyNotes r u ∧
      c.enterAll (gs ++ hs) t = ((c.enterAll hs u).1, gs.map (fun g => (g.1, out g)) ++ (c.enterAll hs u).2) := by
  induction gs generalizing t with
  | nil => exact ⟨t, ht, rfl⟩
  | cons g gs ih =>
    obtain ⟨u, hu, hnotes⟩ := hgs g (by simp) t ht
    obtain ⟨v, hv, hall⟩ := ih (fun x hx => hgs x (by simp [hx])) hnotes
    refine ⟨v, hv, ?_⟩
    rw [List.cons_append, ElemCfg.enterAll]
    simp only [hu, hnotes.stop, hr, hall, Bool.false_eq_true, if_false, List.map_cons, List.cons_append]

/-- The first group that cannot be written is the first that is not. -/
theorem leave_firstFails {g : Nat × List Word} {gs : List (Nat × List Word)} {r : Run} (h : (r.meeting (fun r =>
    r.writeElems c.z c.gather ((c.base + g.1) * ElemCfg.size c.z) g.2 false)).2 = true) : (c.leave (g :: gs) r).2 = 0 := by
  rw [ElemCfg.leave]
  simp only [h, if_true]

/-- Groups whose writes leave only notes, before others. -/
theorem leave_append {gs hs : List (Nat × List Word)} {r : Run}
    (hgs : ∀ g ∈ gs, ∀ t, OnlyNotes r t → ∃ u, t.meeting (fun r => r.writeElems c.z c.gather
      ((c.base + g.1) * ElemCfg.size c.z) g.2 false) = (u, false) ∧ OnlyNotes r u) {t : Run} (ht : OnlyNotes r t) :
    ∃ u, OnlyNotes r u ∧ c.leave (gs ++ hs) t = ((c.leave hs u).1, (c.leave hs u).2 + gs.length) := by
  induction gs generalizing t with
  | nil => exact ⟨t, ht, rfl⟩
  | cons g gs ih =>
    obtain ⟨u, hu, hnotes⟩ := hgs g (by simp) t ht
    obtain ⟨v, hv, hall⟩ := ih (fun x hx => hgs x (by simp [hx])) hnotes
    refine ⟨v, hv, ?_⟩
    rw [List.cons_append, ElemCfg.leave]
    simp only [hu, hall, Bool.false_eq_true, if_false, List.length_cons, Nat.add_assoc]

/-- When the first group cannot be written, the groups that had not entered by then count as not read (R126). -/
theorem run_of_firstFails {w ep : Nat} {groups : List (Nat × Nat)} {r ra : Run} {outs : List (Nat × List Word)}
    (hall : c.enterAll groups r = (ra, outs)) (hstop : ra.stop = false) (houts : 0 < outs.length)
    (hfails : (c.leave outs { ra with stop := false }).2 = 0) :
    c.run w ep none groups r =
      (c.leave outs { (c.enterAll (groups.take (255 + w + 1)) r).1 with stop := false, code := r.code, detail := r.detail }).1 := by
  unfold ElemCfg.run ElemCfg.enterUntil
  simp only [hall, hstop, hfails, Bool.false_eq_true, if_false, houts, if_true, Nat.zero_add]

end

/-- The operands of a class 0x12 descriptor from its first element on. -/
def elemCfgOf (f : Flight) (first : Nat) : ElemCfg :=
  { x := f.opnd 128 320, y := f.opnd 192 352, z := f.opnd 256 384, beta := dbit f.desc 442, gather := (dFmt f.desc 384).gather,
    fp32 := (dFmt f.desc 320).code == 0, base := first }

/-- The groups of a descriptor that has elements run on its partition; what follows leaves what they met and counted. -/
theorem elementwiseRun_fields {s : State} {f : Flight} {parity : Option Nat} {first last : Nat}
    (hshare : shardPart (dfld f.desc 439 416) (dShardN f.desc) (dShardIx f.desc) = (first, last)) (hlt : first < last) :
    let w := s.partWidth (hDie f.target) (hSlot f.target)
    let r := (elemCfgOf f first).run w (hSlot f.target) parity (cut w (last - first)) (Run.start s (hDie f.target) f.fid)
    let x := (s.elementwiseRun f parity).1
    x.stop = r.stop ∧ x.far = r.far ∧ x.ext = r.ext ∧ x.sat = r.sat := by
  intro w r x
  have hfields : ∀ (t : Run) (fw : FmtWord), (t.gatherInto fw).stop = t.stop ∧ (t.gatherInto fw).far = t.far ∧
      (t.gatherInto fw).ext = t.ext ∧ (t.gatherInto fw).sat = t.sat := fun t fw => by
    unfold Run.gatherInto
    split <;> exact ⟨rfl, rfl, rfl, rfl⟩
  simp only [x, State.elementwiseRun, hshare, if_neg (show last - first ≠ 0 by omega)]
  exact hfields _ _

theorem RunDone.sat {f g : Flight} {x : Run × Nat} {s t : State} (h : RunDone f x s t) (hg : t.flight f.fid = some g) :
    g.res.sat = x.1.sat := by
  obtain ⟨hf, -⟩ := h
  rw [Option.some.inj (hg.symm.trans hf)]
  rfl

/-- What the engine pair notes at the end of a matrix class leaves its run done. -/
theorem RunDone.matEnd {f : Flight} {x : Run × Nat} {s t : State} (h : RunDone f x s t) : RunDone f x s (t.matEnd f) := by
  have hend : t.matEnd f = (t.vePoisonBit (hDie f.target) (hSlot f.target)).maBusy f := by
    unfold State.matEnd
    rw [h.1]
  rw [hend]
  exact h.onlyControl ((OnlyControl.setFlag t _ _ _).trans (.setFlag _ _ _ _))

/-- A class 0x12 descriptor that meets no fault that stops it and waits for nothing. -/
theorem answers_elementwiseFma {s : State} {f : Flight} (h : Started 0x12 f s) (hx : Served (s.elementwiseRun f)) :
    Answers (.elementwiseFma f.fid) s (RunDone f (s.elementwiseRun f) s) := by
  have hdone : RunDone f (s.elementwiseRun f) s (s.elementwise f) := runDone_ends true h.1 hx
  have hpasses : RunDone f (s.elementwiseRun f) s
      (if (s.elementwise f).ranOut f then (s.elementwise f).passesEnd f else s.elementwise f) := by
    split
    · exact hdone
    · exact hdone
  refine ⟨_, congrArg Host.Outcome.next ?_, hpasses.matEnd⟩
  simp only [h.1, h.runs, if_true]

end Sys2Proof
end

section
/-! SUPPORT. O60: a descriptor whose last read changes the bias of what it writes. -/

namespace Sys2Proof

open Machine

/-- Where the bias table of HD0 stands: in its own host memory. -/
def tableBase : Nat := hostBase 0 + 0x10000

/-- ELEMENTWISE_FMA of 20,481 elements on partition 0 of EP0 of CD32, in E4M3: x and y are the bottom of the working memory, and z,
which is added too, ends with the first byte of the bias table of HD0. The scale exponent of z is -127. -/
def tableWork : Flight :=
  { fid := 7, ring := 0, place := (0, 0, 0), start := 1, index := 0, target := 0x40000, step := 0, lenSrc := false, seed := 0, stream := 0,
    mover := 0, parent := none, level := 0, remote := none, expect := 0, mods := [], phase := .started, res := Flight.noRes, recs := [],
    vals := [], rows := 0
    desc := BitVec.ofNat 512 (0x12 + 2 ^ 108 + 2 ^ 191 + 2 ^ 255 + 2 ^ 256 * (tableBase - 20480) + 2 ^ 320 * 0x40000000 +
      2 ^ 352 * 0x40000000 + 2 ^ 384 * 0x48000081 + 2 ^ 416 * 20481 + 2 ^ 442) }

/-- CD32 reaches HD0, and EP0 is ON with four partitions. Memory holds the code SHR for the first granules of HD0, but the table's
line is modified in HD0's L3, where the first granule, in which z begins, is HELD. R356 keeps the tables in HBM, but the statement
speaks of every state. -/
def tableAhead : State :=
  { ([(Reg.tdDie 32, 0x200), (Reg.tdDie 80, 0x200), (Reg.maCtrl 32 0, 0x220), (Reg.maPartRing 32 0 0, 0x80000000),
      (Reg.cpCtrl 32 8, 0x20), (Reg.cpStatus 32 8, 0x300), (Reg.dcRoute 32 80 0, 0x80000200), (Reg.hxBiasBaseHi 80, 0x800),
      (Reg.hxBiasBaseLo 80, 0x10000)] : List (Nat × Word)).foldl (fun s x => s.setReg x.1 x.2) State.reset with
    mem := [(tableBase, 0x55)]
    flights := [tableWork]
    nextFid := 8
    host := { State.reset.host with copies := [⟨0, tableBase / 64, .modified, [0x7B]⟩] } }

/-- The operands of the descriptor. -/
def tableCfg : ElemCfg :=
  { x := ⟨⟨2, 0, 0, 0⟩, .e4m3, 0⟩, y := ⟨⟨2, 0, 0, 0⟩, .e4m3, 0⟩, z := ⟨⟨0, 0, 0, tableBase - 20480⟩, .e4m3, -127⟩, beta := true,
    gather := true, fp32 := false, base := 0 }

/-! ### Accesses that are served -/

section
variable {o : Nat}

theorem regionOf_wm32 (ho : o < 0x8000000) : regionOf (wmBase 32 + o) = .workMem 32 o := by
  unfold regionOf wmBase
  rw [if_neg (by omega), if_neg (by omega), if_pos (by omega)]
  exact congrArg₂ Region.workMem (by omega) (by omega)

theorem regionOf_hd0 (ho : o < 0x8000000000) : regionOf (hostBase 0 + o) = .hostMem 0 o := by
  unfold regionOf hostBase
  rw [if_neg (by omega), if_pos (by omega)]
  exact congrArg₂ Region.hostMem (by omega) (by omega)

theorem meets_wm32 (ho : o < 0x8000000) : tableAhead.meets 32 (wmBase 32 + o) (some (.desc 7)) = none := by
  have hup : tableAhead.dieDown 32 = false := by decide +kernel
  have hready : tableAhead.flag (Reg.wmCtrl 32) 1 = false := by decide +kernel
  have hext : tableAhead.extUp = false := by decide +kernel
  have hpath : ∀ a, tableAhead.path 32 32 a = .ok [32] [] := fun a => rfl
  simp [State.meets, State.lostFor, populated, ownerDie, State.inMaint, State.initBusy, State.flipping, State.biasFor, State.bias,
    State.biasCode, isHbm, isHostMem, isWorkMem, regionOf_wm32 ho, ho, wmSize, hup, hready, hext, hpath, Path.miss,
    show tableAhead.answered = [] from rfl, show tableAhead.host.flips = [] from rfl, show tableAhead.pcie.exempt = [] from rfl]

theorem tableAhead_route : tableAhead.reg (Reg.dcRoute 32 80 0) = 0x80000200 := by decide +kernel

theorem tableAhead_edgeUsable : tableAhead.edgeUsable 32 2 = true := by decide +kernel

/-- CD32 and HD0 are neighbours. -/
theorem path_hd0 (a : Nat) : tableAhead.path 32 80 a = .ok [32, 80] (tableAhead.spread 32 2 (.line a)) := by
  have hway : tableAhead.path 32 80 a = tableAhead.walkMesh (.line a) 80 32 0 (63 + 1) := rfl
  rw [hway, State.walkMesh, tableAhead_route]
  simp [bit, wfld, neighbour, tableAhead_edgeUsable]

theorem biasCode_hd0 (ho : o < 0x20000) : tableAhead.biasCode (hostBase 0 + o) = 1 := by
  have hbase : tableAhead.biasBase 80 = tableBase := by decide +kernel
  have hbyte : tableAhead.memByte tableBase = 0x55 := by decide +kernel
  have hgran : o / 0x10000 / 4 = 0 := by omega
  have hcode : o / 0x10000 = 0 ∨ o / 0x10000 = 1 := by omega
  unfold State.biasCode
  simp only [isHbm, isHostMem, granuleOf, ownerDie, regionOf_hd0 (show o < 0x8000000000 by omega), Nat.add_zero, Bool.or_true,
    if_true, hbase, hgran, State.linePoisoned, show tableAhead.poison = [] from rfl, hbyte]
  rcases hcode with h | h <;> rw [h] <;> rfl

theorem meets_hd0 (ho : o < 0x20000) : tableAhead.meets 32 (hostBase 0 + o) (some (.desc 7)) = none := by
  have hup : tableAhead.dieDown 80 = false := by decide +kernel
  have hready : tableAhead.flag (Reg.hxBiasCtrl 80) 31 = false := by decide +kernel
  simp [State.meets, State.lostFor, populated, ownerDie, State.inMaint, State.initBusy, State.flipping, State.biasFor, State.bias,
    biasCode_hd0 ho, isHbm, isWorkMem, regionOf_hd0 (show o < 0x8000000000 by omega), hup, hready, path_hd0, Path.miss,
    show tableAhead.answered = [] from rfl, show tableAhead.host.flips = [] from rfl, show tableAhead.pcie.exempt = [] from rfl]

theorem initBusy_wm32 (ho : o < 0x8000000) : tableAhead.initBusy (wmBase 32 + o) = false := by
  have hready : tableAhead.flag (Reg.wmCtrl 32) 1 = false := by decide +kernel
  simp [State.initBusy, isWorkMem, ownerDie, regionOf_wm32 ho, hready]

theorem initBusy_hd0 (ho : o < 0x8000000000) : tableAhead.initBusy (hostBase 0 + o) = false := by
  have hready : tableAhead.flag (Reg.hxBiasCtrl 80) 31 = false := by decide +kernel
  simp [State.initBusy, isWorkMem, isHbm, ownerDie, regionOf_hd0 ho, hready]

end

/-- No external host holds a line, and nothing flips. -/
theorem extHolder_tableAhead {a : Nat} (hbusy : tableAhead.initBusy (64 * (a / 64)) = false) :
    tableAhead.extHolder (a / 64) (some (.desc 7)) = none := by
  simp [State.extHolder, hbusy, State.flipping, show tableAhead.host.flips = [] from rfl, show tableAhead.pcie.ext = [] from rfl]

theorem backs_tableAhead : (tableAhead.back 32 32).miss = none ∧ (tableAhead.back 32 80).miss = none := by decide +kernel

/-- A line of CD32's working memory, or of HD0's memory before the table: no cache holds a copy. -/
structure Quiet (a : Nat) : Prop where
  aligned : 64 * (a / 64) = a
  before : a / 64 ≠ tableBase / 64
  meets : tableAhead.meets 32 a (some (.desc 7)) = none
  free : tableAhead.initBusy a = false
  owner : ownerDie a = 32 ∨ ownerDie a = 80

theorem quiet_wm32 {k : Nat} (hk : k < 0x200000) : Quiet (wmBase 32 + 64 * k) where
  aligned := by unfold wmBase; omega
  before := by unfold wmBase tableBase hostBase; omega
  meets := meets_wm32 (by omega)
  free := initBusy_wm32 (by omega)
  owner := .inl (by rw [ownerDie, regionOf_wm32 (by omega)])

theorem quiet_hd0 {k : Nat} (hk : k < 1024) : Quiet (hostBase 0 + 64 * k) where
  aligned := by unfold hostBase; omega
  before := by unfold tableBase hostBase; omega
  meets := meets_hd0 (by omega)
  free := initBusy_hd0 (by omega)
  owner := .inr (by rw [ownerDie, regionOf_hd0 (by omega)])

theorem runCells_zeros (n a : Nat) : runCells memDefault a (List.replicate n 0) = [] := by
  induction n generalizing a with
  | zero => rfl
  | succ n ih => exact (if_pos rfl).trans (ih (a + 1))

namespace Quiet

variable {a : Nat} (h : Quiet a)
include h

theorem answerMiss : tableAhead.answerMiss 32 a = none := by
  unfold State.answerMiss
  rcases h.owner with ho | ho <;> rw [ho]
  · exact backs_tableAhead.1
  · exact backs_tableAhead.2

theorem extHolder : tableAhead.extHolder (a / 64) (some (.desc 7)) = none := extHolder_tableAhead (by rw [h.aligned, h.free])

theorem shareCopies : tableAhead.shareCopies (a / 64) = tableAhead := by
  have hcopies : tableAhead.host.copies = [⟨0, tableBase / 64, .modified, [0x7B]⟩] := rfl
  unfold State.shareCopies
  rw [if_neg (by simp [hcopies, h.before.symm])]

theorem readable : Readable tableAhead 32 7 a := by
  refine ⟨h.meets, h.extHolder, ?_, ?_⟩
  · rw [h.shareCopies]
    exact h.answerMiss
  · rw [h.shareCopies]
    rfl

theorem modifiedCopy : tableAhead.modifiedCopy (a / 64) = none := by
  have hcopies : tableAhead.host.copies = [⟨0, tableBase / 64, .modified, [0x7B]⟩] := rfl
  simp [State.modifiedCopy, hcopies, h.before.symm]

theorem bytes {n : Nat} (hn : n ≤ 64) : tableAhead.bytes a n = List.replicate n 0 := by
  refine List.eq_replicate_iff.2 ⟨by simp [State.bytes], fun b hb => ?_⟩
  obtain ⟨i, hi, rfl⟩ := List.mem_map.1 hb
  have hlt := List.mem_range.1 hi
  have hal := h.aligned
  have hline : (a + i) / 64 = a / 64 := by omega
  have hne : tableBase ≠ a + i := fun e => h.before (by rw [e, hline])
  rw [State.byte_of_unmodified (by rw [hline]; exact h.modifiedCopy)]
  exact if_neg hne

theorem invalidate : tableAhead.invalidate (a / 64) = tableAhead := by
  refine invalidate_uncached h.modifiedCopy (fun c hc => ?_) rfl rfl rfl rfl
  rw [List.mem_singleton.1 hc]
  exact h.before.symm

/-- Zeros stored where memory holds zeros change nothing. -/
theorem writeLine (hbelow : a + 64 ≤ tableBase) : tableAhead.writeLine a (List.replicate 64 0) false = (tableAhead, false) := by
  have hmem : storeRun memDefault tableAhead.mem a (List.replicate 64 0) = tableAhead.mem := by
    have hlist : tableAhead.mem = [(tableBase, 0x55)] := rfl
    have hlt : ¬ tableBase < a := by omega
    rw [hlist, storeRun, runCells_zeros]
    simp [hlt, hbelow]
  have hput : tableAhead.putMem a (List.replicate 64 0) = tableAhead := by
    unfold State.putMem
    rw [hmem]
  have hclean : tableAhead.linePoisoned (a / 64) = false := rfl
  unfold State.writeLine
  rw [h.invalidate]
  simp only [List.length_replicate, if_true, hput, Bool.false_eq_true, if_false, State.clearPoison_of_unpoisoned (l := a / 64) hclean]

end Quiet

/-! ### The groups before the last -/

/-- The run as it begins, and the groups of 64 elements. -/
def tableStart : Run := Run.start tableAhead 32 7
def tableGroups : List (Nat × Nat) := (List.range 320).map (fun k => (64 * k, 64))

theorem cut_table : cut 64 20481 = tableGroups ++ [(20480, 1)] := by decide +kernel

theorem mem_tableGroups {g : Nat × Nat} (hg : g ∈ tableGroups) : ∃ k, k < 320 ∧ g = (64 * k, 64) := by
  obtain ⟨k, hk, rfl⟩ := List.mem_map.1 hg
  exact ⟨k, List.mem_range.1 hk, rfl⟩

theorem reads_zeros : ∀ v ∈ [(0 : Int), -127], ∀ n ∈ [1, 64],
    (numsOf 1 n (List.replicate n 0)).map (readCode .e4m3 v) = List.replicate n (0, 0) := by decide +kernel

theorem at_wm32 {off : Nat} (ho : off < 0x100000000) : (⟨2, 0, 0, 0⟩ : AddrWord).at 0 32 off = .here (wmBase 32 + off) := by
  simp [AddrWord.at]
  omega

theorem at_hd0 {off : Nat} (ho : off ≤ 20480) : tableCfg.z.w.at 0 32 off = .here (hostBase 0 + (45056 + off)) := by
  have haddr : tableBase - 20480 + off = hostBase 0 + (45056 + off) := by unfold tableBase; omega
  simp [AddrWord.at, tableCfg, haddr]
  unfold hostBase
  omega

/-- Elements read from a quiet line are zeros. -/
theorem readElems_quiet {o : Opnd} {off a n : Nat} {t : Run} (ht : OnlyNotes tableStart t) (hf : o.fmt = .e4m3)
    (hv : o.v ∈ [(0 : Int), -127]) (hn : n ∈ [1, 64]) (hplace : o.w.at 0 32 off = .here a) (hchunk : chunk o.w off = 64)
    (ha : Quiet a) : ∃ u, t.readElems o off n = (u, List.replicate n 0, false) ∧ OnlyNotes tableStart u := by
  have hsize : o.fmt.bits / 8 = 1 := by rw [hf]; rfl
  have hle : 0 < n ∧ n ≤ 64 := by rcases List.mem_pair.1 hn with rfl | rfl <;> omega
  have hs : t.s = tableAhead := ht.s
  have hreads : readsAt (t.s.shareCopies (a / 64)) o a n = List.replicate n (0, 0) := by
    rw [readsAt, hs, ha.shareCopies, hsize, hf, Nat.mul_one, ha.bytes hle.2]
    exact reads_zeros _ hv _ hn
  obtain ⟨u, hu, hnotes⟩ := readElems_readable (o := o) (off := off) (a := a) (n := n) (ht.stop.trans rfl) (by omega)
    (by rw [hs, ht.die]; exact hplace) hle.1 (by rw [hsize, hchunk]; omega) (by rw [hs, ht.die, ht.fid]; exact ha.readable)
  rw [hreads] at hu hnotes
  refine ⟨u, hu.trans (by rw [List.map_replicate]), ht.trans ?_⟩
  have hsats : satsOf (List.replicate n ((0 : Word), 0)) = 0 := by rcases List.mem_pair.1 hn with rfl | rfl <;> rfl
  rw [hsats, hs, ha.shareCopies, ← hs] at hnotes
  exact hnotes

theorem chunk_aligned {w : AddrWord} {off : Nat} (h : (w.addr + off) % 64 = 0) : chunk w off = 64 := by
  unfold chunk
  rw [h]

/-- Elements of x and y. -/
theorem readElems_xy {k n : Nat} {t : Run} (ht : OnlyNotes tableStart t) (hk : k ≤ 320) (hn : n ∈ [1, 64]) :
    ∃ u, t.readElems tableCfg.x (64 * k) n = (u, List.replicate n 0, false) ∧ OnlyNotes tableStart u :=
  readElems_quiet ht rfl (by simp [tableCfg]) hn (at_wm32 (by omega)) (chunk_aligned (by simp [tableCfg])) (quiet_wm32 (by omega))

theorem groupOut_zeros : groupOut tableCfg (List.replicate 64 0) (List.replicate 64 0) (List.replicate 64 0) = List.replicate 64 0 := by
  decide +kernel

theorem off_table (i : Nat) : (tableCfg.base + i) * ElemCfg.size tableCfg.x = i ∧
    (tableCfg.base + i) * ElemCfg.size tableCfg.y = i ∧ (tableCfg.base + i) * ElemCfg.size tableCfg.z = i := by
  simp [tableCfg, ElemCfg.size, Fmt.bits]

theorem chunk_z (k : Nat) : chunk tableCfg.z.w (64 * k) = 64 := by
  refine chunk_aligned ?_
  have haddr : tableCfg.z.w.addr = 64 * ((tableBase - 20480) / 64) := by decide +kernel
  rw [haddr]
  omega

theorem quiet_z {k : Nat} (hk : k < 320) : Quiet (hostBase 0 + (45056 + 64 * k)) := by
  rw [show 45056 + 64 * k = 64 * (704 + k) by omega]
  exact quiet_hd0 (by omega)

/-- A group of 64 elements enters: zeros are read, and zeros come out. -/
theorem enter_tableGroup : ∀ g ∈ tableGroups, ∀ t, OnlyNotes tableStart t →
    ∃ u, tableCfg.enter t g = (u, List.replicate 64 0) ∧ OnlyNotes tableStart u := by
  intro g hg t ht
  obtain ⟨k, hk, rfl⟩ := mem_tableGroups hg
  obtain ⟨hx, hy, hz⟩ := off_table (64 * k)
  obtain ⟨tx, htx, hxs⟩ := readElems_xy (n := 64) ht hk.le (by simp)
  obtain ⟨ty, hty, hys⟩ := readElems_xy (n := 64) hxs hk.le (by simp)
  obtain ⟨tz, htz, hzs⟩ := readElems_quiet (o := tableCfg.z) (off := 64 * k) (n := 64) hys rfl (by simp [tableCfg]) (by simp)
    (at_hd0 (by omega)) (chunk_z k) (quiet_z hk)
  refine ⟨tz, ?_, hzs⟩
  rw [enter_eq (c := tableCfg) rfl (by rw [hx]; exact htx) hxs.stop (by rw [hy]; exact hty) hys.stop (by rw [hz]; exact htz) hzs.stop,
    groupOut_zeros]

/-- What 64 elements of z are written as. -/
theorem bytesOf_zeros : bytesOf tableCfg.z (List.replicate 64 0) = List.replicate 64 0 ∧
    satsOf (codesOf tableCfg.z (List.replicate 64 0)) = 0 := by decide +kernel

/-- A group of 64 elements is written: nothing but notes changes. -/
theorem write_tableGroup : ∀ g ∈ tableGroups.map (fun g => (g.1, List.replicate 64 (0 : Word))), ∀ t, OnlyNotes tableStart t →
    ∃ u, t.meeting (fun r => r.writeElems tableCfg.z tableCfg.gather ((tableCfg.base + g.1) * ElemCfg.size tableCfg.z) g.2 false) =
      (u, false) ∧ OnlyNotes tableStart u := by
  intro g hg t ht
  obtain ⟨g', hg', rfl⟩ := List.mem_map.1 hg
  obtain ⟨k, hk, rfl⟩ := mem_tableGroups hg'
  obtain ⟨-, -, hz⟩ := off_table (64 * k)
  obtain ⟨hbytes, hsats⟩ := bytesOf_zeros
  have hs : t.s = tableAhead := ht.s
  have hd : t.die = 32 := ht.die
  have hq := quiet_z hk
  have hline := hq.writeLine (by unfold tableBase; omega)
  obtain ⟨u, hu, hnotes⟩ := meeting_writeElems (r := t) (o := tableCfg.z) (off := 64 * k) (xs := List.replicate 64 0) tableCfg.gather
    (ht.stop.trans rfl) (ht.hint.trans rfl) (by rw [hs, hd]; exact at_hd0 (by omega)) (by rw [hbytes]; decide)
    (by rw [hbytes, chunk_z]; decide) (by
      rw [hs, hd, ht.fid, hbytes]
      exact ⟨hq.meets, hq.extHolder, by rw [hline]; exact hq.answerMiss, by rw [hline]⟩)
  rw [hbytes, hsats, hs, hline, ← hs] at hnotes
  exact ⟨u, by rw [hz]; exact hu, ht.trans hnotes⟩

/-! ### The last group -/

/-- The state once the table's line has gone home. -/
def tableShared : State := tableAhead.shareCopies (tableBase / 64)

theorem at_table : tableCfg.z.w.at 0 32 20480 = .here tableBase := by decide +kernel

theorem readable_table : Readable tableAhead 32 7 tableBase := by
  unfold Readable
  decide +kernel

/-- The last z value lies beyond the range of FP32. -/
theorem readsAt_table : readsAt tableShared tableCfg.z tableBase 1 = [(0x7F7FFFFF, 1)] := by decide +kernel

theorem groupOut_last : groupOut tableCfg [0] [0] [0x7F7FFFFF] = [0x7F7FFFFF] := by decide +kernel

/-- The last group enters: the table's line goes home, and one value saturates. -/
theorem enter_last {t : Run} (ht : OnlyNotes tableStart t) : ∃ u, tableCfg.enter t (20480, 1) = (u, [0x7F7FFFFF]) ∧
    OnlyNotes ((tableStart.onState tableShared).addSat 1) u := by
  obtain ⟨hx, hy, hz⟩ := off_table 20480
  obtain ⟨tx, htx, hxs⟩ := readElems_xy (k := 320) (n := 1) ht le_rfl (by simp)
  obtain ⟨ty, hty, hys⟩ := readElems_xy (k := 320) (n := 1) hxs le_rfl (by simp)
  have hs : ty.s = tableAhead := hys.s
  have hd : ty.die = 32 := hys.die
  obtain ⟨tz, htz, hzs⟩ := readElems_readable (r := ty) (o := tableCfg.z) (off := 20480) (a := tableBase) (n := 1) (hys.stop.trans rfl)
    (by decide) (by rw [hs, hd]; exact at_table) (by decide) (by rw [show 20480 = 64 * 320 from rfl, chunk_z]; decide)
    (by rw [hs, hd, hys.fid]; exact readable_table)
  rw [hs, show tableAhead.shareCopies (tableBase / 64) = tableShared from rfl, readsAt_table] at htz hzs
  have hnotes := ((hys.onState tableShared).addSat 1).trans hzs
  refine ⟨tz, ?_, hnotes⟩
  rw [enter_eq (c := tableCfg) rfl (by rw [hx]; exact htx) hxs.stop (by rw [hy]; exact hty) hys.stop (by rw [hz]; exact htz) hnotes.stop]
  exact congrArg (Prod.mk tz) groupOut_last

/-- What all the groups come to. -/
def tableOuts : List (Nat × List Word) := tableGroups.map (fun g => (g.1, List.replicate 64 0)) ++ [(20480, [0x7F7FFFFF])]

theorem enterAll_table : ∃ u, tableCfg.enterAll (cut 64 20481) tableStart = (u, tableOuts) ∧
    OnlyNotes ((tableStart.onState tableShared).addSat 1) u := by
  obtain ⟨t, ht, hall⟩ := enterAll_append tableCfg (hs := [(20480, 1)]) rfl enter_tableGroup (.refl tableStart)
  obtain ⟨u, hu, hnotes⟩ := enter_last ht
  refine ⟨u, ?_, hnotes⟩
  rw [cut_table, hall, ElemCfg.enterAll]
  simp only [hu, hnotes.stop]
  rfl

theorem enterAll_groups : ∃ u, (tableCfg.enterAll tableGroups tableStart).1 = u ∧ OnlyNotes tableStart u := by
  obtain ⟨t, ht, hall⟩ := enterAll_append tableCfg (hs := []) rfl enter_tableGroup (.refl tableStart)
  rw [List.append_nil] at hall
  exact ⟨t, congrArg Prod.fst hall, ht⟩

theorem meets_tableShared : tableShared.meets 32 (tableBase - 20480) (some (.desc 7)) = some (.bias 80) := by decide +kernel

/-- With the table's line at home, z's first granule is HELD, and the first group cannot be written. -/
theorem leave_shared {t : Run} (ht : OnlyNotes ((tableStart.onState tableShared).addSat 1) t) : (tableCfg.leave tableOuts t).2 = 0 := by
  have houts : tableOuts = (0, List.replicate 64 0) :: tableOuts.tail := by decide +kernel
  rw [houts]
  refine leave_firstFails _ ?_
  have hs : t.s = tableShared := ht.s
  have hcode : (Run.writeElems { t with code := 0, detail := 0 } tableCfg.z tableCfg.gather
      ((tableCfg.base + 0) * ElemCfg.size tableCfg.z) (List.replicate 64 0) false).code = stBiasFault := by
    refine write_biasFault (home := 80) (a := tableBase - 20480) (ht.stop.trans rfl) rfl ?_ ?_ ?_
    · decide +kernel
    · show tableCfg.z.w.at t.s.moduleId t.die _ = _
      rw [hs, ht.die]
      decide +kernel
    · show t.s.meets t.die _ (some (.desc t.fid)) = _
      rw [hs, ht.die, ht.fid]
      exact meets_tableShared
  show (Run.code _ != 0) = true
  rw [hcode]
  rfl

theorem writable_table : Writable tableAhead 32 7 tableBase (bytesOf tableCfg.z [0x7F7FFFFF]) := by
  unfold Writable
  decide +kernel

/-- The groups are written after a second reading that the last group has no part in. -/
theorem leave_outs {t : Run} (ht : OnlyNotes tableStart t) : ∃ (u : Run) (s : State), (tableCfg.leave tableOuts t).1 = u ∧
    OnlyNotes (tableStart.onState s) u := by
  obtain ⟨v, hv, hall⟩ := leave_append tableCfg (hs := [(20480, [0x7F7FFFFF])]) write_tableGroup ht
  have hs : v.s = tableAhead := hv.s
  have hd : v.die = 32 := hv.die
  obtain ⟨hbytes, hsats⟩ : (bytesOf tableCfg.z [0x7F7FFFFF]).length = 1 ∧ satsOf (codesOf tableCfg.z [0x7F7FFFFF]) = 0 := by
    decide +kernel
  obtain ⟨u, hu, hnotes⟩ := meeting_writeElems (r := v) (o := tableCfg.z) (off := 20480) (xs := [0x7F7FFFFF]) tableCfg.gather
    (hv.stop.trans rfl) (hv.hint.trans rfl) (by rw [hs, hd]; exact at_table) (by rw [hbytes]; decide)
    (by rw [hbytes, show 20480 = 64 * 320 from rfl, chunk_z]; decide) (by rw [hs, hd, hv.fid]; exact writable_table)
  rw [hsats] at hnotes
  refine ⟨u, _, ?_, (hv.onState _).trans hnotes⟩
  rw [tableOuts, hall, ElemCfg.leave]
  obtain ⟨-, -, hz⟩ := off_table 20480
  simp only [hz, hu, Bool.false_eq_true, if_false]
  rfl

/-- The run meets no fault, and counts no saturation. -/
theorem run_table : ∃ s, OnlyNotes (tableStart.onState s) (tableCfg.run 64 0 none (cut 64 20481) tableStart) := by
  obtain ⟨ra, hra, hnotes⟩ := enterAll_table
  obtain ⟨rb, hrb, hb⟩ := enterAll_groups
  have htake : (cut 64 20481).take (255 + 64 + 1) = tableGroups := by
    rw [cut_table]
    exact List.take_left' (by decide +kernel)
  have hfresh : OnlyNotes tableStart { rb with stop := false, code := tableStart.code, detail := tableStart.detail } := by
    have hrun := congrArg (fun x : Run => { x with stop := false, code := tableStart.code, detail := tableStart.detail }) hb
    exact hrun
  obtain ⟨u, s, hu, hlast⟩ := leave_outs hfresh
  refine ⟨s, ?_⟩
  have hstop : ra.stop = false := hnotes.stop
  rw [run_of_firstFails _ hra hstop (by decide +kernel) (leave_shared (by rw [← hstop]; exact hnotes)), htake, hrb, hu]
  exact hlast

/-! ### The descriptor -/

theorem elemCfgOf_tableWork : elemCfgOf tableWork 0 = tableCfg := by
  have hx : tableWork.opnd 128 320 = tableCfg.x ∧ tableWork.opnd 192 352 = tableCfg.y ∧ tableWork.opnd 256 384 = tableCfg.z ∧
      dbit tableWork.desc 442 = true ∧ (dFmt tableWork.desc 384).gather = true ∧ (dFmt tableWork.desc 320).code = 4 := by decide +kernel
  obtain ⟨hx, hy, hz, hbeta, hgather, hcode⟩ := hx
  rw [elemCfgOf, hx, hy, hz, hbeta, hgather, hcode]
  rfl

theorem tableWork_share : shardPart (dfld tableWork.desc 439 416) (dShardN tableWork.desc) (dShardIx tableWork.desc) = (0, 20481) := by
  decide +kernel

theorem tableWork_started : Started 0x12 tableWork tableAhead := by
  unfold Started
  decide +kernel

theorem elementwiseRun_table : Served (tableAhead.elementwiseRun tableWork) ∧ (tableAhead.elementwiseRun tableWork).1.sat = 0 := by
  obtain ⟨s, hrun⟩ := run_table
  have hwidth : tableAhead.partWidth (hDie tableWork.target) (hSlot tableWork.target) = 64 := by decide +kernel
  have htarget : hDie tableWork.target = 32 ∧ hSlot tableWork.target = 0 := by decide +kernel
  obtain ⟨hstop, hfar, hext, hsat⟩ := elementwiseRun_fields (s := tableAhead) (parity := none) tableWork_share (by decide)
  rw [hwidth, elemCfgOf_tableWork, htarget.1, htarget.2] at hstop hfar hext hsat
  exact ⟨⟨hstop.trans hrun.stop, hfar.trans hrun.far, hext.trans hrun.ext⟩, hsat.trans hrun.sat⟩

/-- Every element lies in this module. -/
theorem places_tableWork : ∀ o ∈ [tableWork.opnd 128 320, tableWork.opnd 192 352, tableWork.opnd 256 384], o.fmt = .e4m3 ∧
    ∀ e < 20481, ∃ a, o.w.at tableAhead.moduleId (hDie tableWork.target) (e * (o.fmt.bits / 8)) = .here a := by
  have hx : tableWork.opnd 128 320 = tableCfg.x := congrArg ElemCfg.x elemCfgOf_tableWork
  have hy : tableWork.opnd 192 352 = tableCfg.x := congrArg ElemCfg.y elemCfgOf_tableWork
  have hz : tableWork.opnd 256 384 = tableCfg.z := congrArg ElemCfg.z elemCfgOf_tableWork
  have hdie : hDie tableWork.target = 32 := by decide +kernel
  have hsize : Fmt.e4m3.bits / 8 = 1 := rfl
  intro o ho
  rw [hx, hy, hz] at ho
  have hcases : o = tableCfg.x ∨ o = tableCfg.z := by simpa using ho
  rcases hcases with rfl | rfl
  · exact ⟨rfl, fun e he => ⟨_, by rw [hdie, show tableCfg.x.fmt = .e4m3 from rfl, hsize, Nat.mul_one]; exact at_wm32 (by omega)⟩⟩
  · exact ⟨rfl, fun e he => ⟨_, by rw [hdie, show tableCfg.z.fmt = .e4m3 from rfl, hsize, Nat.mul_one]; exact at_hd0 (by omega)⟩⟩

/-- Refutes O60: the sat_count and the status of ELEMENTWISE_FMA, of a descriptor whose last read saturates and sends home the line of
the bias table that codes its target. The model finds that the first group cannot be written, reads again the groups that had entered
by then, and writes them all; what saturated in the last group is counted no more. -/
theorem not_numberFormatsFollowR77 : ¬ Obligations.NumberFormatsFollowR77 := by
  rintro ⟨-, -, -, hall⟩
  obtain ⟨hserved, hsat⟩ := elementwiseRun_table
  obtain ⟨t, ht, -, g, hg, -, htotal, -⟩ := hall tableAhead tableWork tableWork_started hserved (fun o ho => by
    obtain ⟨hfmt, hplaces⟩ := places_tableWork o ho
    refine ⟨by simp [hfmt], by simp [hfmt], fun e _ he => ?_⟩
    rw [tableWork_share] at he
    obtain ⟨a, ha⟩ := hplaces e he
    beta_reduce
    rw [ha]
    rfl) (fun e _ _ i _ => rfl) (by rw [tableWork_share]; decide)
  obtain ⟨u, hu, hdone⟩ := answers_elementwiseFma tableWork_started hserved
  cases ht.symm.trans hu
  have hzero : g.res.sat = 0 := (hdone.sat hg).trans hsat
  rw [hzero, tableWork_share] at htotal
  have hlast := List.sum_eq_zero_iff_forall_eq_nat.1 htotal.symm _
    (List.mem_map_of_mem (List.mem_range.2 (by decide : 20480 < 20481 - 0)))
  exact absurd hlast (by decide +kernel)

end Sys2Proof
end

section
/-! SUPPORT. O14: the end of a matrix class, whose passes the descriptors started behind it go on from (R105, R114, R119, R121, R205). -/

namespace Sys2Proof

open Machine

/-- What a descriptor hands on of its passes leaves its run done. -/
theorem RunDone.passOn {f : Flight} {x : Run × Nat} {s t : State} (h : RunDone f x s t) (passes : List ((Nat × Nat) × Nat)) :
    RunDone f x s (t.passOn f passes) := by
  have hends : ∀ es : List PassEnd, RunDone f x s { t with passes := es } := fun _ => h
  unfold State.passOn
  split
  · exact h
  dsimp only
  split_ifs
  · exact hends _
  · exact hends _
  · exact h

/-- A run of a product or a convolution that nothing stops, with what follows it on the partition. -/
theorem runDone_matEnd {f : Flight} {x : Run × Nat} {s : State} (hf : s.flight f.fid = some f) (hx : Served x)
    (passes : List ((Nat × Nat) × Nat)) : RunDone f x s (((Run.ends x s f true).passOn f passes).matEnd f) :=
  ((runDone_ends true hf hx).passOn passes).matEnd

/-- Settles O14: each class ends with its run, which nothing stops; what its passes and its engine pair note follows. -/
theorem matrixClassesComplete : Obligations.MatrixClassesComplete := by
  intro s f errs
  refine ⟨fun h hx => ⟨_, congrArg Host.Outcome.next ?_, runDone_matEnd h.1 hx (s.matmulProduct f).placed⟩,
    fun h hx => ⟨_, congrArg Host.Outcome.next ?_, runDone_matEnd h.1 hx (s.mxProduct f).placed⟩,
    fun h hx => answers_elementwiseFma h hx,
    fun h hx => ⟨_, congrArg Host.Outcome.next ?_, runDone_matEnd h.1 hx
      (if (s.convCfg f).empty then [] else (s.convCfg f).beats.zip (s.convCfg f).passes)⟩⟩
  · simp only [h.1, h.runs, if_true, State.matmul]
  · simp only [h.1, h.runs, if_true, State.matmulMx]
  · simp only [h.1, h.runs, if_true, State.conv]

end Sys2Proof
end

section
/-! SUPPORT. O23: a run that waits for an answer from outside the module's memory goes on waiting, whatever it reads and writes
(R107, R366). -/

namespace Sys2Proof.Machine

/-- The run waits for an external host, or for the initialisation of working memory. -/
def Run.Waits (r : Run) : Prop := r.ext ≠ []

/-- A run whose sources wait for no initialisation of working memory is as it was. -/
theorem Run.wmWait_eq {r : Run} (h : ¬ r.wmWait.Waits) : r.wmWait = r := by
  unfold Run.wmWait at h ⊢
  split
  · next hinit =>
      rw [if_pos hinit] at h
      exact absurd (by simp [Run.Waits]) h
  · rfl

namespace Run.Waits

variable {r q : Run} {x : MatRun}

theorem ite {c : Prop} {_ : Decidable c} (h : r.Waits) (k : q.Waits) : (if c then r else q).Waits := by
  split <;> assumption
theorem fst_ite {α : Type} {y z : Run × α} {c : Prop} {_ : Decidable c} (h : y.1.Waits) (k : z.1.Waits) :
    (if c then y else z).1.Waits := by
  split <;> assumption
theorem run_ite {y z : MatRun} {c : Prop} {_ : Decidable c} (h : y.r.Waits) (k : z.r.Waits) : (if c then y else z).r.Waits := by
  split <;> assumption
theorem run_foldl {β : Type} {f : MatRun → β → MatRun} (h : x.r.Waits) (hf : ∀ y b, y.r.Waits → (f y b).r.Waits) (l : List β) :
    (l.foldl f x).r.Waits :=
  List.foldlRecOn (motive := fun y => y.r.Waits) l f h fun y hy b _ => hf y b hy
theorem of_fst {α : Type} {y : Run × α} {a : α} (e : y = (r, a)) (h : y.1.Waits) : r.Waits := by rw [e] at h; exact h

theorem of_ext (h : r.Waits) (e : q.ext = r.ext := by rfl) : q.Waits := fun hq => h (e.symm.trans hq)
theorem withState (h : r.Waits) (s : State) : ({ r with s := s } : Run).Waits := h
theorem stopped (h : r.Waits) : ({ r with stop := true } : Run).Waits := h
theorem more (p : Nat × Nat) : ({ r with ext := r.ext ++ [p] } : Run).Waits := by simp [Run.Waits]

theorem raise (h : r.Waits) (code : Nat) (detail : Word) : (r.raise code detail).Waits := .ite h h
theorem raiseLog (h : r.Waits) (code die : Nat) (kind : LogKind) (a : Nat) (acc : LogAcc) :
    (r.raiseLog code die kind a acc).Waits := .raise (r := { r with s := r.s.log die kind a 0 (.desc r.fid) acc }) h _ _

theorem miss (h : r.Waits) (m : Miss) (a : Nat) (acc : LogAcc) : (r.miss m a acc).Waits := by
  have hstop : ({ r with stop := true } : Run).Waits := h
  cases m with
  | addr d k => exact hstop.raiseLog _ _ _ _ _
  | bias d => exact hstop.raiseLog _ _ _ _ _
  | course => exact hstop.raiseLog _ _ _ _ _
  | lost d => exact hstop.raise _ _
  | flow f => exact hstop.raise _ _
  | remote c f detail =>
    refine .ite (hstop.raise _ _) ?_
    cases detail with
    | some d => exact hstop.raise _ _
    | none => exact .raise (r := { r with stop := true, s := r.s.freeWord.2 }) h _ _

theorem poisoned (h : r.Waits) (a : Nat) (acc : LogAcc) : (r.poisoned a acc).Waits := .ite (h.raise _ _) (h.raiseLog _ _ _ _ _)

theorem answered (h : r.Waits) (a : Nat) (acc : LogAcc) : (r.answered a acc).Waits := by
  unfold Run.answered
  dsimp only
  split
  · exact .miss (.of_ext h) _ _ _
  · exact .of_ext h

theorem addSat (h : r.Waits) (n : Nat) : (r.addSat n).Waits := h
theorem gatherInto (h : r.Waits) (fw : FmtWord) : (r.gatherInto fw).Waits := .ite h h
theorem maxes (h : r.Waits) (xs : List Word) : (r.maxes xs).Waits := h

theorem farRead (h : r.Waits) (m a : Nat) (acc : LogAcc) : (r.farRead m a acc).1.Waits := by
  unfold Run.farRead
  split
  · exact .fst_ite (h.miss _ _ _) (show Run.Waits (if _ then _ else _) from .ite (h.raise _ _) h)
  split
  · exact h
  split
  · exact h.miss _ _ _
  · exact h

theorem readLine (h : r.Waits) (p : Place) (n : Nat) : (r.readLine p n).1.Waits := by
  unfold Run.readLine
  split
  · exact h.miss _ _ _
  · next a =>
      split
      · exact h.miss _ _ _
      split
      · exact .more _
      · have hread := answered (r := { r with s := r.s.shareCopies (a / 64) }) h a .read
        exact .fst_ite hread (.ite (hread.poisoned _ _) hread)
  · split
    · next e => exact .of_fst e (h.farRead _ _ _)
    · next e => exact .of_fst e (h.farRead _ _ _)

theorem readRun (h : r.Waits) (w : AddrWord) (off n fuel : Nat) : (r.readRun w off n fuel).1.Waits := by
  induction fuel generalizing r off n with
  | zero => exact h
  | succ fuel ih =>
    have hline := h.readLine (w.at r.s.moduleId r.die off) (min n (chunk w off))
    exact .fst_ite h (.fst_ite hline (ih hline _ _))

theorem read (h : r.Waits) (w : AddrWord) (off n : Nat) : (r.read w off n).1.Waits := h.readRun _ _ _ _

theorem readElems (h : r.Waits) (o : Opnd) (off n : Nat) : (r.readElems o off n).1.Waits :=
  addSat (h.read _ _ _) _

theorem sendWrite (h : r.Waits) (f m a : Nat) (before bs : List Byte) (mark : Bool) : (r.sendWrite f m a before bs mark).Waits := h

theorem writeLine (h : r.Waits) (p : Place) (bs : List Byte) (mark : Bool) : (r.writeLine p bs mark).Waits := by
  unfold Run.writeLine
  split
  · exact h.miss _ _ _
  · split
    · exact h.miss _ _ _
    split
    · exact .more _
    · exact .answered (.ite (.poisoned (.of_ext h) _ _) (.of_ext h)) _ _
  · split
    · split
      · exact h.miss _ _ _
      · exact .sendWrite (.ite (h.raise _ _) h) _ _ _ _ _ _
    split
    · next e => exact .of_fst e (h.farRead _ _ _)
    · next e =>
        have hread := of_fst e (h.farRead _ _ _)
        split
        · exact hread.miss _ _ _
        · exact .sendWrite (.ite (hread.raise _ _) hread) _ _ _ _ _ _

theorem writeRun (h : r.Waits) (w : AddrWord) (off : Nat) (bs : List Byte) (mark : Bool) (fuel : Nat) :
    (r.writeRun w off bs mark fuel).Waits := by
  induction fuel generalizing r off bs with
  | zero => exact h
  | succ fuel ih =>
    have hline := h.writeLine (w.at r.s.moduleId r.die off) (bs.take (chunk w off)) mark
    exact .ite h (.ite hline (ih hline _ _))

/-- A group of elements written, in a step that notes whether it met a fault. -/
theorem meeting_writeElems (h : r.Waits) (o : Opnd) (gather : Bool) (off : Nat) (xs : List Word) (mark : Bool) :
    (r.meeting fun r => r.writeElems o gather off xs mark).1.Waits := by
  have hwrite : (Run.writeElems { r with code := 0, detail := 0 } o gather off xs mark).Waits :=
    .writeRun (.ite (.maxes (.addSat (.of_ext h) _) _) (.addSat (.of_ext h) _)) _ _ _ _ _
  exact .ite hwrite (.of_ext hwrite)

/-! ### Drains (R115, R126, R206) -/

theorem drainMeets (h : r.Waits) (p : Product) (ix : Nat) (cells : List (Nat × Nat)) : (p.drainMeets ix cells r).1.Waits :=
  .fst_ite (.poisoned (.of_ext h) _ _) (.of_ext h)

theorem drainRow (h : x.r.Waits) (p : Product) (d : Dest) (b nt : Nat × Nat) (ix beat i : Nat) :
    (p.drainRow d b nt ix beat x i).r.Waits := by
  refine .run_ite h ?_
  dsimp only
  generalize hread : (if d.beta = 0 then _ else _ : Run × List Word × Bool) = y
  have hy : y.1.Waits := hread ▸ .fst_ite (h.drainMeets _ _ _) ((h.drainMeets _ _ _).readElems _ _ _)
  exact .run_ite hy (.run_ite (hy.meeting_writeElems _ _ _ _ _) (hy.meeting_writeElems _ _ _ _ _))

theorem go (h : x.r.Waits) (p : Product) (dst : Option Dest) (aVal wVal : Nat → Nat → Word) (fault : Option SrcFault) :
    (p.go dst aVal wVal fault x).r.Waits := by
  refine .run_foldl h (fun y u hy => .run_ite hy ?_) _
  dsimp only
  split
  · exact hy
  · exact .run_foldl (.of_ext hy) (fun z i hz => hz.drainRow _ _ _ _ _ _ _) _

theorem convDrain (h : x.r.Waits) (c : ConvCfg) (q : Nat) (b nt : Nat × Nat) (ix beat : Nat) (run : List (Nat × Nat) × Nat) :
    (c.drain q b nt ix beat x run).r.Waits := by
  unfold ConvCfg.drain
  dsimp only
  split
  · exact h
  · refine .run_ite h ?_
    generalize hread : (if c.beta = 0 then _ else _ : Run × List Word × Bool) = y
    have hy : y.1.Waits := hread ▸ .fst_ite (h.drainMeets _ _ _) ((h.drainMeets _ _ _).readElems _ _ _)
    exact .run_ite hy (.run_ite (hy.meeting_writeElems _ _ _ _ _) (hy.meeting_writeElems _ _ _ _ _))

theorem convGo (h : x.r.Waits) (c : ConvCfg) (fault : Option SrcFault) : (c.go fault x).r.Waits :=
  .run_foldl h (fun _ _ hy => .run_ite hy (.run_foldl (.of_ext hy) (fun _ _ hz => hz.convDrain _ _ _ _ _ _ _) _)) _

/-! ### A whole product, and a whole convolution -/

theorem source (h : r.Waits) (ep : Nat) (e : SrcBad) : (r.source ep e).Waits := by
  cases e with
  | miss m a => exact h.miss _ _ _
  | poison a => exact h.poisoned _ _
  | parity => exact h.raiseLog _ _ _ _ _

theorem productRun (h : r.Waits) (p : Product) (dst : Option Dest) (aVal wVal : Nat → Nat → Word) (fault : Option SrcFault) :
    (p.run dst aVal wVal fault r).1.Waits := by
  unfold Product.run
  extract_lets x stop r₀ r₁ r₂ r₃
  have hx : x.r.Waits := go (x := ⟨r, none⟩) h _ _ _ _ _
  have h₁ : r₁.Waits := .ite (hx.withState _) hx
  have h₃ : r₃.Waits := by
    simp only [r₃]
    split
    · exact .source (h₁.withState _) _ _
    · exact h₁.withState _
  exact .ite h₃.stopped h₃

end Run.Waits

end Sys2Proof.Machine
end

section
/-! SUPPORT. O23: the run of a matrix descriptor whose partition's weight registers read with a parity error at its first beat
(R126). -/

namespace Sys2Proof

open Machine

/-! ### What an engine pair leaves of a state as it executes -/

/-- A state with the registers, the tile buffers, the weights, the passes, the free values and the waiting accesses of another. -/
def Machine.State.withEngineOf (t s : State) : State :=
  { t with regs := s.regs, tb := s.tb, tbMarks := s.tbMarks, wAct := s.wAct, wShd := s.wShd, passes := s.passes, free := s.free,
           fab := s.fab, pcie := s.pcie, answered := s.answered }

/-- Nothing changes but these. -/
def OnlyEngine (s t : State) : Prop := t.withEngineOf s = s

namespace OnlyEngine

variable {s t u : State}

theorem refl (s : State) : OnlyEngine s s := rfl

theorem trans (h : OnlyEngine s t) (k : OnlyEngine t u) : OnlyEngine s u := by
  have hk : u.withEngineOf s = t.withEngineOf s := congrArg (·.withEngineOf s) k
  exact hk.trans h

theorem ite {c : Prop} [Decidable c] (h : OnlyEngine s t) (k : OnlyEngine s u) : OnlyEngine s (if c then t else u) := by
  split
  · exact h
  · exact k

theorem foldl {β : Type} {f : State → β → State} (hf : ∀ s x, OnlyEngine s (f s x)) (l : List β) (s : State) :
    OnlyEngine s (l.foldl f s) := by
  induction l generalizing s with
  | nil => exact .refl s
  | cons x l ih => exact (hf s x).trans (ih _)

theorem mem (h : OnlyEngine s t) : t.mem = s.mem := congrArg (·.mem) h
theorem host (h : OnlyEngine s t) : t.host = s.host := congrArg (·.host) h
theorem poison (h : OnlyEngine s t) : t.poison = s.poison := congrArg (·.poison) h
theorem flog (h : OnlyEngine s t) : t.flog = s.flog := congrArg (·.flog) h
theorem flights (h : OnlyEngine s t) : t.flights = s.flights := congrArg (·.flights) h
theorem flight (h : OnlyEngine s t) (i : Nat) : t.flight i = s.flight i := by unfold State.flight; rw [h.flights]

theorem log (h : OnlyEngine s t) (die : Nat) (kind : LogKind) (a info : Nat) (who : LogBy) :
    OnlyEngine (s.log die kind a info who) (t.log die kind a info who) :=
  congrArg (fun v : State => v.log die kind a info who) h

theorem setFlight (h : OnlyEngine s t) (g : Flight) : OnlyEngine (s.setFlight g) (t.setFlight g) :=
  congrArg (fun v : State => v.setFlight g) h

theorem tbMark (s : State) (die ep b row lo hi : Nat) : OnlyEngine s (s.tbMark die ep b row lo hi) := rfl
theorem vePoisonBit (s : State) (die ep : Nat) : OnlyEngine s (s.vePoisonBit die ep) := rfl

theorem scramble (p : Product) (s : State) : OnlyEngine s (p.scramble s) := by
  refine .trans (t := (List.range (min p.rows p.m)).foldl _ s) (.foldl (fun s i => ?_) _ s) rfl
  rfl

end OnlyEngine

/-! ### The run at a parity error -/

/-- A run with the saturations, the maximum and the merges of another. -/
def Machine.Run.withTotalsOf (t r : Run) : Run := { t with sat := r.sat, rm := r.rm, merges := r.merges }

/-- Nothing changes but these. -/
def OnlyTotals (r t : Run) : Prop := t.withTotalsOf r = r

namespace OnlyTotals

variable {r t u : Run}

theorem refl (r : Run) : OnlyTotals r r := rfl

theorem trans (h : OnlyTotals r t) (k : OnlyTotals t u) : OnlyTotals r u := by
  have hk : u.withTotalsOf r = t.withTotalsOf r := congrArg (·.withTotalsOf r) k
  exact hk.trans h

theorem ite {c : Prop} [Decidable c] (h : OnlyTotals r t) (k : OnlyTotals r u) : OnlyTotals r (if c then t else u) := by
  split
  · exact h
  · exact k

theorem stop (h : OnlyTotals r t) : t.stop = r.stop := congrArg (·.stop) h
theorem ext (h : OnlyTotals r t) : t.ext = r.ext := congrArg (·.ext) h

theorem addSat (h : OnlyTotals r t) (n : Nat) : OnlyTotals r (t.addSat n) := h
theorem maxes (h : OnlyTotals r t) (xs : List Word) : OnlyTotals r (t.maxes xs) := h
theorem gatherInto (h : OnlyTotals r t) (fw : FmtWord) : OnlyTotals r (t.gatherInto fw) := .ite h h

end OnlyTotals

/-- The partition used no weight before it met a parity error of a weight register; nothing else has happened. -/
def MetParity (s : State) (f : Flight) (x : Run) : Prop :=
  ∃ u, OnlyEngine s u ∧ OnlyTotals ((Run.start u (hDie f.target) f.fid).source (hSlot f.target) .parity) x

theorem stopBeat_eq_none {fault : Option SrcFault} {halt : Option Nat} (h : stopBeat fault halt = none) :
    fault = none ∧ halt = none := by
  cases halt with
  | none => cases fault with
    | none => exact ⟨rfl, rfl⟩
    | some e => cases h
  | some b =>
    unfold stopBeat at h
    split at h <;> cases h

/-- A partition that did not stop met no fault, at its sources or in its drain. -/
theorem stop_eq_none {stop : Option Nat} {r : Run} (h : (if stop.isSome then { r with stop := true } else r).stop = false) :
    stop = none := by
  cases stop with
  | none => rfl
  | some b => cases h

theorem withParity_none (fault : Option SrcFault) : withParity none [] fault = fault := by cases fault <;> rfl

theorem withParity_some (beat : Nat) : withParity (some beat) [] none = some (beat, .parity) := rfl

theorem cut_ne_nil {r n : Nat} (h : n ≠ 0) : cut r n ≠ [] := by
  obtain ⟨m, rfl⟩ := Nat.exists_eq_succ_of_ne_zero h
  simp [cut, pieces]

section
variable {p : Product} {dst : Option Dest} {aVal wVal : Nat → Nat → Word} {fault : Option SrcFault} {r : Run}

theorem laneFaults_nil (h : p.errs = []) (ps : List Pass) : p.laneFaults ps = [] := by simp [Product.laneFaults, h]

theorem lanesMet_nil (h : p.errs = []) (ps : List Pass) (stop : Option Nat) (s : State) (fid : Nat) : p.lanesMet ps stop s fid = s := by
  simp [Product.lanesMet, h]

/-- No drain begins before the sums of a pass have left the columns (R104). -/
theorem one_lt_drainBeat (hk : p.k ≠ 0) (u : Nat) : 1 < p.drainBeat u := by
  have hcut : (cut p.ktile p.k).length ≠ 0 := by simpa using cut_ne_nil hk
  unfold Product.drainBeat
  simp only [hcut, if_false]
  omega

theorem go_parity (hk : p.k ≠ 0) (x : MatRun) : p.go dst aVal wVal (some (1, .parity)) x = x := by
  unfold Product.go
  refine List.foldl_fixed' (fun u => ?_) _
  exact if_pos (by simp [one_lt_drainBeat hk])

/-- A product that no fault stops met none at its sources. -/
theorem fault_of_productRun (h : (p.run dst aVal wVal fault r).1.stop = false) : fault = none := by
  unfold Product.run at h
  extract_lets x stop r₁ r₂ r₃ at h
  exact (stopBeat_eq_none (stop_eq_none h)).1

theorem productRun_parity (hk : p.k ≠ 0) (herrs : p.errs = []) : ∃ u, OnlyEngine r.s u ∧
    (p.run dst aVal wVal (some (1, .parity)) r).1 = Run.source { r with s := u } p.ep .parity := by
  refine ⟨if p.keep then r.s else p.scramble r.s, .ite (.refl _) (.scramble _ _), ?_⟩
  have hmet : metFault (some (1, .parity)) none = some (1, .parity) := rfl
  have hstop : stopBeat (some (1, .parity)) none = some 1 := rfl
  unfold Product.run
  simp only [go_parity hk, lanesMet_nil herrs, hmet, hstop, Option.isSome_some, Bool.true_and, if_true]
  cases p.keep <;> rfl

end

/-! ### The matrix classes at a parity error -/

section
variable {s : State} {f : Flight}

/-- A run that stops at a parity error is not the one that is served without. -/
theorem ne_of_met {x y : Run × Nat} (hserved : Served x) (hmet : y.1.stop = true) : y ≠ x := by
  rintro rfl
  rw [hserved.1] at hmet
  cases hmet

/-- A run whose product, but for a parity error at its first beat, is served. -/
theorem metParity_of_productRun {p : Product} {dst : Option Dest} {aVal wVal : Nat → Nat → Word} {fault : Option SrcFault}
    {x : Option Nat → Run} (hep : p.ep = hSlot f.target) (herrs : p.errs = [])
    (hx : ∀ parity, let r := Run.start s (hDie f.target) f.fid
      OnlyTotals (p.run dst aVal wVal (withParity (if p.k = 0 then none else parity) (p.laneFaults p.schedule) fault)
        (if p.k = 0 then r else r.wmWait)).1 (x parity))
    (hstop : (x none).stop = false) (hext : (x none).ext = []) (hmet : (x (some 1)).stop = true) : MetParity s f (x (some 1)) := by
  have hnone := hx none
  have hsome := hx (some 1)
  by_cases hk : p.k = 0
  · simp only [hk, if_true] at hnone hsome
    rw [hsome.stop, ← hnone.stop, hstop] at hmet
    cases hmet
  · simp only [hk, if_false, laneFaults_nil herrs, withParity_none] at hnone hsome
    have hfault : fault = none := fault_of_productRun (hnone.stop.symm.trans hstop)
    have hwait : (Run.start s (hDie f.target) f.fid).wmWait = Run.start s (hDie f.target) f.fid :=
      Run.wmWait_eq fun hw => hw.productRun p dst aVal wVal fault (hnone.ext.symm.trans hext)
    rw [hfault, withParity_some, hwait] at hsome
    obtain ⟨u, hu, hrun⟩ := productRun_parity (dst := dst) (aVal := aVal) (wVal := wVal)
      (r := Run.start s (hDie f.target) f.fid) hk herrs
    rw [hrun, hep] at hsome
    exact ⟨u, hu, hsome⟩

/-- The runs of class 0x10 are those of its product, but for what they count and gather. -/
theorem matmulRun_eq (h : ¬ ((s.matmulProduct f).m = 0 ∨ (s.matmulProduct f).n = 0)) : ∃ dst aVal wVal fault, ∀ parity,
    let p := s.matmulProduct f
    let r := Run.start s (hDie f.target) f.fid
    OnlyTotals (p.run dst aVal wVal (withParity (if p.k = 0 then none else parity) (p.laneFaults p.schedule) fault)
      (if p.k = 0 then r else r.wmWait)).1 (s.matmulRun f parity).1 := by
  have hgathers : ∀ {r t : Run} {a b : FmtWord} {c d : Prop} {_ : Decidable c} {_ : Decidable d}, OnlyTotals r t →
      OnlyTotals r (if d then (if c then t.gatherInto a else t).gatherInto b else if c then t.gatherInto a else t) :=
    fun h => .ite (.gatherInto (.ite (h.gatherInto _) h) _) (.ite (h.gatherInto _) h)
  iterate 4 apply Exists.intro
  intro parity
  dsimp only [State.matmulRun]
  rw [if_neg h]
  exact hgathers (.ite (.maxes (.addSat (.refl _) _) _) (.addSat (.refl _) _))

theorem metParity_matmulRun (hserved : Served (s.matmulRun f none)) (hmet : (s.matmulRun f (some 1)).1.stop = true) :
    MetParity s f (s.matmulRun f (some 1)).1 := by
  by_cases hempty : (s.matmulProduct f).m = 0 ∨ (s.matmulProduct f).n = 0
  · refine absurd ?_ (ne_of_met hserved hmet)
    dsimp only [State.matmulRun]
    rw [if_pos hempty, if_pos hempty]
  · obtain ⟨dst, aVal, wVal, fault, hx⟩ := matmulRun_eq hempty
    obtain ⟨hstop, -, hext⟩ := hserved
    exact metParity_of_productRun rfl rfl hx hstop hext hmet

/-- The runs of class 0x11 are those of its product, but for what they count. -/
theorem matmulMxRun_eq (h : ¬ ((s.mxProduct f).m = 0 ∨ (s.mxProduct f).n = 0)) : ∃ dst aVal wVal fault, ∀ parity,
    let p := s.mxProduct f
    let r := Run.start s (hDie f.target) f.fid
    OnlyTotals (p.run dst aVal wVal (withParity (if p.k = 0 then none else parity) (p.laneFaults p.schedule) fault)
      (if p.k = 0 then r else r.wmWait)).1 (s.matmulMxRun f parity).1 := by
  iterate 4 apply Exists.intro
  intro parity
  dsimp only [State.matmulMxRun]
  rw [if_neg h]
  exact .addSat (.refl _) _

theorem metParity_matmulMxRun (hserved : Served (s.matmulMxRun f none)) (hmet : (s.matmulMxRun f (some 1)).1.stop = true) :
    MetParity s f (s.matmulMxRun f (some 1)).1 := by
  by_cases hempty : (s.mxProduct f).m = 0 ∨ (s.mxProduct f).n = 0
  · refine absurd ?_ (ne_of_met hserved hmet)
    dsimp only [State.matmulMxRun]
    rw [if_pos hempty, if_pos hempty]
  · obtain ⟨dst, aVal, wVal, fault, hx⟩ := matmulMxRun_eq hempty
    obtain ⟨hstop, -, hext⟩ := hserved
    exact metParity_of_productRun rfl rfl hx hstop hext hmet

/-- No group of a class 0x12 descriptor enters at the first beat when the weight registers read with a parity error there. -/
theorem elemRun_parity (c : ElemCfg) (w ep : Nat) (groups : List (Nat × Nat)) {r : Run} (hs : r.stop = false) :
    c.run w ep (some 1) groups r = r.source ep .parity := by
  have hlate : ¬ groups.length + 255 < 1 := by omega
  unfold ElemCfg.run ElemCfg.enterUntil
  simp only [hlate, if_false, Nat.sub_self, List.take_zero, ElemCfg.enterAll, hs, Bool.false_eq_true, List.length_nil,
    Nat.zero_sub, ite_self, ElemCfg.leave, Nat.lt_irrefl]

theorem metParity_elementwiseRun (hserved : Served (s.elementwiseRun f none)) (hmet : (s.elementwiseRun f (some 1)).1.stop = true) :
    MetParity s f (s.elementwiseRun f (some 1)).1 := by
  rcases hshare : shardPart (dfld f.desc 439 416) (dShardN f.desc) (dShardIx f.desc) with ⟨first, last⟩
  by_cases hempty : last - first = 0
  · refine absurd ?_ (ne_of_met hserved hmet)
    simp only [State.elementwiseRun, hshare, if_pos hempty]
  · let cells := s.diagCells (hDie f.target) (hSlot f.target) (matPart f.desc) (s.partWidth (hDie f.target) (hSlot f.target))
      (f.opnd 192 352) first (cut (s.partWidth (hDie f.target) (hSlot f.target)) (last - first))
    refine ⟨s.loadActive cells, rfl, ?_⟩
    simp only [State.elementwiseRun, hshare, if_neg hempty, elemRun_parity _ _ _ _ (show (Run.start s _ _).stop = false from rfl)]
    exact .gatherInto (.refl _) _

/-! ### Class 0x40 at a parity error -/

/-- The units of a convolution leave the run as it is when the weight registers read with a parity error at the first beat. -/
theorem convGo_parity (c : ConvCfg) (x : MatRun) : c.go (some (1, .parity)) x = x := by
  have hlate : ∀ u, 1 < c.drainBeat u := fun u => by
    unfold ConvCfg.drainBeat
    split
    omega
  unfold ConvCfg.go
  refine List.foldl_fixed' (fun u => ?_) _
  exact if_pos (by simp [hlate])

section
variable (hempty : ¬ (s.convCfg f).empty = true)
include hempty

/-- A convolution that no fault stops met none at its sources. -/
theorem firstFault_of_convRun (h : (s.convRun f none).1.stop = false) : (s.convCfg f).firstFault = none := by
  unfold State.convRun at h
  extract_lets fo c r₀ fault x stop r₁ r₂ r₃ r₄ r₅ at h
  rw [if_neg hempty] at h
  have h₅ : r₅.stop = false := (OnlyTotals.gatherInto (.refl r₅) fo).stop.symm.trans h
  have hfault : fault = c.firstFault := by
    simp only [fault, laneFaults_nil (show c.p.errs = [] from rfl), withParity_none]
  exact hfault ▸ (stopBeat_eq_none (stop_eq_none h₅)).1

/-- A convolution whose sources wait goes on waiting. -/
theorem waits_convRun (h : ((Run.start s (hDie f.target) f.fid).addSat f.convPad.2).wmWait.Waits) :
    (s.convRun f none).1.Waits := by
  unfold State.convRun
  extract_lets fo c r₀ fault x stop r₁ r₂ r₃ r₄ r₅
  rw [if_neg hempty]
  have hx : x.r.Waits := .convGo (x := ⟨(r₀.addSat f.convPad.2).wmWait, none⟩) h c fault
  have h₁ : r₁.Waits := hx.addSat _
  have h₂ : r₂.Waits := .ite (h₁.withState _) h₁
  have h₄ : r₄.Waits := by
    simp only [r₄]
    split
    · exact .source (h₂.withState _) _ _
    · exact h₂.withState _
  have h₅ : r₅.Waits := .ite h₄.stopped h₄
  exact h₅.gatherInto fo

/-- A convolution that would be served, but for a parity error at its first beat. -/
theorem convRun_parity (hfirst : (s.convCfg f).firstFault = none)
    (hwait : ((Run.start s (hDie f.target) f.fid).addSat f.convPad.2).wmWait =
      (Run.start s (hDie f.target) f.fid).addSat f.convPad.2) : MetParity s f (s.convRun f (some 1)).1 := by
  unfold State.convRun
  extract_lets fo c r₀ fault x stop r₁ r₂ r₃ r₄ r₅
  rw [if_neg hempty]
  have herrs : c.p.errs = [] := rfl
  have hfault : fault = some (1, .parity) := by
    simp only [fault, laneFaults_nil herrs, c, hfirst, withParity_some]
  have hx : x = ⟨r₀.addSat f.convPad.2, none⟩ := by
    simp only [x, hfault, convGo_parity]
    exact congrArg (MatRun.mk · none) hwait
  have hstop : stop = some 1 := by
    simp only [stop, hfault, hx]
    rfl
  have hmet : metFault fault x.halt = some (1, .parity) := by
    rw [hfault, hx]
    rfl
  have h₃ : r₃ = { r₀ with s := c.p.scramble s, sat := r₀.sat + f.convPad.2 + c.sats stop } := by
    simp only [r₃, r₂, r₁, hstop, hx, lanesMet_nil herrs, Option.isSome_some, if_true]
    rfl
  have h₅ : r₅ = { r₃.source c.p.ep .parity with stop := true } := by
    simp only [r₅, r₄, hmet, hstop, Option.isSome_some, if_true]
  have htotals : OnlyTotals ((Run.start (c.p.scramble s) (hDie f.target) f.fid).source (hSlot f.target) .parity) r₅ := by
    rw [h₅, h₃]
    rfl
  exact ⟨c.p.scramble s, .scramble _ _, htotals.gatherInto fo⟩

end

theorem metParity_convRun (hserved : Served (s.convRun f none)) (hmet : (s.convRun f (some 1)).1.stop = true) :
    MetParity s f (s.convRun f (some 1)).1 := by
  by_cases hempty : (s.convCfg f).empty = true
  · refine absurd ?_ (ne_of_met hserved hmet)
    dsimp only [State.convRun]
    rw [if_pos hempty, if_pos hempty]
  · obtain ⟨hstop, -, hext⟩ := hserved
    exact convRun_parity hempty (firstFault_of_convRun hempty hstop)
      (Run.wmWait_eq fun hw => waits_convRun hempty hw hext)

/-- The run of a matrix descriptor, by its class. -/
def Machine.State.arrayRun (s : State) (f : Flight) (parity : Option Nat) : Run × Nat :=
  if dClass f.desc = 0x10 then s.matmulRun f parity
  else if dClass f.desc = 0x11 then s.matmulMxRun f parity
  else if dClass f.desc = 0x12 then s.elementwiseRun f parity else s.convRun f parity

theorem parityFault_eq (s : State) (f : Flight) (beat : Nat) : s.parityFault f beat =
    if (s.arrayRun f (some beat)).1.stop then ((Run.ends (s.arrayRun f (some beat)) s f true).matEnd f).partitionActs f.fid
    else s := rfl

/-- A descriptor that would be served, and stops at a parity error at its first beat, has met nothing else. -/
theorem metParity_arrayRun (hserved : Served (s.arrayRun f none)) (hmet : (s.arrayRun f (some 1)).1.stop = true) :
    MetParity s f (s.arrayRun f (some 1)).1 := by
  unfold State.arrayRun at hserved hmet ⊢
  split_ifs at hserved hmet ⊢
  · exact metParity_matmulRun hserved hmet
  · exact metParity_matmulMxRun hserved hmet
  · exact metParity_elementwiseRun hserved hmet
  · exact metParity_convRun hserved hmet

end

end Sys2Proof
end

section
/-! SUPPORT. O23: what a partition that stopped at a fault clears, poisons and reports (R123, R126). -/

namespace Sys2Proof

open Machine

/-! ### Registers of an engine pair and of a mover -/

section
variable {die ep j n : Nat}

theorem regAlias_maStatus (h : ep < 6) : regAlias (Reg.maStatus die ep) = Reg.maStatus die ep := by
  rw [Reg.maStatus, Nat.add_assoc]; exact regAlias_setupBase (by omega)
theorem regAlias_maFault (h : ep < 6) (hj : j < 4) : regAlias (Reg.maFault die ep j) = Reg.maFault die ep j := by
  rw [Reg.maFault, Nat.add_assoc, Nat.add_assoc]; exact regAlias_setupBase (by omega)
theorem regAlias_maFaultIx (h : ep < 6) (hj : j < 4) : regAlias (Reg.maFaultIx die ep j) = Reg.maFaultIx die ep j := by
  rw [Reg.maFaultIx, Nat.add_assoc, Nat.add_assoc]; exact regAlias_setupBase (by omega)
theorem regAlias_veFault (h : ep < 6) : regAlias (Reg.veFault die ep) = Reg.veFault die ep := by
  rw [Reg.veFault, Nat.add_assoc]; exact regAlias_setupBase (by omega)
theorem regAlias_veFaultIx (h : ep < 6) : regAlias (Reg.veFaultIx die ep) = Reg.veFaultIx die ep := by
  rw [Reg.veFaultIx, Nat.add_assoc]; exact regAlias_setupBase (by omega)
theorem regAlias_mvFault (h : n < 4) : regAlias (Reg.mvFault die n) = Reg.mvFault die n := by
  rw [Reg.mvFault, Nat.add_assoc]; exact regAlias_setupBase (by omega)
theorem regAlias_mvFaultIx (h : n < 4) : regAlias (Reg.mvFaultIx die n) = Reg.mvFaultIx die n := by
  rw [Reg.mvFaultIx, Nat.add_assoc]; exact regAlias_setupBase (by omega)

end

theorem matPart_lt (d : Desc) : matPart d < 4 := by
  unfold matPart dfld
  split_ifs <;> exact Nat.mod_lt _ (by decide)

/-- What a partition's fault registers read once it has reported a fault, and the other flags of its engine pair. -/
theorem maFaultSet_reads (s : State) {die ep j status : Nat} (index : Word) (he : ep < 6) (hj : j < 4) (hst : status < 256) :
    let t := s.maFaultSet die ep j status index
    t.flag (Reg.maStatus die ep) j = true ∧ t.fld (Reg.maFault die ep j) 7 0 = status ∧ t.reg (Reg.maFaultIx die ep j) = index ∧
      ∀ i, i < 32 → i ≠ j → t.flag (Reg.maStatus die ep) i = s.flag (Reg.maStatus die ep) i := by
  intro t
  have hs : regAlias (Reg.maStatus die ep) = Reg.maStatus die ep := regAlias_maStatus he
  have hf : regAlias (Reg.maFault die ep j) = Reg.maFault die ep j := regAlias_maFault he hj
  have hx : regAlias (Reg.maFaultIx die ep j) = Reg.maFaultIx die ep j := regAlias_maFaultIx he hj
  have hsf : Reg.maStatus die ep ≠ Reg.maFault die ep j := by unfold Reg.maStatus Reg.maFault; omega
  have hsx : Reg.maStatus die ep ≠ Reg.maFaultIx die ep j := by unfold Reg.maStatus Reg.maFaultIx; omega
  have hfx : Reg.maFault die ep j ≠ Reg.maFaultIx die ep j := by unfold Reg.maFault Reg.maFaultIx; omega
  let u := (s.setReg (Reg.maFault die ep j) (BitVec.ofNat 32 status)).setReg (Reg.maFaultIx die ep j) index
  refine ⟨State.flag_setFlag_same u _ _ _ hs (by omega), ?_, ?_, fun i hi hij => ?_⟩
  · have hreg : t.reg (Reg.maFault die ep j) = BitVec.ofNat 32 status := by
      rw [show t = u.setFlag (Reg.maStatus die ep) j true from rfl, State.setFlag, State.reg_putFld, if_neg (by rw [hf]; exact hsf.symm),
        State.reg_setReg_other _ _ _ _ (by rw [hf]; exact hfx), State.reg_setReg_same _ _ _ hf]
    unfold State.fld wfld
    rw [hreg, BitVec.toNat_ofNat]
    omega
  · rw [show t = u.setFlag (Reg.maStatus die ep) j true from rfl, State.setFlag, State.reg_putFld, if_neg (by rw [hx]; exact hsx.symm),
      State.reg_setReg_same _ _ _ hx]
  · refine (State.flag_setFlag_beside u _ _ _ _ hs hi hij).trans ?_
    unfold State.flag
    rw [State.reg_setReg_other _ _ _ _ (by rw [hs]; exact hsx), State.reg_setReg_other _ _ _ _ (by rw [hs]; exact hsf)]

/-! ### The weights of a partition's columns (R126) -/

theorem inCols_cellKey {die ep lo hi d e r c h : Nat} (hep : ep < 6) (he : e < 6) (hr : r < 256) (hc : c < 256) (hh : h < 2) :
    inCols die ep lo hi (cellKey d e r c h) = true ↔ d = die ∧ e = ep ∧ lo ≤ c ∧ c < hi := by
  have hcol : cellKey d e r c h / 2 % 256 = c := by unfold cellKey; omega
  have hkey := cellKey_mem die ep d e r c h hep he hr hc hh
  unfold inCols
  rw [hcol, decide_eq_true_eq, ← and_assoc, hkey, and_assoc]

/-- The registers of a partition's columns read +0 once they are cleared, and every other as before. -/
theorem lookup_clearCols (m : List (Nat × Word)) {die ep lo hi d e r c h : Nat} (hep : ep < 6) (he : e < 6) (hr : r < 256)
    (hc : c < 256) (hh : h < 2) :
    lookup word0 (m.filter (fun p => !inCols die ep lo hi p.1)) (cellKey d e r c h) =
      if d = die ∧ e = ep ∧ lo ≤ c ∧ c < hi then 0 else lookup word0 m (cellKey d e r c h) := by
  have hin := inCols_cellKey (die := die) (lo := lo) (hi := hi) (d := d) hep he hr hc hh
  split
  · next hcleared =>
      refine lookup_eq_default _ _ _ fun p hp hkey => ?_
      have hout := (List.mem_filter.1 hp).2
      rw [hkey, hin.2 hcleared] at hout
      cases hout
  · next hkept => exact lookup_filter _ m _ (fun k => !inCols die ep lo hi k) (by simpa using mt hin.1 hkept)

/-! ### Lines of D already written (R126) -/

/-- A line of this module is rewritten marked poisoned. -/
theorem poisonLine_here {s : State} {die fid l : Nat} (h : 64 * l / 2 ^ 48 = s.moduleId) :
    s.poisonLine die fid l = (s.invalidate (l % 2 ^ 42)).markPoison (l % 2 ^ 42) := by
  have hline : 64 * l % 2 ^ 48 / 64 = l % 2 ^ 42 := by omega
  unfold State.poisonLine
  simp only [h, if_true, hline]

/-- The lines of this module that a descriptor wrote are marked; no byte changes, and no other line's mark. -/
theorem poisonLines_spec (die fid : Nat) (lines : List Nat) (s : State) (h : ∀ l ∈ lines, 64 * l / 2 ^ 48 = s.moduleId) :
    let t := lines.foldl (fun s l => s.poisonLine die fid l) s
    OnlyMemory s t ∧ (∀ x, t.byte x = s.byte x) ∧
      ∀ l, t.linePoisoned l = true ↔ s.linePoisoned l = true ∨ ∃ x ∈ lines, l = x % 2 ^ 42 := by
  induction lines generalizing s with
  | nil => exact ⟨.refl s, fun _ => rfl, fun l => by simp⟩
  | cons x lines ih =>
    let u := (s.invalidate (x % 2 ^ 42)).markPoison (x % 2 ^ 42)
    have hu : s.poisonLine die fid x = u := poisonLine_here (h x (by simp))
    have honly : OnlyMemory s u := (OnlyMemory.invalidate s _).trans (.markPoison _ _)
    have hmark : ∀ l, u.linePoisoned l = true ↔ l = x % 2 ^ 42 ∨ s.linePoisoned l = true := fun l => by
      rw [State.linePoisoned_markPoison, State.linePoisoned_invalidate]
      generalize x % 2 ^ 42 = k
      by_cases hl : l = k <;> simp [hl]
    obtain ⟨honly', hbyte, hpoison⟩ := ih u fun l hl => (h l (by simp [hl])).trans (congrArg (·.moduleId) honly).symm
    rw [List.foldl_cons, hu]
    refine ⟨honly.trans honly', fun a => (hbyte a).trans (State.byte_invalidate s _ a), fun l => ?_⟩
    rw [hpoison, hmark]
    simp only [List.mem_cons, exists_eq_or_imp]
    tauto

/-! ### The fault step of a partition -/

/-- What a partition clears and poisons before it reports its fault. -/
def Machine.State.partitionSpoils (s : State) (f : Flight) (lines : List Nat) : State :=
  let die := hDie f.target
  let ep := hSlot f.target
  let part := matPart f.desc
  let w := s.partWidth die ep
  let s := (s.clearCols die ep (part * w) (part * w + w)).setFlag (Reg.maStatus die ep) (8 + part) false
  if matKeeps f.desc then (s.poisonKept f).vePoisonBit die ep else lines.dedup.foldl (fun s l => s.poisonLine die f.fid l) s

/-- What a partition reports of its fault as its descriptor ends. -/
def Machine.State.partitionReports (s : State) (f : Flight) (status : BitVec 8) : State :=
  ((s.maFaultSet (hDie f.target) (hSlot f.target) (matPart f.desc) status.toNat f.index).setFlight { f with phase := .done }).maBusy f

theorem partitionFault_eq (s : State) (f : Flight) (status : BitVec 8) (lines : List Nat) :
    s.partitionFault f status lines = (s.partitionSpoils f lines).partitionReports f status := rfl

theorem onlyEngine_partitionReports (s : State) (f : Flight) (status : BitVec 8) :
    OnlyEngine (s.setFlight { f with phase := .done }) (s.partitionReports f status) := rfl

/-- A partition that wrote no line of D touches its engine pair alone. -/
theorem onlyEngine_partitionSpoils_nil (s : State) (f : Flight) : OnlyEngine s (s.partitionSpoils f []) := by
  unfold State.partitionSpoils
  extract_lets die ep part w t
  have ht : OnlyEngine s t := rfl
  have hkept : OnlyEngine t (t.poisonKept f) := .foldl (fun s i => .tbMark s _ _ _ _ _ _) _ _
  exact .ite (ht.trans (hkept.trans (.vePoisonBit _ _ _))) ht

theorem partitionReports_reads (s : State) {f : Flight} (status : BitVec 8) (he : hSlot f.target < 6) :
    let die := hDie f.target
    let ep := hSlot f.target
    let j := matPart f.desc
    let t := s.partitionReports f status
    t.flag (Reg.maStatus die ep) (8 + j) = s.flag (Reg.maStatus die ep) (8 + j) ∧ t.flag (Reg.maStatus die ep) j = true ∧
      t.fld (Reg.maFault die ep j) 7 0 = status.toNat ∧ t.reg (Reg.maFaultIx die ep j) = f.index := by
  intro die ep j t
  have hj : j < 4 := matPart_lt f.desc
  have hs : regAlias (Reg.maStatus die ep) = Reg.maStatus die ep := regAlias_maStatus he
  have hsf : Reg.maStatus die ep ≠ Reg.maFault die ep j := by unfold Reg.maStatus Reg.maFault; omega
  have hsx : Reg.maStatus die ep ≠ Reg.maFaultIx die ep j := by unfold Reg.maStatus Reg.maFaultIx; omega
  obtain ⟨hflag, hstatus, hindex, hother⟩ := maFaultSet_reads s (die := die) f.index he hj status.isLt
  let u := (s.maFaultSet die ep j status.toNat f.index).setFlight { f with phase := .done }
  have ht : t = u.setFlag (Reg.maStatus die ep) (4 + j) (u.partHolds die ep j) := rfl
  refine ⟨?_, ?_, ?_, ?_⟩
  · rw [ht, State.flag_setFlag_beside _ _ _ _ _ hs (by omega) (by omega)]
    exact hother _ (by omega) (by omega)
  · rw [ht, State.flag_setFlag_beside _ _ _ _ _ hs (by omega) (by omega)]
    exact hflag
  · rw [ht, State.setFlag, State.fld_putFld_other _ _ _ _ _ _ _ _ (by rw [regAlias_maFault he hj]; exact hsf.symm)]
    exact hstatus
  · rw [ht, State.setFlag, State.reg_putFld, if_neg (by rw [regAlias_maFaultIx he hj]; exact hsx.symm)]
    exact hindex

/-- PARTITION_FAULT of a descriptor that met a fault is its partition's fault step. -/
theorem exec_partitionFault {s : State} {f : Flight} {st : BitVec 8} {detail : Word} {lines : List Nat}
    (hf : s.flight f.fid = some f) (hph : f.phase = .faulted st detail lines) (hg : hGang f.target = false)
    (hc : matClass (dClass f.desc) = true) : exec (.partitionFault f.fid) s = .next (s.partitionFault f st lines) := by
  refine congrArg Host.Outcome.next ?_
  simp only [hf, hc, hg, hph, State.partitionActs, Bool.not_false, Bool.and_self, if_true]

/-- A matrix descriptor that stopped at a fault, and has written what it has written here (R126). -/
theorem partitionFault_ends {s : State} {f : Flight} {st : BitVec 8} {lines : List Nat} (hf : s.flight f.fid = some f)
    (hk : matKeeps f.desc = false) (hlines : ∀ l ∈ lines, 64 * l / 2 ^ 48 = s.moduleId) (he : hSlot f.target < 6) :
    let die := hDie f.target
    let ep := hSlot f.target
    let j := matPart f.desc
    let w := s.partWidth die ep
    let t := s.partitionFault f st lines
    t.flight f.fid = some { f with phase := .done } ∧ (∀ i, i ≠ f.fid → t.flight i = s.flight i) ∧ BytesBut 0 0 s t ∧
      t.flag (Reg.maStatus die ep) (8 + j) = false ∧ t.flag (Reg.maStatus die ep) j = true ∧
      t.fld (Reg.maFault die ep j) 7 0 = st.toNat ∧ t.reg (Reg.maFaultIx die ep j) = f.index ∧
      (∀ d e r c h, e < 6 → r < 256 → c < 256 → h < 2 →
        let cleared := d = die ∧ e = ep ∧ j * w ≤ c ∧ c < j * w + w
        lookup word0 t.wAct (cellKey d e r c h) = (if cleared then 0 else lookup word0 s.wAct (cellKey d e r c h)) ∧
        lookup word0 t.wShd (cellKey d e r c h) = (if cleared then 0 else lookup word0 s.wShd (cellKey d e r c h))) ∧
      ∀ l, t.linePoisoned l = true ↔ s.linePoisoned l = true ∨ ∃ x ∈ lines, l = x % 2 ^ 42 := by
  intro die ep j w t
  have hj : j < 4 := matPart_lt f.desc
  let v := (s.clearCols die ep (j * w) (j * w + w)).setFlag (Reg.maStatus die ep) (8 + j) false
  let u := lines.dedup.foldl (fun s l => s.poisonLine die f.fid l) v
  obtain ⟨honly, hbyte, hpoison⟩ := poisonLines_spec die f.fid lines.dedup v fun l hl => hlines l (List.mem_dedup.1 hl)
  have ht : t = u.partitionReports f st := by
    rw [show t = (s.partitionSpoils f lines).partitionReports f st from rfl, State.partitionSpoils]
    simp only [hk, Bool.false_eq_true, if_false]
    rfl
  obtain ⟨hdrain, hflag, hstatus, hindex⟩ := partitionReports_reads u st he
  have hend : OnlyEngine (u.setFlight { f with phase := .done }) t := ht ▸ onlyEngine_partitionReports u f st
  have hfl : ∀ i, u.flight i = s.flight i := fun i => by
    unfold State.flight
    rw [honly.flights]
    rfl
  have hw : t.wAct = v.wAct ∧ t.wShd = v.wShd := by
    rw [ht]
    exact ⟨congrArg (·.wAct) honly, congrArg (·.wShd) honly⟩
  rw [← ht] at hdrain hflag hstatus hindex
  refine ⟨?_, fun i hi => ?_, fun a _ => ?_, ?_, hflag, hstatus, hindex, fun d e r c h he' hr hc hh => ?_, fun l => ?_⟩
  · exact (hend.flight _).trans (State.flight_setFlight_same (f := { f with phase := .done }) ((hfl _).trans hf))
  · exact (hend.flight _).trans ((State.flight_setFlight_other (f := { f with phase := .done }) hi).trans (hfl i))
  · exact (State.byte_congr (s := u) hend.mem (congrArg (·.copies) hend.host) a).trans (hbyte a)
  · rw [hdrain]
    unfold State.flag
    rw [honly.reg]
    exact State.flag_setFlag_same _ _ _ _ (regAlias_maStatus he) (by omega)
  · rw [hw.1, hw.2]
    exact ⟨lookup_clearCols s.wAct he he' hr hc hh, lookup_clearCols s.wShd he he' hr hc hh⟩
  · rw [State.linePoisoned_congr hend.poison]
    refine (hpoison l).trans ?_
    simp only [List.mem_dedup]
    rfl

/-! ### The fault step of a vector engine and of a mover (R165, R249) -/

/-- A unit's fault register holds the ring and the status. -/
theorem ringStatus_reads {ring status : Nat} (hr : ring < 4096) (hst : status < 256) :
    wfld (ringStatus ring status) 19 8 = ring ∧ wfld (ringStatus ring status) 7 0 = status := by
  unfold ringStatus wfld
  rw [BitVec.toNat_ofNat, Nat.mod_eq_of_lt hr, Nat.mod_eq_of_lt hst]
  omega

section
variable {s : State} {f : Flight} {st : BitVec 8} {detail : Word} {lines : List Nat} (hf : s.flight f.fid = some f)
  (hph : f.phase = .faulted st detail lines) (hst : 0x10 ≤ f.res.status.toNat) (habort : f.res.status ≠ 0x50) (hr : f.ring < 4096)
include hst habort

theorem recordsFault_of_status : recordsFault f.res.status.toNat = true := by
  have hne : f.res.status.toNat ≠ 0x50 := fun h => habort (BitVec.eq_of_toNat_eq h)
  simp [recordsFault, isFault, stStepAborted, hst, hne]

include hf hph hr

theorem answers_veAccessFault (hc : matClass (dClass f.desc) = false) (hd : hDie f.target < 40) (he : hSlot f.target < 6) :
    let die := hDie f.target
    Answers (.veAccessFault f.fid) s (fun t =>
      t.flight f.fid = some { f with phase := .done } ∧ (∀ i, i ≠ f.fid → t.flight i = s.flight i) ∧ t.mem = s.mem ∧
      t.flag (Reg.veStatus die (hSlot f.target)) 0 = true ∧ t.fld (Reg.veFault die (hSlot f.target)) 19 8 = f.ring ∧
      t.fld (Reg.veFault die (hSlot f.target)) 7 0 = f.res.status.toNat ∧
      t.reg (Reg.veFaultIx die (hSlot f.target)) = f.index) := by
  intro die
  let ep := hSlot f.target
  let g : Flight := { f with phase := .done }
  let u := (s.setFlight g).veBusy die ep
  have hs : regAlias (Reg.veStatus die ep) = Reg.veStatus die ep := regAlias_veStatus he
  have hfa : regAlias (Reg.veFault die ep) = Reg.veFault die ep := regAlias_veFault he
  have hx : regAlias (Reg.veFaultIx die ep) = Reg.veFaultIx die ep := regAlias_veFaultIx he
  have hsf : Reg.veStatus die ep ≠ Reg.veFault die ep := by unfold Reg.veStatus Reg.veFault; omega
  have hsx : Reg.veStatus die ep ≠ Reg.veFaultIx die ep := by unfold Reg.veStatus Reg.veFaultIx; omega
  have hfx : Reg.veFault die ep ≠ Reg.veFaultIx die ep := by unfold Reg.veFault Reg.veFaultIx; omega
  have hdone : (s.setFlight g).flight f.fid = some g := State.flight_setFlight_same (f := g) hf
  have hunit : unitAt (hDie f.target) (hSlot f.target) = some .enginePair := by simp [unitAt, isCd, hd, he]
  have hgdone : g.isDone = true := rfl
  have hrec : recordsFault g.res.status.toNat = true := recordsFault_of_status hst habort
  have hreg : (u.veFaultSet die ep f f.res.status.toNat).reg (Reg.veFault die ep) = ringStatus f.ring f.res.status.toNat := by
    rw [State.veFaultSet, State.reg_setReg_other _ _ _ _ (by rw [hfa]; exact hfx), State.reg_setReg_same _ _ _ hfa]
  obtain ⟨hring, hstatus⟩ := ringStatus_reads hr f.res.status.isLt
  refine ⟨u.veFaultSet die ep f f.res.status.toNat, congrArg Host.Outcome.next ?_, hdone,
    fun i hi => State.flight_setFlight_other (f := g) hi, rfl, ?_, (congrArg (wfld · 19 8) hreg).trans hring,
    (congrArg (wfld · 7 0) hreg).trans hstatus, State.reg_setReg_same _ _ _ hx⟩
  · simp only [hf, hph, hunit, hc, and_self, if_true, State.vecEnd]
    rw [show ({ f with phase := Phase.done } : Flight) = g from rfl, hdone]
    simp only [hgdone, hrec, if_true]
    rfl
  · unfold State.flag
    rw [State.veFaultSet, State.reg_setReg_other _ _ _ _ (by rw [hs]; exact hsx),
      State.reg_setReg_other _ _ _ _ (by rw [hs]; exact hsf)]
    exact State.flag_setFlag_same u _ _ _ hs (by omega)

theorem answers_moverFault (hc : moverClass (dClass f.desc) = true) :
    let die := hDie f.target
    Answers (.moverFault f.fid) s (fun t =>
      t.flight f.fid = some { f with phase := .done } ∧ (∀ i, i ≠ f.fid → t.flight i = s.flight i) ∧ t.mem = s.mem ∧
      t.fld (Reg.mvFault die f.mover.toNat) 19 8 = f.ring ∧ t.fld (Reg.mvFault die f.mover.toNat) 7 0 = f.res.status.toNat ∧
      t.reg (Reg.mvFaultIx die f.mover.toNat) = f.index) := by
  intro die
  let n := f.mover.toNat
  let g : Flight := { f with phase := .done }
  let u := s.setFlight g
  have hn : n < 4 := f.mover.isLt
  have hfa : regAlias (Reg.mvFault die n) = Reg.mvFault die n := regAlias_mvFault hn
  have hfx : Reg.mvFault die n ≠ Reg.mvFaultIx die n := by unfold Reg.mvFault Reg.mvFaultIx; omega
  have hdone : u.flight f.fid = some g := State.flight_setFlight_same (f := g) hf
  have hrec : recordsFault g.res.status.toNat = true := recordsFault_of_status hst habort
  have hreg : (u.mvFaultSet die n f f.res.status.toNat).reg (Reg.mvFault die n) = ringStatus f.ring f.res.status.toNat := by
    rw [State.mvFaultSet, State.reg_setReg_other _ _ _ _ (by rw [hfa]; exact hfx), State.reg_setReg_same _ _ _ hfa]
  obtain ⟨hring, hstatus⟩ := ringStatus_reads hr f.res.status.isLt
  refine ⟨u.mvFaultSet die n f f.res.status.toNat, congrArg Host.Outcome.next ?_, hdone,
    fun i hi => State.flight_setFlight_other (f := g) hi, rfl, (congrArg (wfld · 19 8) hreg).trans hring,
    (congrArg (wfld · 7 0) hreg).trans hstatus, State.reg_setReg_same _ _ _ (regAlias_mvFaultIx hn)⟩
  simp only [hf, hph, hc, if_true, State.movEnd]
  rw [show State.flight _ f.fid = _ from hdone]
  exact if_pos ⟨rfl, hrec⟩

end

end Sys2Proof
end

section
/-! SUPPORT. O23: a parity error of the weight registers, which the descriptor meets at its first beat (R126, R53). -/

namespace Sys2Proof

open Machine

/-- A descriptor that its unit stopped at a fault, with the result of its run. -/
def stoppedFlight (f : Flight) (res : Result) (lines : List Nat) : Flight :=
  { f with phase := .faulted res.status res.detail lines, res := res }

section
variable {s : State} {f : Flight} {x : Run × Nat}

/-- The result at a parity error: POISON, with the sequence number of the entry that the fault log gets (R53). -/
theorem MetParity.result (h : MetParity s f x.1) :
    (x.1.result x.2).status = 0x20 ∧ (x.1.result x.2).detail = s.nextSeq (hDie f.target) := by
  obtain ⟨u, hu, hx⟩ := h
  have hcode : x.1.code = stPoison := congrArg (·.code) hx
  have hdetail : x.1.detail = u.nextSeq (hDie f.target) := congrArg (·.detail) hx
  have hseq : u.nextSeq (hDie f.target) = s.nextSeq (hDie f.target) := by
    unfold State.nextSeq
    rw [hu.flog]
  refine ⟨?_, hdetail.trans hseq⟩
  simp only [Run.result, hcode, okStatus]
  rfl

/-- A parity error leaves an entry of the fault log and the descriptor stopped; it wrote no line. -/
theorem MetParity.ends (h : MetParity s f x.1) : ∃ v,
    OnlyEngine (s.log (hDie f.target) .weightParity (hSlot f.target) 0 (.desc f.fid)) v ∧
    Run.ends x s f true = v.setFlight (stoppedFlight f (x.1.result x.2) []) := by
  obtain ⟨u, hu, hx⟩ := h
  have hstate : x.1.s = u.log (hDie f.target) .weightParity (hSlot f.target) 0 (.desc f.fid) := congrArg (·.s) hx
  have hstop : x.1.stop = true := congrArg (·.stop) hx
  have hfar : x.1.far = [] := congrArg (·.far) hx
  have hext : x.1.ext = [] := congrArg (·.ext) hx
  have hsends : x.1.sends = [] := congrArg (·.sends) hx
  have hguards : x.1.guards = [] := congrArg (·.guards) hx
  have hlines : x.1.lines = [] := congrArg (·.lines) hx
  let w := (x.1.s.unwaitDesc f.fid).dropLines f.fid
  refine ⟨{ w with fab := { w.fab with guards := w.fab.guards ++ [] }, flights := s.flights }, ?_, ?_⟩
  · have hlog := hu.log (hDie f.target) .weightParity (hSlot f.target) 0 (.desc f.fid)
    have hw : OnlyEngine x.1.s { w with fab := { w.fab with guards := w.fab.guards ++ [] }, flights := x.1.s.flights } := rfl
    have hfl : s.flights = x.1.s.flights := by
      rw [hstate]
      exact hlog.flights.symm
    rw [hfl]
    rw [← hstate] at hlog
    exact hlog.trans hw
  · unfold Run.ends Run.finish
    simp only [hfar, hext, hstop, hsends, hguards, hlines, ne_eq, not_true_eq_false, or_self, if_false, Bool.and_self,
      List.isEmpty_nil, if_true]
    rfl

end

/-- PARTITION_FAULT of a descriptor that executes, and would be served but for a parity error at its first beat. -/
theorem answers_parityFault {s : State} {f : Flight} (hs : Started (dClass f.desc) f s) (hc : matClass (dClass f.desc) = true)
    (he : hSlot f.target < 6) (hserved : Served (s.arrayRun f none)) (hstop : (s.arrayRun f (some 1)).1.stop = true) :
    let die := hDie f.target
    let ep := hSlot f.target
    let j := matPart f.desc
    Answers (.partitionFault f.fid) s (fun t =>
      (∃ r : Result, t.flight f.fid = some { f with phase := .done, res := r } ∧ r.status = 0x20 ∧ r.detail = s.nextSeq die) ∧
      (∀ i, i ≠ f.fid → t.flight i = s.flight i) ∧ BytesBut 0 0 s t ∧ t.poison = s.poison ∧
      t.flag (Reg.maStatus die ep) j = true ∧ t.fld (Reg.maFault die ep j) 7 0 = 0x20 ∧
      t.reg (Reg.maFaultIx die ep j) = f.index ∧
      t.flog = s.flog ++ [logEntry die .weightParity ep 0 (.desc f.fid)]) := by
  intro die ep j
  obtain ⟨hf, hph, hg, -, hheld⟩ := hs
  let x := s.arrayRun f (some 1)
  have hmet : MetParity s f x.1 := metParity_arrayRun hserved hstop
  obtain ⟨hstatus, hdetail⟩ := hmet.result (x := x)
  obtain ⟨v, hv, hends⟩ := hmet.ends (x := x)
  let g := stoppedFlight f (x.1.result x.2) []
  let d : Flight := { g with phase := .done }
  have hvf : v.flight f.fid = some f := (hv.flight _).trans hf
  let e := (((v.setFlight g).vePoisonBit die ep).passesEnd f).setFlag (Reg.maStatus die ep) (8 + j) true
  have hve : OnlyEngine (v.setFlight g) e := rfl
  have hvg : (v.setFlight g).flight f.fid = some g := State.flight_setFlight_same (f := g) hvf
  have heg : e.flight f.fid = some g := (hve.flight _).trans hvg
  let t := e.partitionFault g (x.1.result x.2).status []
  have hacts : s.parityFault f 1 = t := by
    have hend : (v.setFlight g).matEnd f = e := by
      unfold State.matEnd
      rw [hvg]
      rfl
    rw [parityFault_eq, if_pos hstop, hends, hend]
    unfold State.partitionActs
    rw [heg]
    rfl
  have ht : OnlyEngine ((v.setFlight g).setFlight d) t :=
    ((hve.trans (onlyEngine_partitionSpoils_nil e g)).setFlight d).trans (onlyEngine_partitionReports _ g _)
  obtain ⟨-, hflag, hst, hix⟩ := partitionReports_reads (e.partitionSpoils g []) (f := g) (x.1.result x.2).status he
  refine ⟨t, congrArg Host.Outcome.next ?_, ⟨x.1.result x.2, ?_, hstatus, hdetail⟩, fun i hi => ?_, fun a _ => ?_, ?_, hflag,
    ?_, hix, ?_⟩
  · simp only [hf, hc, hg, hph, hheld, Bool.not_false, Bool.and_self, if_true, Bool.false_eq_true, if_false]
    exact hacts
  · exact (ht.flight _).trans (State.flight_setFlight_same (f := d) hvg)
  · exact (ht.flight _).trans ((State.flight_setFlight_other (f := d) hi).trans
      ((State.flight_setFlight_other (f := g) hi).trans (hv.flight i)))
  · exact State.byte_congr (ht.mem.trans hv.mem) (congrArg (·.copies) (ht.host.trans hv.host)) a
  · exact ht.poison.trans hv.poison
  · exact hst.trans (by rw [hstatus]; rfl)
  · exact ht.flog.trans hv.flog

/-- Settles O23: a partition by what it clears, poisons and reports, its descriptor having met a fault or a parity error; a vector
engine and a mover by their fault registers. -/
theorem unitFaultsEnd : Obligations.UnitFaultsEnd := by
  refine ⟨fun s f st detail lines hf hph hg hc hk hlines _ he => ?_, ?_, fun s f st detail lines hf hph hst habort hr => ?_⟩
  · exact ⟨_, exec_partitionFault hf hph hg hc, partitionFault_ends hf hk hlines he⟩
  · intro s f hs hc _ he run hserved _ hstop
    exact answers_parityFault hs hc he hserved hstop
  · exact ⟨fun hc hd he => answers_veAccessFault hf hph hst habort hr hc hd he,
      fun hc _ => answers_moverFault hf hph hst habort hr hc⟩

end Sys2Proof
end
